-- ==== Sys2Proof/Word.lean ====
section
/-!
DEFINITION. The word types of the PY-7440 model: bytes, 32-bit register words (00_scope: "All registers are
32 bits wide and little-endian") and the device tick. A tick is 1/256 ns, the full device resolution of R7.
-/

namespace Sys2Proof

/-- One byte of device memory. -/
abbrev Byte := BitVec 8

/-- One register word (R551: registers are reached as aligned 32-bit words). -/
abbrev Word := BitVec 32

/-- A stamp at full device resolution: ticks of 1/256 ns since power-up (R7). -/
abbrev Tick := Nat

/-- Ticks in one nanosecond (R7: 1 ns plus an 8-bit fraction). -/
abbrev tickNs : Nat := 256

/-- Ticks in one microsecond. -/
abbrev tickUs : Nat := 256000

/-- Ticks in one millisecond. -/
abbrev tickMs : Nat := 256000000

/-- Ticks in one second. -/
abbrev tickS : Nat := 256000000000

end Sys2Proof
end

