-- ==== Sys2Proof/Syntax.lean ====
section
/-!
DEFINITION. The commands of the device: one constructor per row of the table of operations and events. The first operand `t`
of every command is its stamp in ticks of 1/256 ns since power-up (log entry 2); the operands after it are what the command
carries from outside: values written, bytes received, and results that the spec leaves to the security module, to the analogue
parts or to the memory.
-/

namespace Sys2Proof

/-- The commands (R-numbers name the rule of the row). -/
inductive Instr where
  /-- REGISTER_WRITE (R10): `off` BAR0 offset; `v` the word written. -/
  | registerWrite (t off v : Nat)
  /-- STAGED_FIELD_WRITE (R70): `off` BAR0 offset; `v` the word written. -/
  | stagedFieldWrite (t off v : Nat)
  /-- REGISTER_LOW_WORD_WRITE (R12): `off` offset of the low word; `v` the word written. -/
  | registerLowWordWrite (t off v : Nat)
  /-- REGISTER_HIGH_WORD_WRITE (R12): `off` offset of the high word; `v` the word written. -/
  | registerHighWordWrite (t off v : Nat)
  /-- REGISTER_LOW_WORD_READ (R12): `off` offset of the low word. -/
  | registerLowWordRead (t off : Nat)
  /-- READ_CLEAR (R10): `off` BAR0 offset. -/
  | readClear (t off : Nat)
  /-- UNMAPPED_ACCESS (R551): `off` BAR0 offset; `write` a write; `v` the word written. -/
  | unmappedAccess (t off : Nat) (write : Bool) (v : Nat)
  /-- NARROW_ACCESS (R551): `bar4` BAR4, not BAR0; `write` a write; `off` offset; `n` bytes. -/
  | narrowAccess (t : Nat) (bar4 write : Bool) (off n : Nat)
  /-- TILTH_PLACE_ENTRY (R18): `k` queue; `data` the entry. -/
  | tilthPlaceEntry (t k : Nat) (data : List Nat)
  /-- TILTH_GRANT (R19): `u` consumer unit; `p` consumer port. -/
  | tilthGrant (t u p : Nat)
  /-- EPOCH_MARKER_CONSUMED (R22): `u` unit number. -/
  | epochMarkerConsumed (t u : Nat)
  /-- UNIT_WRITES_SETTLED (R94): `u` unit number. -/
  | unitWritesSettled (t u : Nat)
  /-- DIE_EDGE_FIFO_FAULT (R23): `u` unit number; `inst` instance. -/
  | dieEdgeFifoFault (t u inst : Nat)
  /-- PACE_WINDOW_END (R25): `counts` handshakes by unit number. -/
  | paceWindowEnd (t : Nat) (counts : List (Nat × Nat))
  /-- SHOASH_LOAD (R51). -/
  | shoashLoad (t : Nat)
  /-- IMAGE_COPY_COMPLETE (R51). -/
  | imageCopyComplete (t : Nat)
  /-- IMAGE_SIGNATURE_RESULT (R52): `ok` the result is good. -/
  | imageSignatureResult (t : Nat) (ok : Bool)
  /-- IMAGE_DECRYPT_RESULT (R52): `ok` the result is good; `plain` the plaintext. -/
  | imageDecryptResult (t : Nat) (ok : Bool) (plain : List Nat)
  /-- SWITCH_COMPLETE (R54). -/
  | switchComplete (t : Nat)
  /-- OVERLAY_COPY_START (R57): `sigOk` the signature verifies; `tagOk` the tag verifies; `plain` the plaintext. -/
  | overlayCopyStart (t : Nat) (sigOk tagOk : Bool) (plain : List Nat)
  /-- COMMIT (R70). -/
  | commit (t : Nat)
  /-- COMMIT_CHECKS_COMPLETE (R72). -/
  | commitChecksComplete (t : Nat)
  /-- BRD_LAYER_CHECK (R252). -/
  | brdLayerCheck (t : Nat)
  /-- LATCH_INSTANT (R77). -/
  | latchInstant (t : Nat)
  /-- EPOCH_PUBLISH (R82). -/
  | epochPublish (t : Nat)
  /-- SNAPSHOT_FREEZE (R83): `on` the value written to FREEZE. -/
  | snapshotFreeze (t : Nat) (on : Bool)
  /-- FREEZE_EXPIRY (R83). -/
  | freezeExpiry (t : Nat)
  /-- EPOCH_RETIRE (R84). -/
  | epochRetire (t : Nat)
  /-- DISCARD (R103). -/
  | discard (t : Nat)
  /-- KILN_ADMISSION (R136). -/
  | kilnAdmission (t : Nat)
  /-- STRATUM_DECODED (R131): `e` Kiln engine; `intime` a substitute stratum that is in time (R264). -/
  | stratumDecoded (t e : Nat) (intime : Bool)
  /-- KILN_BAND_COMPLETE (R137). -/
  | kilnBandComplete (t : Nat)
  /-- LOAM_ENCODE (R139): `w` ring. -/
  | loamEncode (t w : Nat)
  /-- LOAM_DECODE (R139): `w` ring. -/
  | loamDecode (t w : Nat)
  /-- KSS_DECODE (R140): `w` ring. -/
  | kssDecode (t w : Nat)
  /-- LOAM_UNIT_ENCODED (R143): `e` Kiln engine. -/
  | loamUnitEncoded (t e : Nat)
  /-- LOAM_UNIT_DECODED (R145): `e` Kiln engine. -/
  | loamUnitDecoded (t e : Nat)
  /-- HOST_JOB_END (R148): `e` Kiln engine. -/
  | hostJobEnd (t e : Nat)
  /-- CHAIN_HEAD_WRITE (R147): `n` chain ring; `v` HEAD. -/
  | chainHeadWrite (t n v : Nat)
  /-- CHAIN_WAIT_EXPIRY (R147): `e` Kiln engine. -/
  | chainWaitExpiry (t e : Nat)
  /-- BANK_RELEASE (R161). -/
  | bankRelease (t : Nat)
  /-- CARRY_COPY_COMPLETE (R163). -/
  | carryCopyComplete (t : Nat)
  /-- FLAT_FETCH_COMPLETE (R170). -/
  | flatFetchComplete (t : Nat)
  /-- RRG_SET_LOAD (R189). -/
  | rrgSetLoad (t : Nat)
  /-- RRG_SET_CHECKED (R189): `sigOk` the signature verifies; `tagOk` the tag verifies; `plain` the plaintext. -/
  | rrgSetChecked (t : Nat) (sigOk tagOk : Bool) (plain : List Nat)
  /-- ZONE_TEMP_REPORT (R191): `n` zone; `temp` signed 8.8 °C as 16 bits. -/
  | zoneTempReport (t n temp : Nat)
  /-- ZONE_RUN (R208): `n` zone. -/
  | zoneRun (t n : Nat)
  /-- ZONE_TEMP_TIMEOUT (R192): `n` zone. -/
  | zoneTempTimeout (t n : Nat)
  /-- ZONE_RUN_START (R194). -/
  | zoneRunStart (t : Nat)
  /-- ZONE_RUN_COMPLETE (R198). -/
  | zoneRunComplete (t : Nat)
  /-- REGISTRY_STREAM_BAND (R26). -/
  | registryStreamBand (t : Nat)
  /-- LANE_LOCK (R206): `n` lane. -/
  | laneLock (t n : Nat)
  /-- LANE_LOCK_LOST (R206): `n` lane. -/
  | laneLockLost (t n : Nat)
  /-- LANE_ITERATION_END (R201): `n` lane; `counts` the counts A and B of each parameter; `h` horizontal eye opening; `hh` vertical
  eye opening. -/
  | laneIterationEnd (t n : Nat) (counts : List (Nat × Nat)) (h hh : Nat)
  /-- LANE_PERIOD_EXPIRY (R205): `n` lane. -/
  | lanePeriodExpiry (t n : Nat)
  /-- LANE_FOM_TRIGGER (R205): `n` lane. -/
  | laneFomTrigger (t n : Nat)
  /-- LANE_RUN (R208): `n` lane. -/
  | laneRun (t n : Nat)
  /-- ROK_BAND_START (R232). -/
  | rokBandStart (t : Nat)
  /-- HELD_BAND_SKIP (R161). -/
  | heldBandSkip (t : Nat)
  /-- ROK_SQUARE_COMPLETE (R215): `n` file; `corr` Furrow words corrected; `bad` rows and columns of uncorrectable Furrow words;
  `luts` panel LUT nodes with a parity error, and whether the shadow copy is good. -/
  | rokSquareComplete (t n corr : Nat) (bad : List (Nat × Nat)) (luts : List (Nat × Nat × Bool))
  /-- ROK_BAND_COMPLETE (R230). -/
  | rokBandComplete (t : Nat)
  /-- ROK_BAND_ABANDON (R236). -/
  | rokBandAbandon (t : Nat)
  /-- FILE_PARITY_FAULT (R239): `n` file. -/
  | fileParityFault (t n : Nat)
  /-- BRD_LIST_BAND (R267). -/
  | brdListBand (t : Nat)
  /-- REGISTER (R254): `c` context. -/
  | register (t c : Nat)
  /-- ACTIVATE (R254): `c` context. -/
  | activate (t c : Nat)
  /-- DEACTIVATE (R254): `c` context. -/
  | deactivate (t c : Nat)
  /-- UNREGISTER (R254): `c` context. -/
  | unregister (t c : Nat)
  /-- SOURCE_FRAME_ARRIVAL (R261). -/
  | sourceFrameArrival (t : Nat)
  /-- SOURCE_FRAME (R566): `w` ring. -/
  | sourceFrame (t w : Nat)
  /-- SIEVE_FRAME_START (R285): `p` pipe. -/
  | sieveFrameStart (t p : Nat)
  /-- INPUT_READ_COMPLETE (R284): `p` pipe. -/
  | inputReadComplete (t p : Nat)
  /-- SIEVE_FRAME_WRITTEN (R284): `p` pipe. -/
  | sieveFrameWritten (t p : Nat)
  /-- SVE_APPLY (R280): `v` the word written to SVE_APPLY. -/
  | sveApply (t v : Nat)
  /-- TABLE_COPY (R280): `p` pipe. -/
  | tableCopy (t p : Nat)
  /-- TBL_DATA_ACCESS (R291): `write` a write; `v` the word written. -/
  | tblDataAccess (t : Nat) (write : Bool) (v : Nat)
  /-- PIPE_EN_WRITE (R288): `v` the word written to SVE_CTRL. -/
  | pipeEnWrite (t v : Nat)
  /-- PIPE_PARITY_FAULT (R287): `p` pipe. -/
  | pipeParityFault (t p : Nat)
  /-- COPY (R293). -/
  | copy (t : Nat)
  /-- FILL (R293). -/
  | fill (t : Nat)
  /-- BLEND (R293). -/
  | blend (t : Nat)
  /-- REDUCE (R293). -/
  | reduce (t : Nat)
  /-- SCRATCH_COPIED (R302). -/
  | scratchCopied (t : Nat)
  /-- WATERMARK (R298). -/
  | watermark (t : Nat)
  /-- TRW_JOB_DONE (R297). -/
  | trwJobDone (t : Nat)
  /-- FRAME_START (R306). -/
  | frameStart (t : Nat)
  /-- LINE_START (R350): `corr` Furrow words corrected; `bad` rows and groups with an uncorrectable Furrow word. -/
  | lineStart (t corr : Nat) (bad : List (Nat × Nat))
  /-- SYNC_IN_EDGE (R312). -/
  | syncInEdge (t : Nat)
  /-- REFERENCE_LOSS (R314). -/
  | referenceLoss (t : Nat)
  /-- ACQUIRE_TIMEOUT (R319). -/
  | acquireTimeout (t : Nat)
  /-- TE_EDGE (R323). -/
  | teEdge (t : Nat)
  /-- TE_TIMEOUT (R325). -/
  | teTimeout (t : Nat)
  /-- TE_DELAYED_SEND (R324). -/
  | teDelayedSend (t : Nat)
  /-- LINE_MARK (R349). -/
  | lineMark (t : Nat)
  /-- TERMINATION_SENSED (R354): `n` tile group; `mask` lanes sensed. -/
  | terminationSensed (t n mask : Nat)
  /-- DETECT_TIMEOUT (R354): `n` tile group. -/
  | detectTimeout (t n : Nat)
  /-- DETECT_RETRY (R354): `n` tile group. -/
  | detectRetry (t n : Nat)
  /-- BACKCHANNEL_SYMBOL_LOCK (R354): `n` tile group. -/
  | backchannelSymbolLock (t n : Nat)
  /-- PATTERN_TIMEOUT (R354): `n` tile group. -/
  | patternTimeout (t n : Nat)
  /-- LOCK (R359): `n` tile group; `b` the message. -/
  | lock (t n : Nat) (b : List Nat)
  /-- LOCK_TIMEOUT (R354): `n` tile group. -/
  | lockTimeout (t n : Nat)
  /-- CONFIG (R355): `n` tile group. -/
  | config (t n : Nat)
  /-- CAPS (R355): `n` tile group; `b` the message. -/
  | caps (t n : Nat) (b : List Nat)
  /-- EXCHANGE_TIMEOUT (R354): `n` tile group. -/
  | exchangeTimeout (t n : Nat)
  /-- STATUS_MESSAGE (R360): `n` tile group; `b` the message. -/
  | statusMessage (t n : Nat) (b : List Nat)
  /-- RETRAIN (R356): `mask` groups as written to RETRAIN. -/
  | retrain (t mask : Nat)
  /-- BACKCHANNEL_TIMEOUT (R360): `n` tile group. -/
  | backchannelTimeout (t n : Nat)
  /-- DISCHARGE_TIMEOUT (R354): `n` tile group. -/
  | dischargeTimeout (t n : Nat)
  /-- READBACK_PACKET (R361): `g` tile group; `locks` the packet CRC and header can be locked to; `raw` the bytes received,
those of a control block after a first element 0x109. -/
  | readbackPacket (t g : Nat) (locks : Bool) (raw : List Nat)
  /-- DC_SWEEP_COMPLETE (R370). -/
  | dcSweepComplete (t : Nat)
  /-- POWER_OFF (R377). -/
  | powerOff (t : Nat)
  /-- POWER_ON (R377). -/
  | powerOn (t : Nat)
  /-- DISCHARGE_PHASE_TIMEOUT (R377). -/
  | dischargePhaseTimeout (t : Nat)
  /-- DEMURA_LOAD (R379). -/
  | demuraLoad (t : Nat)
  /-- DEMURA_CHECKED (R379): `sigOk` the signature verifies; `tagOk` the tag verifies; `plain` the plaintext. -/
  | demuraChecked (t : Nat) (sigOk tagOk : Bool) (plain : List Nat)
  /-- DEMURA_DECODED (R379). -/
  | demuraDecoded (t : Nat)
  /-- LBL_UPDATE_START (R390). -/
  | lblUpdateStart (t : Nat)
  /-- LBL_PHASE_END (R386). -/
  | lblPhaseEnd (t : Nat)
  /-- LBL_BLINK_CHANGE (R391): `g` blink generator. -/
  | lblBlinkChange (t g : Nat)
  /-- LBL_BLINK_WRITE_START (R391). -/
  | lblBlinkWriteStart (t : Nat)
  /-- LBL_CLEAN_TIMER (R392). -/
  | lblCleanTimer (t : Nat)
  /-- LBL_WAVE_APPLY (R387). -/
  | lblWaveApply (t : Nat)
  /-- LBL_WAVE_INSTALL (R387). -/
  | lblWaveInstall (t : Nat)
  /-- LBL_WAVE_DATA_ACCESS (R395): `write` a write; `v` the word written. -/
  | lblWaveDataAccess (t : Nat) (write : Bool) (v : Nat)
  /-- LBL_ENABLE_WRITE (R393): `en` ENABLE; `hv` HV_EN. -/
  | lblEnableWrite (t : Nat) (en hv : Bool)
  /-- LBL_RECOVER_DONE (R393). -/
  | lblRecoverDone (t : Nat)
  /-- KEEPER_RESET (R393). -/
  | keeperReset (t : Nat)
  /-- MEM_REQUEST_ACCEPT (R408): `port` MEM port; `n` block; `write` a write. -/
  | memRequestAccept (t port n : Nat) (write : Bool)
  /-- MEM_PICK (R410): `c` channel; `busy` banks that are not ready. -/
  | memPick (t c : Nat) (busy : List Nat)
  /-- MEM_READ_RETURN (R405): `id` slot of the request; `err` 0 good, 1 correctable, 2 uncorrectable. -/
  | memReadReturn (t id err : Nat)
  /-- MEM_WRITE_ACK (R409): `id` slot of the request; `off` first byte in the block; `data` the bytes; `bad` the merge read is
  uncorrectable. -/
  | memWriteAck (t id off : Nat) (data : List Nat) (bad : Bool)
  /-- MEM_REFRESH_DUE (R414): `c` channel; `b` rank and bank. -/
  | memRefreshDue (t c b : Nat)
  /-- MR4_POLL (R413): `codes` code of each channel, and whether it is above the operating limit. -/
  | mr4Poll (t : Nat) (codes : List (Nat × Bool))
  /-- OSCILLATOR_POLL (R416): `drift` whether each channel has drifted. -/
  | oscillatorPoll (t : Nat) (drift : List Bool)
  /-- MEM_RETRAIN_START (R416): `c` channel. -/
  | memRetrainStart (t c : Nat)
  /-- MEM_RETRAIN_DONE (R420): `c` channel; `ok` the result is good. -/
  | memRetrainDone (t c : Nat) (ok : Bool)
  /-- CHANNEL_TRAINING_DONE (R415): `c` channel; `ok` the result is good; `step` the step that failed. -/
  | channelTrainingDone (t c : Nat) (ok : Bool) (step : Nat)
  /-- RANK_IDLE_TIMEOUT (R417): `c` channel; `r` rank. -/
  | rankIdleTimeout (t c r : Nat)
  /-- PATROL_SCRUB_READ (R406): `err` 0 good, 1 correctable, 2 uncorrectable. -/
  | patrolScrubRead (t err : Nat)
  /-- ETH_FRAME_RECEIVE (R428): `p` Ethernet port; `ti` stamp of arrival; `raw` the frame with its FCS. -/
  | ethFrameReceive (t p ti : Nat) (raw : List Nat)
  /-- ETH_FRAME_TRANSMIT (R432): `p` Ethernet port. -/
  | ethFrameTransmit (t p : Nat)
  /-- PORT_UP (R427): `p` Ethernet port. -/
  | portUp (t p : Nat)
  /-- PORT_DOWN (R427): `p` Ethernet port. -/
  | portDown (t p : Nat)
  /-- TX_RING_HEAD_WRITE (R436): `v` HEAD. -/
  | txRingHeadWrite (t v : Nat)
  /-- ANNOUNCE (R437): `p` Ethernet port; `ti` stamp of arrival; `raw` the frame with its FCS. -/
  | announce (t p ti : Nat) (raw : List Nat)
  /-- SYNC (R438): `p` Ethernet port; `ti` stamp of arrival; `raw` the frame with its FCS. -/
  | sync (t p ti : Nat) (raw : List Nat)
  /-- FOLLOW_UP (R438): `p` Ethernet port; `ti` stamp of arrival; `raw` the frame with its FCS. -/
  | followUp (t p ti : Nat) (raw : List Nat)
  /-- DELAY_RESP (R438): `p` Ethernet port; `ti` stamp of arrival; `raw` the frame with its FCS. -/
  | delayResp (t p ti : Nat) (raw : List Nat)
  /-- DELAY_REQ_SEND (R437): `v` domain, 0 A, 1 B. -/
  | delayReqSend (t v : Nat)
  /-- ANNOUNCE_TIMEOUT (R439): `v` domain, 0 A, 1 B. -/
  | announceTimeout (t v : Nat)
  /-- SYNC_TIMEOUT (R439): `v` domain, 0 A, 1 B. -/
  | syncTimeout (t v : Nat)
  /-- SERVO_ENABLE_WRITE (R439): `v` domain, 0 A, 1 B; `en` ENABLE. -/
  | servoEnableWrite (t v : Nat) (en : Bool)
  /-- CASTLE (R441): `d` domain, 0 A, 1 B; `force` FORCE. -/
  | castle (t d : Nat) (force : Bool)
  /-- STEP (R441): `d` domain, 0 A, 1 B. -/
  | stepTime (t d : Nat)
  /-- REVERT_TIMER (R441). -/
  | revertTimer (t : Nat)
  /-- TIME_READ (R444). -/
  | timeRead (t : Nat)
  /-- PULSE (R449): `id` trigger ID. -/
  | pulse (t id : Nat)
  /-- PULSE_END (R449): `id` trigger ID. -/
  | pulseEnd (t id : Nat)
  /-- SET_HIGH (R449): `id` trigger ID. -/
  | setHigh (t id : Nat)
  /-- SET_LOW (R449): `id` trigger ID. -/
  | setLow (t id : Nat)
  /-- SLOT (R449): `id` trigger ID. -/
  | slot (t id : Nat)
  /-- CAPTURE_EDGE (R450): `src` source of R450; `rising` a rising edge. -/
  | captureEdge (t src : Nat) (rising : Bool)
  /-- SAMPLE_INSTANT (R460): `bad` input ports with a missing frame. -/
  | sampleInstant (t : Nat) (bad : List Nat)
  /-- BLOCK_END (R461). -/
  | blockEnd (t : Nat)
  /-- AES_INPUT_FRAME (R462): `p` input port; `ti` stamp of arrival; `ok` the preambles are valid; `z` the Z preamble; `a` subframe
  A; `b` subframe B. -/
  | aesInputFrame (t p ti : Nat) (ok z : Bool) (a b : Nat)
  /-- INPUT_FRAME_TIMEOUT (R462): `p` input port. -/
  | inputFrameTimeout (t p : Nat)
  /-- PLAYOUT_RING_HEAD_WRITE (R470): `v` HEAD. -/
  | playoutRingHeadWrite (t v : Nat)
  /-- RATE_SWITCH (R461). -/
  | rateSwitch (t : Nat)
  /-- REALIGN (R460). -/
  | realign (t : Nat)
  /-- WCLK_IN_EDGE (R461). -/
  | wclkInEdge (t : Nat)
  /-- CHECK_RECORD (R481): `n` check unit; `b` the record; `busy` the unit has not finished the record before. -/
  | checkRecord (t n : Nat) (b : List Nat) (busy : Bool)
  /-- SENSOR_SAMPLE (R494): `ts` reading and self-check of TS00 to TS31; `keeper` reading of the keeper; `stacks` readings of the stacks. -/
  | sensorSample (t : Nat) (ts : List (Int × Bool)) (keeper : Int) (stk : List Int)
  /-- DUTY_PERIOD_END (R498). -/
  | dutyPeriodEnd (t : Nat)
  /-- CRITICAL_TRIP (R502). -/
  | criticalTrip (t : Nat)
  /-- ORDERLY_DOMAINS_OFF (R501). -/
  | orderlyDomainsOff (t : Nat)
  /-- RESTART (R501). -/
  | restart (t : Nat)
  /-- GOVERNOR_RUN (R499): `core` P_core in 0.1 W; `vout` READ_VOUT in mV, with
2^16 added where the regulator reports a fault. -/
  | governorRun (t core vout : Nat)
  /-- VCORE_SETTLED (R499). -/
  | vcoreSettled (t : Nat)
  /-- AVS_TIMEOUT (R500). -/
  | avsTimeout (t : Nat)
  /-- VCORE_POWER_GOOD (R504). -/
  | vcorePowerGood (t : Nat)
  /-- DOMAIN_START (R504): `k` domain. -/
  | domainStart (t k : Nat)
  /-- DOMAIN_POWER_GOOD (R504): `k` domain. -/
  | domainPowerGood (t k : Nat)
  /-- DOMAIN_TIMEOUT (R504): `k` domain. -/
  | domainTimeout (t k : Nat)
  /-- RAILS_POWER_GOOD (R610). -/
  | railsPowerGood (t : Nat)
  /-- POWER_GOOD_LOSS (R611): `rails` RAILS_PG fell, not VCORE_PG. -/
  | powerGoodLoss (t : Nat) (rails : Bool)
  /-- BROWNOUT (R522). -/
  | brownout (t : Nat)
  /-- KEEPER_POWER_UP (R586). -/
  | keeperPowerUp (t : Nat)
  /-- NVS_STARTUP_SCAN (R525): `bad` sectors with a bad record header. -/
  | nvsStartupScan (t : Nat) (bad : List Nat)
  /-- RECORD_WRITE_COMPLETE (R514): `fails` attempts that failed to verify. -/
  | recordWriteComplete (t fails : Nat)
  /-- ERASE_COMPLETE (R513): `ok` the erase verified. -/
  | eraseComplete (t : Nat) (ok : Bool)
  /-- NVS_SCRUB (R523): `weak` places of the weak records. -/
  | nvsScrub (t : Nat) (weak : List Nat)
  /-- COPY_REPAIR (R517). -/
  | copyRepair (t : Nat)
  /-- COUNTER_UPDATE (R520). -/
  | counterUpdate (t : Nat)
  /-- READ (R526). -/
  | nvsRead (t : Nat)
  /-- WRITE (R526): `dup` DUP; `len` LEN. -/
  | nvsWrite (t dup len : Nat)
  /-- DELETE (R526). -/
  | nvsDelete (t : Nat)
  /-- PAGE_READ (R526). -/
  | nvsPageRead (t : Nat)
  /-- OTP_READ (R526). -/
  | nvsOtpRead (t : Nat)
  /-- STATUS (R540). -/
  | secStatus (t : Nat)
  /-- GET_NONCE (R540): `rnd` bytes of the DRBG. -/
  | getNonce (t : Nat) (rnd : List Nat)
  /-- DEVICE_PUBKEY (R540): `pub` the public key. -/
  | devicePubkey (t : Nat) (pub : List Nat)
  /-- SELF_TEST (R540). -/
  | selfTest (t : Nat)
  /-- OPEN_USER (R535): `auth` the signature, HMAC or tag verifies. -/
  | openUser (t : Nat) (auth : Bool)
  /-- CLOSE (R540): `auth` the signature, HMAC or tag verifies; `tag` the response's HMAC. -/
  | close (t : Nat) (auth : Bool) (tag : List Nat)
  /-- ATTEST (R541): `auth` the signature, HMAC or tag verifies; `sig` the signature; `tag` the response's HMAC. -/
  | attest (t : Nat) (auth : Bool) (sig tag : List Nat)
  /-- RANDOM (R540): `auth` the signature, HMAC or tag verifies; `rnd` bytes of the DRBG; `tag` the response's HMAC. -/
  | random (t : Nat) (auth : Bool) (rnd tag : List Nat)
  /-- RAISE_MIN_SERIAL (R540): `auth` the signature, HMAC or tag verifies. -/
  | raiseMinSerial (t : Nat) (auth : Bool)
  /-- PROVISION_KEY (R540): `auth` the signature, HMAC or tag verifies; `plain` the unwrapped key, none where its tag fails. -/
  | provisionKey (t : Nat) (auth : Bool) (plain : Option (List Nat))
  /-- GEN_DEVICE_KEY (R540): `auth` the signature, HMAC or tag verifies; `scalar` the private scalar; `pub` the public key. -/
  | genDeviceKey (t : Nat) (auth : Bool) (scalar pub : List Nat)
  /-- SET_SETTINGS (R540): `auth` the signature, HMAC or tag verifies. -/
  | setSettings (t : Nat) (auth : Bool)
  /-- ROTATE_ROOT (R540): `auth` the signature, HMAC or tag verifies. -/
  | rotateRoot (t : Nat) (auth : Bool)
  /-- INSTALL_USER_KEY (R540): `auth` the signature, HMAC or tag verifies. -/
  | installUserKey (t : Nat) (auth : Bool)
  /-- PAGE_WRITE (R529): `auth` the signature, HMAC or tag verifies. -/
  | pageWrite (t : Nat) (auth : Bool)
  /-- PAGE_LOCK (R529): `auth` the signature, HMAC or tag verifies. -/
  | pageLock (t : Nat) (auth : Bool)
  /-- ZEROISE (R538): `auth` the signature, HMAC or tag verifies. -/
  | zeroise (t : Nat) (auth : Bool)
  /-- ZEROISE_BURN_COMPLETE (R538). -/
  | zeroiseBurnComplete (t : Nat)
  /-- SELF_TEST_COMPLETE (R536): `pass` every test passed. -/
  | selfTestComplete (t : Nat) (pass : Bool)
  /-- CONDITIONAL_TEST_FAIL (R537). -/
  | conditionalTestFail (t : Nat)
  /-- TAMPER (R538): `bit` tamper source. -/
  | tamper (t bit : Nat)
  /-- SESSION_TIMEOUT (R535). -/
  | sessionTimeout (t : Nat)
  /-- COMPONENT_TIMEOUT (R540). -/
  | componentTimeout (t : Nat)
  /-- WORK_DOORBELL (R557): `w` ring; `v` the value written. -/
  | workDoorbell (t w v : Nat)
  /-- CPL_DOORBELL (R557): `w` ring; `v` the value written. -/
  | cplDoorbell (t w v : Nat)
  /-- INGEST (R562): `w` ring. -/
  | ingest (t w : Nat)
  /-- INGEST_COMPLETE (R564): `w` ring; `k` number of the descriptor in its ring; `data` the bytes read from host
memory in copy order, 256 for one that was not read or not written. -/
  | ingestComplete (t w k : Nat) (data : List Nat)
  /-- EXPORT (R562): `w` ring. -/
  | exportCopy (t w : Nat)
  /-- EXPORT_COMPLETE (R564): `w` ring; `k` number of the descriptor in its ring. -/
  | exportComplete (t w k : Nat)
  /-- NOP (R556): `w` ring. -/
  | nop (t w : Nat)
  /-- RING_ENABLE (R561): `w` ring. -/
  | ringEnable (t w : Nat)
  /-- RING_DISABLE (R561): `w` ring. -/
  | ringDisable (t w : Nat)
  /-- FUNCTION_LEVEL_RESET (R567): `cause` 1 FLR, 2 hot reset, 3 PERST_N, 4 link down. -/
  | functionLevelReset (t cause : Nat)
  /-- LINK_UP (R547): `speed` SPEED; `width` WIDTH. -/
  | linkUp (t speed width : Nat)
  /-- POWER_STATE_CHANGE (R548): `d3` to D3hot, not D0. -/
  | powerStateChange (t : Nat) (d3 : Bool)
  /-- BAR2_READ (R552): `o` BAR2 offset; `n` bytes. -/
  | bar2Read (t o n : Nat)
  /-- BAR2_WRITE (R552): `o` BAR2 offset; `bs` the bytes. -/
  | bar2Write (t o : Nat) (bs : List Nat)
  /-- MSIX_UNMASK (R554): `v` vector. -/
  | msixUnmask (t v : Nat)
  /-- EVENT_LOG_WRITE (R569). -/
  | eventLogWrite (t : Nat)
  /-- LOG_TAIL_WRITE (R570): `v` SEQ. -/
  | logTailWrite (t v : Nat)
  /-- SYS_UNIT_RESET (R575): `v` the word written. -/
  | sysUnitReset (t v : Nat)
  /-- DBG_TRACE_ENABLE (R581): `v` the word written. -/
  | dbgTraceEnable (t v : Nat)
  /-- DBG_TRACE_RECORD (R580): `kind` tap kind; `index` tap index; `b` the record. -/
  | dbgTraceRecord (t kind index : Nat) (b : List Nat)
  /-- FIRMWARE_LOAD (R584). -/
  | firmwareLoad (t : Nat)
  /-- FIRMWARE_CHECKED (R584): `sigOk` the signature verifies; `tagOk` the tag verifies. -/
  | firmwareChecked (t : Nat) (sigOk tagOk : Bool)
  /-- FIRMWARE_SWITCH (R584). -/
  | firmwareSwitch (t : Nat)
  /-- CORE_WATCHDOG (R585): `good` the running bank is good. -/
  | coreWatchdog (t : Nat) (good : Bool)
  /-- UNIT_WATCHDOG (R588): `u` unit number; `inst` instance. -/
  | unitWatchdog (t u inst : Nat)
  /-- TILTH_WATCHDOG (R589): `k` queue. -/
  | tilthWatchdog (t k : Nat)
  /-- FATAL_FREEZE (R591): `cause` cause of R589, 0 the oldest raised; `detail` detail. -/
  | fatalFreeze (t cause detail : Nat)
  /-- FORCE (R589). -/
  | force (t : Nat)
  /-- CAPTURE_START (R592). -/
  | captureStart (t : Nat)
  /-- CAPTURE_COMPLETE (R592): `scan` each store section, whether the scan path could read it, and its bytes. -/
  | captureComplete (t : Nat) (scan : List (Bool × List Nat))
  /-- SUMMARY_COMMITTED (R592). -/
  | summaryCommitted (t : Nat)
  /-- RESTORE_COMPLETE (R592). -/
  | restoreComplete (t : Nat)
  /-- RELEASE (R596). -/
  | release (t : Nat)
  /-- SYNC_IN_OTHER_POLARITY_EDGE (R311). -/
  | syncInOtherPolarityEdge (t : Nat)
  /-- ALWAYS_ON_RAIL_LOSS (R502). -/
  | alwaysOnRailLoss (t : Nat)
deriving DecidableEq, Repr

end Sys2Proof
end

