-- ==== Sys2Proof/Machine/Bits.lean ====
section
/-!
DEFINITION. Bit-field, byte-order and sign helpers (R8: little-endian, bit 0 least significant), saturation, and the
one sparse store in canonical form that registers, device memory and tables share.
-/

namespace Sys2Proof.Machine

/-- Field [hi:lo] of a number (R8). -/
def bitsOf (w hi lo : Nat) : Nat := (w / 2 ^ lo) % 2 ^ (hi - lo + 1)

/-- Bit `i` of a number. -/
def bitAt (w i : Nat) : Bool := (w / 2 ^ i) % 2 == 1

/-- `w` with field [hi:lo] replaced by the low bits of `v`. -/
def withBits (w hi lo v : Nat) : Nat :=
  w % 2 ^ lo + (v % 2 ^ (hi - lo + 1)) * 2 ^ lo + (w / 2 ^ (hi + 1)) * 2 ^ (hi + 1)

/-- 0 or 1. -/
def b2n (b : Bool) : Nat := if b then 1 else 0

/-- The signed value of an `n`-bit two's-complement field. -/
def signed (n w : Nat) : Int :=
  let v := w % 2 ^ n
  if v < 2 ^ (n - 1) then (v : Int) else (v : Int) - (2 ^ n : Nat)

/-- The `n`-bit two's-complement field of a signed value. -/
def unsigned (n : Nat) (v : Int) : Nat := (v % ((2 ^ n : Nat) : Int)).toNat

/-- A signed value held to the range of an `n`-bit two's-complement field. -/
def satSigned (n : Nat) (v : Int) : Int :=
  let top : Int := (2 ^ (n - 1) : Nat)
  if v < -top then -top else if top - 1 < v then top - 1 else v

/-- A count saturating at 0xFFFF_FFFF (the snapshot counters of every unit). -/
def sat32 (v : Nat) : Nat := min v 0xFFFFFFFF

/-- Little-endian number of a byte list (R8). -/
def leNat : List Nat → Nat
  | [] => 0
  | b :: bs => b % 256 + 256 * leNat bs

/-- Big-endian number of a byte list (used only where a format chapter says so). -/
def beNat (bs : List Nat) : Nat := leNat bs.reverse

/-- The `n` little-endian bytes of a number (R8). -/
def leBytes : Nat → Nat → List Nat
  | 0, _ => []
  | n + 1, v => v % 256 :: leBytes n (v / 256)

/-- `n` consecutive numbers from `a`. -/
def upFrom (a : Nat) : Nat → List Nat
  | 0 => []
  | n + 1 => a :: upFrom (a + 1) n

/-- Bytes [off, off + n) of a byte list, 0 beyond its end. -/
def slice (bs : List Nat) (off n : Nat) : List Nat :=
  let t := (bs.drop off).take n
  t ++ List.replicate (n - t.length) 0

/-- The little-endian field of `n` bytes at `off` of a byte list. -/
def fieldLE (bs : List Nat) (off n : Nat) : Nat := leNat ((bs.drop off).take n)

/-- Round up to a multiple of `m`. -/
def alignUp (v m : Nat) : Nat := ((v + m - 1) / m) * m

/-- Ceiling of a quotient. -/
def ceilDiv (a b : Nat) : Nat := if b = 0 then 0 else (a + b - 1) / b

/-- Replace element `i` of a list by `f` of it (unchanged past the end). -/
def modAt {α : Type} (l : List α) (i : Nat) (f : α → α) : List α := l.modify i f

/-- Value at key `k` of a sparse store whose unlisted key `k` reads `d k`. -/
def sparseGet {α : Type} (d : Nat → α) : List (Nat × α) → Nat → α
  | [], k => d k
  | (k', v) :: r, k => if k' = k then v else if k < k' then d k else sparseGet d r k

/-- The keys of a sparse store begin above `k`. -/
def startsAbove {α : Type} (k : Nat) : List (Nat × α) → Bool
  | [] => true
  | q :: _ => decide (k < q.1)

/-- Write key `k` of a sparse store: keys stay strictly rising, entries equal to what is unlisted are left out. -/
def sparseSet {α : Type} [DecidableEq α] (d : Nat → α) : List (Nat × α) → Nat → α → List (Nat × α)
  | [], k, v => if v = d k then [] else [(k, v)]
  | (k', v') :: r, k, v =>
    if k < k' then (if v = d k then (k', v') :: r else (k, v) :: (k', v') :: r)
    else if k = k' then (if v = d k ∧ startsAbove k r = true then r else (k, v) :: r)
    else (k', v') :: sparseSet d r k v

/-- The canonical form of a sparse store: keys strictly rising, and no entry equal to what its key reads unlisted. -/
def sparseWf {α : Type} [DecidableEq α] (d : Nat → α) : List (Nat × α) → Bool
  | [] => true
  | [(k, v)] => decide (v ≠ d k)
  | (k, v) :: (k', v') :: r => decide (v ≠ d k) && decide (k < k') && sparseWf d ((k', v') :: r)

end Sys2Proof.Machine
end

