-- ==== Sys2Proof/Machine/Arith.lean ====
section
/-!
DEFINITION. The arithmetic the units share: CRCs (R124, R481, R482), the fp16 and fp32 formats as exact rationals with
rounding to nearest even, and signed fixed point.
-/

namespace Sys2Proof.Machine

/-! ### CRC (R481) -/

/-- One bit fed to a CRC register of `w` bits. -/
def crcBit (w poly reg : Nat) (b : Bool) : Nat :=
  let top := bitAt reg (w - 1)
  let sh := (2 * reg) % 2 ^ w
  if top != b then Nat.xor sh (poly % 2 ^ w) else sh

/-- The bits of a byte in the order they are fed (R481: REFIN feeds bit 0 first). -/
def byteBits (refin : Bool) (x : Nat) : List Bool :=
  let up := [0, 1, 2, 3, 4, 5, 6, 7].map (bitAt x)
  if refin then up else up.reverse

/-- A CRC register after a byte string. -/
def crcFeed (w poly : Nat) (refin : Bool) (reg : Nat) (bs : List Nat) : Nat :=
  bs.foldl (fun r x => (byteBits refin x).foldl (crcBit w poly) r) reg

/-- A number of `w` bits, bit-reversed. -/
def bitRev (w v : Nat) : Nat := (List.range w).foldl (fun a i => a + b2n (bitAt v i) * 2 ^ (w - 1 - i)) 0

/-- The end of a CRC (R481): reflected out, then the final XOR. -/
def crcEnd (w : Nat) (refout : Bool) (xorout reg : Nat) : Nat :=
  Nat.xor (if refout then bitRev w reg else reg) (xorout % 2 ^ w)

/-- A CRC over a byte string (R481). -/
def crcOf (w poly init : Nat) (refin refout : Bool) (xorout : Nat) (bs : List Nat) : Nat :=
  crcEnd w refout xorout (crcFeed w poly refin (init % 2 ^ w) bs)

/-- CRC-16 of R124. -/
def crc16 (bs : List Nat) : Nat := crcOf 16 0x1021 0xFFFF false false 0 bs

/-- CRC-32C of R124. -/
def crc32c (bs : List Nat) : Nat := crcOf 32 0x1EDC6F41 0xFFFFFFFF true true 0xFFFFFFFF bs

/-- CRC-32 of R343. -/
def crc32 (bs : List Nat) : Nat := crcOf 32 0x04C11DB7 0xFFFFFFFF true true 0xFFFFFFFF bs

/-- The AES3 CRCC of R465. -/
def crcc (bs : List Nat) : Nat := crcOf 8 0x1D 0xFF true true 0 bs

/-! ### Binary floating point -/

/-- `n / d` rounded to nearest, ties to even. -/
def divEven (n d : Nat) : Nat :=
  let q := n / d
  let r := n % d
  if 2 * r < d then q else if d < 2 * r then q + 1 else q + q % 2

/-- `n / d` rounded to nearest, ties away from zero. -/
def divNear (n d : Nat) : Nat := if d = 0 then 0 else (2 * n + d) / (2 * d)

/-- A signed quotient rounded to nearest, ties away from zero. -/
def idivNear (n : Int) (d : Nat) : Int := if n < 0 then -((divNear n.natAbs d : Nat) : Int) else (divNear n.natAbs d : Nat)

/-- ⌊log2 (n / d)⌋ of a positive quotient. -/
def log2Quot (n d : Nat) : Int :=
  let e : Int := (Nat.log2 n : Int) - (Nat.log2 d : Int)
  let low : Bool := if 0 ≤ e then decide (n < d * 2 ^ e.toNat) else decide (n * 2 ^ (-e).toNat < d)
  if low then e - 1 else e

/-- Significand and exponent of a positive quotient rounded to `p` bits with least exponent `qmin` (nearest even). -/
def roundBin (p : Nat) (qmin : Int) (n d : Nat) : Nat × Int :=
  let q : Int := max (log2Quot n d - ((p : Int) - 1)) qmin
  let m := if 0 ≤ q then divEven n (d * 2 ^ q.toNat) else divEven (n * 2 ^ (-q).toNat) d
  if m = 2 ^ p then (2 ^ (p - 1), q + 1) else (m, q)

/-- The bit pattern of a rational in a binary format with `p` significand bits and `eb` exponent bits; past the largest
finite value it is infinity. -/
def encBin (p eb : Nat) (x : Rat) : Nat :=
  let sign := if x.num < 0 then 2 ^ (p - 1 + eb) else 0
  let qmin : Int := 3 - (2 ^ (eb - 1) : Nat) - (p : Int)
  if x.num = 0 then 0
  else
    let (m, q) := roundBin p qmin x.num.natAbs x.den
    let ef : Int := if m < 2 ^ (p - 1) then 0 else q - qmin + 1
    if ((2 ^ eb : Nat) : Int) - 1 ≤ ef then sign + (2 ^ eb - 1) * 2 ^ (p - 1)
    else if m < 2 ^ (p - 1) then sign + m
    else sign + ef.toNat * 2 ^ (p - 1) + (m - 2 ^ (p - 1))

/-- The value of a bit pattern, none for infinities and NaNs. -/
def decBin (p eb : Nat) (w : Nat) : Option Rat :=
  let m := w % 2 ^ (p - 1)
  let e := (w / 2 ^ (p - 1)) % 2 ^ eb
  let neg := bitAt w (p - 1 + eb)
  let bias : Int := (2 ^ (eb - 1) : Nat) - 1
  if e = 2 ^ eb - 1 then none
  else
    let m' : Nat := if e = 0 then m else m + 2 ^ (p - 1)
    let q : Int := (if e = 0 then 1 else (e : Int)) - bias - ((p : Int) - 1)
    let v : Rat := if 0 ≤ q then (m' : Rat) * ((2 ^ q.toNat : Nat) : Rat) else (m' : Rat) / ((2 ^ (-q).toNat : Nat) : Rat)
    some (if neg then -v else v)

/-- fp16 pattern of a rational. -/
def toF16 (x : Rat) : Nat := encBin 11 5 x
/-- Value of an fp16 pattern, 0 where it is not finite. -/
def ofF16 (w : Nat) : Rat := (decBin 11 5 (w % 65536)).getD 0
/-- Whether an fp16 pattern is finite. -/
def finF16 (w : Nat) : Bool := (decBin 11 5 (w % 65536)).isSome
/-- A rational rounded to fp16. -/
def rndF16 (x : Rat) : Rat := ofF16 (toF16 x)
/-- fp32 pattern of a rational. -/
def toF32 (x : Rat) : Nat := encBin 24 8 x
/-- Value of an fp32 pattern, 0 where it is not finite. -/
def ofF32 (w : Nat) : Rat := (decBin 24 8 (w % 2 ^ 32)).getD 0
/-- Whether an fp32 pattern is finite. -/
def finF32 (w : Nat) : Bool := (decBin 24 8 (w % 2 ^ 32)).isSome
/-- A rational rounded to fp32. -/
def rndF32 (x : Rat) : Rat := ofF32 (toF32 x)

/-- A number of floating-point arithmetic: finite, infinite, or not a number. -/
inductive Ext where
  | fin (v : Rat) | inf (neg : Bool) | nan
deriving DecidableEq, Repr

/-- The value of a binary pattern with `p` significant bits and `eb` exponent bits, infinities and NaNs kept. -/
def extBin (p eb w : Nat) : Ext :=
  match decBin p eb w with
  | some v => .fin v
  | none => if w % 2 ^ (p - 1) = 0 then .inf (bitAt w (p - 1 + eb)) else .nan

/-- The value of an fp16 pattern, infinities and NaNs kept. -/
def extF16 (w : Nat) : Ext := extBin 11 5 (w % 65536)
/-- The value of an fp32 pattern, infinities and NaNs kept. -/
def extF32 (w : Nat) : Ext := extBin 24 8 (w % 2 ^ 32)

/-- Sum. -/
def Ext.add : Ext → Ext → Ext
  | .fin a, .fin b => .fin (a + b)
  | .nan, _ => .nan
  | _, .nan => .nan
  | .inf a, .inf b => if a = b then .inf a else .nan
  | .inf a, .fin _ => .inf a
  | .fin _, .inf b => .inf b

/-- Product with a finite factor. -/
def Ext.scale (k : Rat) : Ext → Ext
  | .fin a => .fin (k * a)
  | .inf n => if k = 0 then .nan else .inf (n != decide (k < 0))
  | .nan => .nan

/-- Product. -/
def Ext.mul : Ext → Ext → Ext
  | .fin a, x => x.scale a
  | x, .fin b => x.scale b
  | .inf a, .inf b => .inf (a != b)
  | _, _ => .nan

/-- Rounded to fp32: what lies beyond its numbers becomes infinite. -/
def Ext.rnd : Ext → Ext
  | .fin v => if finF32 (toF32 v) then .fin (rndF32 v) else .inf (decide (v < 0))
  | x => x

/-- A rational clamped to [a, b]. -/
def clampR (a b x : Rat) : Rat := if x < a then a else if b < x then b else x

/-- A rational rounded to the nearest integer, ties away from zero. -/
def roundR (x : Rat) : Int := idivNear x.num x.den

/-- The value of a signed fixed-point field of `n` bits with `f` fraction bits. -/
def fixR (n f w : Nat) : Rat := (signed n w : Rat) / ((2 ^ f : Nat) : Rat)

/-- Clamp to [0, 1]; NaN reads 0 (R223). -/
def Ext.unit : Ext → Rat
  | .fin a => clampR 0 1 a
  | .inf n => if n then 0 else 1
  | .nan => 0

/-- A peak's level is at least −m half units of 1/128 dB: 20 log10 (p / 2^23) ≥ −m / 256. -/
def levelReach (p m : Nat) : Bool := decide (2 ^ 117760 ≤ p ^ 5120 * 10 ^ m)

/-- The least m from `lo` on, below lo + 2^n, whose level is reached. -/
def levelSearch (p : Nat) : Nat → Nat → Nat
  | 0, lo => lo
  | n + 1, lo => if levelReach p (lo + 2 ^ n - 1) then levelSearch p n lo else levelSearch p n (lo + 2 ^ n)

/-- 20 log10 (p / 2^23) in 1/128 dB, rounded to nearest (R474; log entry 27); the floor of −144 dBFS for 0. -/
def level128 (p : Nat) : Int := if p = 0 then -18432 else (1 - (levelSearch p 16 0 : Int)).fdiv 2

/-! ### The grant rule of R19 -/

/-- Value of a key in a small association list. -/
def assocGet (k d : Nat) : List (Nat × Nat) → Nat
  | [] => d
  | (a, b) :: r => if a = k then b else assocGet k d r

/-- An association list with a key set. -/
def assocSet (k v : Nat) (l : List (Nat × Nat)) : List (Nat × Nat) := (k, v) :: l.filter (fun p => p.1 != k)

/-- The level granted next: the highest ready, unless a ready level has waited 13 grants or more, in which case the one that
has waited longest; with four levels none then waits past the sixteenth grant (R19; log entry 114). -/
def grantLevel (starve : List (Nat × Nat)) (levels : List Nat) : Option Nat :=
  match levels with
  | [] => none
  | top :: _ =>
    let due := levels.filter (fun l => decide (13 ≤ assocGet l 0 starve))
    some (due.foldl (fun b l => if assocGet b 0 starve < assocGet l 0 starve then l else b) top)

/-- Round robin at a level: the first ready queue number above the last granted, else the lowest (R19). -/
def roundRobin (last : Nat) (nums : List Nat) : Option Nat :=
  let sorted := nums.foldl (fun acc n => acc.takeWhile (· < n) ++ [n] ++ acc.dropWhile (· < n)) []
  match sorted.find? (fun n => decide (last < n)) with
  | some n => some n
  | none => sorted.head?

end Sys2Proof.Machine
end

