-- ==== Sys2Proof/Config.lean ====
section
/-!
DEFINITION. What the spec leaves open, as opaque constants without a body: no proof can see a value of any of them, so a
statement about one holds whatever it is. Each has a log entry. The published standards that the spec names and does not
restate (00_scope) are opaque functions here too.
-/

namespace Sys2Proof.Config

/-- A value the spec leaves undefined after an operation that goes on: applied to a step counter of State and a place
number, a fresh value each time (log entry 20). -/
opaque freeValue : Nat → Nat → Nat

/-- SHA-384 of a byte string, 48 bytes: a published standard, not restated (R38, R48, R541; log entry 21). -/
opaque sha384 : List Nat → List Nat

/-- The coded payload that the loam encoder forms for an element size code and a unit's bytes (R143; log entry 23). The
model uses it only where it decodes to those bytes. -/
opaque loamPayload : Nat → List Nat → List Nat

/-- Coefficients of the reset (windowed-sinc) banks by bank and place (R280; log entry 25). -/
opaque sieveReset : Nat → Nat → Int

/-- Pixel rows of the built-in 5 × 7 font by character and row (R390; log entry 26). -/
opaque glyph : Nat → Nat → Nat

/-- The rate that a servo's model estimates from its measurements (stamp, offset), in 2^-32 (R438; log entry 28). -/
opaque servoRate : List (Nat × Int) → Int

/-- The random instant, as a share of the interval in 2^-16, of a servo's first Delay_Req (R437; log entry 29). -/
opaque delayReqShare : Nat → Nat

/-- Rounding of a division corner the spec leaves open, by place, numerator and denominator (log entry 30). -/
opaque openRound : Nat → Int → Nat → Int

end Sys2Proof.Config
end

