-- ==== Sys2Proof/Machine/Ecc.lean ====
section
/-!
DEFINITION. The in-line ECC of R401: an extended Hamming code of 11 bits over a block's 512 data bits and its 31-bit number.
-/

namespace Sys2Proof.Machine

/-- Position of information bit i of the code, 1-based: the numbers that are no power of 2, in order (DESIGN CHOICE, log entry 152). -/
def eccPos (i : Nat) : Nat :=
  if i < 1 then 3 else if i < 4 then 4 + i else if i < 11 then 5 + i else if i < 26 then 6 + i else if i < 57 then 7 + i
  else if i < 120 then 8 + i else if i < 247 then 9 + i else if i < 502 then 10 + i else 11 + i

/-- XOR of the positions of the set bits of a number, from position i on; and how many they are. -/
def eccFold : Nat → Nat → Nat → Nat × Nat → Nat × Nat
  | 0, _, _, a => a
  | k + 1, i, v, a => eccFold k (i + 1) (v / 2) (if v % 2 = 1 then (Nat.xor a.1 (eccPos i), a.2 + 1) else a)

/-- The positions' XOR and the number of set bits of a block's data with its number. -/
def eccInfo (data : List Nat) (n : Nat) : Nat × Nat := eccFold 31 512 n (eccFold 512 0 (leNat (slice data 0 64)) (0, 0))

/-- How many bits of the low `k` of a number are set. -/
def bitCount : Nat → Nat → Nat
  | 0, _ => 0
  | k + 1, v => v % 2 + bitCount k (v / 2)

/-- Check bits [10:0] of a block (R401): ten bits that make the XOR of all set positions 0, and the parity of all. -/
def eccCode (data : List Nat) (n : Nat) : Nat :=
  let q := eccInfo data n
  q.1 + 1024 * ((q.2 + bitCount 10 q.1) % 2)

/-- What a check of a block finds. -/
inductive EccResult where
  | good (data : List Nat)
  | corrected (data : List Nat)
  | bad
deriving DecidableEq, Repr

/-- Flip bit i of a byte list. -/
def flipBit (data : List Nat) (i : Nat) : List Nat := modAt data (i / 8) (fun b => Nat.xor b (2 ^ (i % 8)))

/-- A block read with bit i flipped: 0 to 511 of its data, 512 to 522 of its check bits. -/
def eccFlip (data : List Nat) (check n i : Nat) : List Nat × Nat × Nat :=
  if i < 512 then (flipBit data i, check, n) else (data, Nat.xor check (2 ^ (i - 512)), n)

/-- The data bit at a position of the code, none at the others. -/
def eccBitAt (p : Nat) : Option Nat := (List.range 512).find? (fun i => eccPos i == p)

/-- A check bit stands at this position: a power of 2, or 0 for the parity. -/
def eccCheckAt (p : Nat) : Bool := p == 0 || (List.range 10).any (fun k => 2 ^ k == p)

/-- A block read at number n with its data, its check word, and the number m that it was written for (R401): the poison marker or another
number reads as uncorrectable, one flipped bit is corrected, two are detected. That another number is found is the rule's: no 11 bits tell
all numbers apart (log entry 152). -/
def eccDecode (data : List Nat) (check m n : Nat) : EccResult :=
  let q := eccInfo data m
  let s := Nat.xor q.1 (check % 1024)
  let odd := (q.2 + bitCount 11 check) % 2 = 1
  if m ≠ n ∨ check / 2048 ≠ 0 then .bad
  else if s = 0 ∧ ¬ odd then .good data
  else if ¬ odd then .bad
  else if eccCheckAt s then .corrected data
  else match eccBitAt s with
    | some i => .corrected (flipBit data i)
    | none => .bad

end Sys2Proof.Machine
end

