-- ==== Sys2Proof/Machine/RegMap.lean ====
section
/-!
DEFINITION. The register map of BAR0 (R551 and every chapter's register tables), as data: one row per register of the
spec's tables, with its fields, access types (R10), reset values, staged fields (R20, R21) and the values that are not
reserved (R11). `Reg` names each register's BAR0 offset, `Fld` each field, by the spec's own names.
-/

namespace Sys2Proof.Machine

/-- The access types of R10 (RWL is used by no register of the tables). -/
inductive Access where
  | rw | ro | wo | w1c | rc
deriving DecidableEq, Repr

/-- One field of a register table: its bits, access, reset value, whether it is staged, and the inclusive ranges of values
that are not reserved (the empty list: every value). -/
structure RegField where
  hi : Nat
  lo : Nat
  acc : Access
  reset : Nat
  staged : Bool
  ok : List (Nat × Nat)
deriving DecidableEq, Repr

/-- One register of the tables: its BAR0 offset, up to two array dimensions as (stride, count), whether it is 64 bits wide
(R12), whether it is a snapshot register (R81), and its fields without the reserved ones. -/
structure RegRow where
  off : Nat
  stride1 : Nat
  count1 : Nat
  stride2 : Nat
  count2 : Nat
  wide : Bool
  snap : Bool
  fields : List RegField
deriving DecidableEq, Repr

/-- A field of a register by name: BAR0 offset of the register (element 0 of an array), bit range, array strides. -/
structure Fld where
  off : Nat
  hi : Nat
  lo : Nat
  stride1 : Nat
  stride2 : Nat
deriving DecidableEq, Repr

/-- The field in element `i` of a register array. -/
def Fld.nth (f : Fld) (i : Nat) : Fld := { f with off := f.off + f.stride1 * i }

/-- The field in element `(i, j)` of a register array of two dimensions. -/
def Fld.nth2 (f : Fld) (i j : Nat) : Fld := { f with off := f.off + f.stride1 * i + f.stride2 * j }

namespace Reg

abbrev SYS_ID : Nat := 0x000000
abbrev SYS_FW : Nat := 0x000004
abbrev SYS_STATUS : Nat := 0x000008
abbrev SYS_UNIT_RESET : Nat := 0x000010
abbrev SYS_RESET_STATUS : Nat := 0x000014
abbrev SYS_LOG_CTRL : Nat := 0x000100
abbrev SYS_LOG_HEAD : Nat := 0x000104
abbrev SYS_LOG_TAIL : Nat := 0x000108
abbrev SYS_LOG_DROPPED : Nat := 0x00010C
abbrev SYS_FR_BASE : Nat := 0x000110
abbrev SYS_FR_SIZE : Nat := 0x000118
abbrev SYS_FR_HEAD : Nat := 0x00011C
abbrev SYS_FR_TAIL : Nat := 0x000120
abbrev SYS_FR_DROPPED : Nat := 0x000124
abbrev SYS_FW_ADDR : Nat := 0x000200
abbrev SYS_FW_LEN : Nat := 0x000208
abbrev SYS_FW_CTRL : Nat := 0x00020C
abbrev SYS_FW_STATUS : Nat := 0x000210
abbrev SYS_IMG_ADDR : Nat := 0x000400
abbrev SYS_IMG_LEN : Nat := 0x000408
abbrev SYS_IMG_CTRL : Nat := 0x00040C
abbrev SYS_IMG_STATUS : Nat := 0x000410
abbrev SYS_IMG_ERROR : Nat := 0x000414
abbrev SYS_IMG_SERIAL : Nat := 0x000418
abbrev SYS_IMG_DIGEST : Nat := 0x000420
abbrev HST_CTRL : Nat := 0x040000
abbrev HST_LINK : Nat := 0x040004
abbrev HST_SNAP_DESC : Nat := 0x040100
abbrev HST_SNAP_INGEST : Nat := 0x040104
abbrev HST_SNAP_EXPORT : Nat := 0x040108
abbrev HST_SNAP_REFUSED : Nat := 0x04010C
abbrev HST_SNAP_STALLED_US : Nat := 0x040110
abbrev HST_SNAP_BAR2_READS : Nat := 0x040114
abbrev HST_SNAP_RECOVERY : Nat := 0x040118
abbrev HST_SNAP_AER_CORR : Nat := 0x04011C
abbrev HST_WRING_BASE : Nat := 0x041000
abbrev HST_WRING_SIZE : Nat := 0x041008
abbrev HST_WRING_TAIL : Nat := 0x04100C
abbrev HST_CRING_BASE : Nat := 0x041010
abbrev HST_CRING_SIZE : Nat := 0x041018
abbrev HST_CRING_HEAD : Nat := 0x04101C
abbrev HST_RING_CTRL : Nat := 0x041020
abbrev HST_RING_STATUS : Nat := 0x041024
abbrev HST_RING_WB : Nat := 0x041028
abbrev CMT_STATUS : Nat := 0x0C0000
abbrev CMT_EPOCH_SEALED : Nat := 0x0C0004
abbrev CMT_EPOCH_RETIRED : Nat := 0x0C0008
abbrev CMT_SNAP_EPOCH : Nat := 0x0C000C
abbrev CMT_FRAME : Nat := 0x0C0010
abbrev CMT_LATCH : Nat := 0x0C0018
abbrev CMT_SNAP_CTRL : Nat := 0x0C001C
abbrev CMT_STAGE_CTRL : Nat := 0x0C0020
abbrev KLN_CTRL : Nat := 0x100000
abbrev KLN_STATUS : Nat := 0x100004
abbrev KLN_ADMIT : Nat := 0x100008
abbrev KLN_HLG : Nat := 0x10000C
abbrev KLN_REF_WHITE : Nat := 0x100010
abbrev KLN_SNAP_BANDS : Nat := 0x100100
abbrev KLN_SNAP_REFINE_DROPPED : Nat := 0x100104
abbrev KLN_SNAP_HELD : Nat := 0x100108
abbrev KLN_SNAP_LATE : Nat := 0x10010C
abbrev KLN_SNAP_BASE_FAULTS : Nat := 0x100110
abbrev KLN_SNAP_TILE_FAULTS : Nat := 0x100114
abbrev KLN_SNAP_CHECK_MISMATCH : Nat := 0x100118
abbrev KLN_PREMUL_CLAMPS : Nat := 0x10011C
abbrev KLN_SNAP_RESET_STRATA : Nat := 0x100120
abbrev KLN_SNAP_RATE_K0 : Nat := 0x100124
abbrev KLN_SNAP_RATE_K1 : Nat := 0x100128
abbrev KLN_SNAP_HOST_JOBS : Nat := 0x10012C
abbrev KLN_CSC : Nat := 0x100200
abbrev KLN_CHAIN_BASE : Nat := 0x100400
abbrev KLN_CHAIN_SIZE : Nat := 0x100408
abbrev KLN_CHAIN_HEAD : Nat := 0x10040C
abbrev KLN_CHAIN_TAIL : Nat := 0x100410
abbrev SLT_PLAN0 : Nat := 0x140000
abbrev SLT_PLAN1 : Nat := 0x140004
abbrev SLT_PLAN2 : Nat := 0x140008
abbrev SLT_GEOM : Nat := 0x14000C
abbrev SLT_BANK : Nat := 0x140010
abbrev SLT_CTRL : Nat := 0x140014
abbrev SLT_SNAP_PEAK : Nat := 0x140100
abbrev SLT_SNAP_STEP1 : Nat := 0x140104
abbrev SLT_SNAP_STEP2 : Nat := 0x140108
abbrev SLT_SNAP_HELD : Nat := 0x14010C
abbrev SLT_SNAP_DECL : Nat := 0x140110
abbrev SLT_SNAP_CARRIED : Nat := 0x140114
abbrev SLT_SNAP_FETCH_BYTES : Nat := 0x140118
abbrev SLT_SNAP_ECC_CORR : Nat := 0x14011C
abbrev SLT_SNAP_ECC_UNCORR : Nat := 0x140120
abbrev RRG_CTRL : Nat := 0x180000
abbrev RRG_TRIGGER : Nat := 0x180004
abbrev RRG_FOM : Nat := 0x180008
abbrev RRG_ZONE_STATUS : Nat := 0x180010
abbrev RRG_ZONE_TEMP : Nat := 0x180030
abbrev RRG_SET_ADDR : Nat := 0x180100
abbrev RRG_SET_LEN : Nat := 0x180108
abbrev RRG_SET_CTRL : Nat := 0x18010C
abbrev RRG_SET_STATUS : Nat := 0x180110
abbrev RRG_SET_TEMP : Nat := 0x180120
abbrev RRG_LANE_STATUS : Nat := 0x180200
abbrev RRG_LANE_SET0 : Nat := 0x180204
abbrev RRG_LANE_SET1 : Nat := 0x180208
abbrev RRG_SNAP_ZONE_RUNS : Nat := 0x180400
abbrev RRG_SNAP_PUBLISHED : Nat := 0x180404
abbrev RRG_SNAP_STALE : Nat := 0x180408
abbrev RRG_SNAP_ENTRY_LOST : Nat := 0x18040C
abbrev RRG_SNAP_LIVE_ECC : Nat := 0x180410
abbrev RRG_SNAP_LANE_RUNS : Nat := 0x180414
abbrev RRG_SNAP_LANE_LIMIT : Nat := 0x180418
abbrev ROK_CTRL : Nat := 0x1C0000
abbrev ROK_STATUS : Nat := 0x1C0004
abbrev ROK_BAND : Nat := 0x1C0008
abbrev ROK_PACE : Nat := 0x1C000C
abbrev ROK_LOD : Nat := 0x1C0010
abbrev ROK_BG0 : Nat := 0x1C0014
abbrev ROK_BG1 : Nat := 0x1C0018
abbrev ROK_DEMURA : Nat := 0x1C001C
abbrev ROK_OUT_MATRIX : Nat := 0x1C0100
abbrev ROK_SNAP_BANDS : Nat := 0x1C0200
abbrev ROK_SNAP_STEP2 : Nat := 0x1C0204
abbrev ROK_SNAP_STEP3 : Nat := 0x1C0208
abbrev ROK_SNAP_PACE_HELD : Nat := 0x1C020C
abbrev ROK_SNAP_LATE : Nat := 0x1C0210
abbrev ROK_SNAP_ABANDONED : Nat := 0x1C0214
abbrev ROK_SNAP_OVERFLOW : Nat := 0x1C0218
abbrev ROK_SNAP_SLOTS : Nat := 0x1C021C
abbrev ROK_SNAP_EARLY_STOP : Nat := 0x1C0220
abbrev ROK_SNAP_CAPPED : Nat := 0x1C0224
abbrev ROK_SNAP_NONFINITE : Nat := 0x1C0228
abbrev ROK_SNAP_FILE_FAULTS : Nat := 0x1C022C
abbrev ROK_SNAP_SILT_WAIT_NS : Nat := 0x1C0230
abbrev ROK_SNAP_RATE : Nat := 0x1C0234
abbrev ROK_SNAP_LUT_PARITY : Nat := 0x1C0238
abbrev ROK_LUT : Nat := 0x1C1000
abbrev BRD_CTRL : Nat := 0x200000
abbrev BRD_STATUS : Nat := 0x200004
abbrev BRD_BLINK : Nat := 0x200010
abbrev BRD_CTX_CMD : Nat := 0x200040
abbrev BRD_CTX_RESULT : Nat := 0x200044
abbrev BRD_CTX_COUNT : Nat := 0x200048
abbrev BRD_SNAP_LISTS : Nat := 0x200100
abbrev BRD_SNAP_CULLED : Nat := 0x200104
abbrev BRD_SNAP_TRUNCATED : Nat := 0x200108
abbrev BRD_SNAP_LIST_LATE : Nat := 0x20010C
abbrev BRD_SNAP_LATE_LAYERS : Nat := 0x200110
abbrev BRD_SNAP_SUBST : Nat := 0x200114
abbrev BRD_SNAP_SUBST_FAILED : Nat := 0x200118
abbrev BRD_SNAP_ENTRY_PEAK : Nat := 0x20011C
abbrev BRD_SNAP_LAYER_LATE : Nat := 0x202000
abbrev BRD_CTX_STATE : Nat := 0x204000
abbrev SVE_CTRL : Nat := 0x240000
abbrev SVE_STATUS : Nat := 0x240004
abbrev SVE_TBL_SEL : Nat := 0x240010
abbrev SVE_TBL_DATA : Nat := 0x240014
abbrev SVE_APPLY : Nat := 0x240018
abbrev SVE_QUEUE : Nat := 0x24001C
abbrev SVE_SNAP_FRAMES : Nat := 0x240100
abbrev SVE_SNAP_SUPERSEDED : Nat := 0x240104
abbrev SVE_SNAP_DROPPED : Nat := 0x240108
abbrev SVE_SNAP_NOT_LIVE : Nat := 0x24010C
abbrev SVE_SNAP_STRIPED : Nat := 0x240110
abbrev SVE_SNAP_APPLY_REFUSED : Nat := 0x240114
abbrev TRW_STATUS : Nat := 0x280000
abbrev TRW_LAST : Nat := 0x280004
abbrev TRW_SNAP_JOBS : Nat := 0x280100
abbrev TRW_SNAP_SAMPLES : Nat := 0x280104
abbrev TRW_SNAP_REVERSED : Nat := 0x280108
abbrev TRW_SNAP_SCRATCH : Nat := 0x28010C
abbrev TRW_SNAP_REFUSED : Nat := 0x280110
abbrev OUT_MODE : Nat := 0x2C0000
abbrev OUT_PHASE : Nat := 0x2C0004
abbrev OUT_LOCK : Nat := 0x2C0008
abbrev OUT_PHASE_ERR : Nat := 0x2C000C
abbrev OUT_REF_PERIOD : Nat := 0x2C0010
abbrev OUT_LINE_PERIOD : Nat := 0x2C0014
abbrev OUT_TE : Nat := 0x2C0018
abbrev OUT_TE_PERIOD : Nat := 0x2C001C
abbrev OUT_LIGHT : Nat := 0x2C0020
abbrev OUT_LIGHT_NS : Nat := 0x2C0024
abbrev OUT_MEM_TOL : Nat := 0x2C0028
abbrev OUT_SNAP_GLITCHES : Nat := 0x2C0100
abbrev OUT_SNAP_RELOCKS : Nat := 0x2C0104
abbrev OUT_SNAP_DISCONT : Nat := 0x2C0108
abbrev OUT_SNAP_DISCONT_US : Nat := 0x2C010C
abbrev OUT_SNAP_FLYWHEEL_FRAMES : Nat := 0x2C0110
abbrev OUT_SNAP_SLEW_FRAMES : Nat := 0x2C0114
abbrev OUT_SNAP_PHASE_MAX : Nat := 0x2C0118
abbrev OUT_SNAP_TE_DELAYED : Nat := 0x2C011C
abbrev OUT_SNAP_TE_TEARS : Nat := 0x2C0120
abbrev OUT_SNAP_ECC_CORR : Nat := 0x2C0124
abbrev OUT_SNAP_ECC_UNCORR : Nat := 0x2C0128
abbrev TLK_CTRL : Nat := 0x300000
abbrev TLK_HOLD : Nat := 0x300004
abbrev TLK_GROUP_STATUS : Nat := 0x300010
abbrev TLK_DELAY : Nat := 0x300030
abbrev TLK_TILE_ID : Nat := 0x300040
abbrev TLK_TILE_INFO : Nat := 0x300080
abbrev TLK_TILE_FOM : Nat := 0x3000A0
abbrev TLK_SNAP_LINES : Nat := 0x300100
abbrev TLK_SNAP_HOLD_LINES : Nat := 0x300104
abbrev TLK_SNAP_HOLD_BANDS : Nat := 0x300108
abbrev TLK_SNAP_RETRAINS : Nat := 0x30010C
abbrev TLK_SNAP_TILE_CRC : Nat := 0x300110
abbrev TLK_SNAP_TILE_HCRC : Nat := 0x300114
abbrev TLK_SNAP_ALIVE : Nat := 0x300118
abbrev TLK_SNAP_READBACK : Nat := 0x30011C
abbrev TLK_SNAP_BC_CHECK : Nat := 0x300120
abbrev TLK_SNAP_FIFO : Nat := 0x300124
abbrev PNL_CTRL : Nat := 0x340000
abbrev PNL_STATUS : Nat := 0x340004
abbrev PNL_DIS : Nat := 0x340008
abbrev PNL_DIS2 : Nat := 0x34000C
abbrev PNL_DMR_ADDR : Nat := 0x340100
abbrev PNL_DMR_LEN : Nat := 0x340108
abbrev PNL_DMR_CTRL : Nat := 0x34010C
abbrev PNL_DMR_STATUS : Nat := 0x340110
abbrev PNL_SNAP_SEGMENTS : Nat := 0x340200
abbrev PNL_SNAP_BALANCE : Nat := 0x340204
abbrev PNL_SNAP_CUT : Nat := 0x340208
abbrev PNL_SNAP_SAT : Nat := 0x34020C
abbrev PNL_SNAP_SELECTS : Nat := 0x340210
abbrev PNL_SNAP_ECC : Nat := 0x340214
abbrev LBL_CTRL : Nat := 0x380000
abbrev LBL_STATUS : Nat := 0x380004
abbrev LBL_TEMP : Nat := 0x380008
abbrev LBL_BANDS0 : Nat := 0x38000C
abbrev LBL_BANDS1 : Nat := 0x380010
abbrev LBL_CLEAN : Nat := 0x380014
abbrev LBL_WAVE_SEL : Nat := 0x380020
abbrev LBL_WAVE_DATA : Nat := 0x380024
abbrev LBL_WAVE_APPLY : Nat := 0x380028
abbrev LBL_SNAP_UPDATES : Nat := 0x380100
abbrev LBL_SNAP_COMMONS : Nat := 0x380104
abbrev LBL_SNAP_BLINKS : Nat := 0x380108
abbrev LBL_SNAP_INVERTED : Nat := 0x38010C
abbrev LBL_SNAP_NV : Nat := 0x380110
abbrev LBL_DC : Nat := 0x380400
abbrev MEM_STATUS : Nat := 0x3C0000
abbrev MEM_POLICY0 : Nat := 0x3C0004
abbrev MEM_POLICY1 : Nat := 0x3C0008
abbrev MEM_CHAN_STATUS : Nat := 0x3C0010
abbrev MEM_PORT : Nat := 0x3C0100
abbrev MEM_PASR_KEEP : Nat := 0x3C0200
abbrev MEM_SCRUB : Nat := 0x3C0204
abbrev MEM_ERR_ADDR : Nat := 0x3C0208
abbrev MEM_SNAP_READ : Nat := 0x3C0300
abbrev MEM_SNAP_WRITE : Nat := 0x3C0304
abbrev MEM_SNAP_ECC_CORR : Nat := 0x3C0308
abbrev MEM_SNAP_ECC_UNCORR : Nat := 0x3C030C
abbrev MEM_SNAP_URGENT : Nat := 0x3C0310
abbrev MEM_SNAP_LAT_MAX : Nat := 0x3C0314
abbrev MEM_SNAP_PD_US : Nat := 0x3C0318
abbrev MEM_SNAP_SR_US : Nat := 0x3C031C
abbrev MEM_SNAP_REF_POSTPONED : Nat := 0x3C0320
abbrev MEM_SNAP_RETRAIN_NS : Nat := 0x3C0324
abbrev MEM_SNAP_SLOT_WAIT : Nat := 0x3C0328
abbrev TIM_CTRL : Nat := 0x400000
abbrev TIM_STATUS : Nat := 0x400004
abbrev TIM_TIME_NS : Nat := 0x400010
abbrev TIM_TIME_SEC_LO : Nat := 0x400014
abbrev TIM_TIME_SEC_HI : Nat := 0x400018
abbrev TIM_SHORT : Nat := 0x40001C
abbrev TIM_SERVO : Nat := 0x400020
abbrev TIM_CASTLE_MAX : Nat := 0x400024
abbrev TIM_DOMAIN_DIFF : Nat := 0x400028
abbrev TIM_TB_FREQ : Nat := 0x40002C
abbrev TIM_SRV_CFG : Nat := 0x400100
abbrev TIM_SRV_LOCK : Nat := 0x400104
abbrev TIM_SRV_STATUS : Nat := 0x400108
abbrev TIM_SRV_OFFSET : Nat := 0x40010C
abbrev TIM_SRV_DELAY : Nat := 0x400110
abbrev TIM_SRV_GM : Nat := 0x400118
abbrev TIM_PORT_CTRL : Nat := 0x400200
abbrev TIM_MAC_A : Nat := 0x400300
abbrev TIM_MAC_B : Nat := 0x400308
abbrev TIM_IPV4_A : Nat := 0x400310
abbrev TIM_IPV4_B : Nat := 0x400314
abbrev TIM_MCAST : Nat := 0x400400
abbrev TIM_RING_BASE : Nat := 0x400500
abbrev TIM_RING_SIZE : Nat := 0x400508
abbrev TIM_RING_HEAD : Nat := 0x40050C
abbrev TIM_RING_TAIL : Nat := 0x400510
abbrev TIM_CAP_HEAD : Nat := 0x40054C
abbrev TIM_CAP_TAIL : Nat := 0x400550
abbrev TIM_CAP_CTRL : Nat := 0x400600
abbrev TIM_SNAP_FWD : Nat := 0x400800
abbrev TIM_SNAP_FWD_DROP : Nat := 0x400804
abbrev TIM_SNAP_BAD_FCS : Nat := 0x400808
abbrev TIM_SNAP_TC_CORRECTED : Nat := 0x40080C
abbrev TIM_SNAP_TC_SKIPPED : Nat := 0x400810
abbrev TIM_SNAP_RX_DROP : Nat := 0x400814
abbrev TIM_SNAP_PAUSE : Nat := 0x400818
abbrev TIM_SNAP_CASTLES : Nat := 0x40081C
abbrev TIM_SNAP_HOLDOVER_MS : Nat := 0x400820
abbrev TIM_SNAP_CAP_DEAD : Nat := 0x400824
abbrev TIM_SNAP_CAP_DROP : Nat := 0x400828
abbrev TIM_SNAP_TRIG_LATE : Nat := 0x40082C
abbrev AUD_CTRL : Nat := 0x440000
abbrev AUD_STATUS : Nat := 0x440004
abbrev AUD_IN_MASK : Nat := 0x440008
abbrev AUD_TRIM : Nat := 0x44000C
abbrev AUD_DELAY : Nat := 0x440010
abbrev AUD_WCLK_ERR : Nat := 0x440014
abbrev AUD_METER : Nat := 0x440018
abbrev AUD_IN_OFFSET : Nat := 0x440020
abbrev AUD_OUT_SRC : Nat := 0x440040
abbrev AUD_LEVEL : Nat := 0x440200
abbrev AUD_CS_IN : Nat := 0x440400
abbrev AUD_CS_OUT : Nat := 0x440600
abbrev AUD_RING_BASE : Nat := 0x440800
abbrev AUD_RING_SIZE : Nat := 0x440808
abbrev AUD_RING_HEAD : Nat := 0x44080C
abbrev AUD_RING_TAIL : Nat := 0x440810
abbrev AUD_PLAY_SIZE : Nat := 0x440828
abbrev AUD_PLAY_HEAD : Nat := 0x44082C
abbrev AUD_PLAY_TAIL : Nat := 0x440830
abbrev AUD_SNAP_BLOCKS : Nat := 0x440900
abbrev AUD_SNAP_UNDERRUN : Nat := 0x440904
abbrev AUD_SNAP_LATE : Nat := 0x440908
abbrev AUD_SNAP_FADES : Nat := 0x44090C
abbrev AUD_SNAP_PARITY : Nat := 0x440910
abbrev AUD_SNAP_SLIPS : Nat := 0x440914
abbrev AUD_SNAP_CRCC : Nat := 0x440918
abbrev AUD_SNAP_DELAY_STEPS : Nat := 0x44091C
abbrev AUD_SNAP_OVERRUN : Nat := 0x440920
abbrev CHK_CTRL : Nat := 0x480000
abbrev CHK_TAP : Nat := 0x480004
abbrev CHK_POLY : Nat := 0x480008
abbrev CHK_INIT : Nat := 0x480010
abbrev CHK_XOROUT : Nat := 0x480018
abbrev CHK_FIELD : Nat := 0x480020
abbrev CHK_ALIVE : Nat := 0x480024
abbrev CHK_RESULT : Nat := 0x480028
abbrev CHK_STATUS : Nat := 0x480030
abbrev CHK_SNAP_RECORDS : Nat := 0x480800
abbrev CHK_SNAP_MISMATCH : Nat := 0x480804
abbrev CHK_SNAP_REPEAT : Nat := 0x480808
abbrev CHK_SNAP_SKIP : Nat := 0x48080C
abbrev CHK_SNAP_OVERRUN : Nat := 0x480810
abbrev CHK_SNAP_SHORT : Nat := 0x480814
abbrev CHK_SNAP_RUNNING : Nat := 0x480818
abbrev THM_STATUS : Nat := 0x4C0000
abbrev THM_CTRL : Nat := 0x4C0004
abbrev THM_SENSOR : Nat := 0x4C0100
abbrev THM_KEEPER : Nat := 0x4C0180
abbrev THM_STACK : Nat := 0x4C0184
abbrev THM_VCORE : Nat := 0x4C0200
abbrev THM_POWER : Nat := 0x4C0204
abbrev THM_GOV : Nat := 0x4C0208
abbrev THM_GOV2 : Nat := 0x4C020C
abbrev THM_PD : Nat := 0x4C0300
abbrev THM_SNAP_PEAK : Nat := 0x4C0400
abbrev THM_SNAP_THROTTLE_US : Nat := 0x4C0404
abbrev THM_SNAP_DUTY_MIN : Nat := 0x4C0408
abbrev THM_SNAP_V_MAX : Nat := 0x4C040C
abbrev THM_SNAP_ENERGY : Nat := 0x4C0410
abbrev THM_SNAP_BUDGET_HELD : Nat := 0x4C0414
abbrev NVS_STATUS : Nat := 0x500000
abbrev NVS_REQ : Nat := 0x500004
abbrev NVS_REQ_ID : Nat := 0x500008
abbrev NVS_REQ_ADDR : Nat := 0x500010
abbrev NVS_RESULT : Nat := 0x500018
abbrev NVS_RESULT_SEQ : Nat := 0x50001C
abbrev NVS_COUNT_WRITES : Nat := 0x500030
abbrev NVS_COUNT_TIES : Nat := 0x500034
abbrev NVS_COUNT_WEAK : Nat := 0x500038
abbrev NVS_SECTOR : Nat := 0x500100
abbrev SEC_STATUS : Nat := 0x540000
abbrev SEC_MB_ADDR : Nat := 0x540008
abbrev SEC_MB_LEN : Nat := 0x540010
abbrev SEC_MB_RESP : Nat := 0x540018
abbrev SEC_MB_RESP_LEN : Nat := 0x540020
abbrev SEC_MB_CTRL : Nat := 0x540024
abbrev SEC_MB_RESULT : Nat := 0x540028
abbrev DMP_STATUS : Nat := 0x580000
abbrev DMP_CTRL : Nat := 0x580004
abbrev DMP_WDOG : Nat := 0x580008
abbrev DMP_LAST : Nat := 0x58000C
abbrev DMP_SEQ : Nat := 0x580010
abbrev DMP_COUNT : Nat := 0x580014
abbrev DBG_TRACE_CTRL : Nat := 0x5C0000
abbrev DBG_TRACE_STATUS : Nat := 0x5C0004
abbrev DBG_TRACE_BASE : Nat := 0x5C0008
abbrev DBG_TRACE_SIZE : Nat := 0x5C0010
abbrev DBG_TRACE_HEAD : Nat := 0x5C0014
abbrev DBG_TRACE_TAIL : Nat := 0x5C0018
abbrev DBG_TRACE_DROPPED : Nat := 0x5C001C

end Reg

namespace F

abbrev SYS_ID_PART : Fld := ⟨0x000000, 31, 16, 0, 0⟩
abbrev SYS_ID_STEPPING : Fld := ⟨0x000000, 15, 8, 0, 0⟩
abbrev SYS_FW_SERIAL : Fld := ⟨0x000004, 31, 0, 0, 0⟩
abbrev SYS_STATUS_APPROVED : Fld := ⟨0x000008, 5, 5, 0, 0⟩
abbrev SYS_STATUS_RECOVERING : Fld := ⟨0x000008, 4, 4, 0, 0⟩
abbrev SYS_STATUS_FIRST_LIGHT : Fld := ⟨0x000008, 3, 3, 0, 0⟩
abbrev SYS_STATUS_IMAGE : Fld := ⟨0x000008, 2, 2, 0, 0⟩
abbrev SYS_STATUS_MEM_TRAINED : Fld := ⟨0x000008, 1, 1, 0, 0⟩
abbrev SYS_STATUS_FIELD_ON : Fld := ⟨0x000008, 0, 0, 0, 0⟩
abbrev SYS_UNIT_RESET_RESET_HI : Fld := ⟨0x000010, 19, 17, 0, 0⟩
abbrev SYS_UNIT_RESET_RESET_LO : Fld := ⟨0x000010, 15, 5, 0, 0⟩
abbrev SYS_RESET_STATUS_STATUS : Fld := ⟨0x000014, 31, 0, 0, 0⟩
abbrev SYS_LOG_CTRL_THRESHOLD : Fld := ⟨0x000100, 12, 1, 0, 0⟩
abbrev SYS_LOG_CTRL_MODE : Fld := ⟨0x000100, 0, 0, 0, 0⟩
abbrev SYS_LOG_HEAD_SEQ : Fld := ⟨0x000104, 31, 0, 0, 0⟩
abbrev SYS_LOG_TAIL_SEQ : Fld := ⟨0x000108, 31, 0, 0, 0⟩
abbrev SYS_LOG_DROPPED_COUNT : Fld := ⟨0x00010C, 31, 0, 0, 0⟩
abbrev SYS_FR_BASE_BASE : Fld := ⟨0x000110, 63, 8, 0, 0⟩
abbrev SYS_FR_SIZE_ENTRIES : Fld := ⟨0x000118, 11, 0, 0, 0⟩
abbrev SYS_FR_HEAD_HEAD : Fld := ⟨0x00011C, 11, 0, 0, 0⟩
abbrev SYS_FR_TAIL_TAIL : Fld := ⟨0x000120, 11, 0, 0, 0⟩
abbrev SYS_FR_DROPPED_COUNT : Fld := ⟨0x000124, 31, 0, 0, 0⟩
abbrev SYS_FW_ADDR_ADDR : Fld := ⟨0x000200, 63, 12, 0, 0⟩
abbrev SYS_FW_LEN_LEN : Fld := ⟨0x000208, 20, 0, 0, 0⟩
abbrev SYS_FW_CTRL_LOAD : Fld := ⟨0x00020C, 0, 0, 0, 0⟩
abbrev SYS_FW_STATUS_CODE : Fld := ⟨0x000210, 31, 16, 0, 0⟩
abbrev SYS_FW_STATUS_RUNNING : Fld := ⟨0x000210, 2, 2, 0, 0⟩
abbrev SYS_FW_STATUS_BUSY : Fld := ⟨0x000210, 1, 1, 0, 0⟩
abbrev SYS_FW_STATUS_DONE : Fld := ⟨0x000210, 0, 0, 0, 0⟩
abbrev SYS_IMG_ADDR_ADDR : Fld := ⟨0x000400, 63, 12, 0, 0⟩
abbrev SYS_IMG_LEN_LEN : Fld := ⟨0x000408, 24, 0, 0, 0⟩
abbrev SYS_IMG_CTRL_LOAD : Fld := ⟨0x00040C, 0, 0, 0, 0⟩
abbrev SYS_IMG_STATUS_HOLD_FRAMES : Fld := ⟨0x000410, 23, 16, 0, 0⟩
abbrev SYS_IMG_STATUS_STAGE : Fld := ⟨0x000410, 7, 4, 0, 0⟩
abbrev SYS_IMG_STATUS_COPIED : Fld := ⟨0x000410, 3, 3, 0, 0⟩
abbrev SYS_IMG_STATUS_ACTIVE : Fld := ⟨0x000410, 2, 2, 0, 0⟩
abbrev SYS_IMG_STATUS_BUSY : Fld := ⟨0x000410, 1, 1, 0, 0⟩
abbrev SYS_IMG_STATUS_DONE : Fld := ⟨0x000410, 0, 0, 0, 0⟩
abbrev SYS_IMG_ERROR_CODE : Fld := ⟨0x000414, 15, 0, 0, 0⟩
abbrev SYS_IMG_SERIAL_SERIAL : Fld := ⟨0x000418, 31, 0, 0, 0⟩
abbrev SYS_IMG_DIGEST_DIGEST : Fld := ⟨0x000420, 31, 0, 4, 0⟩
abbrev HST_CTRL_EP_POISON : Fld := ⟨0x040000, 0, 0, 0, 0⟩
abbrev HST_LINK_SPEED : Fld := ⟨0x040004, 11, 8, 0, 0⟩
abbrev HST_LINK_WIDTH : Fld := ⟨0x040004, 4, 0, 0, 0⟩
abbrev HST_SNAP_DESC_COUNT : Fld := ⟨0x040100, 31, 0, 0, 0⟩
abbrev HST_SNAP_INGEST_COUNT : Fld := ⟨0x040104, 31, 0, 0, 0⟩
abbrev HST_SNAP_EXPORT_COUNT : Fld := ⟨0x040108, 31, 0, 0, 0⟩
abbrev HST_SNAP_REFUSED_COUNT : Fld := ⟨0x04010C, 31, 0, 0, 0⟩
abbrev HST_SNAP_STALLED_US_COUNT : Fld := ⟨0x040110, 31, 0, 0, 0⟩
abbrev HST_SNAP_BAR2_READS_COUNT : Fld := ⟨0x040114, 31, 0, 0, 0⟩
abbrev HST_SNAP_RECOVERY_COUNT : Fld := ⟨0x040118, 31, 0, 0, 0⟩
abbrev HST_SNAP_AER_CORR_COUNT : Fld := ⟨0x04011C, 31, 0, 0, 0⟩
abbrev HST_WRING_BASE_BASE : Fld := ⟨0x041000, 63, 6, 64, 0⟩
abbrev HST_WRING_SIZE_ENTRIES : Fld := ⟨0x041008, 12, 0, 64, 0⟩
abbrev HST_WRING_TAIL_TAIL : Fld := ⟨0x04100C, 11, 0, 64, 0⟩
abbrev HST_CRING_BASE_BASE : Fld := ⟨0x041010, 63, 5, 64, 0⟩
abbrev HST_CRING_SIZE_ENTRIES : Fld := ⟨0x041018, 13, 0, 64, 0⟩
abbrev HST_CRING_HEAD_PHASE : Fld := ⟨0x04101C, 31, 31, 64, 0⟩
abbrev HST_CRING_HEAD_HEAD : Fld := ⟨0x04101C, 12, 0, 64, 0⟩
abbrev HST_RING_CTRL_ENABLE : Fld := ⟨0x041020, 31, 31, 64, 0⟩
abbrev HST_RING_CTRL_VECTOR : Fld := ⟨0x041020, 23, 16, 64, 0⟩
abbrev HST_RING_CTRL_PRIORITY : Fld := ⟨0x041020, 9, 8, 64, 0⟩
abbrev HST_RING_CTRL_WB_EN : Fld := ⟨0x041020, 0, 0, 64, 0⟩
abbrev HST_RING_STATUS_CODE : Fld := ⟨0x041024, 31, 16, 64, 0⟩
abbrev HST_RING_STATUS_STATE : Fld := ⟨0x041024, 2, 0, 64, 0⟩
abbrev HST_RING_WB_ADDR : Fld := ⟨0x041028, 63, 3, 64, 0⟩
abbrev CMT_STATUS_WAITING : Fld := ⟨0x0C0000, 23, 16, 0, 0⟩
abbrev CMT_STATUS_FULL : Fld := ⟨0x0C0000, 2, 2, 0, 0⟩
abbrev CMT_STATUS_RECOVERING : Fld := ⟨0x0C0000, 1, 1, 0, 0⟩
abbrev CMT_STATUS_CHECKING : Fld := ⟨0x0C0000, 0, 0, 0, 0⟩
abbrev CMT_EPOCH_SEALED_EPOCH : Fld := ⟨0x0C0004, 31, 0, 0, 0⟩
abbrev CMT_EPOCH_RETIRED_EPOCH : Fld := ⟨0x0C0008, 31, 0, 0, 0⟩
abbrev CMT_SNAP_EPOCH_EPOCH : Fld := ⟨0x0C000C, 31, 0, 0, 0⟩
abbrev CMT_FRAME_FRAME : Fld := ⟨0x0C0010, 63, 0, 0, 0⟩
abbrev CMT_LATCH_LOOKAHEAD_ROWS : Fld := ⟨0x0C0018, 31, 16, 0, 0⟩
abbrev CMT_LATCH_LATCH_LINE : Fld := ⟨0x0C0018, 15, 0, 0, 0⟩
abbrev CMT_SNAP_CTRL_EXPIRED : Fld := ⟨0x0C001C, 1, 1, 0, 0⟩
abbrev CMT_SNAP_CTRL_FREEZE : Fld := ⟨0x0C001C, 0, 0, 0, 0⟩
abbrev CMT_STAGE_CTRL_DISCARD : Fld := ⟨0x0C0020, 0, 0, 0, 0⟩
abbrev KLN_CTRL_K1_EN : Fld := ⟨0x100000, 1, 1, 0, 0⟩
abbrev KLN_CTRL_K0_EN : Fld := ⟨0x100000, 0, 0, 0, 0⟩
abbrev KLN_STATUS_K1_STATE : Fld := ⟨0x100004, 11, 8, 0, 0⟩
abbrev KLN_STATUS_K0_STATE : Fld := ⟨0x100004, 3, 0, 0, 0⟩
abbrev KLN_ADMIT_HOST_RESERVE : Fld := ⟨0x100008, 21, 16, 0, 0⟩
abbrev KLN_ADMIT_CHAIN_WAIT_US : Fld := ⟨0x100008, 15, 0, 0, 0⟩
abbrev KLN_HLG_PEAK : Fld := ⟨0x10000C, 31, 16, 0, 0⟩
abbrev KLN_HLG_GAMMA : Fld := ⟨0x10000C, 15, 8, 0, 0⟩
abbrev KLN_REF_WHITE_REF_WHITE : Fld := ⟨0x100010, 15, 0, 0, 0⟩
abbrev KLN_SNAP_BANDS_COUNT : Fld := ⟨0x100100, 31, 0, 0, 0⟩
abbrev KLN_SNAP_REFINE_DROPPED_COUNT : Fld := ⟨0x100104, 31, 0, 0, 0⟩
abbrev KLN_SNAP_HELD_COUNT : Fld := ⟨0x100108, 31, 0, 0, 0⟩
abbrev KLN_SNAP_LATE_COUNT : Fld := ⟨0x10010C, 31, 0, 0, 0⟩
abbrev KLN_SNAP_BASE_FAULTS_COUNT : Fld := ⟨0x100110, 31, 0, 0, 0⟩
abbrev KLN_SNAP_TILE_FAULTS_COUNT : Fld := ⟨0x100114, 31, 0, 0, 0⟩
abbrev KLN_SNAP_CHECK_MISMATCH_COUNT : Fld := ⟨0x100118, 31, 0, 0, 0⟩
abbrev KLN_PREMUL_CLAMPS_COUNT : Fld := ⟨0x10011C, 31, 0, 0, 0⟩
abbrev KLN_SNAP_RESET_STRATA_COUNT : Fld := ⟨0x100120, 31, 0, 0, 0⟩
abbrev KLN_SNAP_RATE_K0_COUNT : Fld := ⟨0x100124, 31, 0, 0, 0⟩
abbrev KLN_SNAP_RATE_K1_COUNT : Fld := ⟨0x100128, 31, 0, 0, 0⟩
abbrev KLN_SNAP_HOST_JOBS_COUNT : Fld := ⟨0x10012C, 31, 0, 0, 0⟩
abbrev KLN_CSC_COEF : Fld := ⟨0x100200, 31, 0, 64, 4⟩
abbrev KLN_CHAIN_BASE_BASE : Fld := ⟨0x100400, 63, 4, 32, 0⟩
abbrev KLN_CHAIN_SIZE_ENTRIES : Fld := ⟨0x100408, 12, 0, 32, 0⟩
abbrev KLN_CHAIN_HEAD_HEAD : Fld := ⟨0x10040C, 11, 0, 32, 0⟩
abbrev KLN_CHAIN_TAIL_TAIL : Fld := ⟨0x100410, 11, 0, 32, 0⟩
abbrev SLT_PLAN0_MODE : Fld := ⟨0x140000, 31, 24, 0, 0⟩
abbrev SLT_PLAN0_BAND_ROWS : Fld := ⟨0x140000, 23, 16, 0, 0⟩
abbrev SLT_PLAN0_LOOKAHEAD_BANDS : Fld := ⟨0x140000, 15, 8, 0, 0⟩
abbrev SLT_PLAN0_CARRY_ROWS : Fld := ⟨0x140000, 7, 0, 0, 0⟩
abbrev SLT_PLAN1_BANK_GRANULES : Fld := ⟨0x140004, 28, 16, 0, 0⟩
abbrev SLT_PLAN1_SCENE_GRANULES : Fld := ⟨0x140004, 12, 0, 0, 0⟩
abbrev SLT_PLAN2_FLAT_GRANULES : Fld := ⟨0x140008, 12, 0, 0, 0⟩
abbrev SLT_GEOM_DELTA_V : Fld := ⟨0x14000C, 31, 16, 0, 0⟩
abbrev SLT_GEOM_DELTA_H : Fld := ⟨0x14000C, 15, 0, 0, 0⟩
abbrev SLT_BANK_B_RETIRED : Fld := ⟨0x140010, 29, 24, 0, 0⟩
abbrev SLT_BANK_A_RETIRED : Fld := ⟨0x140010, 21, 16, 0, 0⟩
abbrev SLT_BANK_NEXT : Fld := ⟨0x140010, 8, 8, 0, 0⟩
abbrev SLT_BANK_B_STATE : Fld := ⟨0x140010, 7, 4, 0, 0⟩
abbrev SLT_BANK_A_STATE : Fld := ⟨0x140010, 3, 0, 0, 0⟩
abbrev SLT_CTRL_RETIRE_EN : Fld := ⟨0x140014, 1, 1, 0, 0⟩
abbrev SLT_CTRL_CARRY_EN : Fld := ⟨0x140014, 0, 0, 0, 0⟩
abbrev SLT_SNAP_PEAK_COUNT : Fld := ⟨0x140100, 31, 0, 0, 0⟩
abbrev SLT_SNAP_STEP1_COUNT : Fld := ⟨0x140104, 31, 0, 0, 0⟩
abbrev SLT_SNAP_STEP2_COUNT : Fld := ⟨0x140108, 31, 0, 0, 0⟩
abbrev SLT_SNAP_HELD_COUNT : Fld := ⟨0x14010C, 31, 0, 0, 0⟩
abbrev SLT_SNAP_DECL_COUNT : Fld := ⟨0x140110, 31, 0, 0, 0⟩
abbrev SLT_SNAP_CARRIED_COUNT : Fld := ⟨0x140114, 31, 0, 0, 0⟩
abbrev SLT_SNAP_FETCH_BYTES_COUNT : Fld := ⟨0x140118, 31, 0, 0, 0⟩
abbrev SLT_SNAP_ECC_CORR_COUNT : Fld := ⟨0x14011C, 31, 0, 0, 0⟩
abbrev SLT_SNAP_ECC_UNCORR_COUNT : Fld := ⟨0x140120, 31, 0, 0, 0⟩
abbrev RRG_CTRL_LANE_TRIM_EN : Fld := ⟨0x180000, 21, 21, 0, 0⟩
abbrev RRG_CTRL_ZONE_TRIM_EN : Fld := ⟨0x180000, 20, 20, 0, 0⟩
abbrev RRG_CTRL_LANE_RUN : Fld := ⟨0x180000, 19, 8, 0, 0⟩
abbrev RRG_CTRL_ZONE_RUN : Fld := ⟨0x180000, 7, 0, 0, 0⟩
abbrev RRG_TRIGGER_LANE_DELTA : Fld := ⟨0x180004, 31, 24, 0, 0⟩
abbrev RRG_TRIGGER_ZONE_DELTA : Fld := ⟨0x180004, 23, 16, 0, 0⟩
abbrev RRG_TRIGGER_LANE_PERIOD : Fld := ⟨0x180004, 15, 0, 0, 0⟩
abbrev RRG_FOM_FOM_MIN : Fld := ⟨0x180008, 7, 0, 0, 0⟩
abbrev RRG_ZONE_STATUS_RUN_TEMP : Fld := ⟨0x180010, 31, 16, 4, 0⟩
abbrev RRG_ZONE_STATUS_TEMP_LOST : Fld := ⟨0x180010, 7, 7, 4, 0⟩
abbrev RRG_ZONE_STATUS_ACTIVE_HALF : Fld := ⟨0x180010, 6, 6, 4, 0⟩
abbrev RRG_ZONE_STATUS_BUILT : Fld := ⟨0x180010, 5, 5, 4, 0⟩
abbrev RRG_ZONE_STATUS_STATE : Fld := ⟨0x180010, 3, 0, 4, 0⟩
abbrev RRG_ZONE_TEMP_TEMP : Fld := ⟨0x180030, 15, 0, 4, 0⟩
abbrev RRG_SET_ADDR_ADDR : Fld := ⟨0x180100, 63, 12, 0, 0⟩
abbrev RRG_SET_LEN_LEN : Fld := ⟨0x180108, 31, 0, 0, 0⟩
abbrev RRG_SET_CTRL_LOAD : Fld := ⟨0x18010C, 0, 0, 0, 0⟩
abbrev RRG_SET_STATUS_CODE : Fld := ⟨0x180110, 31, 16, 0, 0⟩
abbrev RRG_SET_STATUS_VALID : Fld := ⟨0x180110, 15, 8, 0, 0⟩
abbrev RRG_SET_STATUS_BUSY : Fld := ⟨0x180110, 2, 2, 0, 0⟩
abbrev RRG_SET_STATUS_DONE : Fld := ⟨0x180110, 0, 0, 0, 0⟩
abbrev RRG_SET_TEMP_TEMP : Fld := ⟨0x180120, 15, 0, 4, 0⟩
abbrev RRG_LANE_STATUS_FOM : Fld := ⟨0x180200, 15, 8, 16, 0⟩
abbrev RRG_LANE_STATUS_FOM_STALE : Fld := ⟨0x180200, 7, 7, 16, 0⟩
abbrev RRG_LANE_STATUS_AT_LIMIT : Fld := ⟨0x180200, 6, 6, 16, 0⟩
abbrev RRG_LANE_STATUS_STATE : Fld := ⟨0x180200, 2, 0, 16, 0⟩
abbrev RRG_LANE_SET0_TAP3 : Fld := ⟨0x180204, 31, 24, 16, 0⟩
abbrev RRG_LANE_SET0_TAP2 : Fld := ⟨0x180204, 23, 16, 16, 0⟩
abbrev RRG_LANE_SET0_TAP1 : Fld := ⟨0x180204, 15, 8, 16, 0⟩
abbrev RRG_LANE_SET0_OFFSET : Fld := ⟨0x180204, 7, 0, 16, 0⟩
abbrev RRG_LANE_SET1_TAP5 : Fld := ⟨0x180208, 15, 8, 16, 0⟩
abbrev RRG_LANE_SET1_TAP4 : Fld := ⟨0x180208, 7, 0, 16, 0⟩
abbrev RRG_SNAP_ZONE_RUNS_COUNT : Fld := ⟨0x180400, 31, 0, 0, 0⟩
abbrev RRG_SNAP_PUBLISHED_COUNT : Fld := ⟨0x180404, 31, 0, 0, 0⟩
abbrev RRG_SNAP_STALE_COUNT : Fld := ⟨0x180408, 31, 0, 0, 0⟩
abbrev RRG_SNAP_ENTRY_LOST_COUNT : Fld := ⟨0x18040C, 31, 0, 0, 0⟩
abbrev RRG_SNAP_LIVE_ECC_COUNT : Fld := ⟨0x180410, 31, 0, 0, 0⟩
abbrev RRG_SNAP_LANE_RUNS_COUNT : Fld := ⟨0x180414, 31, 0, 0, 0⟩
abbrev RRG_SNAP_LANE_LIMIT_COUNT : Fld := ⟨0x180418, 31, 0, 0, 0⟩
abbrev ROK_CTRL_FILE_EN : Fld := ⟨0x1C0000, 31, 16, 0, 0⟩
abbrev ROK_CTRL_DITHER : Fld := ⟨0x1C0000, 7, 6, 0, 0⟩
abbrev ROK_CTRL_NO_COARSE : Fld := ⟨0x1C0000, 5, 5, 0, 0⟩
abbrev ROK_CTRL_NO_BILINEAR : Fld := ⟨0x1C0000, 4, 4, 0, 0⟩
abbrev ROK_CTRL_DEMURA_EN : Fld := ⟨0x1C0000, 1, 1, 0, 0⟩
abbrev ROK_CTRL_FILTER : Fld := ⟨0x1C0000, 0, 0, 0, 0⟩
abbrev ROK_STATUS_F_STATE : Fld := ⟨0x1C0004, 31, 0, 0, 0⟩
abbrev ROK_BAND_BAND : Fld := ⟨0x1C0008, 31, 16, 0, 0⟩
abbrev ROK_BAND_STEP : Fld := ⟨0x1C0008, 2, 0, 0, 0⟩
abbrev ROK_PACE_GUARD_NS : Fld := ⟨0x1C000C, 31, 16, 0, 0⟩
abbrev ROK_PACE_MARGIN : Fld := ⟨0x1C000C, 15, 8, 0, 0⟩
abbrev ROK_LOD_LOD_BIAS : Fld := ⟨0x1C0010, 7, 0, 0, 0⟩
abbrev ROK_BG0_G : Fld := ⟨0x1C0014, 31, 16, 0, 0⟩
abbrev ROK_BG0_R : Fld := ⟨0x1C0014, 15, 0, 0, 0⟩
abbrev ROK_BG1_B : Fld := ⟨0x1C0018, 15, 0, 0, 0⟩
abbrev ROK_DEMURA_STEP : Fld := ⟨0x1C001C, 7, 0, 0, 0⟩
abbrev ROK_OUT_MATRIX_COEF : Fld := ⟨0x1C0100, 31, 0, 4, 0⟩
abbrev ROK_SNAP_BANDS_COUNT : Fld := ⟨0x1C0200, 31, 0, 0, 0⟩
abbrev ROK_SNAP_STEP2_COUNT : Fld := ⟨0x1C0204, 31, 0, 0, 0⟩
abbrev ROK_SNAP_STEP3_COUNT : Fld := ⟨0x1C0208, 31, 0, 0, 0⟩
abbrev ROK_SNAP_PACE_HELD_COUNT : Fld := ⟨0x1C020C, 31, 0, 0, 0⟩
abbrev ROK_SNAP_LATE_COUNT : Fld := ⟨0x1C0210, 31, 0, 0, 0⟩
abbrev ROK_SNAP_ABANDONED_COUNT : Fld := ⟨0x1C0214, 31, 0, 0, 0⟩
abbrev ROK_SNAP_OVERFLOW_COUNT : Fld := ⟨0x1C0218, 31, 0, 0, 0⟩
abbrev ROK_SNAP_SLOTS_COUNT : Fld := ⟨0x1C021C, 31, 0, 0, 0⟩
abbrev ROK_SNAP_EARLY_STOP_COUNT : Fld := ⟨0x1C0220, 31, 0, 0, 0⟩
abbrev ROK_SNAP_CAPPED_COUNT : Fld := ⟨0x1C0224, 31, 0, 0, 0⟩
abbrev ROK_SNAP_NONFINITE_COUNT : Fld := ⟨0x1C0228, 31, 0, 0, 0⟩
abbrev ROK_SNAP_FILE_FAULTS_COUNT : Fld := ⟨0x1C022C, 31, 0, 0, 0⟩
abbrev ROK_SNAP_SILT_WAIT_NS_COUNT : Fld := ⟨0x1C0230, 31, 0, 0, 0⟩
abbrev ROK_SNAP_RATE_COUNT : Fld := ⟨0x1C0234, 31, 0, 0, 0⟩
abbrev ROK_SNAP_LUT_PARITY_COUNT : Fld := ⟨0x1C0238, 31, 0, 0, 0⟩
abbrev ROK_LUT_VALUE : Fld := ⟨0x1C1000, 15, 0, 4096, 4⟩
abbrev BRD_CTRL_SUBST_EN : Fld := ⟨0x200000, 1, 1, 0, 0⟩
abbrev BRD_CTRL_CULL_EN : Fld := ⟨0x200000, 0, 0, 0, 0⟩
abbrev BRD_STATUS_BAND : Fld := ⟨0x200004, 31, 16, 0, 0⟩
abbrev BRD_STATUS_STATE : Fld := ⟨0x200004, 3, 0, 0, 0⟩
abbrev BRD_BLINK_PERIOD_MS : Fld := ⟨0x200010, 31, 16, 4, 0⟩
abbrev BRD_BLINK_DUTY : Fld := ⟨0x200010, 15, 8, 4, 0⟩
abbrev BRD_CTX_CMD_OP : Fld := ⟨0x200040, 31, 28, 0, 0⟩
abbrev BRD_CTX_CMD_CONTEXT : Fld := ⟨0x200040, 11, 0, 0, 0⟩
abbrev BRD_CTX_RESULT_CODE : Fld := ⟨0x200044, 31, 16, 0, 0⟩
abbrev BRD_CTX_RESULT_DONE : Fld := ⟨0x200044, 0, 0, 0, 0⟩
abbrev BRD_CTX_COUNT_REGISTERED : Fld := ⟨0x200048, 28, 16, 0, 0⟩
abbrev BRD_CTX_COUNT_LIVE : Fld := ⟨0x200048, 8, 0, 0, 0⟩
abbrev BRD_SNAP_LISTS_COUNT : Fld := ⟨0x200100, 31, 0, 0, 0⟩
abbrev BRD_SNAP_CULLED_COUNT : Fld := ⟨0x200104, 31, 0, 0, 0⟩
abbrev BRD_SNAP_TRUNCATED_COUNT : Fld := ⟨0x200108, 31, 0, 0, 0⟩
abbrev BRD_SNAP_LIST_LATE_COUNT : Fld := ⟨0x20010C, 31, 0, 0, 0⟩
abbrev BRD_SNAP_LATE_LAYERS_COUNT : Fld := ⟨0x200110, 31, 0, 0, 0⟩
abbrev BRD_SNAP_SUBST_COUNT : Fld := ⟨0x200114, 31, 0, 0, 0⟩
abbrev BRD_SNAP_SUBST_FAILED_COUNT : Fld := ⟨0x200118, 31, 0, 0, 0⟩
abbrev BRD_SNAP_ENTRY_PEAK_COUNT : Fld := ⟨0x20011C, 31, 0, 0, 0⟩
abbrev BRD_SNAP_LAYER_LATE_APPLIED : Fld := ⟨0x202000, 31, 28, 4, 0⟩
abbrev BRD_SNAP_LAYER_LATE_REASON : Fld := ⟨0x202000, 27, 24, 4, 0⟩
abbrev BRD_SNAP_LAYER_LATE_BANDS : Fld := ⟨0x202000, 23, 0, 4, 0⟩
abbrev BRD_CTX_STATE_STATE : Fld := ⟨0x204000, 1, 0, 4, 0⟩
abbrev SVE_CTRL_PIPE_EN : Fld := ⟨0x240000, 3, 0, 0, 0⟩
abbrev SVE_STATUS_P_STATE : Fld := ⟨0x240004, 15, 0, 0, 0⟩
abbrev SVE_TBL_SEL_PIPE : Fld := ⟨0x240010, 31, 30, 0, 0⟩
abbrev SVE_TBL_SEL_KIND : Fld := ⟨0x240010, 29, 29, 0, 0⟩
abbrev SVE_TBL_SEL_TABLE : Fld := ⟨0x240010, 28, 26, 0, 0⟩
abbrev SVE_TBL_SEL_INDEX : Fld := ⟨0x240010, 11, 0, 0, 0⟩
abbrev SVE_TBL_DATA_VALUE : Fld := ⟨0x240014, 15, 0, 0, 0⟩
abbrev SVE_APPLY_APPLY : Fld := ⟨0x240018, 3, 0, 0, 0⟩
abbrev SVE_QUEUE_DEPTH : Fld := ⟨0x24001C, 31, 0, 0, 0⟩
abbrev SVE_SNAP_FRAMES_COUNT : Fld := ⟨0x240100, 31, 0, 0, 0⟩
abbrev SVE_SNAP_SUPERSEDED_COUNT : Fld := ⟨0x240104, 31, 0, 0, 0⟩
abbrev SVE_SNAP_DROPPED_COUNT : Fld := ⟨0x240108, 31, 0, 0, 0⟩
abbrev SVE_SNAP_NOT_LIVE_COUNT : Fld := ⟨0x24010C, 31, 0, 0, 0⟩
abbrev SVE_SNAP_STRIPED_COUNT : Fld := ⟨0x240110, 31, 0, 0, 0⟩
abbrev SVE_SNAP_APPLY_REFUSED_COUNT : Fld := ⟨0x240114, 31, 0, 0, 0⟩
abbrev TRW_STATUS_ROWS : Fld := ⟨0x280000, 31, 16, 0, 0⟩
abbrev TRW_STATUS_METHOD : Fld := ⟨0x280000, 5, 4, 0, 0⟩
abbrev TRW_STATUS_STATE : Fld := ⟨0x280000, 3, 0, 0, 0⟩
abbrev TRW_LAST_TAG : Fld := ⟨0x280004, 31, 0, 0, 0⟩
abbrev TRW_SNAP_JOBS_COUNT : Fld := ⟨0x280100, 31, 0, 0, 0⟩
abbrev TRW_SNAP_SAMPLES_COUNT : Fld := ⟨0x280104, 31, 0, 0, 0⟩
abbrev TRW_SNAP_REVERSED_COUNT : Fld := ⟨0x280108, 31, 0, 0, 0⟩
abbrev TRW_SNAP_SCRATCH_COUNT : Fld := ⟨0x28010C, 31, 0, 0, 0⟩
abbrev TRW_SNAP_REFUSED_COUNT : Fld := ⟨0x280110, 31, 0, 0, 0⟩
abbrev OUT_MODE_ROW0 : Fld := ⟨0x2C0000, 30, 16, 0, 0⟩
abbrev OUT_MODE_MODE : Fld := ⟨0x2C0000, 5, 0, 0, 0⟩
abbrev OUT_PHASE_PHASE_NS : Fld := ⟨0x2C0004, 31, 0, 0, 0⟩
abbrev OUT_LOCK_TE_LOST : Fld := ⟨0x2C0008, 16, 16, 0, 0⟩
abbrev OUT_LOCK_CAND : Fld := ⟨0x2C0008, 9, 8, 0, 0⟩
abbrev OUT_LOCK_STATE : Fld := ⟨0x2C0008, 2, 0, 0, 0⟩
abbrev OUT_PHASE_ERR_E_NS : Fld := ⟨0x2C000C, 31, 0, 0, 0⟩
abbrev OUT_REF_PERIOD_PERIOD : Fld := ⟨0x2C0010, 31, 0, 0, 0⟩
abbrev OUT_LINE_PERIOD_PERIOD : Fld := ⟨0x2C0014, 31, 0, 0, 0⟩
abbrev OUT_TE_TE_EN : Fld := ⟨0x2C0018, 31, 31, 0, 0⟩
abbrev OUT_TE_ACTIVE : Fld := ⟨0x2C0018, 23, 16, 0, 0⟩
abbrev OUT_TE_GUARD_ROWS : Fld := ⟨0x2C0018, 15, 0, 0, 0⟩
abbrev OUT_TE_PERIOD_P_TE : Fld := ⟨0x2C001C, 31, 0, 0, 0⟩
abbrev OUT_LIGHT_HYST_US : Fld := ⟨0x2C0020, 31, 16, 0, 0⟩
abbrev OUT_LIGHT_Y_REF : Fld := ⟨0x2C0020, 14, 0, 0, 0⟩
abbrev OUT_LIGHT_NS_LATENCY : Fld := ⟨0x2C0024, 31, 0, 0, 0⟩
abbrev OUT_MEM_TOL_TOL_NS : Fld := ⟨0x2C0028, 31, 0, 0, 0⟩
abbrev OUT_SNAP_GLITCHES_COUNT : Fld := ⟨0x2C0100, 31, 0, 0, 0⟩
abbrev OUT_SNAP_RELOCKS_COUNT : Fld := ⟨0x2C0104, 31, 0, 0, 0⟩
abbrev OUT_SNAP_DISCONT_COUNT : Fld := ⟨0x2C0108, 31, 0, 0, 0⟩
abbrev OUT_SNAP_DISCONT_US_COUNT : Fld := ⟨0x2C010C, 31, 0, 0, 0⟩
abbrev OUT_SNAP_FLYWHEEL_FRAMES_COUNT : Fld := ⟨0x2C0110, 31, 0, 0, 0⟩
abbrev OUT_SNAP_SLEW_FRAMES_COUNT : Fld := ⟨0x2C0114, 31, 0, 0, 0⟩
abbrev OUT_SNAP_PHASE_MAX_COUNT : Fld := ⟨0x2C0118, 31, 0, 0, 0⟩
abbrev OUT_SNAP_TE_DELAYED_COUNT : Fld := ⟨0x2C011C, 31, 0, 0, 0⟩
abbrev OUT_SNAP_TE_TEARS_COUNT : Fld := ⟨0x2C0120, 31, 0, 0, 0⟩
abbrev OUT_SNAP_ECC_CORR_COUNT : Fld := ⟨0x2C0124, 31, 0, 0, 0⟩
abbrev OUT_SNAP_ECC_UNCORR_COUNT : Fld := ⟨0x2C0128, 31, 0, 0, 0⟩
abbrev TLK_CTRL_RETRAIN_CRC : Fld := ⟨0x300000, 23, 16, 0, 0⟩
abbrev TLK_CTRL_RETRAIN : Fld := ⟨0x300000, 15, 8, 0, 0⟩
abbrev TLK_CTRL_READBACK_EN : Fld := ⟨0x300000, 0, 0, 0, 0⟩
abbrev TLK_HOLD_HOLD_LIMIT_MS : Fld := ⟨0x300004, 15, 0, 0, 0⟩
abbrev TLK_GROUP_STATUS_LANE_LOCK : Fld := ⟨0x300010, 21, 16, 4, 0⟩
abbrev TLK_GROUP_STATUS_LANE_DETECT : Fld := ⟨0x300010, 13, 8, 4, 0⟩
abbrev TLK_GROUP_STATUS_BC_LOCK : Fld := ⟨0x300010, 7, 7, 4, 0⟩
abbrev TLK_GROUP_STATUS_BC_LOST : Fld := ⟨0x300010, 6, 6, 4, 0⟩
abbrev TLK_GROUP_STATUS_HOLDING : Fld := ⟨0x300010, 5, 5, 4, 0⟩
abbrev TLK_GROUP_STATUS_STATE : Fld := ⟨0x300010, 2, 0, 4, 0⟩
abbrev TLK_DELAY_T_PIPE : Fld := ⟨0x300030, 15, 0, 0, 0⟩
abbrev TLK_TILE_ID_TILE_ID : Fld := ⟨0x300040, 63, 0, 8, 0⟩
abbrev TLK_TILE_INFO_CODE_BITS : Fld := ⟨0x300080, 29, 28, 4, 0⟩
abbrev TLK_TILE_INFO_MEMORY : Fld := ⟨0x300080, 27, 26, 4, 0⟩
abbrev TLK_TILE_INFO_D_PANEL_US : Fld := ⟨0x300080, 23, 0, 4, 0⟩
abbrev TLK_TILE_FOM_FOM3 : Fld := ⟨0x3000A0, 31, 24, 4, 0⟩
abbrev TLK_TILE_FOM_FOM2 : Fld := ⟨0x3000A0, 23, 16, 4, 0⟩
abbrev TLK_TILE_FOM_FOM1 : Fld := ⟨0x3000A0, 15, 8, 4, 0⟩
abbrev TLK_TILE_FOM_FOM0 : Fld := ⟨0x3000A0, 7, 0, 4, 0⟩
abbrev TLK_SNAP_LINES_COUNT : Fld := ⟨0x300100, 31, 0, 0, 0⟩
abbrev TLK_SNAP_HOLD_LINES_COUNT : Fld := ⟨0x300104, 31, 0, 0, 0⟩
abbrev TLK_SNAP_HOLD_BANDS_COUNT : Fld := ⟨0x300108, 31, 0, 0, 0⟩
abbrev TLK_SNAP_RETRAINS_COUNT : Fld := ⟨0x30010C, 31, 0, 0, 0⟩
abbrev TLK_SNAP_TILE_CRC_COUNT : Fld := ⟨0x300110, 31, 0, 0, 0⟩
abbrev TLK_SNAP_TILE_HCRC_COUNT : Fld := ⟨0x300114, 31, 0, 0, 0⟩
abbrev TLK_SNAP_ALIVE_COUNT : Fld := ⟨0x300118, 31, 0, 0, 0⟩
abbrev TLK_SNAP_READBACK_COUNT : Fld := ⟨0x30011C, 31, 0, 0, 0⟩
abbrev TLK_SNAP_BC_CHECK_COUNT : Fld := ⟨0x300120, 31, 0, 0, 0⟩
abbrev TLK_SNAP_FIFO_COUNT : Fld := ⟨0x300124, 31, 0, 0, 0⟩
abbrev PNL_CTRL_BAL_LIMIT : Fld := ⟨0x340000, 15, 8, 0, 0⟩
abbrev PNL_CTRL_GEN : Fld := ⟨0x340000, 5, 4, 0, 0⟩
abbrev PNL_CTRL_SELECT_EN : Fld := ⟨0x340000, 2, 2, 0, 0⟩
abbrev PNL_CTRL_POWER_ON : Fld := ⟨0x340000, 1, 1, 0, 0⟩
abbrev PNL_CTRL_POWER_OFF : Fld := ⟨0x340000, 0, 0, 0, 0⟩
abbrev PNL_STATUS_DMR_HALF : Fld := ⟨0x340004, 9, 9, 0, 0⟩
abbrev PNL_STATUS_SHOWN : Fld := ⟨0x340004, 8, 8, 0, 0⟩
abbrev PNL_STATUS_STATE : Fld := ⟨0x340004, 2, 0, 0, 0⟩
abbrev PNL_DIS_GATE_MS : Fld := ⟨0x340008, 31, 16, 0, 0⟩
abbrev PNL_DIS_BLACK_MS : Fld := ⟨0x340008, 15, 0, 0, 0⟩
abbrev PNL_DIS2_VCOM_MS : Fld := ⟨0x34000C, 15, 0, 0, 0⟩
abbrev PNL_DMR_ADDR_ADDR : Fld := ⟨0x340100, 63, 12, 0, 0⟩
abbrev PNL_DMR_LEN_LEN : Fld := ⟨0x340108, 31, 0, 0, 0⟩
abbrev PNL_DMR_CTRL_LOAD : Fld := ⟨0x34010C, 0, 0, 0, 0⟩
abbrev PNL_DMR_STATUS_CODE : Fld := ⟨0x340110, 31, 16, 0, 0⟩
abbrev PNL_DMR_STATUS_BUSY : Fld := ⟨0x340110, 2, 2, 0, 0⟩
abbrev PNL_DMR_STATUS_VALID : Fld := ⟨0x340110, 1, 1, 0, 0⟩
abbrev PNL_DMR_STATUS_DONE : Fld := ⟨0x340110, 0, 0, 0, 0⟩
abbrev PNL_SNAP_SEGMENTS_COUNT : Fld := ⟨0x340200, 31, 0, 0, 0⟩
abbrev PNL_SNAP_BALANCE_COUNT : Fld := ⟨0x340204, 31, 0, 0, 0⟩
abbrev PNL_SNAP_CUT_COUNT : Fld := ⟨0x340208, 31, 0, 0, 0⟩
abbrev PNL_SNAP_SAT_COUNT : Fld := ⟨0x34020C, 31, 0, 0, 0⟩
abbrev PNL_SNAP_SELECTS_COUNT : Fld := ⟨0x340210, 31, 0, 0, 0⟩
abbrev PNL_SNAP_ECC_COUNT : Fld := ⟨0x340214, 31, 0, 0, 0⟩
abbrev LBL_CTRL_SCK_DIV : Fld := ⟨0x380000, 23, 16, 0, 0⟩
abbrev LBL_CTRL_TEMP_SRC : Fld := ⟨0x380000, 2, 2, 0, 0⟩
abbrev LBL_CTRL_HV_EN : Fld := ⟨0x380000, 1, 1, 0, 0⟩
abbrev LBL_CTRL_ENABLE : Fld := ⟨0x380000, 0, 0, 0, 0⟩
abbrev LBL_STATUS_BAND : Fld := ⟨0x380004, 10, 8, 0, 0⟩
abbrev LBL_STATUS_STATE : Fld := ⟨0x380004, 2, 0, 0, 0⟩
abbrev LBL_TEMP_TEMP : Fld := ⟨0x380008, 15, 0, 0, 0⟩
abbrev LBL_BANDS0_B3_B2_B1_B0 : Fld := ⟨0x38000C, 31, 0, 0, 0⟩
abbrev LBL_BANDS1_B6_B5_B4 : Fld := ⟨0x380010, 23, 0, 0, 0⟩
abbrev LBL_CLEAN_CLEAN_S : Fld := ⟨0x380014, 15, 0, 0, 0⟩
abbrev LBL_WAVE_SEL_BAND : Fld := ⟨0x380020, 7, 5, 0, 0⟩
abbrev LBL_WAVE_SEL_KIND : Fld := ⟨0x380020, 4, 4, 0, 0⟩
abbrev LBL_WAVE_SEL_PHASE : Fld := ⟨0x380020, 3, 0, 0, 0⟩
abbrev LBL_WAVE_DATA_RECORD : Fld := ⟨0x380024, 31, 0, 0, 0⟩
abbrev LBL_WAVE_APPLY_APPLY : Fld := ⟨0x380028, 0, 0, 0, 0⟩
abbrev LBL_SNAP_UPDATES_COUNT : Fld := ⟨0x380100, 31, 0, 0, 0⟩
abbrev LBL_SNAP_COMMONS_COUNT : Fld := ⟨0x380104, 31, 0, 0, 0⟩
abbrev LBL_SNAP_BLINKS_COUNT : Fld := ⟨0x380108, 31, 0, 0, 0⟩
abbrev LBL_SNAP_INVERTED_COUNT : Fld := ⟨0x38010C, 31, 0, 0, 0⟩
abbrev LBL_SNAP_NV_COUNT : Fld := ⟨0x380110, 31, 0, 0, 0⟩
abbrev LBL_DC_COUNT : Fld := ⟨0x380400, 31, 0, 4, 0⟩
abbrev MEM_STATUS_SLOTS : Fld := ⟨0x3C0000, 28, 16, 0, 0⟩
abbrev MEM_STATUS_TRAINED : Fld := ⟨0x3C0000, 0, 0, 0, 0⟩
abbrev MEM_POLICY0_MODE : Fld := ⟨0x3C0004, 21, 20, 0, 0⟩
abbrev MEM_POLICY0_IDLE_US : Fld := ⟨0x3C0004, 19, 0, 0, 0⟩
abbrev MEM_POLICY1_TOLERANCE_NS : Fld := ⟨0x3C0008, 16, 0, 0, 0⟩
abbrev MEM_CHAN_STATUS_SLOTS : Fld := ⟨0x3C0010, 24, 16, 4, 0⟩
abbrev MEM_CHAN_STATUS_HOT : Fld := ⟨0x3C0010, 15, 15, 4, 0⟩
abbrev MEM_CHAN_STATUS_MR4_RATE : Fld := ⟨0x3C0010, 14, 12, 4, 0⟩
abbrev MEM_CHAN_STATUS_RANK1_STATE : Fld := ⟨0x3C0010, 9, 8, 4, 0⟩
abbrev MEM_CHAN_STATUS_RANK0_STATE : Fld := ⟨0x3C0010, 5, 4, 4, 0⟩
abbrev MEM_CHAN_STATUS_STATE : Fld := ⟨0x3C0010, 3, 0, 4, 0⟩
abbrev MEM_PORT_TARGET_NS : Fld := ⟨0x3C0100, 31, 16, 4, 0⟩
abbrev MEM_PORT_MAX_SLOTS : Fld := ⟨0x3C0100, 12, 0, 4, 0⟩
abbrev MEM_PASR_KEEP_KEEP : Fld := ⟨0x3C0200, 15, 0, 0, 0⟩
abbrev MEM_SCRUB_HOURS : Fld := ⟨0x3C0204, 7, 0, 0, 0⟩
abbrev MEM_ERR_ADDR_ADDR : Fld := ⟨0x3C0208, 36, 6, 0, 0⟩
abbrev MEM_SNAP_READ_COUNT : Fld := ⟨0x3C0300, 31, 0, 0, 0⟩
abbrev MEM_SNAP_WRITE_COUNT : Fld := ⟨0x3C0304, 31, 0, 0, 0⟩
abbrev MEM_SNAP_ECC_CORR_COUNT : Fld := ⟨0x3C0308, 31, 0, 0, 0⟩
abbrev MEM_SNAP_ECC_UNCORR_COUNT : Fld := ⟨0x3C030C, 31, 0, 0, 0⟩
abbrev MEM_SNAP_URGENT_COUNT : Fld := ⟨0x3C0310, 31, 0, 0, 0⟩
abbrev MEM_SNAP_LAT_MAX_COUNT : Fld := ⟨0x3C0314, 31, 0, 0, 0⟩
abbrev MEM_SNAP_PD_US_COUNT : Fld := ⟨0x3C0318, 31, 0, 0, 0⟩
abbrev MEM_SNAP_SR_US_COUNT : Fld := ⟨0x3C031C, 31, 0, 0, 0⟩
abbrev MEM_SNAP_REF_POSTPONED_COUNT : Fld := ⟨0x3C0320, 31, 0, 0, 0⟩
abbrev MEM_SNAP_RETRAIN_NS_COUNT : Fld := ⟨0x3C0324, 31, 0, 0, 0⟩
abbrev MEM_SNAP_SLOT_WAIT_COUNT : Fld := ⟨0x3C0328, 31, 0, 0, 0⟩
abbrev TIM_CTRL_REVERT_S : Fld := ⟨0x400000, 31, 16, 0, 0⟩
abbrev TIM_CTRL_COPY_PTP : Fld := ⟨0x400000, 6, 6, 0, 0⟩
abbrev TIM_CTRL_FORCE : Fld := ⟨0x400000, 5, 5, 0, 0⟩
abbrev TIM_CTRL_STEP : Fld := ⟨0x400000, 4, 4, 0, 0⟩
abbrev TIM_CTRL_CASTLE : Fld := ⟨0x400000, 3, 3, 0, 0⟩
abbrev TIM_CTRL_DOMAIN : Fld := ⟨0x400000, 2, 2, 0, 0⟩
abbrev TIM_CTRL_PREFER : Fld := ⟨0x400000, 0, 0, 0, 0⟩
abbrev TIM_STATUS_PORT_UP : Fld := ⟨0x400004, 11, 8, 0, 0⟩
abbrev TIM_STATUS_SRV_B : Fld := ⟨0x400004, 7, 6, 0, 0⟩
abbrev TIM_STATUS_SRV_A : Fld := ⟨0x400004, 5, 4, 0, 0⟩
abbrev TIM_STATUS_SOURCE : Fld := ⟨0x400004, 3, 3, 0, 0⟩
abbrev TIM_STATUS_TB_STATE : Fld := ⟨0x400004, 2, 0, 0, 0⟩
abbrev TIM_TIME_NS_NS : Fld := ⟨0x400010, 31, 0, 0, 0⟩
abbrev TIM_TIME_SEC_LO_SEC : Fld := ⟨0x400014, 31, 0, 0, 0⟩
abbrev TIM_TIME_SEC_HI_FRAC : Fld := ⟨0x400018, 23, 16, 0, 0⟩
abbrev TIM_TIME_SEC_HI_SEC : Fld := ⟨0x400018, 15, 0, 0, 0⟩
abbrev TIM_SHORT_STAMP : Fld := ⟨0x40001C, 31, 0, 0, 0⟩
abbrev TIM_SERVO_SLEW_PPB : Fld := ⟨0x400020, 10, 0, 0, 0⟩
abbrev TIM_CASTLE_MAX_MAX_US : Fld := ⟨0x400024, 15, 0, 0, 0⟩
abbrev TIM_DOMAIN_DIFF_DIFF_NS : Fld := ⟨0x400028, 31, 0, 0, 0⟩
abbrev TIM_TB_FREQ_PPB : Fld := ⟨0x40002C, 31, 0, 0, 0⟩
abbrev TIM_SRV_CFG_ENABLE : Fld := ⟨0x400100, 31, 31, 64, 0⟩
abbrev TIM_SRV_CFG_UNICAST_DREQ : Fld := ⟨0x400100, 30, 30, 64, 0⟩
abbrev TIM_SRV_CFG_TRANSPORT : Fld := ⟨0x400100, 29, 29, 64, 0⟩
abbrev TIM_SRV_CFG_ANN_TIMEOUT : Fld := ⟨0x400100, 23, 20, 64, 0⟩
abbrev TIM_SRV_CFG_LOG_DREQ : Fld := ⟨0x400100, 19, 16, 64, 0⟩
abbrev TIM_SRV_CFG_DOMAIN : Fld := ⟨0x400100, 7, 0, 64, 0⟩
abbrev TIM_SRV_LOCK_LOCK_NS : Fld := ⟨0x400104, 15, 0, 64, 0⟩
abbrev TIM_SRV_STATUS_STEPS : Fld := ⟨0x400108, 31, 16, 64, 0⟩
abbrev TIM_SRV_STATUS_PORT : Fld := ⟨0x400108, 7, 4, 64, 0⟩
abbrev TIM_SRV_STATUS_STATE : Fld := ⟨0x400108, 3, 0, 64, 0⟩
abbrev TIM_SRV_OFFSET_O_NS : Fld := ⟨0x40010C, 31, 0, 64, 0⟩
abbrev TIM_SRV_DELAY_DELAY : Fld := ⟨0x400110, 31, 0, 64, 0⟩
abbrev TIM_SRV_GM_GM_ID : Fld := ⟨0x400118, 63, 0, 64, 0⟩
abbrev TIM_PORT_CTRL_SPEED : Fld := ⟨0x400200, 1, 1, 16, 0⟩
abbrev TIM_PORT_CTRL_ENABLE : Fld := ⟨0x400200, 0, 0, 16, 0⟩
abbrev TIM_MAC_A_MAC : Fld := ⟨0x400300, 47, 0, 0, 0⟩
abbrev TIM_MAC_B_MAC : Fld := ⟨0x400308, 47, 0, 0, 0⟩
abbrev TIM_IPV4_A_ADDR : Fld := ⟨0x400310, 31, 0, 0, 0⟩
abbrev TIM_IPV4_B_ADDR : Fld := ⟨0x400314, 31, 0, 0, 0⟩
abbrev TIM_MCAST_VALID : Fld := ⟨0x400400, 63, 63, 8, 0⟩
abbrev TIM_MCAST_MAC : Fld := ⟨0x400400, 47, 0, 8, 0⟩
abbrev TIM_RING_BASE_BASE : Fld := ⟨0x400500, 63, 4, 32, 0⟩
abbrev TIM_RING_SIZE_ENTRIES : Fld := ⟨0x400508, 11, 0, 32, 0⟩
abbrev TIM_RING_HEAD_HEAD : Fld := ⟨0x40050C, 11, 0, 32, 0⟩
abbrev TIM_RING_TAIL_TAIL : Fld := ⟨0x400510, 11, 0, 32, 0⟩
abbrev TIM_CAP_HEAD_HEAD : Fld := ⟨0x40054C, 11, 0, 0, 0⟩
abbrev TIM_CAP_TAIL_TAIL : Fld := ⟨0x400550, 11, 0, 0, 0⟩
abbrev TIM_CAP_CTRL_EN : Fld := ⟨0x400600, 11, 0, 0, 0⟩
abbrev TIM_SNAP_FWD_COUNT : Fld := ⟨0x400800, 31, 0, 0, 0⟩
abbrev TIM_SNAP_FWD_DROP_COUNT : Fld := ⟨0x400804, 31, 0, 0, 0⟩
abbrev TIM_SNAP_BAD_FCS_COUNT : Fld := ⟨0x400808, 31, 0, 0, 0⟩
abbrev TIM_SNAP_TC_CORRECTED_COUNT : Fld := ⟨0x40080C, 31, 0, 0, 0⟩
abbrev TIM_SNAP_TC_SKIPPED_COUNT : Fld := ⟨0x400810, 31, 0, 0, 0⟩
abbrev TIM_SNAP_RX_DROP_COUNT : Fld := ⟨0x400814, 31, 0, 0, 0⟩
abbrev TIM_SNAP_PAUSE_COUNT : Fld := ⟨0x400818, 31, 0, 0, 0⟩
abbrev TIM_SNAP_CASTLES_COUNT : Fld := ⟨0x40081C, 31, 0, 0, 0⟩
abbrev TIM_SNAP_HOLDOVER_MS_COUNT : Fld := ⟨0x400820, 31, 0, 0, 0⟩
abbrev TIM_SNAP_CAP_DEAD_COUNT : Fld := ⟨0x400824, 31, 0, 0, 0⟩
abbrev TIM_SNAP_CAP_DROP_COUNT : Fld := ⟨0x400828, 31, 0, 0, 0⟩
abbrev TIM_SNAP_TRIG_LATE_COUNT : Fld := ⟨0x40082C, 31, 0, 0, 0⟩
abbrev AUD_CTRL_RATE : Fld := ⟨0x440000, 3, 2, 0, 0⟩
abbrev AUD_CTRL_PLAY_EN : Fld := ⟨0x440000, 1, 1, 0, 0⟩
abbrev AUD_CTRL_CAPTURE_EN : Fld := ⟨0x440000, 0, 0, 0, 0⟩
abbrev AUD_STATUS_IN_STATE : Fld := ⟨0x440004, 15, 0, 0, 0⟩
abbrev AUD_IN_MASK_MASK : Fld := ⟨0x440008, 15, 0, 0, 0⟩
abbrev AUD_TRIM_TRIM_NS : Fld := ⟨0x44000C, 31, 0, 0, 0⟩
abbrev AUD_DELAY_D_NS : Fld := ⟨0x440010, 31, 0, 0, 0⟩
abbrev AUD_WCLK_ERR_ERR_NS : Fld := ⟨0x440014, 31, 0, 0, 0⟩
abbrev AUD_METER_DECAY : Fld := ⟨0x440018, 15, 0, 0, 0⟩
abbrev AUD_IN_OFFSET_OFFSET_NS : Fld := ⟨0x440020, 31, 0, 4, 0⟩
abbrev AUD_OUT_SRC_CS_COPY : Fld := ⟨0x440040, 5, 5, 4, 0⟩
abbrev AUD_OUT_SRC_SRC : Fld := ⟨0x440040, 4, 0, 4, 0⟩
abbrev AUD_LEVEL_LEVEL : Fld := ⟨0x440200, 15, 0, 4, 0⟩
abbrev AUD_CS_IN_BYTES : Fld := ⟨0x440400, 31, 0, 32, 4⟩
abbrev AUD_CS_OUT_BYTES : Fld := ⟨0x440600, 31, 0, 32, 4⟩
abbrev AUD_RING_BASE_BASE : Fld := ⟨0x440800, 63, 6, 32, 0⟩
abbrev AUD_RING_SIZE_SLOTS : Fld := ⟨0x440808, 11, 0, 0, 0⟩
abbrev AUD_RING_HEAD_HEAD : Fld := ⟨0x44080C, 11, 0, 0, 0⟩
abbrev AUD_RING_TAIL_TAIL : Fld := ⟨0x440810, 11, 0, 0, 0⟩
abbrev AUD_PLAY_SIZE_PLAY_MASK : Fld := ⟨0x440828, 31, 16, 0, 0⟩
abbrev AUD_PLAY_SIZE_SLOTS : Fld := ⟨0x440828, 11, 0, 0, 0⟩
abbrev AUD_PLAY_HEAD_HEAD : Fld := ⟨0x44082C, 11, 0, 0, 0⟩
abbrev AUD_PLAY_TAIL_TAIL : Fld := ⟨0x440830, 11, 0, 0, 0⟩
abbrev AUD_SNAP_BLOCKS_COUNT : Fld := ⟨0x440900, 31, 0, 0, 0⟩
abbrev AUD_SNAP_UNDERRUN_COUNT : Fld := ⟨0x440904, 31, 0, 0, 0⟩
abbrev AUD_SNAP_LATE_COUNT : Fld := ⟨0x440908, 31, 0, 0, 0⟩
abbrev AUD_SNAP_FADES_COUNT : Fld := ⟨0x44090C, 31, 0, 0, 0⟩
abbrev AUD_SNAP_PARITY_COUNT : Fld := ⟨0x440910, 31, 0, 0, 0⟩
abbrev AUD_SNAP_SLIPS_COUNT : Fld := ⟨0x440914, 31, 0, 0, 0⟩
abbrev AUD_SNAP_CRCC_COUNT : Fld := ⟨0x440918, 31, 0, 0, 0⟩
abbrev AUD_SNAP_DELAY_STEPS_COUNT : Fld := ⟨0x44091C, 31, 0, 0, 0⟩
abbrev AUD_SNAP_OVERRUN_COUNT : Fld := ⟨0x440920, 31, 0, 0, 0⟩
abbrev CHK_CTRL_ALIVE_EN : Fld := ⟨0x480000, 16, 16, 64, 0⟩
abbrev CHK_CTRL_CHECK_BE : Fld := ⟨0x480000, 15, 15, 64, 0⟩
abbrev CHK_CTRL_WIDTH : Fld := ⟨0x480000, 14, 8, 64, 0⟩
abbrev CHK_CTRL_CHECK_EN : Fld := ⟨0x480000, 7, 7, 64, 0⟩
abbrev CHK_CTRL_REFOUT : Fld := ⟨0x480000, 6, 6, 64, 0⟩
abbrev CHK_CTRL_REFIN : Fld := ⟨0x480000, 5, 5, 64, 0⟩
abbrev CHK_CTRL_PRESET : Fld := ⟨0x480000, 4, 2, 64, 0⟩
abbrev CHK_CTRL_MODE : Fld := ⟨0x480000, 1, 0, 64, 0⟩
abbrev CHK_TAP_KIND : Fld := ⟨0x480004, 31, 24, 64, 0⟩
abbrev CHK_TAP_INDEX : Fld := ⟨0x480004, 15, 0, 64, 0⟩
abbrev CHK_POLY_POLY : Fld := ⟨0x480008, 63, 0, 64, 0⟩
abbrev CHK_INIT_INIT : Fld := ⟨0x480010, 63, 0, 64, 0⟩
abbrev CHK_XOROUT_XOROUT : Fld := ⟨0x480018, 63, 0, 64, 0⟩
abbrev CHK_FIELD_CHECK_OFF : Fld := ⟨0x480020, 31, 16, 64, 0⟩
abbrev CHK_FIELD_COVER_START : Fld := ⟨0x480020, 15, 0, 64, 0⟩
abbrev CHK_ALIVE_INC : Fld := ⟨0x480024, 31, 16, 64, 0⟩
abbrev CHK_ALIVE_WIDTH_A : Fld := ⟨0x480024, 15, 11, 64, 0⟩
abbrev CHK_ALIVE_LSB : Fld := ⟨0x480024, 10, 8, 64, 0⟩
abbrev CHK_ALIVE_BYTE : Fld := ⟨0x480024, 7, 0, 64, 0⟩
abbrev CHK_RESULT_VALUE : Fld := ⟨0x480028, 63, 0, 64, 0⟩
abbrev CHK_STATUS_ALIVE : Fld := ⟨0x480030, 31, 16, 64, 0⟩
abbrev CHK_STATUS_STATE : Fld := ⟨0x480030, 1, 0, 64, 0⟩
abbrev CHK_SNAP_RECORDS_COUNT : Fld := ⟨0x480800, 31, 0, 64, 0⟩
abbrev CHK_SNAP_MISMATCH_COUNT : Fld := ⟨0x480804, 31, 0, 64, 0⟩
abbrev CHK_SNAP_REPEAT_COUNT : Fld := ⟨0x480808, 31, 0, 64, 0⟩
abbrev CHK_SNAP_SKIP_COUNT : Fld := ⟨0x48080C, 31, 0, 64, 0⟩
abbrev CHK_SNAP_OVERRUN_COUNT : Fld := ⟨0x480810, 31, 0, 64, 0⟩
abbrev CHK_SNAP_SHORT_COUNT : Fld := ⟨0x480814, 31, 0, 64, 0⟩
abbrev CHK_SNAP_RUNNING_COUNT : Fld := ⟨0x480818, 63, 0, 64, 0⟩
abbrev THM_STATUS_TEMP : Fld := ⟨0x4C0000, 31, 16, 0, 0⟩
abbrev THM_STATUS_DUTY : Fld := ⟨0x4C0000, 15, 11, 0, 0⟩
abbrev THM_STATUS_FAST : Fld := ⟨0x4C0000, 5, 5, 0, 0⟩
abbrev THM_STATUS_ORDERLY : Fld := ⟨0x4C0000, 4, 4, 0, 0⟩
abbrev THM_STATUS_STACK_THROTTLE : Fld := ⟨0x4C0000, 3, 3, 0, 0⟩
abbrev THM_STATUS_THROTTLE : Fld := ⟨0x4C0000, 2, 2, 0, 0⟩
abbrev THM_STATUS_WARN : Fld := ⟨0x4C0000, 1, 1, 0, 0⟩
abbrev THM_CTRL_WARN_C : Fld := ⟨0x4C0004, 15, 8, 0, 0⟩
abbrev THM_CTRL_RESTART : Fld := ⟨0x4C0004, 0, 0, 0, 0⟩
abbrev THM_SENSOR_FAULT : Fld := ⟨0x4C0100, 16, 16, 4, 0⟩
abbrev THM_SENSOR_TEMP : Fld := ⟨0x4C0100, 15, 0, 4, 0⟩
abbrev THM_KEEPER_TEMP : Fld := ⟨0x4C0180, 15, 0, 0, 0⟩
abbrev THM_STACK_TEMP : Fld := ⟨0x4C0184, 15, 0, 4, 0⟩
abbrev THM_VCORE_REQ_MV : Fld := ⟨0x4C0200, 31, 16, 0, 0⟩
abbrev THM_VCORE_MEAS_MV : Fld := ⟨0x4C0200, 15, 0, 0, 0⟩
abbrev THM_POWER_CORE_DW : Fld := ⟨0x4C0204, 31, 16, 0, 0⟩
abbrev THM_POWER_BUDGET_DW : Fld := ⟨0x4C0204, 15, 0, 0, 0⟩
abbrev THM_GOV_SLACK_HI : Fld := ⟨0x4C0208, 31, 24, 0, 0⟩
abbrev THM_GOV_SLACK_LO : Fld := ⟨0x4C0208, 23, 16, 0, 0⟩
abbrev THM_GOV_STEP_MV : Fld := ⟨0x4C0208, 15, 8, 0, 0⟩
abbrev THM_GOV_GOV_EN : Fld := ⟨0x4C0208, 0, 0, 0, 0⟩
abbrev THM_GOV2_OTHER_DW : Fld := ⟨0x4C020C, 15, 0, 0, 0⟩
abbrev THM_PD_ON : Fld := ⟨0x4C0300, 23, 0, 0, 0⟩
abbrev THM_SNAP_PEAK_COUNT : Fld := ⟨0x4C0400, 31, 0, 0, 0⟩
abbrev THM_SNAP_THROTTLE_US_COUNT : Fld := ⟨0x4C0404, 31, 0, 0, 0⟩
abbrev THM_SNAP_DUTY_MIN_COUNT : Fld := ⟨0x4C0408, 31, 0, 0, 0⟩
abbrev THM_SNAP_V_MAX_COUNT : Fld := ⟨0x4C040C, 31, 0, 0, 0⟩
abbrev THM_SNAP_ENERGY_COUNT : Fld := ⟨0x4C0410, 31, 0, 0, 0⟩
abbrev THM_SNAP_BUDGET_HELD_COUNT : Fld := ⟨0x4C0414, 31, 0, 0, 0⟩
abbrev NVS_STATUS_RETIRED : Fld := ⟨0x500000, 23, 16, 0, 0⟩
abbrev NVS_STATUS_FREE : Fld := ⟨0x500000, 15, 8, 0, 0⟩
abbrev NVS_STATUS_SCRUB : Fld := ⟨0x500000, 3, 3, 0, 0⟩
abbrev NVS_STATUS_DONE : Fld := ⟨0x500000, 2, 2, 0, 0⟩
abbrev NVS_STATUS_BUSY : Fld := ⟨0x500000, 1, 1, 0, 0⟩
abbrev NVS_STATUS_READY : Fld := ⟨0x500000, 0, 0, 0, 0⟩
abbrev NVS_REQ_OP : Fld := ⟨0x500004, 31, 28, 0, 0⟩
abbrev NVS_REQ_DUP : Fld := ⟨0x500004, 27, 27, 0, 0⟩
abbrev NVS_REQ_LEN : Fld := ⟨0x500004, 13, 0, 0, 0⟩
abbrev NVS_REQ_ID_TYPE : Fld := ⟨0x500008, 31, 16, 0, 0⟩
abbrev NVS_REQ_ID_KEY : Fld := ⟨0x500008, 15, 0, 0, 0⟩
abbrev NVS_REQ_ADDR_ADDR : Fld := ⟨0x500010, 63, 6, 0, 0⟩
abbrev NVS_RESULT_CODE : Fld := ⟨0x500018, 31, 16, 0, 0⟩
abbrev NVS_RESULT_LEN : Fld := ⟨0x500018, 13, 0, 0, 0⟩
abbrev NVS_RESULT_SEQ_SEQ : Fld := ⟨0x50001C, 31, 0, 0, 0⟩
abbrev NVS_COUNT_WRITES_COUNT : Fld := ⟨0x500030, 31, 0, 0, 0⟩
abbrev NVS_COUNT_TIES_COUNT : Fld := ⟨0x500034, 31, 0, 0, 0⟩
abbrev NVS_COUNT_WEAK_COUNT : Fld := ⟨0x500038, 31, 0, 0, 0⟩
abbrev NVS_SECTOR_STATE : Fld := ⟨0x500100, 31, 30, 4, 0⟩
abbrev NVS_SECTOR_ERASES : Fld := ⟨0x500100, 23, 0, 4, 0⟩
abbrev SEC_STATUS_TAMPER : Fld := ⟨0x540000, 23, 16, 0, 0⟩
abbrev SEC_STATUS_ROLE : Fld := ⟨0x540000, 7, 6, 0, 0⟩
abbrev SEC_STATUS_APPROVED : Fld := ⟨0x540000, 4, 4, 0, 0⟩
abbrev SEC_STATUS_STATE : Fld := ⟨0x540000, 3, 0, 0, 0⟩
abbrev SEC_MB_ADDR_ADDR : Fld := ⟨0x540008, 63, 6, 0, 0⟩
abbrev SEC_MB_LEN_LEN : Fld := ⟨0x540010, 14, 0, 0, 0⟩
abbrev SEC_MB_RESP_ADDR : Fld := ⟨0x540018, 63, 6, 0, 0⟩
abbrev SEC_MB_RESP_LEN_USED : Fld := ⟨0x540020, 31, 16, 0, 0⟩
abbrev SEC_MB_RESP_LEN_RESP_CAP : Fld := ⟨0x540020, 15, 0, 0, 0⟩
abbrev SEC_MB_CTRL_BUSY : Fld := ⟨0x540024, 2, 2, 0, 0⟩
abbrev SEC_MB_CTRL_DONE : Fld := ⟨0x540024, 1, 1, 0, 0⟩
abbrev SEC_MB_CTRL_GO : Fld := ⟨0x540024, 0, 0, 0, 0⟩
abbrev SEC_MB_RESULT_CODE : Fld := ⟨0x540028, 31, 16, 0, 0⟩
abbrev SEC_MB_RESULT_CMD : Fld := ⟨0x540028, 15, 0, 0, 0⟩
abbrev DMP_STATUS_CAUSE : Fld := ⟨0x580000, 23, 16, 0, 0⟩
abbrev DMP_STATUS_VALID : Fld := ⟨0x580000, 3, 3, 0, 0⟩
abbrev DMP_STATUS_STATE : Fld := ⟨0x580000, 2, 0, 0, 0⟩
abbrev DMP_CTRL_KEEP : Fld := ⟨0x580004, 2, 2, 0, 0⟩
abbrev DMP_CTRL_RELEASE : Fld := ⟨0x580004, 1, 1, 0, 0⟩
abbrev DMP_CTRL_FORCE : Fld := ⟨0x580004, 0, 0, 0, 0⟩
abbrev DMP_WDOG_TILTH_MS : Fld := ⟨0x580008, 31, 16, 0, 0⟩
abbrev DMP_WDOG_UNIT_MS : Fld := ⟨0x580008, 15, 0, 0, 0⟩
abbrev DMP_LAST_HELD_FRAMES : Fld := ⟨0x58000C, 31, 16, 0, 0⟩
abbrev DMP_LAST_RECOVERY_MS : Fld := ⟨0x58000C, 15, 0, 0, 0⟩
abbrev DMP_SEQ_DUMP_SEQ : Fld := ⟨0x580010, 31, 0, 0, 0⟩
abbrev DMP_COUNT_COUNT : Fld := ⟨0x580014, 31, 0, 0, 0⟩
abbrev DBG_TRACE_CTRL_EN : Fld := ⟨0x5C0000, 31, 31, 0, 0⟩
abbrev DBG_TRACE_CTRL_KIND : Fld := ⟨0x5C0000, 26, 24, 0, 0⟩
abbrev DBG_TRACE_CTRL_DECIMATE : Fld := ⟨0x5C0000, 23, 16, 0, 0⟩
abbrev DBG_TRACE_CTRL_INDEX : Fld := ⟨0x5C0000, 15, 0, 0, 0⟩
abbrev DBG_TRACE_STATUS_STATE : Fld := ⟨0x5C0004, 1, 0, 0, 0⟩
abbrev DBG_TRACE_BASE_BASE : Fld := ⟨0x5C0008, 63, 5, 0, 0⟩
abbrev DBG_TRACE_SIZE_ENTRIES : Fld := ⟨0x5C0010, 12, 0, 0, 0⟩
abbrev DBG_TRACE_HEAD_HEAD : Fld := ⟨0x5C0014, 11, 0, 0, 0⟩
abbrev DBG_TRACE_TAIL_TAIL : Fld := ⟨0x5C0018, 11, 0, 0, 0⟩
abbrev DBG_TRACE_DROPPED_COUNT : Fld := ⟨0x5C001C, 31, 0, 0, 0⟩

end F

/-- Registers of the SYS window, part 1. -/
def regRowsSys0 : List RegRow :=
  [⟨Reg.SYS_ID, 0, 1, 0, 1, false, false, [⟨31, 16, .ro, 29760, false, []⟩, ⟨15, 8, .ro, 161, false, []⟩]⟩,
   ⟨Reg.SYS_FW, 0, 1, 0, 1, false, false, [⟨31, 0, .ro, 0, false, []⟩]⟩,
   ⟨Reg.SYS_STATUS, 0, 1, 0, 1, false, false, [⟨5, 5, .ro, 0, false, []⟩, ⟨4, 4, .ro, 0, false, []⟩, ⟨3, 3, .ro, 0, false, []⟩, ⟨2, 2, .ro, 0, false, []⟩, ⟨1, 1, .ro, 0, false, []⟩, ⟨0, 0, .ro, 0, false, []⟩]⟩,
   ⟨Reg.SYS_UNIT_RESET, 0, 1, 0, 1, false, false, [⟨19, 17, .wo, 0, false, []⟩, ⟨15, 5, .wo, 0, false, []⟩]⟩,
   ⟨Reg.SYS_RESET_STATUS, 0, 1, 0, 1, false, false, [⟨31, 0, .ro, 0, false, []⟩]⟩,
   ⟨Reg.SYS_LOG_CTRL, 0, 1, 0, 1, false, false, [⟨12, 1, .rw, 1, false, [(1, 4095)]⟩, ⟨0, 0, .rw, 1, false, []⟩]⟩,
   ⟨Reg.SYS_LOG_HEAD, 0, 1, 0, 1, false, false, [⟨31, 0, .ro, 1, false, []⟩]⟩,
   ⟨Reg.SYS_LOG_TAIL, 0, 1, 0, 1, false, false, [⟨31, 0, .rw, 1, false, []⟩]⟩,
   ⟨Reg.SYS_LOG_DROPPED, 0, 1, 0, 1, false, false, [⟨31, 0, .rc, 0, false, []⟩]⟩,
   ⟨Reg.SYS_FR_BASE, 0, 1, 0, 1, true, false, [⟨63, 8, .rw, 0, false, []⟩]⟩,
   ⟨Reg.SYS_FR_SIZE, 0, 1, 0, 1, false, false, [⟨11, 0, .rw, 0, false, [(0, 0), (2, 4095)]⟩]⟩,
   ⟨Reg.SYS_FR_HEAD, 0, 1, 0, 1, false, false, [⟨11, 0, .ro, 0, false, []⟩]⟩,
   ⟨Reg.SYS_FR_TAIL, 0, 1, 0, 1, false, false, [⟨11, 0, .rw, 0, false, []⟩]⟩,
   ⟨Reg.SYS_FR_DROPPED, 0, 1, 0, 1, false, false, [⟨31, 0, .rc, 0, false, []⟩]⟩,
   ⟨Reg.SYS_FW_ADDR, 0, 1, 0, 1, true, false, [⟨63, 12, .rw, 0, false, []⟩]⟩,
   ⟨Reg.SYS_FW_LEN, 0, 1, 0, 1, false, false, [⟨20, 0, .rw, 0, false, []⟩]⟩]

/-- Registers of the SYS window, part 2. -/
def regRowsSys1 : List RegRow :=
  [⟨Reg.SYS_FW_CTRL, 0, 1, 0, 1, false, false, [⟨0, 0, .wo, 0, false, []⟩]⟩,
   ⟨Reg.SYS_FW_STATUS, 0, 1, 0, 1, false, false, [⟨31, 16, .ro, 0, false, []⟩, ⟨2, 2, .ro, 0, false, []⟩, ⟨1, 1, .ro, 0, false, []⟩, ⟨0, 0, .w1c, 0, false, []⟩]⟩,
   ⟨Reg.SYS_IMG_ADDR, 0, 1, 0, 1, true, false, [⟨63, 12, .rw, 0, false, []⟩]⟩,
   ⟨Reg.SYS_IMG_LEN, 0, 1, 0, 1, false, false, [⟨24, 0, .rw, 0, false, []⟩]⟩,
   ⟨Reg.SYS_IMG_CTRL, 0, 1, 0, 1, false, false, [⟨0, 0, .wo, 0, false, []⟩]⟩,
   ⟨Reg.SYS_IMG_STATUS, 0, 1, 0, 1, false, false, [⟨23, 16, .ro, 0, false, []⟩, ⟨7, 4, .ro, 0, false, []⟩, ⟨3, 3, .ro, 0, false, []⟩, ⟨2, 2, .ro, 0, false, []⟩, ⟨1, 1, .ro, 0, false, []⟩, ⟨0, 0, .w1c, 0, false, []⟩]⟩,
   ⟨Reg.SYS_IMG_ERROR, 0, 1, 0, 1, false, false, [⟨15, 0, .ro, 0, false, []⟩]⟩,
   ⟨Reg.SYS_IMG_SERIAL, 0, 1, 0, 1, false, false, [⟨31, 0, .ro, 0, false, []⟩]⟩,
   ⟨Reg.SYS_IMG_DIGEST, 4, 12, 0, 1, false, false, [⟨31, 0, .ro, 0, false, []⟩]⟩]

/-- Registers of the HST window, part 1. -/
def regRowsHst0 : List RegRow :=
  [⟨Reg.HST_CTRL, 0, 1, 0, 1, false, false, [⟨0, 0, .rw, 0, false, []⟩]⟩,
   ⟨Reg.HST_LINK, 0, 1, 0, 1, false, false, [⟨11, 8, .ro, 0, false, []⟩, ⟨4, 0, .ro, 0, false, []⟩]⟩,
   ⟨Reg.HST_SNAP_DESC, 0, 1, 0, 1, false, true, [⟨31, 0, .ro, 0, false, []⟩]⟩,
   ⟨Reg.HST_SNAP_INGEST, 0, 1, 0, 1, false, true, [⟨31, 0, .ro, 0, false, []⟩]⟩,
   ⟨Reg.HST_SNAP_EXPORT, 0, 1, 0, 1, false, true, [⟨31, 0, .ro, 0, false, []⟩]⟩,
   ⟨Reg.HST_SNAP_REFUSED, 0, 1, 0, 1, false, true, [⟨31, 0, .ro, 0, false, []⟩]⟩,
   ⟨Reg.HST_SNAP_STALLED_US, 0, 1, 0, 1, false, true, [⟨31, 0, .ro, 0, false, []⟩]⟩,
   ⟨Reg.HST_SNAP_BAR2_READS, 0, 1, 0, 1, false, true, [⟨31, 0, .ro, 0, false, []⟩]⟩,
   ⟨Reg.HST_SNAP_RECOVERY, 0, 1, 0, 1, false, true, [⟨31, 0, .ro, 0, false, []⟩]⟩,
   ⟨Reg.HST_SNAP_AER_CORR, 0, 1, 0, 1, false, true, [⟨31, 0, .ro, 0, false, []⟩]⟩,
   ⟨Reg.HST_WRING_BASE, 64, 64, 0, 1, true, false, [⟨63, 6, .rw, 0, false, []⟩]⟩,
   ⟨Reg.HST_WRING_SIZE, 64, 64, 0, 1, false, false, [⟨12, 0, .rw, 0, false, []⟩]⟩,
   ⟨Reg.HST_WRING_TAIL, 64, 64, 0, 1, false, false, [⟨11, 0, .ro, 0, false, []⟩]⟩,
   ⟨Reg.HST_CRING_BASE, 64, 64, 0, 1, true, false, [⟨63, 5, .rw, 0, false, []⟩]⟩,
   ⟨Reg.HST_CRING_SIZE, 64, 64, 0, 1, false, false, [⟨13, 0, .rw, 0, false, []⟩]⟩,
   ⟨Reg.HST_CRING_HEAD, 64, 64, 0, 1, false, false, [⟨31, 31, .ro, 1, false, []⟩, ⟨12, 0, .ro, 0, false, []⟩]⟩]

/-- Registers of the HST window, part 2. -/
def regRowsHst1 : List RegRow :=
  [⟨Reg.HST_RING_CTRL, 64, 64, 0, 1, false, false, [⟨31, 31, .rw, 0, false, []⟩, ⟨23, 16, .rw, 16, false, [(16, 255)]⟩, ⟨9, 8, .rw, 0, false, []⟩, ⟨0, 0, .rw, 0, false, []⟩]⟩,
   ⟨Reg.HST_RING_STATUS, 64, 64, 0, 1, false, false, [⟨31, 16, .ro, 0, false, []⟩, ⟨2, 0, .ro, 0, false, []⟩]⟩,
   ⟨Reg.HST_RING_WB, 64, 64, 0, 1, true, false, [⟨63, 3, .rw, 0, false, []⟩]⟩]

/-- Registers of the CMT window. -/
def regRowsCmt : List RegRow :=
  [⟨Reg.CMT_STATUS, 0, 1, 0, 1, false, false, [⟨23, 16, .ro, 0, false, []⟩, ⟨2, 2, .ro, 0, false, []⟩, ⟨1, 1, .ro, 0, false, []⟩, ⟨0, 0, .ro, 0, false, []⟩]⟩,
   ⟨Reg.CMT_EPOCH_SEALED, 0, 1, 0, 1, false, false, [⟨31, 0, .ro, 0, false, []⟩]⟩,
   ⟨Reg.CMT_EPOCH_RETIRED, 0, 1, 0, 1, false, false, [⟨31, 0, .ro, 0, false, []⟩]⟩,
   ⟨Reg.CMT_SNAP_EPOCH, 0, 1, 0, 1, false, false, [⟨31, 0, .ro, 0, false, []⟩]⟩,
   ⟨Reg.CMT_FRAME, 0, 1, 0, 1, true, false, [⟨63, 0, .ro, 0, false, []⟩]⟩,
   ⟨Reg.CMT_LATCH, 0, 1, 0, 1, false, false, [⟨31, 16, .ro, 0, false, []⟩, ⟨15, 0, .ro, 0, false, []⟩]⟩,
   ⟨Reg.CMT_SNAP_CTRL, 0, 1, 0, 1, false, false, [⟨1, 1, .w1c, 0, false, []⟩, ⟨0, 0, .rw, 0, false, []⟩]⟩,
   ⟨Reg.CMT_STAGE_CTRL, 0, 1, 0, 1, false, false, [⟨0, 0, .wo, 0, false, []⟩]⟩]

/-- Registers of the KLN window, part 1. -/
def regRowsKln0 : List RegRow :=
  [⟨Reg.KLN_CTRL, 0, 1, 0, 1, false, false, [⟨1, 1, .rw, 1, true, []⟩, ⟨0, 0, .rw, 1, true, []⟩]⟩,
   ⟨Reg.KLN_STATUS, 0, 1, 0, 1, false, false, [⟨11, 8, .ro, 4, false, []⟩, ⟨3, 0, .ro, 4, false, []⟩]⟩,
   ⟨Reg.KLN_ADMIT, 0, 1, 0, 1, false, false, [⟨21, 16, .rw, 0, true, [(0, 16)]⟩, ⟨15, 0, .rw, 1000, false, [(1, 65535)]⟩]⟩,
   ⟨Reg.KLN_HLG, 0, 1, 0, 1, false, false, [⟨31, 16, .rw, 1000, true, [(100, 10000)]⟩, ⟨15, 8, .rw, 120, true, [(100, 150)]⟩]⟩,
   ⟨Reg.KLN_REF_WHITE, 0, 1, 0, 1, false, false, [⟨15, 0, .rw, 203, true, [(1, 10000)]⟩]⟩,
   ⟨Reg.KLN_SNAP_BANDS, 0, 1, 0, 1, false, true, [⟨31, 0, .ro, 0, false, []⟩]⟩,
   ⟨Reg.KLN_SNAP_REFINE_DROPPED, 0, 1, 0, 1, false, true, [⟨31, 0, .ro, 0, false, []⟩]⟩,
   ⟨Reg.KLN_SNAP_HELD, 0, 1, 0, 1, false, true, [⟨31, 0, .ro, 0, false, []⟩]⟩,
   ⟨Reg.KLN_SNAP_LATE, 0, 1, 0, 1, false, true, [⟨31, 0, .ro, 0, false, []⟩]⟩,
   ⟨Reg.KLN_SNAP_BASE_FAULTS, 0, 1, 0, 1, false, true, [⟨31, 0, .ro, 0, false, []⟩]⟩,
   ⟨Reg.KLN_SNAP_TILE_FAULTS, 0, 1, 0, 1, false, true, [⟨31, 0, .ro, 0, false, []⟩]⟩,
   ⟨Reg.KLN_SNAP_CHECK_MISMATCH, 0, 1, 0, 1, false, true, [⟨31, 0, .ro, 0, false, []⟩]⟩,
   ⟨Reg.KLN_PREMUL_CLAMPS, 0, 1, 0, 1, false, true, [⟨31, 0, .ro, 0, false, []⟩]⟩,
   ⟨Reg.KLN_SNAP_RESET_STRATA, 0, 1, 0, 1, false, true, [⟨31, 0, .ro, 0, false, []⟩]⟩,
   ⟨Reg.KLN_SNAP_RATE_K0, 0, 1, 0, 1, false, true, [⟨31, 0, .ro, 0, false, []⟩]⟩,
   ⟨Reg.KLN_SNAP_RATE_K1, 0, 1, 0, 1, false, true, [⟨31, 0, .ro, 0, false, []⟩]⟩]

/-- Registers of the KLN window, part 2. -/
def regRowsKln1 : List RegRow :=
  [⟨Reg.KLN_SNAP_HOST_JOBS, 0, 1, 0, 1, false, true, [⟨31, 0, .ro, 0, false, []⟩]⟩,
   ⟨Reg.KLN_CSC, 64, 3, 4, 9, false, false, [⟨31, 0, .rw, 0, true, []⟩]⟩,
   ⟨Reg.KLN_CHAIN_BASE, 32, 16, 0, 1, true, false, [⟨63, 4, .rw, 0, false, []⟩]⟩,
   ⟨Reg.KLN_CHAIN_SIZE, 32, 16, 0, 1, false, false, [⟨12, 0, .rw, 0, false, [(0, 0), (2, 4096)]⟩]⟩,
   ⟨Reg.KLN_CHAIN_HEAD, 32, 16, 0, 1, false, false, [⟨11, 0, .rw, 0, false, []⟩]⟩,
   ⟨Reg.KLN_CHAIN_TAIL, 32, 16, 0, 1, false, false, [⟨11, 0, .ro, 0, false, []⟩]⟩]

/-- Registers of the SLT window. -/
def regRowsSlt : List RegRow :=
  [⟨Reg.SLT_PLAN0, 0, 1, 0, 1, false, false, [⟨31, 24, .ro, 0, false, []⟩, ⟨23, 16, .ro, 0, false, []⟩, ⟨15, 8, .ro, 0, false, []⟩, ⟨7, 0, .ro, 0, false, []⟩]⟩,
   ⟨Reg.SLT_PLAN1, 0, 1, 0, 1, false, false, [⟨28, 16, .ro, 0, false, []⟩, ⟨12, 0, .ro, 0, false, []⟩]⟩,
   ⟨Reg.SLT_PLAN2, 0, 1, 0, 1, false, false, [⟨12, 0, .ro, 0, false, []⟩]⟩,
   ⟨Reg.SLT_GEOM, 0, 1, 0, 1, false, false, [⟨31, 16, .ro, 0, false, []⟩, ⟨15, 0, .ro, 0, false, []⟩]⟩,
   ⟨Reg.SLT_BANK, 0, 1, 0, 1, false, false, [⟨29, 24, .ro, 0, false, []⟩, ⟨21, 16, .ro, 0, false, []⟩, ⟨8, 8, .ro, 0, false, []⟩, ⟨7, 4, .ro, 4, false, []⟩, ⟨3, 0, .ro, 4, false, []⟩]⟩,
   ⟨Reg.SLT_CTRL, 0, 1, 0, 1, false, false, [⟨1, 1, .rw, 1, false, []⟩, ⟨0, 0, .rw, 1, true, []⟩]⟩,
   ⟨Reg.SLT_SNAP_PEAK, 0, 1, 0, 1, false, true, [⟨31, 0, .ro, 0, false, []⟩]⟩,
   ⟨Reg.SLT_SNAP_STEP1, 0, 1, 0, 1, false, true, [⟨31, 0, .ro, 0, false, []⟩]⟩,
   ⟨Reg.SLT_SNAP_STEP2, 0, 1, 0, 1, false, true, [⟨31, 0, .ro, 0, false, []⟩]⟩,
   ⟨Reg.SLT_SNAP_HELD, 0, 1, 0, 1, false, true, [⟨31, 0, .ro, 0, false, []⟩]⟩,
   ⟨Reg.SLT_SNAP_DECL, 0, 1, 0, 1, false, true, [⟨31, 0, .ro, 0, false, []⟩]⟩,
   ⟨Reg.SLT_SNAP_CARRIED, 0, 1, 0, 1, false, true, [⟨31, 0, .ro, 0, false, []⟩]⟩,
   ⟨Reg.SLT_SNAP_FETCH_BYTES, 0, 1, 0, 1, false, true, [⟨31, 0, .ro, 0, false, []⟩]⟩,
   ⟨Reg.SLT_SNAP_ECC_CORR, 0, 1, 0, 1, false, true, [⟨31, 0, .ro, 0, false, []⟩]⟩,
   ⟨Reg.SLT_SNAP_ECC_UNCORR, 0, 1, 0, 1, false, true, [⟨31, 0, .ro, 0, false, []⟩]⟩]

/-- Registers of the RRG window, part 1. -/
def regRowsRrg0 : List RegRow :=
  [⟨Reg.RRG_CTRL, 0, 1, 0, 1, false, false, [⟨21, 21, .rw, 1, false, []⟩, ⟨20, 20, .rw, 1, false, []⟩, ⟨19, 8, .wo, 0, false, []⟩, ⟨7, 0, .wo, 0, false, []⟩]⟩,
   ⟨Reg.RRG_TRIGGER, 0, 1, 0, 1, false, false, [⟨31, 24, .rw, 24, false, [(4, 128)]⟩, ⟨23, 16, .rw, 24, false, [(4, 128)]⟩, ⟨15, 0, .rw, 60, false, []⟩]⟩,
   ⟨Reg.RRG_FOM, 0, 1, 0, 1, false, false, [⟨7, 0, .rw, 40, false, []⟩]⟩,
   ⟨Reg.RRG_ZONE_STATUS, 4, 8, 0, 1, false, false, [⟨31, 16, .ro, 0, false, []⟩, ⟨7, 7, .ro, 0, false, []⟩, ⟨6, 6, .ro, 0, false, []⟩, ⟨5, 5, .ro, 0, false, []⟩, ⟨3, 0, .ro, 4, false, []⟩]⟩,
   ⟨Reg.RRG_ZONE_TEMP, 4, 8, 0, 1, false, false, [⟨15, 0, .ro, 0, false, []⟩]⟩,
   ⟨Reg.RRG_SET_ADDR, 0, 1, 0, 1, true, false, [⟨63, 12, .rw, 0, false, []⟩]⟩,
   ⟨Reg.RRG_SET_LEN, 0, 1, 0, 1, false, false, [⟨31, 0, .rw, 0, false, []⟩]⟩,
   ⟨Reg.RRG_SET_CTRL, 0, 1, 0, 1, false, false, [⟨0, 0, .wo, 0, false, []⟩]⟩,
   ⟨Reg.RRG_SET_STATUS, 0, 1, 0, 1, false, false, [⟨31, 16, .ro, 0, false, []⟩, ⟨15, 8, .ro, 0, false, []⟩, ⟨2, 2, .ro, 0, false, []⟩, ⟨0, 0, .w1c, 0, false, []⟩]⟩,
   ⟨Reg.RRG_SET_TEMP, 4, 8, 0, 1, false, false, [⟨15, 0, .ro, 0, false, []⟩]⟩,
   ⟨Reg.RRG_LANE_STATUS, 16, 12, 0, 1, false, false, [⟨15, 8, .ro, 0, false, []⟩, ⟨7, 7, .ro, 1, false, []⟩, ⟨6, 6, .ro, 0, false, []⟩, ⟨2, 0, .ro, 0, false, []⟩]⟩,
   ⟨Reg.RRG_LANE_SET0, 16, 12, 0, 1, false, false, [⟨31, 24, .ro, 0, false, []⟩, ⟨23, 16, .ro, 0, false, []⟩, ⟨15, 8, .ro, 0, false, []⟩, ⟨7, 0, .ro, 0, false, []⟩]⟩,
   ⟨Reg.RRG_LANE_SET1, 16, 12, 0, 1, false, false, [⟨15, 8, .ro, 0, false, []⟩, ⟨7, 0, .ro, 0, false, []⟩]⟩,
   ⟨Reg.RRG_SNAP_ZONE_RUNS, 0, 1, 0, 1, false, true, [⟨31, 0, .ro, 0, false, []⟩]⟩,
   ⟨Reg.RRG_SNAP_PUBLISHED, 0, 1, 0, 1, false, true, [⟨31, 0, .ro, 0, false, []⟩]⟩,
   ⟨Reg.RRG_SNAP_STALE, 0, 1, 0, 1, false, true, [⟨31, 0, .ro, 0, false, []⟩]⟩]

/-- Registers of the RRG window, part 2. -/
def regRowsRrg1 : List RegRow :=
  [⟨Reg.RRG_SNAP_ENTRY_LOST, 0, 1, 0, 1, false, true, [⟨31, 0, .ro, 0, false, []⟩]⟩,
   ⟨Reg.RRG_SNAP_LIVE_ECC, 0, 1, 0, 1, false, true, [⟨31, 0, .ro, 0, false, []⟩]⟩,
   ⟨Reg.RRG_SNAP_LANE_RUNS, 0, 1, 0, 1, false, true, [⟨31, 0, .ro, 0, false, []⟩]⟩,
   ⟨Reg.RRG_SNAP_LANE_LIMIT, 0, 1, 0, 1, false, true, [⟨31, 0, .ro, 0, false, []⟩]⟩]

/-- Registers of the ROK window, part 1. -/
def regRowsRok0 : List RegRow :=
  [⟨Reg.ROK_CTRL, 0, 1, 0, 1, false, false, [⟨31, 16, .rw, 65535, true, []⟩, ⟨7, 6, .rw, 2, true, [(0, 2)]⟩, ⟨5, 5, .rw, 0, true, []⟩, ⟨4, 4, .rw, 0, true, []⟩, ⟨1, 1, .rw, 0, true, []⟩, ⟨0, 0, .rw, 0, true, []⟩]⟩,
   ⟨Reg.ROK_STATUS, 0, 1, 0, 1, false, false, [⟨31, 0, .ro, 2863311530, false, []⟩]⟩,
   ⟨Reg.ROK_BAND, 0, 1, 0, 1, false, false, [⟨31, 16, .ro, 0, false, []⟩, ⟨2, 0, .ro, 0, false, []⟩]⟩,
   ⟨Reg.ROK_PACE, 0, 1, 0, 1, false, false, [⟨31, 16, .rw, 2000, false, []⟩, ⟨15, 8, .rw, 4, false, []⟩]⟩,
   ⟨Reg.ROK_LOD, 0, 1, 0, 1, false, false, [⟨7, 0, .rw, 0, true, [(0, 32), (224, 255)]⟩]⟩,
   ⟨Reg.ROK_BG0, 0, 1, 0, 1, false, false, [⟨31, 16, .rw, 0, true, []⟩, ⟨15, 0, .rw, 0, true, []⟩]⟩,
   ⟨Reg.ROK_BG1, 0, 1, 0, 1, false, false, [⟨15, 0, .rw, 0, true, []⟩]⟩,
   ⟨Reg.ROK_DEMURA, 0, 1, 0, 1, false, false, [⟨7, 0, .rw, 16, true, []⟩]⟩,
   ⟨Reg.ROK_OUT_MATRIX, 4, 12, 0, 1, false, false, [⟨31, 0, .rw, 0, true, []⟩]⟩,
   ⟨Reg.ROK_SNAP_BANDS, 0, 1, 0, 1, false, true, [⟨31, 0, .ro, 0, false, []⟩]⟩,
   ⟨Reg.ROK_SNAP_STEP2, 0, 1, 0, 1, false, true, [⟨31, 0, .ro, 0, false, []⟩]⟩,
   ⟨Reg.ROK_SNAP_STEP3, 0, 1, 0, 1, false, true, [⟨31, 0, .ro, 0, false, []⟩]⟩,
   ⟨Reg.ROK_SNAP_PACE_HELD, 0, 1, 0, 1, false, true, [⟨31, 0, .ro, 0, false, []⟩]⟩,
   ⟨Reg.ROK_SNAP_LATE, 0, 1, 0, 1, false, true, [⟨31, 0, .ro, 0, false, []⟩]⟩,
   ⟨Reg.ROK_SNAP_ABANDONED, 0, 1, 0, 1, false, true, [⟨31, 0, .ro, 0, false, []⟩]⟩,
   ⟨Reg.ROK_SNAP_OVERFLOW, 0, 1, 0, 1, false, true, [⟨31, 0, .ro, 0, false, []⟩]⟩]

/-- Registers of the ROK window, part 2. -/
def regRowsRok1 : List RegRow :=
  [⟨Reg.ROK_SNAP_SLOTS, 0, 1, 0, 1, false, true, [⟨31, 0, .ro, 0, false, []⟩]⟩,
   ⟨Reg.ROK_SNAP_EARLY_STOP, 0, 1, 0, 1, false, true, [⟨31, 0, .ro, 0, false, []⟩]⟩,
   ⟨Reg.ROK_SNAP_CAPPED, 0, 1, 0, 1, false, true, [⟨31, 0, .ro, 0, false, []⟩]⟩,
   ⟨Reg.ROK_SNAP_NONFINITE, 0, 1, 0, 1, false, true, [⟨31, 0, .ro, 0, false, []⟩]⟩,
   ⟨Reg.ROK_SNAP_FILE_FAULTS, 0, 1, 0, 1, false, true, [⟨31, 0, .ro, 0, false, []⟩]⟩,
   ⟨Reg.ROK_SNAP_SILT_WAIT_NS, 0, 1, 0, 1, false, true, [⟨31, 0, .ro, 0, false, []⟩]⟩,
   ⟨Reg.ROK_SNAP_RATE, 0, 1, 0, 1, false, true, [⟨31, 0, .ro, 0, false, []⟩]⟩,
   ⟨Reg.ROK_SNAP_LUT_PARITY, 0, 1, 0, 1, false, true, [⟨31, 0, .ro, 0, false, []⟩]⟩,
   ⟨Reg.ROK_LUT, 4096, 3, 4, 1024, false, false, [⟨15, 0, .rw, 0, true, []⟩]⟩]

/-- Registers of the BRD window. -/
def regRowsBrd : List RegRow :=
  [⟨Reg.BRD_CTRL, 0, 1, 0, 1, false, false, [⟨1, 1, .rw, 1, true, []⟩, ⟨0, 0, .rw, 1, true, []⟩]⟩,
   ⟨Reg.BRD_STATUS, 0, 1, 0, 1, false, false, [⟨31, 16, .ro, 0, false, []⟩, ⟨3, 0, .ro, 0, false, []⟩]⟩,
   ⟨Reg.BRD_BLINK, 4, 4, 0, 1, false, false, [⟨31, 16, .rw, 0, true, [(0, 0), (20, 10000)]⟩, ⟨15, 8, .rw, 128, true, [(1, 255)]⟩]⟩,
   ⟨Reg.BRD_CTX_CMD, 0, 1, 0, 1, false, false, [⟨31, 28, .wo, 0, false, [(1, 4)]⟩, ⟨11, 0, .wo, 0, false, []⟩]⟩,
   ⟨Reg.BRD_CTX_RESULT, 0, 1, 0, 1, false, false, [⟨31, 16, .ro, 0, false, []⟩, ⟨0, 0, .w1c, 0, false, []⟩]⟩,
   ⟨Reg.BRD_CTX_COUNT, 0, 1, 0, 1, false, false, [⟨28, 16, .ro, 0, false, []⟩, ⟨8, 0, .ro, 0, false, []⟩]⟩,
   ⟨Reg.BRD_SNAP_LISTS, 0, 1, 0, 1, false, true, [⟨31, 0, .ro, 0, false, []⟩]⟩,
   ⟨Reg.BRD_SNAP_CULLED, 0, 1, 0, 1, false, true, [⟨31, 0, .ro, 0, false, []⟩]⟩,
   ⟨Reg.BRD_SNAP_TRUNCATED, 0, 1, 0, 1, false, true, [⟨31, 0, .ro, 0, false, []⟩]⟩,
   ⟨Reg.BRD_SNAP_LIST_LATE, 0, 1, 0, 1, false, true, [⟨31, 0, .ro, 0, false, []⟩]⟩,
   ⟨Reg.BRD_SNAP_LATE_LAYERS, 0, 1, 0, 1, false, true, [⟨31, 0, .ro, 0, false, []⟩]⟩,
   ⟨Reg.BRD_SNAP_SUBST, 0, 1, 0, 1, false, true, [⟨31, 0, .ro, 0, false, []⟩]⟩,
   ⟨Reg.BRD_SNAP_SUBST_FAILED, 0, 1, 0, 1, false, true, [⟨31, 0, .ro, 0, false, []⟩]⟩,
   ⟨Reg.BRD_SNAP_ENTRY_PEAK, 0, 1, 0, 1, false, true, [⟨31, 0, .ro, 0, false, []⟩]⟩,
   ⟨Reg.BRD_SNAP_LAYER_LATE, 4, 1024, 0, 1, false, true, [⟨31, 28, .ro, 0, false, []⟩, ⟨27, 24, .ro, 0, false, []⟩, ⟨23, 0, .ro, 0, false, []⟩]⟩,
   ⟨Reg.BRD_CTX_STATE, 4, 4096, 0, 1, false, false, [⟨1, 0, .ro, 0, false, []⟩]⟩]

/-- Registers of the SVE window. -/
def regRowsSve : List RegRow :=
  [⟨Reg.SVE_CTRL, 0, 1, 0, 1, false, false, [⟨3, 0, .rw, 15, false, []⟩]⟩,
   ⟨Reg.SVE_STATUS, 0, 1, 0, 1, false, false, [⟨15, 0, .ro, 13107, false, []⟩]⟩,
   ⟨Reg.SVE_TBL_SEL, 0, 1, 0, 1, false, false, [⟨31, 30, .rw, 0, false, []⟩, ⟨29, 29, .rw, 0, false, []⟩, ⟨28, 26, .rw, 0, false, []⟩, ⟨11, 0, .rw, 0, false, []⟩]⟩,
   ⟨Reg.SVE_TBL_DATA, 0, 1, 0, 1, false, false, [⟨15, 0, .rw, 0, false, []⟩]⟩,
   ⟨Reg.SVE_APPLY, 0, 1, 0, 1, false, false, [⟨3, 0, .rw, 0, false, []⟩]⟩,
   ⟨Reg.SVE_QUEUE, 0, 1, 0, 1, false, false, [⟨31, 0, .ro, 0, false, []⟩]⟩,
   ⟨Reg.SVE_SNAP_FRAMES, 0, 1, 0, 1, false, true, [⟨31, 0, .ro, 0, false, []⟩]⟩,
   ⟨Reg.SVE_SNAP_SUPERSEDED, 0, 1, 0, 1, false, true, [⟨31, 0, .ro, 0, false, []⟩]⟩,
   ⟨Reg.SVE_SNAP_DROPPED, 0, 1, 0, 1, false, true, [⟨31, 0, .ro, 0, false, []⟩]⟩,
   ⟨Reg.SVE_SNAP_NOT_LIVE, 0, 1, 0, 1, false, true, [⟨31, 0, .ro, 0, false, []⟩]⟩,
   ⟨Reg.SVE_SNAP_STRIPED, 0, 1, 0, 1, false, true, [⟨31, 0, .ro, 0, false, []⟩]⟩,
   ⟨Reg.SVE_SNAP_APPLY_REFUSED, 0, 1, 0, 1, false, true, [⟨31, 0, .ro, 0, false, []⟩]⟩]

/-- Registers of the TRW window. -/
def regRowsTrw : List RegRow :=
  [⟨Reg.TRW_STATUS, 0, 1, 0, 1, false, false, [⟨31, 16, .ro, 0, false, []⟩, ⟨5, 4, .ro, 0, false, []⟩, ⟨3, 0, .ro, 3, false, []⟩]⟩,
   ⟨Reg.TRW_LAST, 0, 1, 0, 1, false, false, [⟨31, 0, .ro, 0, false, []⟩]⟩,
   ⟨Reg.TRW_SNAP_JOBS, 0, 1, 0, 1, false, true, [⟨31, 0, .ro, 0, false, []⟩]⟩,
   ⟨Reg.TRW_SNAP_SAMPLES, 0, 1, 0, 1, false, true, [⟨31, 0, .ro, 0, false, []⟩]⟩,
   ⟨Reg.TRW_SNAP_REVERSED, 0, 1, 0, 1, false, true, [⟨31, 0, .ro, 0, false, []⟩]⟩,
   ⟨Reg.TRW_SNAP_SCRATCH, 0, 1, 0, 1, false, true, [⟨31, 0, .ro, 0, false, []⟩]⟩,
   ⟨Reg.TRW_SNAP_REFUSED, 0, 1, 0, 1, false, true, [⟨31, 0, .ro, 0, false, []⟩]⟩]

/-- Registers of the OUT window, part 1. -/
def regRowsOut0 : List RegRow :=
  [⟨Reg.OUT_MODE, 0, 1, 0, 1, false, false, [⟨30, 16, .rw, 0, true, []⟩, ⟨5, 0, .rw, 0, true, [(0, 47)]⟩]⟩,
   ⟨Reg.OUT_PHASE, 0, 1, 0, 1, false, false, [⟨31, 0, .rw, 0, true, []⟩]⟩,
   ⟨Reg.OUT_LOCK, 0, 1, 0, 1, false, false, [⟨16, 16, .ro, 0, false, []⟩, ⟨9, 8, .ro, 0, false, []⟩, ⟨2, 0, .ro, 0, false, []⟩]⟩,
   ⟨Reg.OUT_PHASE_ERR, 0, 1, 0, 1, false, false, [⟨31, 0, .ro, 0, false, []⟩]⟩,
   ⟨Reg.OUT_REF_PERIOD, 0, 1, 0, 1, false, false, [⟨31, 0, .ro, 0, false, []⟩]⟩,
   ⟨Reg.OUT_LINE_PERIOD, 0, 1, 0, 1, false, false, [⟨31, 0, .ro, 0, false, []⟩]⟩,
   ⟨Reg.OUT_TE, 0, 1, 0, 1, false, false, [⟨31, 31, .rw, 0, false, []⟩, ⟨23, 16, .rw, 252, false, [(128, 255)]⟩, ⟨15, 0, .rw, 32, false, [(0, 4096)]⟩]⟩,
   ⟨Reg.OUT_TE_PERIOD, 0, 1, 0, 1, false, false, [⟨31, 0, .ro, 0, false, []⟩]⟩,
   ⟨Reg.OUT_LIGHT, 0, 1, 0, 1, false, false, [⟨31, 16, .rw, 50, false, [(1, 65535)]⟩, ⟨14, 0, .rw, 8640, true, []⟩]⟩,
   ⟨Reg.OUT_LIGHT_NS, 0, 1, 0, 1, false, false, [⟨31, 0, .ro, 0, false, []⟩]⟩,
   ⟨Reg.OUT_MEM_TOL, 0, 1, 0, 1, false, false, [⟨31, 0, .ro, 0, false, []⟩]⟩,
   ⟨Reg.OUT_SNAP_GLITCHES, 0, 1, 0, 1, false, true, [⟨31, 0, .ro, 0, false, []⟩]⟩,
   ⟨Reg.OUT_SNAP_RELOCKS, 0, 1, 0, 1, false, true, [⟨31, 0, .ro, 0, false, []⟩]⟩,
   ⟨Reg.OUT_SNAP_DISCONT, 0, 1, 0, 1, false, true, [⟨31, 0, .ro, 0, false, []⟩]⟩,
   ⟨Reg.OUT_SNAP_DISCONT_US, 0, 1, 0, 1, false, true, [⟨31, 0, .ro, 0, false, []⟩]⟩,
   ⟨Reg.OUT_SNAP_FLYWHEEL_FRAMES, 0, 1, 0, 1, false, true, [⟨31, 0, .ro, 0, false, []⟩]⟩]

/-- Registers of the OUT window, part 2. -/
def regRowsOut1 : List RegRow :=
  [⟨Reg.OUT_SNAP_SLEW_FRAMES, 0, 1, 0, 1, false, true, [⟨31, 0, .ro, 0, false, []⟩]⟩,
   ⟨Reg.OUT_SNAP_PHASE_MAX, 0, 1, 0, 1, false, true, [⟨31, 0, .ro, 0, false, []⟩]⟩,
   ⟨Reg.OUT_SNAP_TE_DELAYED, 0, 1, 0, 1, false, true, [⟨31, 0, .ro, 0, false, []⟩]⟩,
   ⟨Reg.OUT_SNAP_TE_TEARS, 0, 1, 0, 1, false, true, [⟨31, 0, .ro, 0, false, []⟩]⟩,
   ⟨Reg.OUT_SNAP_ECC_CORR, 0, 1, 0, 1, false, true, [⟨31, 0, .ro, 0, false, []⟩]⟩,
   ⟨Reg.OUT_SNAP_ECC_UNCORR, 0, 1, 0, 1, false, true, [⟨31, 0, .ro, 0, false, []⟩]⟩]

/-- Registers of the TLK window, part 1. -/
def regRowsTlk0 : List RegRow :=
  [⟨Reg.TLK_CTRL, 0, 1, 0, 1, false, false, [⟨23, 16, .rw, 16, false, []⟩, ⟨15, 8, .wo, 0, false, []⟩, ⟨0, 0, .rw, 1, false, []⟩]⟩,
   ⟨Reg.TLK_HOLD, 0, 1, 0, 1, false, false, [⟨15, 0, .rw, 5000, false, [(500, 60000)]⟩]⟩,
   ⟨Reg.TLK_GROUP_STATUS, 4, 8, 0, 1, false, false, [⟨21, 16, .ro, 0, false, []⟩, ⟨13, 8, .ro, 0, false, []⟩, ⟨7, 7, .ro, 0, false, []⟩, ⟨6, 6, .ro, 0, false, []⟩, ⟨5, 5, .ro, 0, false, []⟩, ⟨2, 0, .ro, 0, false, []⟩]⟩,
   ⟨Reg.TLK_DELAY, 0, 1, 0, 1, false, false, [⟨15, 0, .ro, 0, false, []⟩]⟩,
   ⟨Reg.TLK_TILE_ID, 8, 8, 0, 1, true, false, [⟨63, 0, .ro, 0, false, []⟩]⟩,
   ⟨Reg.TLK_TILE_INFO, 4, 8, 0, 1, false, false, [⟨29, 28, .ro, 0, false, []⟩, ⟨27, 26, .ro, 0, false, []⟩, ⟨23, 0, .ro, 0, false, []⟩]⟩,
   ⟨Reg.TLK_TILE_FOM, 4, 12, 0, 1, false, false, [⟨31, 24, .ro, 0, false, []⟩, ⟨23, 16, .ro, 0, false, []⟩, ⟨15, 8, .ro, 0, false, []⟩, ⟨7, 0, .ro, 0, false, []⟩]⟩,
   ⟨Reg.TLK_SNAP_LINES, 0, 1, 0, 1, false, true, [⟨31, 0, .ro, 0, false, []⟩]⟩,
   ⟨Reg.TLK_SNAP_HOLD_LINES, 0, 1, 0, 1, false, true, [⟨31, 0, .ro, 0, false, []⟩]⟩,
   ⟨Reg.TLK_SNAP_HOLD_BANDS, 0, 1, 0, 1, false, true, [⟨31, 0, .ro, 0, false, []⟩]⟩,
   ⟨Reg.TLK_SNAP_RETRAINS, 0, 1, 0, 1, false, true, [⟨31, 0, .ro, 0, false, []⟩]⟩,
   ⟨Reg.TLK_SNAP_TILE_CRC, 0, 1, 0, 1, false, true, [⟨31, 0, .ro, 0, false, []⟩]⟩,
   ⟨Reg.TLK_SNAP_TILE_HCRC, 0, 1, 0, 1, false, true, [⟨31, 0, .ro, 0, false, []⟩]⟩,
   ⟨Reg.TLK_SNAP_ALIVE, 0, 1, 0, 1, false, true, [⟨31, 0, .ro, 0, false, []⟩]⟩,
   ⟨Reg.TLK_SNAP_READBACK, 0, 1, 0, 1, false, true, [⟨31, 0, .ro, 0, false, []⟩]⟩,
   ⟨Reg.TLK_SNAP_BC_CHECK, 0, 1, 0, 1, false, true, [⟨31, 0, .ro, 0, false, []⟩]⟩]

/-- Registers of the TLK window, part 2. -/
def regRowsTlk1 : List RegRow :=
  [⟨Reg.TLK_SNAP_FIFO, 0, 1, 0, 1, false, true, [⟨31, 0, .ro, 0, false, []⟩]⟩]

/-- Registers of the PNL window. -/
def regRowsPnl : List RegRow :=
  [⟨Reg.PNL_CTRL, 0, 1, 0, 1, false, false, [⟨15, 8, .rw, 4, true, [(2, 7)]⟩, ⟨5, 4, .rw, 0, true, []⟩, ⟨2, 2, .rw, 1, true, []⟩, ⟨1, 1, .wo, 0, false, []⟩, ⟨0, 0, .wo, 0, false, []⟩]⟩,
   ⟨Reg.PNL_STATUS, 0, 1, 0, 1, false, false, [⟨9, 9, .ro, 0, false, []⟩, ⟨8, 8, .ro, 0, false, []⟩, ⟨2, 0, .ro, 0, false, []⟩]⟩,
   ⟨Reg.PNL_DIS, 0, 1, 0, 1, false, false, [⟨31, 16, .rw, 50, false, [(1, 10000)]⟩, ⟨15, 0, .rw, 100, false, [(1, 10000)]⟩]⟩,
   ⟨Reg.PNL_DIS2, 0, 1, 0, 1, false, false, [⟨15, 0, .rw, 200, false, [(1, 10000)]⟩]⟩,
   ⟨Reg.PNL_DMR_ADDR, 0, 1, 0, 1, true, false, [⟨63, 12, .rw, 0, false, []⟩]⟩,
   ⟨Reg.PNL_DMR_LEN, 0, 1, 0, 1, false, false, [⟨31, 0, .rw, 0, false, []⟩]⟩,
   ⟨Reg.PNL_DMR_CTRL, 0, 1, 0, 1, false, false, [⟨0, 0, .wo, 0, false, []⟩]⟩,
   ⟨Reg.PNL_DMR_STATUS, 0, 1, 0, 1, false, false, [⟨31, 16, .ro, 0, false, []⟩, ⟨2, 2, .ro, 0, false, []⟩, ⟨1, 1, .ro, 0, false, []⟩, ⟨0, 0, .w1c, 0, false, []⟩]⟩,
   ⟨Reg.PNL_SNAP_SEGMENTS, 0, 1, 0, 1, false, true, [⟨31, 0, .ro, 0, false, []⟩]⟩,
   ⟨Reg.PNL_SNAP_BALANCE, 0, 1, 0, 1, false, true, [⟨31, 0, .ro, 0, false, []⟩]⟩,
   ⟨Reg.PNL_SNAP_CUT, 0, 1, 0, 1, false, true, [⟨31, 0, .ro, 0, false, []⟩]⟩,
   ⟨Reg.PNL_SNAP_SAT, 0, 1, 0, 1, false, true, [⟨31, 0, .ro, 0, false, []⟩]⟩,
   ⟨Reg.PNL_SNAP_SELECTS, 0, 1, 0, 1, false, true, [⟨31, 0, .ro, 0, false, []⟩]⟩,
   ⟨Reg.PNL_SNAP_ECC, 0, 1, 0, 1, false, true, [⟨31, 0, .ro, 0, false, []⟩]⟩]

/-- Registers of the LBL window. -/
def regRowsLbl : List RegRow :=
  [⟨Reg.LBL_CTRL, 0, 1, 0, 1, false, false, [⟨23, 16, .rw, 10, false, [(10, 255)]⟩, ⟨2, 2, .rw, 0, false, []⟩, ⟨1, 1, .rw, 0, false, []⟩, ⟨0, 0, .rw, 0, false, []⟩]⟩,
   ⟨Reg.LBL_STATUS, 0, 1, 0, 1, false, false, [⟨10, 8, .ro, 0, false, []⟩, ⟨2, 0, .ro, 0, false, []⟩]⟩,
   ⟨Reg.LBL_TEMP, 0, 1, 0, 1, false, false, [⟨15, 0, .rw, 0, false, []⟩]⟩,
   ⟨Reg.LBL_BANDS0, 0, 1, 0, 1, false, false, [⟨31, 0, .rw, 437455877, false, []⟩]⟩,
   ⟨Reg.LBL_BANDS1, 0, 1, 0, 1, false, false, [⟨23, 0, .rw, 3090465, false, []⟩]⟩,
   ⟨Reg.LBL_CLEAN, 0, 1, 0, 1, false, false, [⟨15, 0, .rw, 60, false, [(10, 3600)]⟩]⟩,
   ⟨Reg.LBL_WAVE_SEL, 0, 1, 0, 1, false, false, [⟨7, 5, .rw, 0, false, []⟩, ⟨4, 4, .rw, 0, false, []⟩, ⟨3, 0, .rw, 0, false, []⟩]⟩,
   ⟨Reg.LBL_WAVE_DATA, 0, 1, 0, 1, false, false, [⟨31, 0, .rw, 0, false, []⟩]⟩,
   ⟨Reg.LBL_WAVE_APPLY, 0, 1, 0, 1, false, false, [⟨0, 0, .rw, 0, false, []⟩]⟩,
   ⟨Reg.LBL_SNAP_UPDATES, 0, 1, 0, 1, false, true, [⟨31, 0, .ro, 0, false, []⟩]⟩,
   ⟨Reg.LBL_SNAP_COMMONS, 0, 1, 0, 1, false, true, [⟨31, 0, .ro, 0, false, []⟩]⟩,
   ⟨Reg.LBL_SNAP_BLINKS, 0, 1, 0, 1, false, true, [⟨31, 0, .ro, 0, false, []⟩]⟩,
   ⟨Reg.LBL_SNAP_INVERTED, 0, 1, 0, 1, false, true, [⟨31, 0, .ro, 0, false, []⟩]⟩,
   ⟨Reg.LBL_SNAP_NV, 0, 1, 0, 1, false, true, [⟨31, 0, .ro, 0, false, []⟩]⟩,
   ⟨Reg.LBL_DC, 4, 256, 0, 1, false, false, [⟨31, 0, .ro, 0, false, []⟩]⟩]

/-- Registers of the MEM window, part 1. -/
def regRowsMem0 : List RegRow :=
  [⟨Reg.MEM_STATUS, 0, 1, 0, 1, false, false, [⟨28, 16, .ro, 0, false, []⟩, ⟨0, 0, .ro, 0, false, []⟩]⟩,
   ⟨Reg.MEM_POLICY0, 0, 1, 0, 1, false, false, [⟨21, 20, .ro, 0, false, []⟩, ⟨19, 0, .ro, 0, false, []⟩]⟩,
   ⟨Reg.MEM_POLICY1, 0, 1, 0, 1, false, false, [⟨16, 0, .ro, 0, false, []⟩]⟩,
   ⟨Reg.MEM_CHAN_STATUS, 4, 24, 0, 1, false, false, [⟨24, 16, .ro, 0, false, []⟩, ⟨15, 15, .ro, 0, false, []⟩, ⟨14, 12, .ro, 0, false, []⟩, ⟨9, 8, .ro, 0, false, []⟩, ⟨5, 4, .ro, 0, false, []⟩, ⟨3, 0, .ro, 0, false, []⟩]⟩,
   ⟨Reg.MEM_PORT, 4, 16, 0, 1, false, false, [⟨31, 16, .rw, 0, false, [(100, 65535)]⟩, ⟨12, 0, .rw, 1024, false, [(1, 4096)]⟩]⟩,
   ⟨Reg.MEM_PASR_KEEP, 0, 1, 0, 1, false, false, [⟨15, 0, .rw, 65535, false, []⟩]⟩,
   ⟨Reg.MEM_SCRUB, 0, 1, 0, 1, false, false, [⟨7, 0, .rw, 12, false, [(0, 168)]⟩]⟩,
   ⟨Reg.MEM_ERR_ADDR, 0, 1, 0, 1, true, false, [⟨36, 6, .ro, 0, false, []⟩]⟩,
   ⟨Reg.MEM_SNAP_READ, 0, 1, 0, 1, false, true, [⟨31, 0, .ro, 0, false, []⟩]⟩,
   ⟨Reg.MEM_SNAP_WRITE, 0, 1, 0, 1, false, true, [⟨31, 0, .ro, 0, false, []⟩]⟩,
   ⟨Reg.MEM_SNAP_ECC_CORR, 0, 1, 0, 1, false, true, [⟨31, 0, .ro, 0, false, []⟩]⟩,
   ⟨Reg.MEM_SNAP_ECC_UNCORR, 0, 1, 0, 1, false, true, [⟨31, 0, .ro, 0, false, []⟩]⟩,
   ⟨Reg.MEM_SNAP_URGENT, 0, 1, 0, 1, false, true, [⟨31, 0, .ro, 0, false, []⟩]⟩,
   ⟨Reg.MEM_SNAP_LAT_MAX, 0, 1, 0, 1, false, true, [⟨31, 0, .ro, 0, false, []⟩]⟩,
   ⟨Reg.MEM_SNAP_PD_US, 0, 1, 0, 1, false, true, [⟨31, 0, .ro, 0, false, []⟩]⟩,
   ⟨Reg.MEM_SNAP_SR_US, 0, 1, 0, 1, false, true, [⟨31, 0, .ro, 0, false, []⟩]⟩]

/-- Registers of the MEM window, part 2. -/
def regRowsMem1 : List RegRow :=
  [⟨Reg.MEM_SNAP_REF_POSTPONED, 0, 1, 0, 1, false, true, [⟨31, 0, .ro, 0, false, []⟩]⟩,
   ⟨Reg.MEM_SNAP_RETRAIN_NS, 0, 1, 0, 1, false, true, [⟨31, 0, .ro, 0, false, []⟩]⟩,
   ⟨Reg.MEM_SNAP_SLOT_WAIT, 0, 1, 0, 1, false, true, [⟨31, 0, .ro, 0, false, []⟩]⟩]

/-- Registers of the TIM window, part 1. -/
def regRowsTim0 : List RegRow :=
  [⟨Reg.TIM_CTRL, 0, 1, 0, 1, false, false, [⟨31, 16, .rw, 0, false, []⟩, ⟨6, 6, .rw, 0, false, []⟩, ⟨5, 5, .wo, 0, false, []⟩, ⟨4, 4, .wo, 0, false, []⟩, ⟨3, 3, .wo, 0, false, []⟩, ⟨2, 2, .wo, 0, false, []⟩, ⟨0, 0, .rw, 0, false, []⟩]⟩,
   ⟨Reg.TIM_STATUS, 0, 1, 0, 1, false, false, [⟨11, 8, .ro, 0, false, []⟩, ⟨7, 6, .ro, 0, false, []⟩, ⟨5, 4, .ro, 0, false, []⟩, ⟨3, 3, .ro, 0, false, []⟩, ⟨2, 0, .ro, 0, false, []⟩]⟩,
   ⟨Reg.TIM_TIME_NS, 0, 1, 0, 1, false, false, [⟨31, 0, .ro, 0, false, []⟩]⟩,
   ⟨Reg.TIM_TIME_SEC_LO, 0, 1, 0, 1, false, false, [⟨31, 0, .ro, 0, false, []⟩]⟩,
   ⟨Reg.TIM_TIME_SEC_HI, 0, 1, 0, 1, false, false, [⟨23, 16, .ro, 0, false, []⟩, ⟨15, 0, .ro, 0, false, []⟩]⟩,
   ⟨Reg.TIM_SHORT, 0, 1, 0, 1, false, false, [⟨31, 0, .ro, 0, false, []⟩]⟩,
   ⟨Reg.TIM_SERVO, 0, 1, 0, 1, false, false, [⟨10, 0, .rw, 1000, false, [(100, 1000)]⟩]⟩,
   ⟨Reg.TIM_CASTLE_MAX, 0, 1, 0, 1, false, false, [⟨15, 0, .rw, 1000, false, [(1, 65535)]⟩]⟩,
   ⟨Reg.TIM_DOMAIN_DIFF, 0, 1, 0, 1, false, false, [⟨31, 0, .ro, 0, false, []⟩]⟩,
   ⟨Reg.TIM_TB_FREQ, 0, 1, 0, 1, false, false, [⟨31, 0, .ro, 0, false, []⟩]⟩,
   ⟨Reg.TIM_SRV_CFG, 64, 2, 0, 1, false, false, [⟨31, 31, .rw, 1, false, []⟩, ⟨30, 30, .rw, 0, false, []⟩, ⟨29, 29, .rw, 0, false, []⟩, ⟨23, 20, .rw, 3, false, [(2, 10)]⟩, ⟨19, 16, .rw, 13, false, [(0, 5), (9, 15)]⟩, ⟨7, 0, .rw, 127, false, [(0, 127)]⟩]⟩,
   ⟨Reg.TIM_SRV_LOCK, 64, 2, 0, 1, false, false, [⟨15, 0, .rw, 1000, false, [(20, 65535)]⟩]⟩,
   ⟨Reg.TIM_SRV_STATUS, 64, 2, 0, 1, false, false, [⟨31, 16, .ro, 0, false, []⟩, ⟨7, 4, .ro, 0, false, []⟩, ⟨3, 0, .ro, 0, false, []⟩]⟩,
   ⟨Reg.TIM_SRV_OFFSET, 64, 2, 0, 1, false, false, [⟨31, 0, .ro, 0, false, []⟩]⟩,
   ⟨Reg.TIM_SRV_DELAY, 64, 2, 0, 1, false, false, [⟨31, 0, .ro, 0, false, []⟩]⟩,
   ⟨Reg.TIM_SRV_GM, 64, 2, 0, 1, true, false, [⟨63, 0, .ro, 0, false, []⟩]⟩]

/-- Registers of the TIM window, part 2. -/
def regRowsTim1 : List RegRow :=
  [⟨Reg.TIM_PORT_CTRL, 16, 4, 0, 1, false, false, [⟨1, 1, .rw, 0, false, []⟩, ⟨0, 0, .rw, 1, false, []⟩]⟩,
   ⟨Reg.TIM_MAC_A, 0, 1, 0, 1, true, false, [⟨47, 0, .rw, 0, false, []⟩]⟩,
   ⟨Reg.TIM_MAC_B, 0, 1, 0, 1, true, false, [⟨47, 0, .rw, 0, false, []⟩]⟩,
   ⟨Reg.TIM_IPV4_A, 0, 1, 0, 1, false, false, [⟨31, 0, .rw, 0, false, []⟩]⟩,
   ⟨Reg.TIM_IPV4_B, 0, 1, 0, 1, false, false, [⟨31, 0, .rw, 0, false, []⟩]⟩,
   ⟨Reg.TIM_MCAST, 8, 16, 0, 1, true, false, [⟨63, 63, .rw, 0, false, []⟩, ⟨47, 0, .rw, 0, false, []⟩]⟩,
   ⟨Reg.TIM_RING_BASE, 32, 3, 0, 1, true, false, [⟨63, 4, .rw, 0, false, []⟩]⟩,
   ⟨Reg.TIM_RING_SIZE, 32, 3, 0, 1, false, false, [⟨11, 0, .rw, 0, false, [(0, 0), (2, 4095)]⟩]⟩,
   ⟨Reg.TIM_RING_HEAD, 32, 2, 0, 1, false, false, [⟨11, 0, .rw, 0, false, []⟩]⟩,
   ⟨Reg.TIM_RING_TAIL, 32, 2, 0, 1, false, false, [⟨11, 0, .ro, 0, false, []⟩]⟩,
   ⟨Reg.TIM_CAP_HEAD, 0, 1, 0, 1, false, false, [⟨11, 0, .ro, 0, false, []⟩]⟩,
   ⟨Reg.TIM_CAP_TAIL, 0, 1, 0, 1, false, false, [⟨11, 0, .rw, 0, false, []⟩]⟩,
   ⟨Reg.TIM_CAP_CTRL, 0, 1, 0, 1, false, false, [⟨11, 4, .rw, 0, false, []⟩, ⟨2, 0, .rw, 0, false, []⟩]⟩,
   ⟨Reg.TIM_SNAP_FWD, 0, 1, 0, 1, false, true, [⟨31, 0, .ro, 0, false, []⟩]⟩,
   ⟨Reg.TIM_SNAP_FWD_DROP, 0, 1, 0, 1, false, true, [⟨31, 0, .ro, 0, false, []⟩]⟩,
   ⟨Reg.TIM_SNAP_BAD_FCS, 0, 1, 0, 1, false, true, [⟨31, 0, .ro, 0, false, []⟩]⟩]

/-- Registers of the TIM window, part 3. -/
def regRowsTim2 : List RegRow :=
  [⟨Reg.TIM_SNAP_TC_CORRECTED, 0, 1, 0, 1, false, true, [⟨31, 0, .ro, 0, false, []⟩]⟩,
   ⟨Reg.TIM_SNAP_TC_SKIPPED, 0, 1, 0, 1, false, true, [⟨31, 0, .ro, 0, false, []⟩]⟩,
   ⟨Reg.TIM_SNAP_RX_DROP, 0, 1, 0, 1, false, true, [⟨31, 0, .ro, 0, false, []⟩]⟩,
   ⟨Reg.TIM_SNAP_PAUSE, 0, 1, 0, 1, false, true, [⟨31, 0, .ro, 0, false, []⟩]⟩,
   ⟨Reg.TIM_SNAP_CASTLES, 0, 1, 0, 1, false, true, [⟨31, 0, .ro, 0, false, []⟩]⟩,
   ⟨Reg.TIM_SNAP_HOLDOVER_MS, 0, 1, 0, 1, false, true, [⟨31, 0, .ro, 0, false, []⟩]⟩,
   ⟨Reg.TIM_SNAP_CAP_DEAD, 0, 1, 0, 1, false, true, [⟨31, 0, .ro, 0, false, []⟩]⟩,
   ⟨Reg.TIM_SNAP_CAP_DROP, 0, 1, 0, 1, false, true, [⟨31, 0, .ro, 0, false, []⟩]⟩,
   ⟨Reg.TIM_SNAP_TRIG_LATE, 0, 1, 0, 1, false, true, [⟨31, 0, .ro, 0, false, []⟩]⟩]

/-- Registers of the AUD window, part 1. -/
def regRowsAud0 : List RegRow :=
  [⟨Reg.AUD_CTRL, 0, 1, 0, 1, false, false, [⟨3, 2, .rw, 1, true, []⟩, ⟨1, 1, .rw, 1, false, []⟩, ⟨0, 0, .rw, 1, false, []⟩]⟩,
   ⟨Reg.AUD_STATUS, 0, 1, 0, 1, false, false, [⟨15, 0, .ro, 0, false, []⟩]⟩,
   ⟨Reg.AUD_IN_MASK, 0, 1, 0, 1, false, false, [⟨15, 0, .rw, 65535, true, []⟩]⟩,
   ⟨Reg.AUD_TRIM, 0, 1, 0, 1, false, false, [⟨31, 0, .rw, 0, true, []⟩]⟩,
   ⟨Reg.AUD_DELAY, 0, 1, 0, 1, false, false, [⟨31, 0, .ro, 0, false, []⟩]⟩,
   ⟨Reg.AUD_WCLK_ERR, 0, 1, 0, 1, false, false, [⟨31, 0, .ro, 0, false, []⟩]⟩,
   ⟨Reg.AUD_METER, 0, 1, 0, 1, false, false, [⟨15, 0, .rw, 20000, true, [(1, 60000)]⟩]⟩,
   ⟨Reg.AUD_IN_OFFSET, 4, 8, 0, 1, false, false, [⟨31, 0, .rw, 0, true, []⟩]⟩,
   ⟨Reg.AUD_OUT_SRC, 4, 16, 0, 1, false, false, [⟨5, 5, .rw, 0, true, []⟩, ⟨4, 0, .rw, 0, true, [(0, 1), (16, 31)]⟩]⟩,
   ⟨Reg.AUD_LEVEL, 4, 32, 0, 1, false, false, [⟨15, 0, .ro, 47104, false, []⟩]⟩,
   ⟨Reg.AUD_CS_IN, 32, 16, 4, 6, false, false, [⟨31, 0, .ro, 0, false, []⟩]⟩,
   ⟨Reg.AUD_CS_OUT, 32, 16, 4, 6, false, false, [⟨31, 0, .rw, 0, true, []⟩]⟩,
   ⟨Reg.AUD_RING_BASE, 32, 2, 0, 1, true, false, [⟨63, 6, .rw, 0, false, []⟩]⟩,
   ⟨Reg.AUD_RING_SIZE, 0, 1, 0, 1, false, false, [⟨11, 0, .rw, 0, false, [(0, 0), (2, 4095)]⟩]⟩,
   ⟨Reg.AUD_RING_HEAD, 0, 1, 0, 1, false, false, [⟨11, 0, .ro, 0, false, []⟩]⟩,
   ⟨Reg.AUD_RING_TAIL, 0, 1, 0, 1, false, false, [⟨11, 0, .rw, 0, false, []⟩]⟩]

/-- Registers of the AUD window, part 2. -/
def regRowsAud1 : List RegRow :=
  [⟨Reg.AUD_PLAY_SIZE, 0, 1, 0, 1, false, false, [⟨31, 16, .rw, 0, true, []⟩, ⟨11, 0, .rw, 0, false, [(0, 0), (2, 4095)]⟩]⟩,
   ⟨Reg.AUD_PLAY_HEAD, 0, 1, 0, 1, false, false, [⟨11, 0, .rw, 0, false, []⟩]⟩,
   ⟨Reg.AUD_PLAY_TAIL, 0, 1, 0, 1, false, false, [⟨11, 0, .ro, 0, false, []⟩]⟩,
   ⟨Reg.AUD_SNAP_BLOCKS, 0, 1, 0, 1, false, true, [⟨31, 0, .ro, 0, false, []⟩]⟩,
   ⟨Reg.AUD_SNAP_UNDERRUN, 0, 1, 0, 1, false, true, [⟨31, 0, .ro, 0, false, []⟩]⟩,
   ⟨Reg.AUD_SNAP_LATE, 0, 1, 0, 1, false, true, [⟨31, 0, .ro, 0, false, []⟩]⟩,
   ⟨Reg.AUD_SNAP_FADES, 0, 1, 0, 1, false, true, [⟨31, 0, .ro, 0, false, []⟩]⟩,
   ⟨Reg.AUD_SNAP_PARITY, 0, 1, 0, 1, false, true, [⟨31, 0, .ro, 0, false, []⟩]⟩,
   ⟨Reg.AUD_SNAP_SLIPS, 0, 1, 0, 1, false, true, [⟨31, 0, .ro, 0, false, []⟩]⟩,
   ⟨Reg.AUD_SNAP_CRCC, 0, 1, 0, 1, false, true, [⟨31, 0, .ro, 0, false, []⟩]⟩,
   ⟨Reg.AUD_SNAP_DELAY_STEPS, 0, 1, 0, 1, false, true, [⟨31, 0, .ro, 0, false, []⟩]⟩,
   ⟨Reg.AUD_SNAP_OVERRUN, 0, 1, 0, 1, false, true, [⟨31, 0, .ro, 0, false, []⟩]⟩]

/-- Registers of the CHK window. -/
def regRowsChk : List RegRow :=
  [⟨Reg.CHK_CTRL, 64, 16, 0, 1, false, false, [⟨16, 16, .rw, 0, true, []⟩, ⟨15, 15, .rw, 0, true, []⟩, ⟨14, 8, .rw, 32, true, []⟩, ⟨7, 7, .rw, 0, true, []⟩, ⟨6, 6, .rw, 0, true, []⟩, ⟨5, 5, .rw, 0, true, []⟩, ⟨4, 2, .rw, 0, true, [(0, 4)]⟩, ⟨1, 0, .rw, 0, true, [(0, 2)]⟩]⟩,
   ⟨Reg.CHK_TAP, 64, 16, 0, 1, false, false, [⟨31, 24, .rw, 0, true, [(1, 6)]⟩, ⟨15, 0, .rw, 0, true, []⟩]⟩,
   ⟨Reg.CHK_POLY, 64, 16, 0, 1, true, false, [⟨63, 0, .rw, 0, true, []⟩]⟩,
   ⟨Reg.CHK_INIT, 64, 16, 0, 1, true, false, [⟨63, 0, .rw, 0, true, []⟩]⟩,
   ⟨Reg.CHK_XOROUT, 64, 16, 0, 1, true, false, [⟨63, 0, .rw, 0, true, []⟩]⟩,
   ⟨Reg.CHK_FIELD, 64, 16, 0, 1, false, false, [⟨31, 16, .rw, 0, true, []⟩, ⟨15, 0, .rw, 0, true, []⟩]⟩,
   ⟨Reg.CHK_ALIVE, 64, 16, 0, 1, false, false, [⟨31, 16, .rw, 1, true, []⟩, ⟨15, 11, .rw, 4, true, []⟩, ⟨10, 8, .rw, 0, true, []⟩, ⟨7, 0, .rw, 0, true, []⟩]⟩,
   ⟨Reg.CHK_RESULT, 64, 16, 0, 1, true, false, [⟨63, 0, .ro, 0, false, []⟩]⟩,
   ⟨Reg.CHK_STATUS, 64, 16, 0, 1, false, false, [⟨31, 16, .ro, 0, false, []⟩, ⟨1, 0, .ro, 0, false, []⟩]⟩,
   ⟨Reg.CHK_SNAP_RECORDS, 64, 16, 0, 1, false, true, [⟨31, 0, .ro, 0, false, []⟩]⟩,
   ⟨Reg.CHK_SNAP_MISMATCH, 64, 16, 0, 1, false, true, [⟨31, 0, .ro, 0, false, []⟩]⟩,
   ⟨Reg.CHK_SNAP_REPEAT, 64, 16, 0, 1, false, true, [⟨31, 0, .ro, 0, false, []⟩]⟩,
   ⟨Reg.CHK_SNAP_SKIP, 64, 16, 0, 1, false, true, [⟨31, 0, .ro, 0, false, []⟩]⟩,
   ⟨Reg.CHK_SNAP_OVERRUN, 64, 16, 0, 1, false, true, [⟨31, 0, .ro, 0, false, []⟩]⟩,
   ⟨Reg.CHK_SNAP_SHORT, 64, 16, 0, 1, false, true, [⟨31, 0, .ro, 0, false, []⟩]⟩,
   ⟨Reg.CHK_SNAP_RUNNING, 64, 16, 0, 1, true, true, [⟨63, 0, .ro, 0, false, []⟩]⟩]

/-- Registers of the THM window. -/
def regRowsThm : List RegRow :=
  [⟨Reg.THM_STATUS, 0, 1, 0, 1, false, false, [⟨31, 16, .ro, 0, false, []⟩, ⟨15, 11, .ro, 16, false, []⟩, ⟨5, 5, .ro, 0, false, []⟩, ⟨4, 4, .ro, 0, false, []⟩, ⟨3, 3, .ro, 0, false, []⟩, ⟨2, 2, .ro, 0, false, []⟩, ⟨1, 1, .ro, 0, false, []⟩]⟩,
   ⟨Reg.THM_CTRL, 0, 1, 0, 1, false, false, [⟨15, 8, .rw, 90, false, [(0, 0), (60, 97)]⟩, ⟨0, 0, .wo, 0, false, []⟩]⟩,
   ⟨Reg.THM_SENSOR, 4, 32, 0, 1, false, false, [⟨16, 16, .ro, 0, false, []⟩, ⟨15, 0, .ro, 0, false, []⟩]⟩,
   ⟨Reg.THM_KEEPER, 0, 1, 0, 1, false, false, [⟨15, 0, .ro, 0, false, []⟩]⟩,
   ⟨Reg.THM_STACK, 4, 6, 0, 1, false, false, [⟨15, 0, .ro, 0, false, []⟩]⟩,
   ⟨Reg.THM_VCORE, 0, 1, 0, 1, false, false, [⟨31, 16, .ro, 800, false, []⟩, ⟨15, 0, .ro, 0, false, []⟩]⟩,
   ⟨Reg.THM_POWER, 0, 1, 0, 1, false, false, [⟨31, 16, .ro, 0, false, []⟩, ⟨15, 0, .ro, 0, false, []⟩]⟩,
   ⟨Reg.THM_GOV, 0, 1, 0, 1, false, false, [⟨31, 24, .rw, 24, false, [(1, 63)]⟩, ⟨23, 16, .rw, 8, false, [(0, 62)]⟩, ⟨15, 8, .rw, 10, false, [(5, 25)]⟩, ⟨0, 0, .rw, 1, false, []⟩]⟩,
   ⟨Reg.THM_GOV2, 0, 1, 0, 1, false, false, [⟨15, 0, .rw, 190, false, [(0, 400)]⟩]⟩,
   ⟨Reg.THM_PD, 0, 1, 0, 1, false, false, [⟨23, 0, .ro, 0, false, []⟩]⟩,
   ⟨Reg.THM_SNAP_PEAK, 0, 1, 0, 1, false, true, [⟨31, 0, .ro, 0, false, []⟩]⟩,
   ⟨Reg.THM_SNAP_THROTTLE_US, 0, 1, 0, 1, false, true, [⟨31, 0, .ro, 0, false, []⟩]⟩,
   ⟨Reg.THM_SNAP_DUTY_MIN, 0, 1, 0, 1, false, true, [⟨31, 0, .ro, 0, false, []⟩]⟩,
   ⟨Reg.THM_SNAP_V_MAX, 0, 1, 0, 1, false, true, [⟨31, 0, .ro, 0, false, []⟩]⟩,
   ⟨Reg.THM_SNAP_ENERGY, 0, 1, 0, 1, false, true, [⟨31, 0, .ro, 0, false, []⟩]⟩,
   ⟨Reg.THM_SNAP_BUDGET_HELD, 0, 1, 0, 1, false, true, [⟨31, 0, .ro, 0, false, []⟩]⟩]

/-- Registers of the NVS window. -/
def regRowsNvs : List RegRow :=
  [⟨Reg.NVS_STATUS, 0, 1, 0, 1, false, false, [⟨23, 16, .ro, 0, false, []⟩, ⟨15, 8, .ro, 0, false, []⟩, ⟨3, 3, .ro, 0, false, []⟩, ⟨2, 2, .w1c, 0, false, []⟩, ⟨1, 1, .ro, 0, false, []⟩, ⟨0, 0, .ro, 0, false, []⟩]⟩,
   ⟨Reg.NVS_REQ, 0, 1, 0, 1, false, false, [⟨31, 28, .rw, 0, false, []⟩, ⟨27, 27, .rw, 0, false, []⟩, ⟨13, 0, .rw, 0, false, [(0, 8192)]⟩]⟩,
   ⟨Reg.NVS_REQ_ID, 0, 1, 0, 1, false, false, [⟨31, 16, .rw, 0, false, []⟩, ⟨15, 0, .rw, 0, false, []⟩]⟩,
   ⟨Reg.NVS_REQ_ADDR, 0, 1, 0, 1, true, false, [⟨63, 6, .rw, 0, false, []⟩]⟩,
   ⟨Reg.NVS_RESULT, 0, 1, 0, 1, false, false, [⟨31, 16, .ro, 0, false, []⟩, ⟨13, 0, .ro, 0, false, []⟩]⟩,
   ⟨Reg.NVS_RESULT_SEQ, 0, 1, 0, 1, false, false, [⟨31, 0, .ro, 0, false, []⟩]⟩,
   ⟨Reg.NVS_COUNT_WRITES, 0, 1, 0, 1, false, false, [⟨31, 0, .ro, 0, false, []⟩]⟩,
   ⟨Reg.NVS_COUNT_TIES, 0, 1, 0, 1, false, false, [⟨31, 0, .ro, 0, false, []⟩]⟩,
   ⟨Reg.NVS_COUNT_WEAK, 0, 1, 0, 1, false, false, [⟨31, 0, .ro, 0, false, []⟩]⟩,
   ⟨Reg.NVS_SECTOR, 4, 64, 0, 1, false, false, [⟨31, 30, .ro, 0, false, []⟩, ⟨23, 0, .ro, 0, false, []⟩]⟩]

/-- Registers of the SEC window. -/
def regRowsSec : List RegRow :=
  [⟨Reg.SEC_STATUS, 0, 1, 0, 1, false, false, [⟨23, 16, .ro, 0, false, []⟩, ⟨7, 6, .ro, 0, false, []⟩, ⟨4, 4, .ro, 0, false, []⟩, ⟨3, 0, .ro, 0, false, []⟩]⟩,
   ⟨Reg.SEC_MB_ADDR, 0, 1, 0, 1, true, false, [⟨63, 6, .rw, 0, false, []⟩]⟩,
   ⟨Reg.SEC_MB_LEN, 0, 1, 0, 1, false, false, [⟨14, 0, .rw, 0, false, [(16, 16384)]⟩]⟩,
   ⟨Reg.SEC_MB_RESP, 0, 1, 0, 1, true, false, [⟨63, 6, .rw, 0, false, []⟩]⟩,
   ⟨Reg.SEC_MB_RESP_LEN, 0, 1, 0, 1, false, false, [⟨31, 16, .ro, 0, false, []⟩, ⟨15, 0, .rw, 0, false, [(64, 8192)]⟩]⟩,
   ⟨Reg.SEC_MB_CTRL, 0, 1, 0, 1, false, false, [⟨2, 2, .ro, 0, false, []⟩, ⟨1, 1, .w1c, 0, false, []⟩, ⟨0, 0, .wo, 0, false, []⟩]⟩,
   ⟨Reg.SEC_MB_RESULT, 0, 1, 0, 1, false, false, [⟨31, 16, .ro, 0, false, []⟩, ⟨15, 0, .ro, 0, false, []⟩]⟩]

/-- Registers of the DMP window. -/
def regRowsDmp : List RegRow :=
  [⟨Reg.DMP_STATUS, 0, 1, 0, 1, false, false, [⟨23, 16, .ro, 0, false, []⟩, ⟨3, 3, .ro, 0, false, []⟩, ⟨2, 0, .ro, 0, false, []⟩]⟩,
   ⟨Reg.DMP_CTRL, 0, 1, 0, 1, false, false, [⟨2, 2, .rw, 0, false, []⟩, ⟨1, 1, .wo, 0, false, []⟩, ⟨0, 0, .wo, 0, false, []⟩]⟩,
   ⟨Reg.DMP_WDOG, 0, 1, 0, 1, false, false, [⟨31, 16, .rw, 100, false, [(20, 1000)]⟩, ⟨15, 0, .rw, 20, false, [(0, 0), (5, 500)]⟩]⟩,
   ⟨Reg.DMP_LAST, 0, 1, 0, 1, false, false, [⟨31, 16, .ro, 0, false, []⟩, ⟨15, 0, .ro, 0, false, []⟩]⟩,
   ⟨Reg.DMP_SEQ, 0, 1, 0, 1, false, false, [⟨31, 0, .ro, 0, false, []⟩]⟩,
   ⟨Reg.DMP_COUNT, 0, 1, 0, 1, false, false, [⟨31, 0, .ro, 0, false, []⟩]⟩]

/-- Registers of the DBG window. -/
def regRowsDbg : List RegRow :=
  [⟨Reg.DBG_TRACE_CTRL, 0, 1, 0, 1, false, false, [⟨31, 31, .rw, 0, false, []⟩, ⟨26, 24, .rw, 0, false, [(1, 6)]⟩, ⟨23, 16, .rw, 0, false, []⟩, ⟨15, 0, .rw, 0, false, []⟩]⟩,
   ⟨Reg.DBG_TRACE_STATUS, 0, 1, 0, 1, false, false, [⟨1, 0, .ro, 0, false, []⟩]⟩,
   ⟨Reg.DBG_TRACE_BASE, 0, 1, 0, 1, true, false, [⟨63, 5, .rw, 0, false, []⟩]⟩,
   ⟨Reg.DBG_TRACE_SIZE, 0, 1, 0, 1, false, false, [⟨12, 0, .rw, 0, false, [(0, 0), (2, 4096)]⟩]⟩,
   ⟨Reg.DBG_TRACE_HEAD, 0, 1, 0, 1, false, false, [⟨11, 0, .ro, 0, false, []⟩]⟩,
   ⟨Reg.DBG_TRACE_TAIL, 0, 1, 0, 1, false, false, [⟨11, 0, .rw, 0, false, []⟩]⟩,
   ⟨Reg.DBG_TRACE_DROPPED, 0, 1, 0, 1, false, false, [⟨31, 0, .rc, 0, false, []⟩]⟩]

/-- Every register of the tables, in window order (R551). -/
def regRows : List RegRow :=
  regRowsSys0 ++
  regRowsSys1 ++
  regRowsHst0 ++
  regRowsHst1 ++
  regRowsCmt ++
  regRowsKln0 ++
  regRowsKln1 ++
  regRowsSlt ++
  regRowsRrg0 ++
  regRowsRrg1 ++
  regRowsRok0 ++
  regRowsRok1 ++
  regRowsBrd ++
  regRowsSve ++
  regRowsTrw ++
  regRowsOut0 ++
  regRowsOut1 ++
  regRowsTlk0 ++
  regRowsTlk1 ++
  regRowsPnl ++
  regRowsLbl ++
  regRowsMem0 ++
  regRowsMem1 ++
  regRowsTim0 ++
  regRowsTim1 ++
  regRowsTim2 ++
  regRowsAud0 ++
  regRowsAud1 ++
  regRowsChk ++
  regRowsThm ++
  regRowsNvs ++
  regRowsSec ++
  regRowsDmp ++
  regRowsDbg

end Sys2Proof.Machine
end

