-- ==== Sys2Proof/Machine/UnitsA.lean ====
section
/-!
DEFINITION. State of the system-level units as plain data: the event log, the host interface with its 64 work rings, the
commit unit, the Tilth and the memory controller. What a register holds is in the register file; these structures hold
what the spec gives the machine besides.
-/

namespace Sys2Proof.Machine

/-- A register file: 32-bit words by BAR0 offset, in canonical sparse form. -/
abbrev RegFile := List (Nat × BitVec 32)

/-- Accumulating counters by the BAR0 offset of the snapshot register that publishes them (R81). -/
abbrev Counters := List (Nat × Nat)

/-- One event on its way to the log (R568, R95). -/
structure LogEntry where
  stamp : Nat
  keeper : Bool
  unit : Nat
  inst : Nat
  epoch : Nat
  code : Nat
  arg0 : Nat
  arg1 : Nat
  /-- Full time of its stamp, in ticks. -/
  full : Nat
deriving DecidableEq, Repr

/-- System state beside the SYS registers: the event log of R568 to R570 and the frame-report ring of R571. -/
structure SysState where
  /-- Events stamped and not yet written, in the order of R95. -/
  logPend : List LogEntry := []
  /-- The 256-entry keeper buffer used before the first image is in force (R569). -/
  logKeep : List LogEntry := []
  /-- Drops since the last `SYS_LOG_OVERFLOW` (R570, STOP mode). -/
  logDropRun : Nat := 0
  /-- The threshold interrupt may be raised again (R570). -/
  logArmed : Bool := true
  /-- Codes already logged in an epoch: (code, key, epoch), for every "once per epoch" rule. -/
  logOnce : List (Nat × Nat × Nat) := []
  /-- A run of frame-report drops is open (R571). -/
  frDropRun : Bool := false
  /-- Fatal causes raised and not yet taken by the freeze: (cause, detail), R589. -/
  fatal : List (Nat × Nat) := []
  /-- Epoch in force at each unit, by unit number (R22, R95). -/
  unitEpoch : List (Nat × Nat) := []
deriving DecidableEq, Repr

/-- Where a taken descriptor stands (R558). -/
inductive DescSt where
  | waiting | running | ended
deriving DecidableEq, Repr

/-- A descriptor that the HST has taken from a work ring (R556 to R560). -/
structure Desc where
  slot : Nat
  /-- Its number among the descriptors taken on its ring since power-up: what its unit knows it by. -/
  num : Nat := 0
  /-- TYPE, FLAGS, COOKIE and the rest: the 64 bytes as read. -/
  bytes : List Nat
  /-- The doorbell stamp (R557). -/
  stamp : Nat
  st : DescSt := .waiting
  /-- The code it ended with (R558). -/
  endCode : Nat := 0
  /-- Completion entries formed and not yet written: bytes 0x08 to 0x1F, first completion first (R560). -/
  out : List (List Nat) := []
  /-- Its first completion has been written. -/
  firstOut : Bool := false
  /-- Completions still to be formed or written (the entries reserved, R560). -/
  resv : Nat := 1
  /-- Poisoned when read: completes with TYPE 0 (R561). -/
  faulty : Bool := false
deriving DecidableEq, Repr

/-- Ring states of R561. -/
inductive RingSt where
  | disabled | running | stalled | draining
deriving DecidableEq, Repr

/-- One work ring beside its registers (R555 to R561). -/
structure Ring where
  st : RingSt := .disabled
  /-- Last WORK_HEAD and CPL_TAIL doorbell values (R557). -/
  workHead : Nat := 0
  cplTail : Nat := 0
  /-- Slots covered by doorbells and not yet taken, with their doorbell stamps, in ring order. -/
  avail : List (Nat × Nat) := []
  taken : List Desc := []
  /-- Number of the next descriptor taken (it goes on when the ring is disabled). -/
  next : Nat := 0
  /-- Stamp at which the ring entered STALLED. -/
  stallAt : Nat := 0
deriving DecidableEq, Repr

/-- One pass of bytes the device sends to host memory or to the host: index write-backs (R578) and exports. -/
structure HostWrite where
  addr : Nat
  bytes : List Nat
deriving DecidableEq, Repr

/-- Arbitration state of one consumer port (R19). -/
structure TiltPort where
  unit : Nat
  port : Nat
  /-- Last queue granted at each level: (priority, queue number). -/
  last : List (Nat × Nat) := []
  /-- Grants since a level with an entry ready was last granted: (priority, count). -/
  starve : List (Nat × Nat) := []
deriving DecidableEq, Repr

/-- The host interface beside its registers (R547 to R567). -/
structure HstState where
  rings : List Ring := List.replicate 64 {}
  /-- The MSI-X table as 32-bit words by index 4 × vector + word, canonical sparse; unlisted words read as reset. -/
  msix : List (Nat × Nat) := []
  /-- Vectors pending while masked (R554). -/
  pba : List Nat := []
  /-- Vectors sent, latest first. -/
  sent : List Nat := []
  /-- Bytes written to host memory, latest first. -/
  hostOut : List HostWrite := []
  d3 : Bool := false
  /-- INGEST and EXPORT descriptors in progress: ring and number on it. -/
  copies : List (Nat × Nat) := []
  /-- Result of the last host read and its EP bit (R552). -/
  readData : List Nat := []
  readEp : Bool := false
  /-- A link-down event whose effects complete when the link returns (R567). -/
  downAt : Bool := false
  /-- Arbitration of the descriptor fetch among the rings (R558). -/
  fetch : TiltPort := { unit := 2, port := 0 }
deriving DecidableEq, Repr

/-- What a commit carries (R71, R75). -/
structure Commit where
  ring : Nat
  slot : Nat
  /-- The descriptor's number on its ring, and its 64 bytes. -/
  num : Nat := 0
  bytes : List Nat := []
  /-- The capture stamp (R70). -/
  capture : Nat
  /-- The completion stamp (R72). -/
  complete : Nat := 0
  /-- The short stamp of that instant, as the time base stood then (R76, R440). -/
  completeShort : Nat := 0
  /-- Descriptor FLAGS (R75). -/
  flags : Nat
  layers : List (List Nat) := []
  overlay : List Nat := []
  label : List Nat := []
  triggers : List (List Nat) := []
  /-- Stamp before which it may not land (R74); 0 for none. -/
  notBefore : Nat := 0
  /-- The captured writes: register, stamp, word; of one register the last (R70). -/
  writes : List (Nat × Nat × Nat) := []
  /-- Address ranges its buffers occupy: (first byte, length) (R84, R87). -/
  names : List (Nat × Nat) := []
  /-- Plaintext of the overlay's payload, once its copy is checked (R57). -/
  plain : List Nat := []
  /-- What the overlay's check found, once made: 0 or its code (R57). -/
  overlayCode : Option Nat := none
  /-- What the Board's check found, once made: code and layer (R252). -/
  board : Option (Nat × Nat) := none
  /-- Its descriptor was lost with its ring: it has no completions (R96, R567). -/
  silent : Bool := false
deriving DecidableEq, Repr

/-- A sealed epoch that has not retired (R77 to R85). -/
structure Epoch where
  num : Nat
  frame : Nat
  /-- Target presentation time: the stamp of its frame start (R69). -/
  target : Nat
  /-- Landed commits in the order they were taken. -/
  commits : List Commit
  /-- Staged values of this epoch. -/
  staged : RegFile
  /-- The layer list of this epoch, 128-byte descriptors (R71, R251). -/
  layers : List (List Nat)
  /-- Buffers its layers refer to, held content included (R84, R263). -/
  names : List (Nat × Nat) := []
  /-- Units that have consumed marker `num`. -/
  reached : List Nat := []
  /-- Units that have latched their snapshot of `num` (they consumed the next marker, R81). -/
  latched : List Nat := []
  /-- Units whose snapshot is INCOMPLETE (R81). -/
  incomplete : List Nat := []
  /-- Latched snapshot values. -/
  snap : Counters := []
  published : Bool := false
  retired : Bool := false
  /-- The epoch was sealed and its frame held by a fatal event (R96). -/
  notShown : Bool := false
  /-- Byte ranges of earlier content that its frame shows under HOLD (R84). -/
  heldContent : List (Nat × Nat) := []
  /-- Pace counts in its snapshot: (unit, count, untimed) (R25). -/
  pace : List (Nat × Nat × Bool) := []
deriving DecidableEq, Repr

/-- The commit unit beside its registers (R66 to R103). -/
structure CmtState where
  /-- Values in force at each unit; one unit owns each window. -/
  inForce : RegFile := []
  /-- Values in the last sealed epoch (R103). -/
  sealedRegs : RegFile := []
  /-- Values left by every commit taken (R72). -/
  takenRegs : RegFile := []
  /-- Staged writes not captured: register, stamp, word; latest first (R70). -/
  writes : List (Nat × Nat × Nat) := []
  /-- Registers written since the last capture stamp, whatever has become of the value (R73). -/
  since : List Nat := []
  checking : Option Commit := none
  /-- Commits complete and not landed, in the order taken. -/
  waiting : List Commit := []
  /-- Commits taken and not complete at a fatal event, checked again after resume (R96). -/
  recheck : List Commit := []
  epochs : List Epoch := []
  /-- The layer list in the last sealed epoch, and the capture stamp of the commit that gave it (R297). -/
  layers : List (List Nat) := []
  layersAt : Nat := 0
  /-- The last epoch number issued, 0 for none (R66). -/
  last : Nat := 0
  /-- FREEZE set at this stamp (R83). -/
  freezeAt : Nat := 0
  /-- Epoch published latest, kept while a freeze holds the view. -/
  heldSnap : List (Nat × Nat) := []
  heldEpoch : Nat := 0
  /-- The pace counts of that epoch's snapshot (R25, R83). -/
  heldPace : List (Nat × Nat × Bool) := []
  /-- The pace counts of the snapshot in view: (unit, count, untimed) (R25). -/
  paceView : List (Nat × Nat × Bool) := []
  /-- The last raster frame whose latch instant has passed (R77). -/
  latched : Nat := 0
  /-- Sealing is stopped (fatal freeze, R591). -/
  stopped : Bool := false
deriving DecidableEq, Repr

/-- An entry of a Tilth queue (R17 to R22). -/
structure TiltEntry where
  /-- Epoch number for a marker, 0 for data. -/
  marker : Nat
  data : List Nat
  /-- Stamp at which it was placed. -/
  stamp : Nat
deriving DecidableEq, Repr

/-- One Tilth queue, as the Shoash image defines it (R40), with its content. -/
structure TiltQueue where
  num : Nat
  prodUnit : Nat
  prodPort : Nat
  consUnit : Nat
  consPort : Nat
  /-- The credit count the structure gives the queue (R40, R42). -/
  credits : Nat
  /-- Credits granted so far: less than `credits` while reductions elsewhere have not drained (R42). -/
  granted : Nat
  prio : Nat
  entries : List TiltEntry := []
  /-- The producer waits for a credit (R18). -/
  blocked : Bool := false
  /-- Markers issued that wait for a credit (R22). -/
  owed : List Nat := []
  /-- Credit changes of overlays whose marker has not entered the queue: epoch, credits, priority (R42). -/
  changes : List (Nat × Nat × Nat) := []
  /-- Stamp since which the oldest entry has been at the front (R589). -/
  frontSince : Nat := 0
deriving DecidableEq, Repr

/-- The Tilth fabric and the pace counters (R17 to R25). -/
structure TltState where
  queues : List TiltQueue := []
  ports : List TiltPort := []
  /-- The count formed for the last window, by unit number. -/
  paceLast : List (Nat × Nat) := []
  /-- The stamp at which the last window closed. -/
  windowAt : Nat := 0
  /-- What the unit watchdog had counted by then, in ticks: (256 × unit + instance, ticks), nothing at 0 (R588). -/
  watched : List (Nat × Nat) := []
  /-- The last windows were timed by the keeper oscillator (R25). -/
  untimed : Bool := true
  /-- Die-edge FIFO faults: (unit, instance) in the order met (R23). -/
  fifoFaults : List (Nat × Nat) := []
deriving DecidableEq, Repr

/-- One memory region of ALLOCATION (R43). -/
structure Region where
  id : Nat
  owner : Nat
  flags : Nat
  base : Nat
  size : Nat
deriving DecidableEq, Repr

/-- One SILT_PLAN record (R46). -/
structure Plan where
  mode : Nat
  bandRows : Nat
  lookBands : Nat
  carryRows : Nat
  bankGr : Nat
  sceneGr : Nat
  flatGr : Nat
  maxPlanes : Nat
  worst : Nat
deriving DecidableEq, Repr

/-- One tile-group rectangle of the PANEL record, in pixels (R47). -/
structure GroupRect where
  x0 : Nat
  y0 : Nat
  w : Nat
  h : Nat
deriving DecidableEq, Repr

/-- The PANEL record (R47). -/
structure PanelDesc where
  width : Nat
  height : Nat
  refresh : Nat
  codeBits : Nat
  order : Nat
  viewsH : Nat
  viewsV : Nat
  scan : Nat
  viewPitch : Nat
  groups : List GroupRect
deriving DecidableEq, Repr

/-- One power-domain record (R49). -/
structure DomainRec where
  leaveOff : Bool
  gap : Nat
  inrush : Nat
deriving DecidableEq, Repr

/-- The POWER_PLAN section (R49). -/
structure PowerPlan where
  budget : Nat
  vMin : Nat
  vMax : Nat
  domains : List DomainRec
deriving DecidableEq, Repr

/-- The MEM_POWER record (R50). -/
structure MemPower where
  mode : Nat
  idleUs : Nat
  tolNs : Nat
deriving DecidableEq, Repr

/-- The GENLOCK record (R50). -/
structure Genlock where
  source : Nat
  relock : Nat
  polarity : Nat
  castling : Nat
  slewWindow : Nat
  rateNum : Nat
  rateDen : Nat
  tolPpm : Nat
deriving DecidableEq, Repr

/-- One TOPOLOGY record (R40). -/
structure Route where
  queue : Nat
  prodUnit : Nat
  prodPort : Nat
  consUnit : Nat
  consPort : Nat
  prio : Nat
  credits : Nat
deriving DecidableEq, Repr

/-- A structure given by a full image with the overlays applied to it (R51 to R58). -/
structure Image where
  serial : Nat
  /-- The 48 bytes of the image digest (R38). -/
  digest : List Nat
  routes : List Route
  regions : List Region
  plans : List Plan
  panel : PanelDesc
  power : PowerPlan
  memp : MemPower
  genlock : Genlock
deriving DecidableEq, Repr

/-- Load stages of R65. -/
inductive LoadStage where
  | idle | copy | auth | decrypt | check | switch | done | refused
deriving DecidableEq, Repr

/-- Shoash loading beside its registers (R51 to R65). -/
structure ShoState where
  /-- The structure running, none before the first image (R54). -/
  run : Option Image := none
  stage : LoadStage := .idle
  /-- The image copied into SHOASH_STAGING, as bytes. -/
  staging : List Nat := []
  /-- The checked structure that waits for the switch. -/
  next : Option Image := none
  /-- The load was started for an overlay (R57). -/
  overlay : Bool := false
  /-- The switch has started (R54). -/
  switching : Bool := false
  /-- Frames held by the switch so far. -/
  held : Nat := 0
  /-- Stamp at which the first full image came into force (R319). -/
  firstAt : Nat := 0
deriving DecidableEq, Repr

/-- Channel states of R420. -/
inductive ChanSt where
  | training | active | retrain | failed
deriving DecidableEq, Repr

/-- Rank states of R420. -/
inductive RankSt where
  | awake | powerDown | selfRefresh
deriving DecidableEq, Repr

/-- One memory request that holds a slot (R408). -/
structure MemReq where
  id : Nat
  port : Nat
  block : Nat
  write : Bool
  stamp : Nat
  /-- A read issued to the DRAM by R410, waiting for its data. -/
  issued : Bool := false
  /-- A write that is acknowledged (R409): its slot is free, and it waits for the DRAM. -/
  acked : Bool := false
  /-- A write not yet acknowledged whose unit was reset since: it writes nothing (R94). -/
  void : Bool := false
deriving DecidableEq, Repr

/-- One rank of a channel (R417). -/
structure Rank where
  st : RankSt := .awake
  idleSince : Nat := 0
  sleepAt : Nat := 0
deriving DecidableEq, Repr

/-- One bank of a channel (R410, R414). -/
structure Bank where
  openRow : Option Nat := none
  /-- The page open (its blocks are 31 × `page` and the 30 after it) and the copy of its check words (R398, R402). -/
  page : Nat := 0
  check : List Nat := []
  /-- Open-row hits served in a row while a request of urgency 1 or 2 waited for another row (R410). -/
  hits : Nat := 0
  /-- Refreshes postponed, and refreshes issued ahead of time (R414). -/
  postponed : Nat := 0
  early : Nat := 0
  refreshDue : Bool := false
deriving DecidableEq, Repr

/-- One memory channel (R410 to R420). -/
structure Chan where
  st : ChanSt := .training
  fails : Nat := 0
  lostInService : Bool := false
  driftAt : Option Nat := none
  pauseAt : Nat := 0
  last : Nat := 0
  drain : Bool := false
  ranks : List Rank := List.replicate 2 {}
  banks : List Bank := List.replicate 32 {}
deriving DecidableEq, Repr

/-- The memory controller beside its registers (R397 to R426). -/
structure MemState where
  chans : List Chan := List.replicate 24 {}
  reqs : List MemReq := []
  nextId : Nat := 0
  /-- Next block of the patrol scrub, and the stamp at which its pass began (R406). -/
  scrub : Nat := 0
  scrubAt : Nat := 0
  /-- Tolerance last stated by the raster, in ns (R328). -/
  tol : Nat := 0
  /-- `MEM_ECC_UNCORRECTABLE` events logged in the present epoch (R405). -/
  eccLogged : Nat := 0
  /-- Requests held at their port's head for want of a slot: port, block, write (R408, R426). -/
  held : List (Nat × Nat × Bool) := []
  /-- (channel, slice) pairs whose content a self-refresh lost (R418): their blocks read poisoned until rewritten whole. -/
  lost : List (Nat × Nat) := []
  /-- Check blocks written back to the DRAM: page and its 31 check words (R401, R402). -/
  checks : List (Nat × List Nat) := []
  /-- The last response: request, POISON flag and data (R405). -/
  respId : Nat := 0
  respPoison : Bool := false
  resp : List Nat := []
deriving DecidableEq, Repr

end Sys2Proof.Machine
end

