-- ==== Sys2Proof/Machine/UnitsB.lean ====
section
/-!
DEFINITION. State of the picture units beside their registers, as plain data: the Ray Registry engine, the Board, the Kiln,
Silt, the Rook, the Sieve, the Trowel, the raster, the link and the panel drive.
-/

namespace Sys2Proof.Machine

/-! ### RRG -/

/-- What a registry set slot keeps of its header (R187). -/
structure RegSet where
  valid : Bool := false
  corrupt : Bool := false
  temp : Int := 0
  hCentre : Int := 0
  hX : Int := 0
  hY : Int := 0
  hSpan : Nat := 0
  vCentre : Int := 0
  vX : Int := 0
  vY : Int := 0
  vSpan : Nat := 0
deriving DecidableEq, Repr

/-- One registry zone beside its status (R191 to R199). -/
structure Zone where
  /-- Stamp of the trigger that queued it. -/
  trigAt : Nat := 0
  /-- Triggered again while RUNNING or PENDING (R197). -/
  again : Bool := false
  againAt : Nat := 0
  /-- To be queued on release from HALTED (R198). -/
  requeue : Bool := false
  /-- T of the run, and its sets: one, or lo and hi (R193). -/
  runT : Int := 0
  lo : Nat := 0
  hi : Nat := 0
  /-- Epoch at which the pending run is published, 0 for none yet (R195). -/
  pubEpoch : Nat := 0
  /-- Stamp of the run's last write (R195). -/
  doneAt : Nat := 0
  /-- A report has arrived, and the stamp that opens the window of R192. -/
  reported : Bool := false
  since : Option Nat := none
deriving DecidableEq, Repr

/-- One receiver lane beside its registers (R201 to R206): OFFSET and the taps. -/
structure Lane where
  locked : Bool := false
  main : List Int := [0, 0, 0, 0, 0, 0]
  aux : List Int := [0, 0, 0, 0, 0, 0]
  start : List Int := [0, 0, 0, 0, 0, 0]
  iter : Nat := 0
  limit : Bool := false
  startTemp : Int := 0
  lastRun : Nat := 0
  lastFom : Nat := 0
  /-- A FoM has been measured (R212), and a run that software queued while one was in progress (R208). -/
  measured : Bool := false
  queued : Bool := false
deriving DecidableEq, Repr

/-- The Ray Registry engine (R181 to R207). -/
structure RrgState where
  sets : List RegSet := List.replicate 8 {}
  zones : List Zone := List.replicate 8 {}
  lanes : List Lane := List.replicate 12 {}
  /-- The file under load, as read at LOAD (R189). -/
  file : List Nat := []
  /-- A checked set that waits for the run that reads its slot (R190): slot, header, entries as bytes. -/
  parked : Option (Nat × RegSet × List Nat) := none
  /-- The zone whose run the engine makes. -/
  running : Option Nat := none
deriving DecidableEq, Repr

/-! ### Layers, frames and bands -/

/-- What a layer shows in a frame (R261, R262): nothing; a grain pyramid (address, level-0 pitch, levels, width, height);
meter bars with the level of each in 1/128 dB; or an access unit with its table set. -/
inductive Content where
  | none
  | pyramid (addr pitch levels w h : Nat)
  | meter (levels : List Int)
  | scene (addr tableset : Nat)
deriving DecidableEq, Repr

/-- The Board's decision on one layer of a frame (R259, R261, R262). -/
structure LayerShow where
  index : Nat
  id : Nat
  kind : Nat
  /-- Its blink state shows it. -/
  shown : Bool
  /-- REASON of R266, 0 on time. -/
  reason : Nat := 0
  /-- APPLIED of R266. -/
  applied : Nat := 0
  content : Content := .none
  baseOnly : Bool := false
  /-- Bands affected (R266), and those found affected in the band itself. -/
  bands : Nat := 0
  hits : List Nat := []
deriving DecidableEq, Repr

/-- One plane entry of a frame (R214, R253): depth, affine and alpha as fp32 patterns, bounds in level-0 samples. -/
structure Entry where
  layer : Nat
  plane : Nat
  scene : Bool
  /-- A scene layer's fallback still or band substitute. -/
  still : Bool := false
  z : Nat
  aff : List Nat
  alpha : Nat
  x0 : Nat
  x1 : Nat
  y0 : Nat
  y1 : Nat
  /-- Grain level named, and the fraction in 2^-16 (R219). -/
  g : Nat
  f : Nat
  /-- Coarsest level that can be present (R133, R275). -/
  cap : Nat
  /-- Occludes by its descriptor (R257). -/
  occludes : Bool
  /-- Stratum rows of a scene plane, 8 for a flat entry. -/
  sr : Nat
  /-- Only these layer rows, for a band substitute (R264). -/
  only : Option (Nat × Nat) := none
deriving DecidableEq, Repr

/-- The list of one square for a band (R255 to R258). -/
structure SquareList where
  sx : Nat
  sy : Nat
  /-- Places of its entries in the frame's entry list, front to back. -/
  ents : List Nat
  /-- Entries after culling and before truncation (R265 ENTRY_PEAK). -/
  full : Nat
  /-- Entries left out by occlusion. -/
  culled : Nat
deriving DecidableEq, Repr

/-- One stratum of a band job (R130): the layer, the stratum, its cost, and whether an engine has started or finished it. -/
structure JobStratum where
  layer : Nat
  stratum : Nat
  cost : Nat := 0
  started : Bool := false
  done : Bool := false
deriving DecidableEq, Repr

/-- One band on its way from the Board to the Furrow. -/
structure Band where
  /-- Count of bands since power-up. -/
  seq : Nat
  epoch : Nat
  frame : Nat
  b : Nat
  row0 : Nat
  rows : Nat
  bank : Nat := 0
  listed : Bool := false
  squares : List SquareList := []
  strata : List JobStratum := []
  /-- Released for filling at this stamp: S of R136. -/
  released : Bool := false
  s : Nat := 0
  /-- The Kiln deadline D (R136, R232), in ticks. -/
  d : Rat := 0
  fitStep : Nat := 0
  kilnStep : Nat := 0
  paceStep : Nat := 0
  /-- Held, whatever the three choices: no lists (R260), no registry streamed (R199), or its bank was HALTED (R161). -/
  held : Bool := false
  /-- The Kiln has decided (R136). -/
  admitted : Bool := false
  kilnDone : Bool := false
  flatDone : Bool := false
  carryDone : Bool := false
  /-- Plane-strata and strips to be carried: (layer, plane, stratum or strip), plane 255 for a flat layer (R163). -/
  carry : List (Nat × Nat × Nat) := []
  /-- Fetch tiles to be fetched: (entry, strip, column) (R165). -/
  fetch : List (Nat × Nat × Nat) := []
  /-- KLN_BAND_LATE has been logged for it (R137, R163). -/
  late : Bool := false
  /-- Faulty strata: (layer, stratum) (R125), and flat layers whose fetch met a fault (R172). -/
  faults : List (Nat × Nat) := []
  lost : List Nat := []
  streamed : Bool := false
  /-- What the RRG streamed for it: (patch, entry, the patch's 52 demura bytes or none for identity) (R26, R380). -/
  rays : List (Nat × Nat × Option (List Nat)) := []
  started : Bool := false
  startAt : Nat := 0
  /-- The square each file holds: (file, square place), and the squares complete, with each one's stamp. -/
  busy : List (Nat × Nat) := []
  doneSq : List (Nat × Nat) := []
  /-- Quarter slots spent (R226). -/
  slots : Nat := 0
  /-- The pace predictor has decided (R232). -/
  paced : Bool := false
  eccLogged : Bool := false
deriving DecidableEq, Repr

/-- Counts of a frame report that its bands form (R265). -/
structure RepCount where
  epoch : Nat
  steps : List Nat := [0, 0, 0, 0, 0]
  /-- The step of each band counted so far, latest first. -/
  order : List Nat := []
  late : Nat := 0
  abandoned : Nat := 0
  trunc : Nat := 0
  overflow : Nat := 0
  culled : Nat := 0
  peak : Nat := 0
  flags : Nat := 0
  staleZones : Nat := 0
  mode : Nat := 0
  light : Nat := 0
deriving DecidableEq, Repr

/-- A frame the Board works on (R253, R261). -/
structure BrdFrame where
  epoch : Nat
  frame : Nat
  target : Nat
  plan : Plan
  mode : Nat
  row0 : Nat
  descs : List (List Nat)
  shows : List LayerShow
  entries : List Entry
  /-- What each LAYER_ID had last shown before this frame (R263). -/
  prev : List (Nat × Nat × Content) := []
  /-- Bands listed so far. -/
  listed : Nat := 0
deriving DecidableEq, Repr

/-- States of a source context (R254). -/
inductive CtxSt where
  | registered | live
deriving DecidableEq, Repr

/-- A source context that is not FREE (R254, R276, R283). -/
structure Context where
  num : Nat
  st : CtxSt := .registered
  /-- The descriptor read at activation (R276). -/
  desc : List Nat := []
  /-- Complete frames, newest first: (arrival stamp, slot). -/
  arrivals : List (Nat × Nat) := []
  lastSlot : Option Nat := none
deriving DecidableEq, Repr

/-- The Board (R250 to R267). -/
structure BrdState where
  ctxs : List Context := []
  /-- Frames with bands still to list or to run, oldest first. -/
  frames : List BrdFrame := []
  bands : List Band := []
  /-- Bands listed since power-up, and bands the Rook has started or passed over (R267). -/
  nextSeq : Nat := 0
  rookSeq : Nat := 0
  /-- The first band after the Board left HALTED: LOOKAHEAD_BANDS bands from it lie within the lookahead at once (R267). -/
  freshSeq : Nat := 0
  /-- The last band listed (R269). -/
  lastB : Nat := 0
  /-- Content each LAYER_ID last showed: (id, kind, content) (R262). -/
  last : List (Nat × Nat × Content) := []
  /-- Statistics blocks taken from the audio unit: (channel byte of R251, arrival stamp, level in 1/128 dB), latest first. -/
  meters : List (Nat × Nat × Int) := []
  reports : List RepCount := []
  /-- Late layers by epoch (R266). -/
  late : List (Nat × List LayerShow) := []
  /-- What each LAYER_ID had last shown before the latest epochs were decided, by epoch (R262). -/
  before : List (Nat × List (Nat × Nat × Content)) := []
deriving DecidableEq, Repr

/-! ### Kiln and Silt -/

/-- A tile or strip in a Silt bank (R162): the entry's layer and plane; stratum or strip; tile column; level; HALF; width and
height in samples at that level; samples as 64-bit RGBA fp16 words in raster order. -/
structure SiltTile where
  layer : Nat
  plane : Nat
  row : Nat
  col : Nat
  level : Nat
  half : Bool
  w : Nat
  h : Nat
  data : List Nat
  /-- A scene tile decoded from its base tier alone (R163). -/
  base : Bool := false
  /-- First granule of its allocation, and its first sample's place in it (R162). -/
  gran : Nat := 0
  goff : Nat := 0
deriving DecidableEq, Repr

/-- One Silt bank beside its state (R159 to R172). -/
structure SiltBank where
  held : Bool := false
  tiles : List SiltTile := []
  /-- The band it serves, by `Band.seq`. -/
  band : Nat := 0
  /-- Granules allocated so far, in allocation order. -/
  used : Nat := 0
  /-- Granules given back, by place in that order, and how many the bank may allocate (R159, R264). -/
  freed : List Nat := []
  limit : Nat := 6144
  retired : List Nat := []
  toRetire : List Nat := []
  /-- A carry out of this bank is in progress (R161). -/
  carryOut : Bool := false
deriving DecidableEq, Repr

/-- Silt. -/
structure SiltState where
  banks : List SiltBank := List.replicate 2 {}
deriving DecidableEq, Repr

/-- A host job on a Kiln engine (R139): its ring and slot, its bytes, and where it stands. -/
structure KilnJob where
  ring : Nat
  slot : Nat
  num : Nat
  bytes : List Nat
  /-- Source bytes consumed and destination bytes written (R148). -/
  inPos : Nat := 0
  outPos : Nat := 0
  /-- The current buffer: address and length, and bytes used in it. -/
  bufAddr : Nat := 0
  bufLen : Nat := 0
  bufUsed : Nat := 0
  links : Nat := 0
  firstLink : Nat := 0
  /-- Slot of the chain entry in use. -/
  curLink : Option Nat := none
  /-- Units or records written, and those stored, condemned or faulted (R148). -/
  units : Nat := 0
  marked : Nat := 0
  code : Nat := 0
  /-- Nothing is left to do: the job waits for its completion. -/
  spent : Bool := false
  /-- Waiting for a chain buffer since. -/
  waitAt : Option Nat := none
  /-- The chain head advanced before the wait ended (R150). -/
  gotHead : Bool := false
  /-- The present stratum is decoded, with its tile records not yet written (KSS_DECODE). -/
  open_ : Bool := false
  recs : List (List Nat) := []
  /-- Strata decoded (KSS_DECODE). -/
  strata : Nat := 0
deriving DecidableEq, Repr

/-- One Kiln engine beside its state (R130, R150). -/
structure Engine where
  /-- The stratum in progress: band and place in its job. -/
  cur : Option (Nat × Nat) := none
  job : Option KilnJob := none
  /-- Rates of its last band jobs in MB/s, latest first (R135). -/
  rates : List Nat := []
  /-- Reconstructed bytes of the present band job, the stamp its first stratum began and that at which its last one ended. -/
  bytes : Nat := 0
  since : Nat := 0
  until_ : Nat := 0
deriving DecidableEq, Repr

/-- The Kiln. -/
structure KlnState where
  eng : List Engine := List.replicate 2 {}
  /-- The firmware's internal ring: jobs that no engine has taken (R130). -/
  fw : List KilnJob := []
deriving DecidableEq, Repr

/-! ### Rook and raster -/

/-- One Rook file beside its state (R239, R241). -/
structure RookFile where
  faults : List Nat := []
  retired : Bool := false
deriving DecidableEq, Repr

/-- Normalised cost of the part of a square that one band computes (R231): its place, its first row, the entries and depths it
was computed with, the cost in quarter slots. -/
structure SquareCost where
  sx : Nat
  row0 : Nat
  key : List (Nat × Nat × Nat)
  m : Nat
deriving DecidableEq, Repr

/-- The Rook. -/
structure RokState where
  files : List RookFile := List.replicate 16 {}
  costs : List SquareCost := []
  /-- Rates of the last bands, slots per second per lane, latest first (R230). -/
  rates : List Nat := []
  waitAt : Option Nat := none
  /-- Where the next band is predicted to start, once the Rook has started or passed over a band (R232). -/
  nextAt : Option Rat := none
deriving DecidableEq, Repr

/-- A panel row in the Furrow (R326): the codes the Rook wrote as runs (first column, codes). -/
structure FurrowRow where
  seq : Nat
  frame : Nat
  band : Nat
  row : Nat
  runs : List (Nat × List Nat)
deriving DecidableEq, Repr

/-- A group whose rows of a band are ready (R235), with the stamp. -/
structure GroupReady where
  seq : Nat
  frame : Nat
  band : Nat
  group : Nat
  at_ : Nat
deriving DecidableEq, Repr

end Sys2Proof.Machine
end

