-- ==== Sys2Proof/Machine/UnitsC.lean ====
section
/-!
DEFINITION. State of the keeper die as plain data: the non-volatile store, the OTP and the lockable page, and the security
module (19_keeper_nv_security).
-/

namespace Sys2Proof.Machine

/-- Sector states (R513, R521, R524, R545). -/
inductive SectorSt where
  | erased | open_ | full | retired | dirty
deriving DecidableEq, Repr

/-- One flash sector (R512, R513). -/
structure Sector where
  st : SectorSt := .erased
  /-- Its 32-byte header (R513). -/
  head : List Nat := List.replicate 32 0xFF
  /-- Erases so far. -/
  erases : Nat := 0
  /-- Bytes used, the header included. -/
  used : Nat := 32
  /-- The number of its records before the bad header that ended them at start-up (R515). -/
  ends : Option Nat := none
deriving DecidableEq, Repr

/-- One record's place in append order as the flash holds it (R514): its sector and bytes, from its header to its commit word. -/
structure NvsRec where
  sector : Nat
  bytes : List Nat
deriving DecidableEq, Repr

/-- Who asked for a record write (R522). -/
inductive NvsWho where
  | host | label | dump | security | counter | collect | scrub | store | repair
deriving DecidableEq, Repr

/-- A queued record write (R522). -/
structure NvsJob where
  who : NvsWho
  prio : Nat
  typ : Nat
  key : Nat
  seq : Nat
  flags : Nat
  payload : List Nat
  /-- The sector a collection or repair copy must not land in (R517, R521). -/
  avoid : Option Nat := none
deriving DecidableEq, Repr

/-- One OTP slot (R530, R531): the length of its group's payload, and its bytes. -/
structure OtpSlot where
  len : Nat := 0
  bytes : List Nat := []
deriving DecidableEq, Repr

/-- The nine groups as (payload, slot size), in the order of R530. -/
def otpSizes : List (Nat × Nat) :=
  [(48, 64), (32, 48), (32, 48), (32, 48), (32, 48), (32, 48), (64, 80), (16, 32), (4, 16)]

/-- The non-volatile store, the lockable page and the OTP beside the NVS registers (R512 to R532). -/
structure NvsState where
  sectors : List Sector := List.replicate 64 {}
  recs : List NvsRec := []
  /-- The highest SEQ seen for a key, by 65,536 × TYPE + KEY (R516). -/
  seen : List (Nat × Nat) := []
  /-- Current DUP records that start-up found with one copy (R517). -/
  repair : List NvsRec := []
  /-- The two open sectors: first copies, second copies (R517). -/
  open1 : Option Nat := none
  open2 : Option Nat := none
  queue : List NvsJob := []
  /-- The sector being collected (R521). -/
  collecting : Option Nat := none
  /-- Sectors waiting for or in their erase. -/
  erasing : List Nat := []
  /-- No new record write starts (BROWNOUT_N, R522; orderly trip, R501). -/
  stopped : Bool := false
  /-- A record write that had started when it was stopped (R522). -/
  flight : Bool := false
  /-- Host record bytes written: (stamp, bytes) (R526). -/
  hostBytes : List (Nat × Nat) := []
  /-- Powered seconds held as stamp of power-up (R519, R520). -/
  poweredFrom : Nat := 0
  /-- OPERATING cells 0 to 3 as the firmware holds them (R520). -/
  operating : List Nat := [0, 0, 0, 0]
  lastCounter : Nat := 0
  /-- Writers whose write failed with NVS_WRITE_FAIL and who have not taken note: LBL, DMP. -/
  failed : List NvsWho := []
  /-- The 4,096-byte lockable page (R527). -/
  page : List Nat := List.replicate 4096 0xFF
  /-- Nine groups of four slots (R530). -/
  otp : List (List OtpSlot) := otpSizes.map (fun q => List.replicate 4 ⟨q.1, List.replicate q.2 0⟩)
deriving DecidableEq, Repr

/-- Module states of R537. -/
inductive SecSt where
  | selfTest | operational | error
deriving DecidableEq, Repr

/-- A user session (R535). -/
structure Session where
  id : Nat
  counter : Nat
  last : Nat
deriving DecidableEq, Repr

/-- A nonce issued by GET_NONCE (R535). -/
structure Nonce where
  bytes : List Nat
  at_ : Nat
  used : Bool := false
deriving DecidableEq, Repr

/-- The security module beside its registers (R533 to R542). -/
structure SecState where
  st : SecSt := .selfTest
  session : Option Session := none
  nextSession : Nat := 1
  nonces : List Nonce := []
  /-- A KEK component waiting for its partner: number, bytes, stamp (R540). -/
  component : Option (Nat × List Nat × Nat) := none
  /-- The mailbox command running, none when idle. -/
  running : Option Nat := none
  /-- A zeroisation burn is in progress (R538). -/
  burning : Bool := false
  /-- Latched tamper sources (R538). -/
  tamper : Nat := 0
deriving DecidableEq, Repr

/-! ### The label strip -/

/-- A rectangle of the strip: first and last common, first segment, segments (R390). -/
structure LblRect where
  c0 : Nat
  c1 : Nat
  s0 : Nat
  n : Nat
deriving DecidableEq, Repr

/-- An update or blink write in progress (R389, R390): its rectangle, the eight rows of targets, the waveform's phases, the
common and phase in progress, and the stamp at which the phase began. -/
structure LblRun where
  rect : LblRect
  rows : List Nat
  wave : List Nat
  inv : Bool
  blink : Bool
  com : Nat
  phase : Nat
  at_ : Nat
  /-- A CLEAR run of RECOVER (R392). -/
  clear : Bool := false
deriving DecidableEq, Repr

/-- The label strip beside its registers (R386 to R396). An image is eight rows of 256 bits, segment s in bit s. -/
structure LblState where
  target : List Nat := List.replicate 8 0
  shown : List Nat := List.replicate 8 0
  /-- Blink masks of generators 0 to 3. -/
  masks : List (List Nat) := List.replicate 4 (List.replicate 8 0)
  /-- Generators as last delivered over the bridge (R391). -/
  gens : List Bool := [true, true, true, true]
  /-- Live and shadow waveforms by 2 × band + KIND: 16 phase records each (R387). -/
  live : List (List Nat) := List.replicate 16 (List.replicate 16 0)
  shadow : List (List Nat) := List.replicate 16 (List.replicate 16 0)
  /-- The waveform whose check and apply is requested. -/
  request : Option Nat := none
  run : Option LblRun := none
  /-- A label update and a blink write are due. -/
  due : Bool := false
  blinkDue : Bool := false
  /-- ENABLE or HV_EN was written 0 during a write (R393). -/
  stop : Bool := false
  /-- Label data that landed while OFF or RECOVER, oldest first (R393). -/
  landed : List (List Nat) := []
  /-- Rectangles to clear in RECOVER (R392). -/
  clear : List LblRect := []
  /-- Stamp of the last write, and whether the strip was written since the last LBL_CLEAN record. -/
  wroteAt : Nat := 0
  dirty : Bool := false
  /-- The type of the record whose write failed; nothing is written to the strip until a retry succeeds (R394). -/
  retry : Option Nat := none
  /-- An LBL_CLEAN record is to be written on reaching IDLE: a power-down was ordered meanwhile (R392). -/
  cleanDue : Bool := false
  /-- The band that T has last given (R388). -/
  band : Nat := 0
  /-- The drive code of each of the 264 lines, commons then segments, as last latched by LBL_LE (R386). -/
  drive : List Nat := List.replicate 264 0
deriving DecidableEq, Repr

end Sys2Proof.Machine
end

