-- ==== Sys2Proof/Machine/UnitsD.lean ====
section
/-!
DEFINITION. State of the Sieve and the Trowel beside their registers, as plain data (10_sieve_and_trowel).
-/

namespace Sys2Proof.Machine

/-- A source frame queued on a pipe (R285): its work ring, and its descriptor's fields. -/
structure SveJob where
  ring : Nat
  /-- Its descriptor's number on the ring. -/
  num : Nat
  ctx : Nat
  addr : Nat
  pitch : Nat
  stamp : Nat
deriving DecidableEq, Repr

/-- The frame a pipe scales: the context's kept descriptor, the slot chosen, and whether its last input byte is read. -/
structure SveFrame where
  job : SveJob
  desc : List Nat
  slot : Nat
  readDone : Bool := false
deriving DecidableEq, Repr

/-- One pipe of the Sieve (R280, R285, R288): tables are canonical sparse, an unlisted entry holds its reset value. -/
structure SvePipe where
  queue : List SveJob := []
  cur : Option SveFrame := none
  shadow : List (Nat × Option Nat) := []
  live : List (Nat × Option Nat) := []
deriving DecidableEq, Repr

/-- The Sieve beside its registers. -/
structure SveState where
  pipes : List SvePipe := List.replicate 4 {}
  /-- Held by a reset, a freeze or its power domain (R288). -/
  held : Bool := true
  /-- Arrivals reported to the Board and not yet taken: (context, stamp, slot) (R284). -/
  sent : List (Nat × Nat × Nat) := []
deriving DecidableEq, Repr

/-- The job the Trowel runs (R296 to R300). -/
structure TrwJob where
  ring : Nat
  /-- Its descriptor's number on the ring. -/
  num : Nat
  bytes : List Nat
  method : Nat
  /-- The source has been copied to TRW_SCRATCH. -/
  copied : Bool := false
  /-- Rows written in traversal order. -/
  rows : Nat := 0
  /-- Its WATERMARK completion is written. -/
  marked : Bool := false
deriving DecidableEq, Repr

/-- A job taken, for fences (R297): its tag, the stamp it was taken, and the stamp it completed, 0 for never. -/
structure TrwTaken where
  tag : Nat
  taken : Nat
  done : Option Nat := none
deriving DecidableEq, Repr

/-- The Trowel beside its registers. -/
structure TrwState where
  cur : Option TrwJob := none
  /-- Jobs taken, latest first. -/
  taken : List TrwTaken := []
deriving DecidableEq, Repr

end Sys2Proof.Machine
end

