-- ==== Sys2Proof/Machine/UnitsE.lean ====
section
/-!
DEFINITION. State of the raster and the Furrow beside their registers, as plain data (11_raster_and_genlock).
-/

namespace Sys2Proof.Machine

/-- The raster, the Furrow and the light latency (R306 to R336). Times are in ticks. -/
structure OutState where
  /-- A first frame start is scheduled or has passed (R319). -/
  sched : Bool := false
  /-- A frame has started (R69). -/
  running : Bool := false
  /-- Start of the frame in progress, its period, and the scheduled start of the next. -/
  start : Rat := 0
  period : Rat := 0
  next : Rat := 0
  mode : Nat := 0
  row0 : Nat := 0
  /-- Start, mode and first row of the frame before (R329). -/
  prevStart : Rat := 0
  prevMode : Nat := 0
  prevRow0 : Nat := 0
  /-- Mode and first row of the next frame (R310). -/
  nmode : Nat := 0
  nrow0 : Nat := 0
  /-- The GENLOCK record in force (R50, R317). -/
  gen : Option Genlock := none
  /-- The next line of the frame in progress to be decided (R350). -/
  line : Nat := 0
  /-- Epoch composed in the frame in progress, 0 for none. -/
  epoch : Nat := 0
  /-- The next frame start is one of R318: where its blanking's extension begins. -/
  extFrom : Option Rat := none
  /-- Stamp of the last accepted edge, and the last accepted intervals, latest first (R312). -/
  lastEdge : Option Nat := none
  ints : List Rat := []
  /-- The open candidate sequence, latest first (R313). -/
  cand : List Nat := []
  /-- Intervals in a row that agree and lie outside the tolerance, the stamp of the last edge not accepted with the interval
  before it, and whether OUT_REF_OFF_RATE is logged for this loss (R314). -/
  offRun : Nat := 0
  offLast : Option (Nat × Nat) := none
  offLogged : Bool := false
  /-- δ of SOURCE 3 (R311). -/
  delta : Rat := 0
  /-- Last TE stamp, the last TE intervals, latest first, and edges in a row within 1% while lost (R323, R325). -/
  lastTe : Option Nat := none
  teInts : List Nat := []
  teGood : Nat := 0
  /-- The last 16 light-latency measurements in ns, latest first (R330). -/
  lights : List Rat := []
  /-- The frame that has given its measurement (R329). -/
  lightFrame : Nat := 0
  /-- The light latency to be put in force at the next epoch. -/
  rows : List FurrowRow := []
  ready : List GroupReady := []
  /-- Bands passed over at step 4: (frame, band) (R351). -/
  held : List (Nat × Nat) := []
deriving DecidableEq, Repr

/-! ### The Tureifa Link -/

/-- One packet (R343): group, TYPE, ALIVE, FLAGS, ROW and payload; for a LINE of a panel row, the first segment it covers, how
many, their signatures (none in direct scan) and how many of them are sent for balance; and whether its CRC left inverted. -/
structure Packet where
  group : Nat
  typ : Nat
  alive : Nat := 0
  flags : Nat := 0
  row : Nat := 0
  payload : List Nat := []
  seg0 : Nat := 0
  nseg : Nat := 0
  sigs : List Nat := []
  balance : Nat := 0
  /-- The update it belongs to, by number plus one; 0 for none (R373). -/
  upd : Nat := 0
  badCrc : Bool := false
  /-- CRC-32C of its codes as the Furrow recorded it when the Rook wrote the row (R361). -/
  code : Nat := 0
  /-- The instant its first block row leaves (R349). -/
  at_ : Rat := 0
  /-- The composed frame whose row it carries, 0 for none (R329). -/
  frame : Nat := 0
deriving DecidableEq, Repr

/-- A block (R339): control or data, and its 16 payload bytes as they leave the ball. -/
structure Block where
  control : Bool
  payload : List Nat
deriving DecidableEq, Repr

/-- A raster line on its way out of the link: its number, frame, start and HOLD_ALL, and its packets in order (R346, R349). -/
structure LinkLine where
  line : Nat
  frame : Nat
  start : Rat
  holdAll : Bool
  packets : List Packet
deriving DecidableEq, Repr

/-- One tile group's link beside its registers (R354 to R361). -/
structure TlkGroup where
  /-- Stamp of entry to the state, and of the last entry to EXCHANGE (R192). -/
  since : Nat := 0
  exchangeAt : Nat := 0
  /-- ALIVE of the next packet (R347). -/
  alive : Nat := 0
  detectLogged : Bool := false
  /-- Stamp of the last valid message (R360). -/
  lastMsg : Nat := 0
  /-- TILE_ID last accepted since power-up (R355). -/
  tileId : Option Nat := none
  /-- CAPS mismatched at this stamp (R354). -/
  mismatchAt : Option Nat := none
  /-- Stamp of the last CONFIG. -/
  configAt : Option Nat := none
  /-- Error counts of the last STATUS: SYNC, HCRC, CRC, SKIP, REPEAT (R360). -/
  errs : Option (List Nat) := none
  /-- PHASE and DISCHARGE_DONE of the last STATUS (R359). -/
  phase : Nat := 0
  disDone : Bool := false
  /-- The frame and the band whose rows HOLD_BAND holds in the group (R351). -/
  holdBand : Option (Nat × Nat) := none
  /-- Read-back cannot lock (R361). -/
  rbLost : Bool := false
  /-- TX FFE taps of the six forward lanes (PRE, MAIN, POST) and the backchannel's CTLE code, as applied at entry to DETECT (R357). -/
  ffe : List Nat := []
  ctle : Nat := 0
  /-- The block rows sent since the stamp `wireAt`; the last goes on as the filler, a pattern repeats as a whole (R342, R354). -/
  wire : List (List Block) := []
  wireAt : Rat := 0
  /-- Entry to PATTERN, and the instant of the next packet's first block row. -/
  patternAt : Nat := 0
  rowAt : Rat := 0
deriving DecidableEq, Repr

/-- The link beside its registers (R337 to R367). -/
structure TlkState where
  groups : List TlkGroup := List.replicate 8 {}
  /-- Lines decided whose LINE_MARK has not left, oldest first. -/
  lines : List LinkLine := []
  /-- The last LINE_MARK sent: line, frame, FLAGS. -/
  mark : Option (Nat × Nat × Nat) := none
  /-- Packets sent after the last LINE_MARK and in EXCHANGE, oldest first, waiting for read-back. -/
  sent : List Packet := []
  /-- Scrambler state of each forward lane (R340). -/
  scram : List Nat := (List.range 48).map (fun l => 0x400000 + l * 256)
  /-- A block-row boundary (R349): none before the first mark. -/
  grid : Option Rat := none
deriving DecidableEq, Repr

/-- An update (R373): band, group, stored state, and its unsent packets as (row, first segment in the row, segments,
segments sent for balance alone). -/
structure Update where
  num : Nat
  seq : Nat
  frame : Nat
  row0 : Nat
  rows : Nat
  group : Nat
  state : Nat
  /-- Rectangle: first and last column, first and last row. -/
  x0 : Nat
  x1 : Nat
  y0 : Nat
  y1 : Nat
  left : List (Nat × Nat × Nat × Nat)
  /-- TE avoidance has been decided for it, and the instant it is delayed to (R324). -/
  checked : Bool := false
  until_ : Option Rat := none
deriving DecidableEq, Repr

/-- A band under TE avoidance (R324): when its first packet was due, and whether it is counted as delayed and as torn. -/
structure TeBand where
  seq : Nat
  first : Rat
  delayed : Bool := false
  torn : Bool := false
deriving DecidableEq, Repr

/-- Stages of a demura load (R379): its file is under its checks, or its payload is decoded. -/
inductive DmrStage where
  | idle | check | decode
deriving DecidableEq, Repr

/-- The panel drive beside its registers (R350 to R396). -/
structure PnlState where
  /-- A demura map has been published (R380). -/
  dmrOn : Bool := false
  dmr : DmrStage := .idle
  dmrFile : List Nat := []
  dmrOut : List Nat := []
  /-- A decoded map awaits publication, and the epoch that publishes it, 0 for none yet. -/
  dmrPend : Bool := false
  dmrEpoch : Nat := 0
  /-- Stamp at which the map that waits was decoded (R195, R379). -/
  dmrAt : Nat := 0
  /-- Black frames started and in all (R376). -/
  black : Nat := 0
  blackN : Nat := 0
  /-- The sweep is stopped outside HALTED, by a PNL reset or a fatal freeze (R370). -/
  sweepOff : Bool := false
  /-- CMT_FRAME when the sweep stopped (R370). -/
  heldFrom : Nat := 0
  /-- Stored polarities where no PNL_SEGMENTS region holds them: (segment, negative); negative unless listed (R369, R376). -/
  pols : List (Nat × Bool) := []
  /-- Rows marked by read-back or a retrain (R372): (group, row). -/
  rowMarks : List (Nat × Nat) := []
  /-- A frame's counters have moved and DC_SWEEP_COMPLETE is to come (R370). -/
  sweepDue : Bool := false
  /-- Segments marked for balance: (state, segment) (R370). -/
  balMarks : List (Nat × Nat) := []
  updates : List Update := []
  /-- TE decisions of the last bands: band and the instant its send is delayed to (R324). -/
  teBands : List TeBand := []
  nextUpd : Nat := 0
  /-- Discharge (R377): the phase last issued and its stamp, the phase that goes out on the next line, and a brown-out. -/
  phase : Nat := 0
  phaseAt : Nat := 0
  phaseDue : Option Nat := none
  brown : Bool := false
  /-- SELECT to send on line 0 (R375). -/
  select : Option Nat := none
deriving DecidableEq, Repr

end Sys2Proof.Machine
end

