-- ==== Sys2Proof/Machine/UnitsF.lean ====
section
/-!
DEFINITION. State of the TIM unit beside its registers, as plain data (15_time_and_ptp): frames, servos, the time base,
triggers and captures. Times are stamps in ticks, offsets signed ticks.
-/

namespace Sys2Proof.Machine

/-- A frame waiting on an egress port (R429): its bytes without FCS, its class 1 to 3, the ingress stamp of a forwarded frame,
the slot of a host frame, and the servo and sequence number of a Delay_Req. -/
structure EthFrame where
  bytes : List Nat
  cls : Nat
  ingress : Option Nat := none
  slot : Option Nat := none
  dreq : Option (Nat × Nat) := none
deriving DecidableEq, Repr

/-- One port: frames waiting, in arrival order, and the last frame sent with its egress stamp. -/
structure EthPort where
  queue : List EthFrame := []
  /-- The port has gone down since power-up (R427). -/
  wasDown : Bool := false
  last : Option (Nat × List Nat) := none
deriving DecidableEq, Repr

/-- A foreign master (R437): its port identity, the port and addresses its Announces come from, its data set, and the stamps of
its last two Announces. -/
structure Master where
  ident : List Nat
  port : Nat
  mac : List Nat
  ip : List Nat
  /-- priority1, class, accuracy, variance, priority2, identity: compared in this order. -/
  key : List Nat
  gm : List Nat
  steps : Nat
  logInt : Int
  seen : List Nat
deriving DecidableEq, Repr

/-- One servo (R437 to R439). -/
structure Servo where
  /-- Masters heard, one record for each port that hears them. -/
  masters : List Master := []
  /-- The master selected: its identity, then the port. -/
  sel : Option (List Nat) := none
  lastAnn : Nat := 0
  lastSync : Option Nat := none
  syncLog : Int := 0
  /-- A two-step Sync waiting for its Follow_Up: sequence, ingress stamp, correction in ticks. -/
  twoStep : Option (Nat × Nat × Int) := none
  /-- t2 less the corrected t1 of the last Sync, in ticks. -/
  down : Option Int := none
  /-- Delay measurements, latest first, in ticks (R438). -/
  delays : List Int := []
  /-- Measurements (stamp, offset), latest first. -/
  meas : List (Nat × Int) := []
  agree : Nat := 0
  disagree : Nat := 0
  /-- Model offset o in ticks. -/
  o : Int := 0
  lockedAt : Nat := 0
  dreqSeq : Nat := 0
  nextDreq : Nat := 0
  /-- The Delay_Req sent: sequence and egress stamp. -/
  sentDreq : Option (Nat × Nat) := none
deriving DecidableEq, Repr

/-- An armed trigger (R446, R448): its record's fields, the full time of firing 0 and the period in ticks, and the index of the
next firing. -/
structure Trigger where
  id : Nat
  action : Nat
  pin : Nat
  at_ : Int
  period : Nat
  count : Nat
  width : Nat
  next : Nat
deriving DecidableEq, Repr

/-- The TIM unit beside its registers. -/
structure TimState where
  ports : List EthPort := List.replicate 4 {}
  servos : List Servo := List.replicate 2 {}
  /-- Slots of the transmit ring completed out of turn. -/
  txDone : List Nat := []
  /-- Stamp at which FREE was left (R441), and of entry to HOLDOVER. -/
  freeLeft : Option Nat := none
  holdAt : Option Nat := none
  triggers : List Trigger := []
  /-- Pulses in progress: pin, ID, full time of the end in ticks (R449). -/
  pulses : List (Nat × Nat × Nat) := []
  /-- Levels that triggers give the GPIO pins; none before a pin's first action. -/
  pins : List (Option Bool) := List.replicate 8 none
  /-- Stamp of the last accepted edge, by input: 0 SYNC_IN, 1 PPS_IN, 2 TE, 8 + n GPIOn (R450). -/
  edges : List (Nat × Nat) := []
  /-- The two terms of the trim in ppb: since when the frequency term stands, whether a domain disciplined the time base with it, and the
  durations and frequency terms of the last 64 s of discipline, latest first (R440, R441). -/
  freqTerm : Int := 0
  phaseTerm : Int := 0
  freqAt : Nat := 0
  freqOn : Bool := false
  freqLog : List (Nat × Int) := []
  /-- Entries that the capture ring holds, latest first: full time, SOURCE, bytes (R451). -/
  caps : List (Nat × Nat × List Nat) := []
  /-- The last action at a pin: its instant in full time and its ID, with the level it sets, none for the end of a pulse (R449). -/
  pinActs : List (Nat × Nat × Nat × Option Bool) := []
  /-- The place in 10 ms of full time to which the time base stepped, until audio re-aligns (R460). -/
  steppedAt : Option Nat := none
  /-- How far the time base has stepped since, in ticks: the audio clocks keep the old one until then (R460). -/
  stepLag : Int := 0
deriving DecidableEq, Repr

end Sys2Proof.Machine
end

