-- ==== Sys2Proof/Machine/UnitsG.lean ====
section
/-!
DEFINITION. State of AUD, CHK, THM, the power sequencer, firmware, DMP and DBG beside their registers, as plain data
(16_audio, 17_check_units, 18_thermal_and_power, 21_startup_recovery_dump, 22_package_and_electrical).
-/

namespace Sys2Proof.Machine

/-- What happens to the block in hand of an audio input (R462, R463). -/
structure AudFade where
  /-- The input locked inside it. -/
  part : Bool := false
  /-- It fades in. -/
  fin : Bool := false
  /-- The input left LOCKED inside it: it fades out. -/
  fout : Bool := false
  /-- The next block fades in. -/
  next : Bool := false
deriving DecidableEq, Repr

/-- The block of an audio input that has ended, as its record takes it (R467): the port, the block in ms of full time, the words of subframes A
and B, whether AUD forced V in each, and whether a slip fell in it. -/
structure AudBlock where
  port : Nat
  block : Nat
  a : List Nat
  b : List Nat
  invA : Bool
  invB : Bool
  slip : Bool
deriving DecidableEq, Repr

/-- One AES3 input port (R462 to R465). -/
structure AesPort where
  /-- Stamp of the last valid frame. -/
  last : Option Nat := none
  /-- Consecutive good frames in ACQUIRE. -/
  good : Nat := 0
  /-- Samples of blocks that have not ended: (sample instant, word A, word B). -/
  hold : List (Nat × Nat × Nat) := []
  /-- The last sample word of each channel. -/
  prev : Nat × Nat := (0, 0)
  fade : AudFade := {}
  /-- First sample instant of the block in hand, and the instant of the latest sample since the port locked (R464). -/
  first : Nat := 0
  lastI : Option Nat := none
  /-- The last words of the block before, (A, B). -/
  tail : Nat × Nat := (8, 8)
  /-- A slip in the block in hand. -/
  slip : Bool := false
  /-- C bits collected since the Z preamble, first bit first: (A, B); none before a Z preamble. -/
  cs : Option (List Bool × List Bool) := none
deriving DecidableEq, Repr

/-- The AUD unit beside its registers. -/
structure AudState where
  /-- RATE in force (R461). -/
  rate : Nat := 1
  /-- The place in 10 ms of full time at which AUD took the latest marker that changed RATE (R461). -/
  rateFrom : Nat := 0
  /-- Staged AUD fields of the block in progress (R473). -/
  regs : RegFile := []
  ports : List AesPort := List.replicate 8 {}
  /-- The delay store (R468) by channel (0 to 15 inputs, 16 to 31 playout) × 196,608 + instant mod 196,608: the instant and
  the sample word. -/
  store : List (Nat × Option (Nat × Nat)) := []
  /-- N_D, the delay in force in sample periods (R469). -/
  nD : Nat := 0
  seq : Nat := 0
  /-- The last block that ended, in ms of full time. -/
  lastBlock : Option Nat := none
  /-- Sample words sent at the last instant, by output channel, and whether it began with the Z preamble. -/
  outs : List Nat := List.replicate 16 0
  zMark : Bool := false
  outPeak : List Nat := List.replicate 16 0
  /-- Levels of the 16 inputs and the 16 outputs (R474) in 1/80,000 dB. -/
  levels : List Int := List.replicate 32 (-11520000)
  /-- Input blocks whose record waits for those of other ports (R467). -/
  blocks : List AudBlock := []
  /-- The sample instant that left last (R460). -/
  sent : Option Nat := none
  /-- Blocks left in which a reset silences the outputs (R473). -/
  mute : Nat := 0
  /-- The channel-status block that each output sends, 24 bytes (R472). -/
  csSent : List (List Nat) := List.replicate 16 (List.replicate 24 0)
deriving DecidableEq, Repr

/-- One check unit beside its registers (R483 to R487). -/
structure ChkUnit where
  /-- The running CRC register (R483), none at its initial value. -/
  run : Option Nat := none
deriving DecidableEq, Repr

/-- The THM unit's sensing and governor beside its registers (R494 to R502). -/
structure ThmState where
  /-- Stamp of the last change of each level: WARN, THROTTLE, STACK_THROTTLE. -/
  changed : List (Option Nat) := List.replicate 4 none
  /-- Start of the duty period, and whether a reading reached its limit in it (R498). -/
  periodAt : Nat := 0
  reached : Bool := false
  /-- The same for the period that begins at this one's end (R7). -/
  reachedNext : Bool := false
  /-- Throttle active since this stamp and not yet counted (R511). -/
  hotSince : Option Nat := none
  /-- t0 of the orderly trip (R501). -/
  tripAt : Option Nat := none
  /-- A request awaits the regulator's settling (R499). -/
  settling : Bool := false
  /-- Stamp of the last request (R500). -/
  askedAt : Nat := 0
  /-- The governor stopped on a regulator fault (R500). -/
  stopped : Bool := false
  /-- Runs in a row with slack to spare (R499). -/
  calm : Nat := 0
  /-- Voltage in force, in mV (R499). -/
  volts : Nat := 800
  /-- Bands that ended: stamp, slack in ticks, none of a held band, and pace step 2 or higher (R499). -/
  slacks : List (Nat × Option Int × Bool) := []
  /-- VDD_CORE energy of the epoch in units of 0.1 W × ticks, and the stamp up to which it is summed (R511). -/
  energy : Nat := 0
  energyAt : Nat := 0
deriving DecidableEq, Repr

/-- The power sequencer and the keeper's power pins (R502 to R504, R522, R586, R604, R610, R611, R613). -/
structure PwrState where
  railsPg : Bool := false
  vcorePg : Bool := false
  /-- BROWNOUT_N is low. -/
  brownout : Bool := false
  /-- PWR_CUT_N is driven low. -/
  pwrCut : Bool := false
  /-- TEST_MODE is high. -/
  testMode : Bool := false
  /-- The boot sequence runs from this stamp; none before the keeper has left reset, and once start-up has stopped. -/
  bootAt : Option Nat := none
  /-- VDD_CORE has been requested at its boot value at once, by a RESTART. -/
  early : Bool := false
  /-- The domain that starts next, with none running. -/
  next : Nat := 0
  /-- The sequencer runs: VDD_CORE is good. -/
  running : Bool := false
  /-- Stamp at which the last domain started (or was passed over). -/
  lastStart : Nat := 0
  /-- The domain started last that has not reported power-good, with its start. -/
  waitGood : Option (Nat × Nat) := none
deriving DecidableEq, Repr

/-- One firmware bank in the keeper (R583 to R585). -/
structure FwBank where
  bytes : List Nat := []
  serial : Nat := 0
  /-- SHA-384 recorded when the bank was loaded. -/
  digest : List Nat := []
deriving DecidableEq, Repr

/-- Firmware loading and the management core. -/
structure FwState where
  banks : List FwBank := List.replicate 2 {}
  /-- The bank that runs. -/
  cur : Nat := 0
  /-- The image that is being checked. -/
  load : Option (List Nat) := none
  /-- The other bank is accepted, and the switch is to come. -/
  ready : Bool := false
deriving DecidableEq, Repr

/-- The DMP beside its registers (R588 to R598). -/
structure DmpState where
  /-- Stamp of the fatal event. -/
  at_ : Nat := 0
  /-- Full time of the event in ticks, and what the dump header holds of it (R595). -/
  fullAt : Nat := 0
  cause : Nat := 0
  detail : Nat := 0
  sealedNo : Nat := 0
  retired : Nat := 0
  frame : Nat := 0
  /-- Queues that the watchdog found stuck (R597). -/
  stuck : List Nat := []
  /-- The 256 bytes of the last dump header written. -/
  header : List Nat := []
  /-- Restore is complete, and the latch instant is to come (R592). -/
  restored : Bool := false
  /-- Frames held so far (R592). -/
  heldFrames : Nat := 0
  /-- Log entries stamped before the event as R568 forms them, newest 64, oldest first (R597). -/
  logTail : List (List Nat) := []
  /-- The register file at the freeze (R595). -/
  regs : RegFile := []
  /-- Sections of the capture that hold a structure at the freeze: the Tilth queues and the commits that wait (R595, R597). -/
  queues : List TiltQueue := []
  waiting : List Commit := []
  /-- Both Silt banks as they stood at the freeze (R27). -/
  banks : List SiltBank := []
  /-- Units that were halted when the event came (R597). -/
  halted : List Nat := []
  /-- The applied structure that the keeper holds (R590), with the last overlay epoch. -/
  applied : Option Image := none
  appliedEpoch : Nat := 0
  /-- Units that the unit watchdog reset, with the stamp (R588). -/
  hung : List (Nat × Nat × Nat) := []
deriving DecidableEq, Repr

/-- The trace of DBG beside its registers (R580). -/
structure DbgState where
  /-- Records seen since the last one traced. -/
  skip : Nat := 0
  lastAt : Option Nat := none
deriving DecidableEq, Repr

end Sys2Proof.Machine
end

