-- ==== Sys2Proof/Machine/State.lean ====
section
/-!
DEFINITION. The state of the PY-7440 block as plain data, its faults and refusals, and the state right after the
always-on rail has come up (State.reset).
-/

namespace Sys2Proof.Machine

/-- Reasons a command stops with a fault. The spec gives the device none (R15: it does not hang), so there is none. -/
inductive Fault where
deriving DecidableEq, Repr

/-- Reasons a command is refused. -/
inductive Refusal where
  /-- Raised by a command whose meaning is not modelled yet, and by no meaning. Safe: the model stops where the device
  goes on. -/
  | notModelled (mnemonic : String)
deriving DecidableEq, Repr

/-- The whole state of the device. -/
structure State where
  /-- The present stamp (R7). -/
  now : Nat
  /-- Steps of the time base so far: full time less the stamp, in ticks (R440; log entry 2). -/
  off : Int
  /-- Commands waiting, first in, first out. -/
  pending : List Instr
  /-- Every register of the tables; a staged field holds its staging shadow here (R70). -/
  regs : RegFile
  /-- Pending low words of 64-bit registers (R12). -/
  lowPend : List (Nat × BitVec 32)
  /-- Latched high words of 64-bit registers (R12). -/
  hiLatch : List (Nat × BitVec 32)
  /-- Device memory (R398): canonical sparse, unlisted bytes read 0 (log entry 3). -/
  mem : List Host.Cell
  /-- Poisoned blocks (R401): canonical sparse by block number. -/
  poison : List (Nat × Bool)
  /-- Counters of the present epoch, by snapshot register (R81). -/
  cnt : Counters
  /-- The model's own counter of free values (log entry 20). -/
  fresh : Nat
  sys : SysState
  hst : HstState
  cmt : CmtState
  sho : ShoState
  tlt : TltState
  mc : MemState
  nvs : NvsState
  sec : SecState
  rrg : RrgState
  brd : BrdState
  slt : SiltState
  kln : KlnState
  rok : RokState
  sve : SveState
  trw : TrwState
  out : OutState
  tlk : TlkState
  pnl : PnlState
  lbl : LblState
  tim : TimState
  aud : AudState
  chk : List ChkUnit
  thm : ThmState
  pwr : PwrState
  fw : FwState
  dmp : DmpState
  dbg : DbgState
deriving DecidableEq, Repr

/-- The state right after the always-on rail enters its range: the field die unpowered, memory with nothing listed, every
register at its table's reset value, no command waiting. -/
def State.reset : State :=
  { now := 0, off := 0, pending := [], regs := [], lowPend := [], hiLatch := [], mem := [], poison := [], cnt := [], fresh := 0,
    sys := {}, hst := {}, cmt := {}, sho := {}, tlt := {}, mc := {}, nvs := {}, sec := {},
    rrg := {}, brd := {}, slt := {}, kln := {}, rok := {}, sve := {}, trw := {}, out := {}, tlk := {}, pnl := {}, lbl := {}, tim := {},
    aud := {}, chk := List.replicate 16 {}, thm := {}, pwr := {}, fw := {}, dmp := {}, dbg := {} }

end Sys2Proof.Machine
end

