-- ==== Sys2Proof/Machine/Ops.lean ====
section
/-!
DEFINITION. The named operations that the meanings share: the register file (R10 to R12), device memory (R398 to R409),
the event log (R95, R569), MSI-X vectors (R554), epoch counters (R81), free values, and the completions of the work rings
(R556 to R561).
-/

namespace Sys2Proof.Machine

/-! ### Register rows -/

/-- Where a BAR0 offset lies in an array of registers: the indices in both dimensions and the rest. -/
def RegRow.place (r : RegRow) (off : Nat) : Option (Nat × Nat × Nat) :=
  if off < r.off then none
  else
    let d := off - r.off
    let i := if r.stride1 = 0 then 0 else d / r.stride1
    let d1 := if r.stride1 = 0 then d else d % r.stride1
    let j := if r.stride2 = 0 then 0 else d1 / r.stride2
    let d2 := if r.stride2 = 0 then d1 else d1 % r.stride2
    if i < r.count1 ∧ j < r.count2 ∧ (d2 = 0 ∨ (r.wide = true ∧ d2 = 4)) then some (i, j, d2 / 4) else none

/-- The row of the tables that covers a BAR0 offset, with the place in it. -/
def findRow : List RegRow → Nat → Option (RegRow × Nat × Nat × Nat)
  | [], _ => none
  | r :: rs, off =>
    match r.place off with
    | some p => some (r, p)
    | none => findRow rs off

/-- The row of the register map that covers a BAR0 offset (R551). -/
def rowAt (off : Nat) : Option (RegRow × Nat × Nat × Nat) := findRow regRows off

/-- The reset value of a row, all its fields together. -/
def RegRow.resetVal (r : RegRow) : Nat := r.fields.foldl (fun a f => a + f.reset * 2 ^ f.lo) 0

/-- TARGET_NS of each MEM port at reset (R407). -/
def memTargets : List Nat :=
  [8000, 2000, 2000, 2000, 1500, 1500, 20000, 4000, 8000, 4000, 2000, 1000, 2000, 2000, 20000, 10000]

/-- Reset node of the Rook's panel LUT: round(65,535 × v) with v the fp16 value of pattern 16 × i (R248). -/
def lutReset (i : Nat) : Nat :=
  let b := 16 * i
  let e := b / 1024
  let m := b % 1024
  if 960 < i then 0
  else if e = 0 then (65535 * m * 2 + 2 ^ 24) / 2 ^ 25
  else (65535 * (1024 + m) * 2 ^ e * 2 + 2 ^ 25) / 2 ^ 26

/-- The reset word at a BAR0 offset, with the resets that the tables give by index (R156, R247, R248, R424, R578). -/
def resetNat (off : Nat) : Nat :=
  match rowAt off with
  | none => 0
  | some (r, i, j, w) =>
    if r.off = Reg.KLN_CSC then (if j = 0 ∨ j = 4 ∨ j = 8 then 0x00010000 else 0)
    else if r.off = Reg.ROK_OUT_MATRIX then (if i = 0 ∨ i = 5 ∨ i = 10 then 0x00010000 else 0)
    else if r.off = Reg.ROK_LUT then lutReset j
    else if r.off = Reg.MEM_PORT then memTargets.getD i 0 * 65536 + 1024
    else if r.off = Reg.HST_RING_CTRL then (16 + i) * 65536
    else if w = 0 then r.resetVal % 2 ^ 32 else r.resetVal / 2 ^ 32

/-- The reset word at a BAR0 offset as a register word: what an unlisted entry of a register file reads. -/
def resetWord (off : Nat) : BitVec 32 := BitVec.ofNat 32 (resetNat off)

/-! ### Register files -/

/-- The word at an offset of a register file. -/
def RegFile.rd (rf : RegFile) (off : Nat) : Nat := (sparseGet resetWord rf off).toNat

/-- A register file with a word written. -/
def RegFile.wr (rf : RegFile) (off v : Nat) : RegFile := sparseSet resetWord rf off (BitVec.ofNat 32 v)

/-- A field of a register file; a field above bit 31 is read over both words (R12). -/
def RegFile.get (rf : RegFile) (f : Fld) : Nat :=
  if 31 < f.hi then bitsOf (rf.rd f.off + 2 ^ 32 * rf.rd (f.off + 4)) f.hi f.lo else bitsOf (rf.rd f.off) f.hi f.lo

/-- A register file with a field written. -/
def RegFile.put (rf : RegFile) (f : Fld) (v : Nat) : RegFile :=
  if 31 < f.hi then
    let w := withBits (rf.rd f.off + 2 ^ 32 * rf.rd (f.off + 4)) f.hi f.lo v
    (rf.wr f.off (w % 2 ^ 32)).wr (f.off + 4) (w / 2 ^ 32)
  else rf.wr f.off (withBits (rf.rd f.off) f.hi f.lo v)

/-- The word at a BAR0 offset as software sees it stored. -/
def State.rd (s : State) (off : Nat) : Nat := s.regs.rd off

/-- Write a word at a BAR0 offset from the device's side. -/
def State.wr (s : State) (off v : Nat) : State := { s with regs := s.regs.wr off v }

/-- A field as stored (for a staged field: its staging shadow). -/
def State.get (s : State) (f : Fld) : Nat := s.regs.get f

/-- A one-bit field. -/
def State.flag (s : State) (f : Fld) : Bool := s.get f == 1

/-- A field read as a signed number. -/
def State.getS (s : State) (f : Fld) : Int := signed (f.hi - f.lo + 1) (s.get f)

/-- Write a field from the device's side. -/
def State.put (s : State) (f : Fld) (v : Nat) : State := { s with regs := s.regs.put f v }

/-- Write a signed field from the device's side, held to its range. -/
def State.putS (s : State) (f : Fld) (v : Int) : State :=
  s.put f (unsigned (f.hi - f.lo + 1) (satSigned (f.hi - f.lo + 1) v))

/-- A staged field in force at its unit (R21). -/
def State.live (s : State) (f : Fld) : Nat := s.cmt.inForce.get f

/-- A one-bit staged field in force. -/
def State.liveFlag (s : State) (f : Fld) : Bool := s.live f == 1

/-! ### Time, free values -/

/-- The stamp of a command: time never runs backwards (log entry 2). -/
def State.tick (s : State) (t : Nat) : State := { s with now := max s.now t }

/-- The full time of a stamp in ticks: the time base, with the steps made so far (R440, R443; log entry 2). -/
def State.full (s : State) (t : Nat) : Nat := ((t : Int) + s.off).toNat

/-- Seconds of a full time. -/
def fullSec (f : Nat) : Nat := f / tickS

/-- Nanoseconds of a full time. -/
def fullNs (f : Nat) : Nat := (f % tickS) / tickNs

/-- The short stamp of a stamp (R443): full nanoseconds modulo 2^32. -/
def State.short (s : State) (t : Nat) : Nat := (s.full t / tickNs) % 2 ^ 32

/-- The fraction of a full time in 1/256 ns (R7, R443). -/
def State.frac (s : State) (t : Nat) : Nat := s.full t % tickNs

/-- The full time, in ticks, with the given low 32 bits of seconds and nanoseconds that lies nearest a reference full time
(R75, R106, R446). -/
def nearFull (sec ns ref : Nat) : Nat :=
  let base := (fullSec ref / 2 ^ 32) * 2 ^ 32 + sec
  let at' (k : Nat) : Nat := k * tickS + ns * tickNs
  let d (k : Nat) : Nat := if at' k < ref then ref - at' k else at' k - ref
  let up := base + 2 ^ 32
  let k1 := if d up < d base then up else base
  let k2 := if 2 ^ 32 ≤ base ∧ d (base - 2 ^ 32) < d k1 then base - 2 ^ 32 else k1
  at' k2

/-- A fresh free value for place `k` (log entry 20). -/
def State.free (s : State) (k : Nat) : Nat × State := (Config.freeValue k s.fresh, { s with fresh := s.fresh + 1 })

/-! ### Counters (R81) -/

/-- Add to a counter of the present epoch. -/
def State.count (s : State) (reg n : Nat) : State :=
  { s with cnt := sparseSet (fun _ => 0) s.cnt reg (sparseGet (fun _ => 0) s.cnt reg + n) }

/-- Raise a counter of the present epoch to a maximum. -/
def State.countMax (s : State) (reg n : Nat) : State :=
  { s with cnt := sparseSet (fun _ => 0) s.cnt reg (max n (sparseGet (fun _ => 0) s.cnt reg)) }

/-- Set a value that the next snapshot publishes. -/
def State.countSet (s : State) (reg n : Nat) : State :=
  { s with cnt := sparseSet (fun _ => 0) s.cnt reg n }

/-- A counter of the present epoch. -/
def State.counter (s : State) (reg : Nat) : Nat := sparseGet (fun _ => 0) s.cnt reg

/-! ### Vectors (R554) -/

/-- Reset of word `i` of the MSI-X table: an entry is masked (vector control bit 0). -/
def msixReset (i : Nat) : Nat := if i % 4 = 3 then 1 else 0

/-- Word `k` of MSI-X table entry `v`. -/
def State.msixWord (s : State) (v k : Nat) : Nat := sparseGet msixReset s.hst.msix (4 * v + k)

/-- Write word `k` of MSI-X table entry `v`. -/
def State.setMsixWord (s : State) (v k x : Nat) : State :=
  { s with hst := { s.hst with msix := sparseSet msixReset s.hst.msix (4 * v + k) x } }

/-- The mask bit of a vector. -/
def State.masked (s : State) (v : Nat) : Bool := s.msixWord v 3 % 2 == 1

/-- Raise a vector: sent, or pending while it is masked (R554). -/
def State.raise (s : State) (v : Nat) : State :=
  if s.masked v then
    { s with hst := { s.hst with pba := if s.hst.pba.contains v then s.hst.pba else v :: s.hst.pba } }
  else { s with hst := { s.hst with sent := v :: s.hst.sent } }

/-! ### Event log (R95, R568, R569) -/

/-- The epoch in force at a unit, 0 for none (R95). -/
def State.epochAt (s : State) (unit : Nat) : Nat := sparseGet (fun _ => 0) s.sys.unitEpoch unit

/-- Units of the keeper die (01_device_overview, table of units). -/
def keeperUnit (u : Nat) : Bool := u == 15 || u == 21 || u == 22

/-- R95: entries are ordered by stamp, then unit, then instance. -/
def LogEntry.before (a b : LogEntry) : Bool :=
  a.stamp < b.stamp || (a.stamp == b.stamp && (a.unit < b.unit || (a.unit == b.unit && a.inst ≤ b.inst)))

/-- Insert an event in the order of R95. -/
def insertLog (e : LogEntry) : List LogEntry → List LogEntry
  | [] => [e]
  | x :: xs => if x.before e then x :: insertLog e xs else e :: x :: xs

/-- Hand an event to the log at the present stamp; the unit is the high byte of its code (R13). -/
def State.event (s : State) (code inst a0 a1 : Nat) : State :=
  let u := code / 256
  let e : LogEntry := ⟨s.now, keeperUnit u, u, inst, s.epochAt u, code, a0 % 2 ^ 32, a1 % 2 ^ 32, s.full s.now⟩
  { s with sys := { s.sys with logPend := insertLog e s.sys.logPend } }

/-- Hand an event of an earlier instant `t` to the log: it is stamped then (R90). -/
def State.eventAt (s : State) (t code inst a0 a1 : Nat) : State :=
  let u := code / 256
  let e : LogEntry := ⟨t, keeperUnit u, u, inst, s.epochAt u, code, a0 % 2 ^ 32, a1 % 2 ^ 32, s.full t⟩
  { s with sys := { s.sys with logPend := insertLog e s.sys.logPend } }

/-- Log SYS_PROTECTED_ACCESS with the device address, its low word first (R45; log entry 38). -/
def State.protectedEvent (s : State) (addr : Nat) : State := s.event 0x0111 0 addr (addr / 2 ^ 32)

/-- Hand an event raised on the keeper die to the log (R568 FLAGS bit 0). -/
def State.eventK (s : State) (code inst a0 a1 : Nat) : State :=
  let u := code / 256
  let e : LogEntry := ⟨s.now, true, u, inst, s.epochAt u, code, a0 % 2 ^ 32, a1 % 2 ^ 32, s.full s.now⟩
  { s with sys := { s.sys with logPend := insertLog e s.sys.logPend } }

/-- Log a code at most once per epoch and key. -/
def State.eventOnce (s : State) (code key inst a0 a1 : Nat) : State :=
  let m := (code, key, s.epochAt (code / 256))
  if s.sys.logOnce.contains m then s
  else
    let s1 := s.event code inst a0 a1
    { s1 with sys := { s1.sys with logOnce := m :: s1.sys.logOnce } }

/-! ### Device memory (R397 to R409) -/

/-- Bytes of usable memory: addresses lie below this (R397). -/
abbrev memTop : Nat := 99857989632

/-- What a byte that nothing has written reads as (log entry 3). -/
def memDefault (_ : Nat) : BitVec 8 := 0

/-- One byte of device memory. -/
def State.byte (s : State) (a : Nat) : Nat := (sparseGet memDefault s.mem a).toNat

/-- Write bytes to a memory list from an address on; bytes beyond usable memory are dropped (R400). -/
def memWrite : List Host.Cell → Nat → List Nat → List Host.Cell
  | m, _, [] => m
  | m, a, b :: bs => memWrite (if a < memTop then sparseSet memDefault m a (BitVec.ofNat 8 b) else m) (a + 1) bs

/-- Where a block lies in the DRAM (R398): channel, rank, bank and row, its slot in the DRAM page with the column of its data, and the column of
its two check bytes. -/
structure DramPlace where
  chan : Nat
  rank : Nat
  bank : Nat
  row : Nat
  slot : Nat
  column : Nat
  check : Nat
deriving DecidableEq, Repr

/-- The mapping of R398. -/
def dramPlace (n : Nat) : DramPlace :=
  let p := n / 31
  let q := p / 24
  ⟨p % 24, bitsOf q 20 20, Nat.xor (bitsOf q 3 0) (bitsOf q 7 4), bitsOf q 19 4, n % 31, 64 * (n % 31), 1984 + 2 * (n % 31)⟩

/-- Bank index of a block within its channel, 0 to 31 (R410). -/
def bankIx (n : Nat) : Nat := let d := dramPlace n; d.rank * 16 + d.bank

/-- The slice that holds a block (R399). -/
def sliceOf (n : Nat) : Nat := n / 97517568

/-- Whether a block reads poisoned with nothing listed: its slice was lost in self-refresh on its channel (R418). -/
def lostBlock (lost : List (Nat × Nat)) (n : Nat) : Bool := lost.contains ((dramPlace n).chan, sliceOf n)

/-- Whether a 64-byte block is poisoned (R401). -/
def State.blockPoison (s : State) (n : Nat) : Bool := sparseGet (lostBlock s.mc.lost) s.poison n

/-- The bytes of a block as the DRAM holds them. -/
def State.blockData (s : State) (n : Nat) : List Nat := (upFrom (64 * n) 64).map s.byte

/-- The check word of a block as it stands (R401): the code over its data and its number, and the poison marker. -/
def State.checkWord (s : State) (n : Nat) : Nat := eccCode (s.blockData n) n + (if s.blockPoison n then 63488 else 0)

/-- A block changes: its word in the check block follows, in the copy kept with the open row, and where its page was written back (R402). -/
def State.mergeWord (s : State) (n : Nat) : State :=
  let p := n / 31
  let c := (dramPlace n).chan
  let x := s.mc.chans.getD c {}
  let k := x.banks.getD (bankIx n) {}
  let s1 : State := if k.openRow.isSome && k.page == p then
      let w := s.checkWord n
      let x' := { x with banks := modAt x.banks (bankIx n) (fun k => { k with check := modAt k.check (n % 31) (fun _ => w) }) }
      { s with mc := { s.mc with chans := modAt s.mc.chans c (fun _ => x') } }
    else s
  if s1.mc.checks.any (fun q => q.1 == p) then
    let w := s.checkWord n
    { s1 with mc := { s1.mc with checks := s1.mc.checks.map (fun q => if q.1 = p then (q.1, modAt q.2 (n % 31) (fun _ => w)) else q) } }
  else s1

/-- The blocks from `n` on change. -/
def State.mergeWords (s : State) (n : Nat) : Nat → State
  | 0 => s
  | k + 1 => (s.mergeWord n).mergeWords (n + 1) k

/-- Mark or clear the poison of a block. -/
def State.setPoison (s : State) (n : Nat) (p : Bool) : State :=
  ({ s with poison := sparseSet (lostBlock s.mc.lost) s.poison n p } : State).mergeWord n

/-- `n` bytes of device memory; a poisoned block, and an address beyond usable memory, reads zeros (R400, R405). -/
def State.read (s : State) (a n : Nat) : List Nat :=
  (upFrom a n).map (fun x => if x < memTop ∧ s.blockPoison (x / 64) = false then s.byte x else 0)

/-- A little-endian field of device memory. -/
def State.readLE (s : State) (a n : Nat) : Nat := leNat (s.read a n)

/-- How many blocks a span touches. -/
def blockCount (a n : Nat) : Nat := if n = 0 then 0 else (a + n - 1) / 64 - a / 64 + 1

/-- Whether any of `k` blocks from `b` is poisoned. -/
def State.anyPoison (s : State) (b : Nat) : Nat → Bool
  | 0 => false
  | k + 1 => s.blockPoison b || s.anyPoison (b + 1) k

/-- Whether a read of `n` bytes from `a` meets a poisoned block or leaves usable memory (R400, R405). -/
def State.readPoison (s : State) (a n : Nat) : Bool :=
  if n = 0 then false
  else memTop < a + n || s.anyPoison (a / 64) ((a + n - 1) / 64 - a / 64 + 1)

/-- Clear the poison of the blocks that a write of all their 64 bytes replaces (R403). -/
def State.cleanBlocks (s : State) (first : Nat) : Nat → State
  | 0 => s
  | k + 1 => (s.setPoison first false).cleanBlocks (first + 1) k

/-- Write bytes to device memory: blocks written whole lose their poison, others keep it (R403); the check words follow (R402). -/
def State.write (s : State) (a : Nat) (bs : List Nat) : State :=
  let s1 := { s with mem := memWrite s.mem a bs }
  let first := (a + 63) / 64
  let last := (a + bs.length) / 64
  (if first < last then s1.cleanBlocks first (last - first) else s1).mergeWords (a / 64) (blockCount a bs.length)

/-- Argument word 1 of the MEM codes (R421). -/
def memArg1 (port n : Nat) : Nat :=
  let d := dramPlace n
  port * 2 ^ 24 + d.chan * 2 ^ 16 + d.rank * 2 ^ 8 + d.bank

/-- Record an uncorrectable read of a block by a port (R405): MEM_ERR_ADDR, the count, and the log's 16 per epoch. -/
def State.eccRead (s : State) (port n : Nat) : State :=
  let s1 := (s.put F.MEM_ERR_ADDR_ADDR n).count Reg.MEM_SNAP_ECC_UNCORR 1
  if s1.mc.eccLogged < 16 then
    { (s1.event 0x1010 0 n (memArg1 port n)) with mc := { s1.mc with eccLogged := s1.mc.eccLogged + 1 } }
  else s1

/-- The response to a request beyond usable memory (R400): logged once per epoch and port. -/
def State.rangeEvent (s : State) (port n : Nat) : State := s.eventOnce 0x1012 port 0 n (port * 2 ^ 24)

/-- What a read of `n` bytes from `a` does at the controller (R400, R405, R426): its blocks are read and counted, each poisoned one is recorded
for the port, and blocks beyond usable memory answer poisoned. -/
def State.noteRead (s : State) (port a n : Nat) : State :=
  let bs := upFrom (a / 64) (blockCount a n)
  let far := bs.filter (fun b => decide (memTop / 64 ≤ b))
  let near := bs.filter (fun b => decide (b < memTop / 64))
  let s1 := (near.filter s.blockPoison).foldl (fun s b => s.eccRead port b) (s.count Reg.MEM_SNAP_READ (64 * near.length))
  match far with
  | [] => s1
  | b :: _ => (s1.rangeEvent port b).count Reg.MEM_SNAP_ECC_UNCORR far.length

/-- Byte spans in order, those joined where one begins at the end of the one before it. -/
def joinSpans : List (Nat × Nat) → List (Nat × Nat)
  | [] => []
  | q :: l =>
    match joinSpans l with
    | [] => [q]
    | r :: t => if q.1 + q.2 = r.1 then (q.1, q.2 + r.2) :: t else q :: r :: t

/-- Several reads of one port. -/
def State.noteReads (s : State) (port : Nat) (l : List (Nat × Nat)) : State :=
  (joinSpans l).foldl (fun s q => s.noteRead port q.1 q.2) s

/-- The poisoned blocks that a write of `n` bytes from `a` covers only in part (R403). -/
def State.partPoison (s : State) (a n : Nat) : List Nat :=
  if n = 0 then []
  else ([a / 64, (a + n - 1) / 64].eraseDups).filter (fun b => decide (b < memTop / 64) && s.blockPoison b &&
    (decide (b * 64 < a) || decide (a + n < b * 64 + 64)))

/-- What a write of `n` bytes from `a` does at the controller besides (R400, R403, R426): the bytes are counted, a partial write of a poisoned
block is logged as MEM_POISON_WRITE, and blocks beyond usable memory as MEM_ADDR_RANGE. -/
def State.noteWrite (s : State) (port a n : Nat) : State :=
  let s1 := s.count Reg.MEM_SNAP_WRITE (min n (memTop - a))
  let s2 := (s.partPoison a n).foldl (fun s b => s.event 0x1011 0 b (memArg1 port b)) s1
  if memTop < a + n then s2.rangeEvent port (max a memTop / 64) else s2

/-- A port writes bytes (R400, R403, R426): a partial write of a poisoned block leaves it poisoned, and what lies beyond usable memory is
dropped. -/
def State.store (s : State) (port a : Nat) (bs : List Nat) : State := (s.write a bs).noteWrite port a bs.length

/-- Bytes with their addresses, those joined that follow one another. -/
def byteRuns : List (Nat × Nat) → List (Nat × List Nat)
  | [] => []
  | q :: l =>
    match byteRuns l with
    | [] => [(q.1, [q.2])]
    | r :: t => if q.1 + 1 = r.1 then (q.1, q.2 :: r.2) :: t else (q.1, [q.2]) :: r :: t

/-- Raise a fatal cause with its detail (R589); the freeze takes it (R591). -/
def State.raiseFatal (s : State) (cause detail : Nat) : State :=
  { s with sys := { s.sys with fatal := s.sys.fatal ++ [(cause, detail)] } }

/-! ### Regions of the running structure (R43 to R45) -/

/-- A region of the running ALLOCATION by identifier. -/
def State.region (s : State) (id : Nat) : Option Region :=
  match s.sho.run with
  | none => none
  | some im => im.regions.find? (fun r => r.id == id)

/-- Base of a region, 0 where it is absent. -/
def State.regionBase (s : State) (id : Nat) : Nat := ((s.region id).map (·.base)).getD 0

/-- Whether two byte ranges overlap. -/
def overlaps (a n b m : Nat) : Bool := decide (0 < n) && decide (0 < m) && decide (a < b + m) && decide (b < a + n)

/-- Domain `k` is left off by the running structure (R49, R505). -/
def State.leftOff (s : State) (k : Nat) : Bool :=
  s.sho.run.any (fun im => (im.power.domains.getD k ⟨false, 0, 0⟩).leaveOff)

/-- The first byte of [a, a + n) that lies in a PROTECTED region (R45). -/
def State.protectedHit (s : State) (a n : Nat) : Bool :=
  match s.sho.run with
  | none => false
  | some im => im.regions.any (fun r => r.flags % 2 == 1 && overlaps a n r.base r.size)

/-! ### Work rings and completions (R555 to R561) -/

/-- Ring `w`. -/
def State.ring (s : State) (w : Nat) : Ring := s.hst.rings.getD w {}

/-- Change ring `w`. -/
def State.onRing (s : State) (w : Nat) (f : Ring → Ring) : State :=
  { s with hst := { s.hst with rings := modAt s.hst.rings w f } }

/-- Set a ring's state and its STATUS field (R561). -/
def State.setRingSt (s : State) (w : Nat) (st : RingSt) : State :=
  let code := match st with
    | .disabled => 0 | .running => 1 | .stalled => 2 | .draining => 3
  (s.onRing w (fun r => { r with st := st })).put (F.HST_RING_STATUS_STATE.nth w) code

/-- TYPE of a descriptor (R556). -/
def Desc.typ (d : Desc) : Nat := d.bytes.getD 0 0
/-- FLAGS of a descriptor (R556). -/
def Desc.flags (d : Desc) : Nat := d.bytes.getD 1 0
/-- AFTER_PREV (R558). -/
def Desc.afterPrev (d : Desc) : Bool := bitAt d.flags 0
/-- IRQ (R560). -/
def Desc.irq (d : Desc) : Bool := bitAt d.flags 1
/-- STOP_ON_ERROR (R558). -/
def Desc.stopOnError (d : Desc) : Bool := bitAt d.flags 2
/-- COOKIE (R556). -/
def Desc.cookie (d : Desc) : Nat := fieldLE d.bytes 4 4

/-- Whether a descriptor is a Trowel job with a WATERMARK row (R293). -/
def trwWatermark (bytes : List Nat) : Bool := bytes.getD 0 0 == 5 && fieldLE bytes 0x2C 2 != 0xFFFF

/-- Completion entries reserved for a descriptor (R560). -/
def resvOf (bytes : List Nat) : Nat := if bytes.getD 0 0 = 3 ∨ trwWatermark bytes then 2 else 1

/-- Completion entries reserved and not yet written on a ring (R560). -/
def Ring.reserved (r : Ring) : Nat := r.taken.foldl (fun a d => a + d.resv) 0

/-- Write one 32-byte completion entry of ring `w` (R559): header last, PHASE, HEAD, vector and write-back (R578). -/
def State.writeEntry (s : State) (w : Nat) (d : Desc) (body : List Nat) (forceIrq : Bool) : State :=
  let head := s.get (F.HST_CRING_HEAD_HEAD.nth w)
  let phase := s.get (F.HST_CRING_HEAD_PHASE.nth w)
  let size := s.get (F.HST_CRING_SIZE_ENTRIES.nth w)
  let base := s.get (F.HST_CRING_BASE_BASE.nth w) * 32
  let ty := if d.faulty then 0 else d.typ
  let hdr := [ty, phase] ++ leBytes 2 d.slot ++ leBytes 4 (if d.faulty then 0 else d.cookie)
  let s1 := s.store 13 (base + 32 * head) (hdr ++ slice body 0 24)
  let wrap := decide (size ≤ head + 1)
  let s2 := (s1.put (F.HST_CRING_HEAD_HEAD.nth w) (if wrap then 0 else head + 1)).put
    (F.HST_CRING_HEAD_PHASE.nth w) (if wrap then 1 - phase else phase)
  let s3 := if s2.flag (F.HST_RING_CTRL_WB_EN.nth w) then
      { s2 with hst := { s2.hst with hostOut :=
        ⟨s2.get (F.HST_RING_WB_ADDR.nth w) * 8,
         leBytes 4 (s2.rd (Reg.HST_CRING_HEAD + 0x40 * w)) ++ leBytes 4 (s2.rd (Reg.HST_WRING_TAIL + 0x40 * w))⟩
          :: s2.hst.hostOut } }
    else s2
  if d.irq || forceIrq then s3.raise (s3.get (F.HST_RING_CTRL_VECTOR.nth w)) else s3

/-- Whether a completion body is a Trowel WATERMARK (KIND 1 of R297), which always raises the vector (R298, R560). -/
def isWatermark (d : Desc) (body : List Nat) : Bool := trwWatermark d.bytes && body.getD 0 0 == 1

/-- Write every completion body of one descriptor that is formed. -/
def State.writeBodies (s : State) (w : Nat) (d : Desc) : List (List Nat) → State
  | [] => s
  | b :: bs => (s.writeEntry w d b (isWatermark d b)).writeBodies w d bs

/-- Go through the taken descriptors of a ring in order and write what may be written: a first completion only after
every earlier descriptor's first, a later one when it is formed (R560). `open_` says that every earlier first is out. -/
def flushDescs (w : Nat) : List Desc → Bool → State → List Desc × State
  | [], _, s => ([], s)
  | d :: ds, ok, s =>
    if d.out.isEmpty then
      let r := flushDescs w ds (ok && d.firstOut) s
      (d :: r.1, r.2)
    else if d.firstOut || ok then
      let s1 := s.writeBodies w d d.out
      let d1 := { d with out := [], firstOut := true, resv := d.resv - d.out.length }
      let r := flushDescs w ds ok s1
      (d1 :: r.1, r.2)
    else
      let r := flushDescs w ds false s
      (d :: r.1, r.2)

/-- Drop the leading descriptors that have ended with nothing left to write, keeping the last one (the next descriptor's
AFTER_PREV looks at it). -/
def dropDone : List Desc → List Desc
  | d :: e :: ds => if d.st = .ended ∧ d.resv = 0 then dropDone (e :: ds) else d :: e :: ds
  | ds => ds

/-- The 24 completion bytes of a descriptor that the HST ends itself with a code, at a short stamp: in its unit's own layout (R76,
R148, R299, R564, R566). -/
def refusedBody (d : Desc) (code stamp : Nat) : List Nat :=
  match d.typ with
  | 2 => leBytes 2 code ++ slice d.bytes 8 2 ++ [0xFF, 0, 0, 0] ++ List.replicate 16 0
  | 3 => [2, 0] ++ leBytes 2 code ++ List.replicate 12 0 ++ leBytes 4 stamp ++ leBytes 2 0xFFFF ++ [0, 0]
  | 5 => [3, 0] ++ leBytes 2 code ++ slice d.bytes 0x0C 4 ++ leBytes 4 stamp ++ List.replicate 12 0
  | _ => leBytes 2 code ++ List.replicate 22 0

/-- A ring's own fault: its last code, logged (R561, R572, R578). -/
def State.ringFault (s : State) (code w : Nat) : State := (s.put (F.HST_RING_STATUS_CODE.nth w) code).event code w w 0

/-- End with HST_CHAIN_SKIPPED every waiting descriptor whose STOP_ON_ERROR predecessor ended with a code (R558). -/
def skipChain (stamp : Nat) : Option Desc → List Desc → List Desc
  | _, [] => []
  | prev, d :: ds =>
    let skip : Bool := match prev with
      | some p => d.st == .waiting && d.afterPrev && d.stopOnError && p.st == .ended && p.endCode != 0
      | none => false
    if skip then
      let d1 := { d with st := .ended, endCode := 0x0214, out := [refusedBody d 0x0214 stamp], resv := 1 }
      d1 :: skipChain stamp (some d1) ds
    else d :: skipChain stamp (some d) ds

/-- The HST logs a descriptor it ends itself (R572); a commit is logged as a refused one (R73). -/
def State.refusalEvent (s : State) (code w : Nat) (d : Desc) : State :=
  if d.typ = 3 then s.event code w (w * 65536 + 0xFFFF) d.slot else s.eventOnce code w w w d.slot

/-- The HST ends a descriptor itself: the ring's last code, the count and the event (R561, R572). -/
def State.noteRefused (s : State) (code w : Nat) (d : Desc) : State :=
  ((s.put (F.HST_RING_STATUS_CODE.nth w) code).count Reg.HST_SNAP_REFUSED 1).refusalEvent code w d

/-- Settle a ring after any of its descriptors moved: chain skips, completions in order, DRAINING's end (R558 to R561). -/
def State.settleRing (s : State) (w : Nat) : State :=
  let r := s.ring w
  let sk := skipChain (s.short s.now) none r.taken
  let skipped := (r.taken.zip sk).filter (fun q => q.1.st == .waiting && q.2.st == .ended)
  let s0 := skipped.foldl (fun s q => s.noteRefused 0x0214 w q.1) s
  let f := flushDescs w sk true s0
  let s1 := f.2.onRing w (fun r => { r with taken := dropDone f.1 })
  if (s1.ring w).st = .draining ∧ (s1.ring w).reserved = 0 then s1.setRingSt w .disabled else s1

/-- Change the descriptor numbered `k` among those of ring `w` that are taken. -/
def State.onDesc (s : State) (w k : Nat) (f : Desc → Desc) : State :=
  s.onRing w (fun r => { r with taken := r.taken.map (fun d => if d.num = k ∧ (d.st ≠ .ended ∨ 0 < d.resv) then f d else d) })

/-- The taken descriptor numbered `k` of ring `w`. -/
def State.descAt (s : State) (w k : Nat) : Option Desc :=
  (s.ring w).taken.find? (fun d => d.num == k && (d.st ≠ .ended || decide (0 < d.resv)))

/-- Form a completion of a descriptor without ending it (a first completion that has later ones, R560). -/
def State.postCompletion (s : State) (w k : Nat) (body : List Nat) : State :=
  (s.onDesc w k (fun d => { d with out := d.out ++ [body] })).settleRing w

/-- End a descriptor with a code and its last completion (R558, R560); one that a reset discarded has none (R567). A refused
two-entry descriptor gives back the
second reserved entry. -/
def State.endDesc (s : State) (w k code : Nat) (body : List Nat) : State :=
  if (s.descAt w k).isNone then s
  else
  let s1 := s.onDesc w k (fun d => { d with st := .ended, endCode := code, out := d.out ++ [body], resv := d.out.length + 1 })
  let s2 := if code = 0 then s1 else (s1.put (F.HST_RING_STATUS_CODE.nth w) code).count Reg.HST_SNAP_REFUSED 1
  s2.settleRing w

/-- Mark a descriptor running. -/
def State.startDesc (s : State) (w k : Nat) : State := s.onDesc w k (fun d => { d with st := .running })

/-- The first waiting descriptor that its unit may start (R558): of type `ty`, with no earlier waiting descriptor of the
same type, its AFTER_PREV predecessor ended, and no earlier AFTER_PREV descriptor still blocked. -/
def pickDesc (ty : Nat) : Option Desc → List Desc → Option Desc
  | _, [] => none
  | prev, d :: ds =>
    let ready := !d.afterPrev || (match prev with | some p => p.st == .ended | none => true)
    if d.st = .waiting then
      if !ready then none
      else if d.typ = ty ∧ d.faulty = false then some d
      else pickDesc ty (some d) ds
    else pickDesc ty (some d) ds

/-- The descriptor of type `ty` that ring `w` hands to its unit next. -/
def State.nextDesc (s : State) (w ty : Nat) : Option Desc :=
  if s.hst.d3 || s.cmt.stopped then none else pickDesc ty none (s.ring w).taken

/-! ### Outcomes -/

/-- What every meaning answers. -/
abbrev Out := Host.Outcome State Fault Refusal

/-! ### Which commands act -/

/-- The field die is powered (R16). -/
def State.fieldOn (s : State) : Bool := s.flag F.SYS_STATUS_FIELD_ON

/-- A command of a field-die unit acts while the field die is powered; else only time passes (log entry 35). -/
def State.whenOn (s : State) (t : Nat) (f : State → State) : State := if (s.tick t).fieldOn then f (s.tick t) else s.tick t

/-- A host access to a BAR: in D3hot the HST does not answer it (R548). -/
def State.whenBar (s : State) (t : Nat) (f : State → State) : State := if s.hst.d3 then s.tick t else f (s.tick t)

/-- A host access to a register of the field die (R16, R548). -/
def State.whenHost (s : State) (t : Nat) (f : State → State) : State := if s.hst.d3 then s.tick t else s.whenOn t f

end Sys2Proof.Machine
end

