-- ==== Sys2Proof/Machine/HostRings.lean ====
section
/-!
DEFINITION. The host interface (R547 to R567, R578): doorbells and the taking of descriptors, INGEST, EXPORT and NOP, ring
enable and disable, function-level reset of the rings, the link, D3hot, BAR2 accesses and MSI-X unmasking.
-/

namespace Sys2Proof.Machine

/-- Memory is trained (R422). -/
def State.trained (s : State) : Bool := s.flag F.MEM_STATUS_TRAINED

/-- A full image is in force (R574). -/
def State.imageOn (s : State) : Bool := s.flag F.SYS_STATUS_IMAGE

/-- Free completion entries of a ring (R560). -/
def State.freeEntries (s : State) (w : Nat) : Nat :=
  let size := s.get (F.HST_CRING_SIZE_ENTRIES.nth w)
  let head := s.get (F.HST_CRING_HEAD_HEAD.nth w)
  let used := if size = 0 then 0 else (head + size - (s.ring w).cplTail % size) % size
  size - 1 - used - (s.ring w).reserved

/-- Whether a descriptor header is well formed (R556): a known TYPE, no reserved flag, the reserved bytes 0. -/
def headerOk (bytes : List Nat) : Bool :=
  let ty := bytes.getD 0 0
  decide (1 ≤ ty) && decide (ty ≤ 7) && decide (bytes.getD 1 0 < 8) && fieldLE bytes 2 2 == 0

/-- The ring's descriptors may be taken: RUNNING, in D0, not frozen (R548, R561, R591). -/
def State.mayTake (s : State) (w : Nat) : Bool :=
  (s.ring w).st == .running && !s.hst.d3 && !s.cmt.stopped && s.fieldOn

/-- Take the next covered descriptor of ring `w` (R558, R560, R561): reserve its completion entries, advance TAIL; a
poisoned read completes with TYPE 0, a malformed header is refused. -/
def State.takeOne (s : State) (w : Nat) : State :=
  match (s.ring w).avail with
  | [] => s
  | (slot, stamp) :: rest =>
    let addr := s.get (F.HST_WRING_BASE_BASE.nth w) * 64 + 64 * slot
    let poison := s.readPoison addr 64
    let bytes := if poison then List.replicate 64 0 else s.read addr 64
    let need := if poison then 1 else resvOf bytes
    if s.freeEntries w < need then
      (s.setRingSt w .stalled).onRing w (fun r => { r with stallAt := s.now })
    else
      let size := s.get (F.HST_WRING_SIZE_ENTRIES.nth w)
      let s1 := (s.put (F.HST_WRING_TAIL_TAIL.nth w) ((slot + 1) % max size 1)).count Reg.HST_SNAP_DESC 1
      let d0 : Desc := { slot := slot, num := (s.ring w).next, bytes := bytes, stamp := stamp, resv := need }
      let code := if poison then 0x0213 else if headerOk bytes then 0 else 0x0212
      let d : Desc := if code = 0 then d0
        else { d0 with st := .ended, endCode := code, out := [refusedBody d0 code (s.short s.now)], resv := 1, faulty := poison }
      let s2 := s1.onRing w (fun r => { r with avail := rest, taken := r.taken ++ [d], next := r.next + 1 })
      let s3 := s2.noteRead 13 addr 64
      (if code = 0 then s3 else s3.noteRefused code w d).settleRing w

/-- Rings that have a descriptor to fetch. -/
def State.fetchRings (s : State) : List Nat := (List.range 64).filter (fun w => s.mayTake w && !(s.ring w).avail.isEmpty)

/-- The ring whose descriptor is fetched next, with its level, by HST_RING_CTRL.PRIORITY under the grant rule of R19 (R558). -/
def State.fetchChoice (s : State) : Option (Nat × Nat) :=
  let ready := s.fetchRings.map (fun w => (w, s.get (F.HST_RING_CTRL_PRIORITY.nth w)))
  match grantLevel s.hst.fetch.starve ([3, 2, 1, 0].filter (fun l => ready.any (fun q => q.2 == l))) with
  | none => none
  | some l => (roundRobin (assocGet l 0 s.hst.fetch.last) ((ready.filter (fun q => q.2 == l)).map (fun q => q.1 + 1))).map (fun n => (n - 1, l))

/-- Fetch one descriptor of ring `w` at its level. -/
def State.fetchOne (s : State) (w l : Nat) : State :=
  let levels := (s.fetchRings.map (fun w => s.get (F.HST_RING_CTRL_PRIORITY.nth w))).eraseDups
  let f := s.hst.fetch
  let s1 : State := { s with hst := { s.hst with fetch := { f with
    last := assocSet l (w + 1) f.last, starve := levels.map (fun x => (x, if x = l then 0 else assocGet x 0 f.starve + 1)) } } }
  s1.takeOne w

/-- Fetch at most `n` descriptors. -/
def State.fetchMany (s : State) : Nat → State
  | 0 => s
  | n + 1 => match s.fetchChoice with
    | none => s
    | some (w, l) => (s.fetchOne w l).fetchMany n

/-- Fetch every covered descriptor that fits (R558): each fetch takes one or stalls a ring. -/
def State.fetchAll (s : State) : State := s.fetchMany ((s.hst.rings.map (fun r => r.avail.length)).foldl (· + ·) 0)

/-- The slots from `a` up to, not including, `b` on a ring of `n` slots. -/
def slotsTo (a b n : Nat) : List Nat := (upFrom a ((b + n - a % n) % n)).map (· % n)

/-- R557: a WORK_HEAD doorbell stamps the newly covered descriptors. A value out of range, or a ring that is not RUNNING
or STALLED, is ignored and logged. -/
def State.workDoorbell (s : State) (w v : Nat) : State :=
  let r := s.ring w
  let size := s.get (F.HST_WRING_SIZE_ENTRIES.nth w)
  if v < size ∧ (r.st = .running ∨ r.st = .stalled) then
    let tail := s.get (F.HST_WRING_TAIL_TAIL.nth w)
    let cov := (slotsTo tail v size).map (fun k => (k, ((r.avail.find? (fun p => p.1 == k)).map (·.2)).getD s.now))
    (s.onRing w (fun r => { r with workHead := v, avail := cov })).fetchAll
  else s.ringFault 0x0211 w

/-- Count the time a ring has stood in STALLED up to now (R579). -/
def State.countStall (s : State) (w : Nat) : State :=
  if (s.ring w).st = .stalled then
    let n := (s.now - (s.ring w).stallAt) / tickUs
    (s.count Reg.HST_SNAP_STALLED_US n).onRing w (fun r => { r with stallAt := r.stallAt + n * tickUs })
  else s

/-- R557, R561: a CPL_TAIL doorbell frees completion entries and may return a STALLED ring to RUNNING. -/
def State.cplDoorbell (s : State) (w v : Nat) : State :=
  let r := s.ring w
  let size := s.get (F.HST_CRING_SIZE_ENTRIES.nth w)
  if v < size ∧ (r.st = .running ∨ r.st = .stalled) then
    let s1 := s.onRing w (fun r => { r with cplTail := v })
    let need := match (s1.ring w).avail with
      | [] => 0
      | (slot, _) :: _ =>
        let a := s1.get (F.HST_WRING_BASE_BASE.nth w) * 64 + 64 * slot
        if s1.readPoison a 64 then 1 else resvOf (s1.read a 64)
    if r.st = .stalled ∧ need ≤ s1.freeEntries w then
      ((s1.countStall w).setRingSt w .running).fetchAll
    else s1
  else s.ringFault 0x0211 w

/-! ### INGEST and EXPORT (R562 to R564) -/

/-- The fields of an INGEST or EXPORT descriptor (R562). -/
structure CopyDesc where
  host : Nat
  dev : Nat
  len : Nat
  rows : Nat
  hostPitch : Nat
  devPitch : Nat
deriving DecidableEq, Repr

/-- The copy a descriptor describes. -/
def copyOf (b : List Nat) : CopyDesc :=
  ⟨fieldLE b 8 8, fieldLE b 0x10 8, fieldLE b 0x18 4, fieldLE b 0x1C 2, fieldLE b 0x20 4, fieldLE b 0x24 4⟩

/-- R562: reserved bytes 0, LEN and ROWS in range, the pitches wide enough, the product bounded. -/
def copyFormatOk (b : List Nat) : Bool :=
  let c := copyOf b
  fieldLE b 0x1E 2 == 0 && (b.drop 0x28).all (· == 0) && decide (1 ≤ c.len) && decide (c.len ≤ 1073741824) &&
  decide (1 ≤ c.rows) && decide (c.len * c.rows ≤ 0xFFFFFFFF) &&
  (decide (c.rows ≤ 1) || (decide (c.len ≤ c.hostPitch) && decide (c.len ≤ c.devPitch)))

/-- The device byte ranges of a copy's rows. -/
def copySpans (c : CopyDesc) : List (Nat × Nat) := (List.range c.rows).map (fun i => (c.dev + i * c.devPitch, c.len))

/-- Byte ranges of the buffers named by a sealed epoch that has not retired or by a completed commit that has not landed
(R84, R87, R263). -/
def State.namedBuffers (s : State) : List (Nat × Nat) :=
  (s.cmt.epochs.filter (fun (e : Epoch) => !e.retired)).flatMap (fun e => e.names ++ e.commits.flatMap (·.names)) ++ s.cmt.waiting.flatMap (·.names)

/-- The first 4 KiB page of a span that is guarded (R87): it overlaps a buffer that an unretired epoch or a completed
commit names. -/
def State.guardedPage (s : State) (a n : Nat) : Option Nat :=
  let names := s.namedBuffers
  let pages := upFrom (a / 4096) ((a + n - 1) / 4096 - a / 4096 + 1)
  pages.findSome? (fun p => if names.any (fun q => overlaps (p * 4096) 4096 q.1 q.2) then some (p * 4096) else none)

/-- R563: the first check that a copy descriptor fails, with the FIRST_PAGE it reports. -/
def State.copyCheck (s : State) (b : List Nat) (ingest : Bool) : Nat × Nat :=
  let c := copyOf b
  let sp := copySpans c
  if !copyFormatOk b then (0x0212, 0)
  else if sp.any (fun q => decide (memTop < q.1 + q.2)) then (0x0231, 0)
  else if sp.any (fun q => s.protectedHit q.1 q.2) then (0x0111, 0)
  else
    match (if ingest then sp.findSome? (fun q => s.guardedPage q.1 q.2) else none) with
    | some p => (0x0230, p)
    | none => (0, 0)

/-- The INGEST or EXPORT completion body (R564). -/
def copyBody (code arrival bytes first : Nat) : List Nat :=
  leBytes 2 code ++ [0, 0] ++ leBytes 4 arrival ++ leBytes 4 bytes ++ [0, 0, 0, 0] ++ leBytes 8 first

/-- R562, R563: an INGEST or EXPORT is checked, and refused whole or started. -/
def State.copyStart (s : State) (w ty : Nat) : State :=
  match s.nextDesc w ty with
  | none => s
  | some d =>
    let r := s.copyCheck d.bytes (ty == 1)
    if r.1 = 0 then
      let s1 := s.startDesc w d.num
      { s1 with hst := { s1.hst with copies := (w, d.num) :: s1.hst.copies } }
    else
      let s1 := if r.1 = 0x0111 then s.protectedEvent (copyOf d.bytes).dev else s.eventOnce r.1 w w w d.slot
      s1.endDesc w d.num r.1 (copyBody r.1 0 0 r.2)

/-- Write bytes in copy order over the rows of a copy (R562: rows in increasing order). -/
def State.writeRows (s : State) (c : CopyDesc) : Nat → List Nat → State
  | _, [] => s
  | i, b :: bs =>
    let s1 := if i % c.len = 0 then s.store 0 (c.dev + (i / c.len) * c.devPitch) ((b :: bs).take c.len) else s
    s1.writeRows c (i + 1) bs

/-- Device address of byte `i` of a copy in copy order. -/
def copyAddr (c : CopyDesc) (i : Nat) : Nat := c.dev + (i / max c.len 1) * c.devPitch + i % max c.len 1

/-- Bytes of a copy written by their places in copy order. -/
def State.writeCopyBytes (s : State) (c : CopyDesc) (l : List (Nat × Nat)) : State :=
  (byteRuns (l.map (fun q => (copyAddr c q.1, q.2)))).foldl (fun s q => s.store 0 q.1 q.2) s

/-- The bytes of an ingest, in copy order, before the first that was not read: a place whose read failed, or that was not written, holds
256 or more, and so do all beyond the list (R564). -/
def readBytes (data : List Nat) : List Nat := data.takeWhile (· < 256)

/-- The bytes beyond the first that was not read which were read and written nevertheless, with their places (R564). -/
def readBeyond (data : List Nat) : List (Nat × Nat) :=
  (data.zipIdx.filter (fun q => decide ((readBytes data).length < q.2 ∧ q.1 < 256))).map (fun q => (q.2, q.1))

/-- R564: an ingest ends: its bytes are written, then the completion; a host read fault ends it early, and any of the bytes beyond it may
have been written. -/
def State.ingestComplete (s : State) (w k : Nat) (data : List Nat) : State :=
  match s.descAt w k with
  | none => s
  | some d =>
    if s.hst.copies.contains (w, k) ∧ d.typ = 1 then
      let c := copyOf d.bytes
      let total := c.len * c.rows
      let bs := readBytes (data.take total)
      let s1 := (s.writeRows c 0 bs).count Reg.HST_SNAP_INGEST bs.length
      let s2 := { s1 with hst := { s1.hst with copies := s1.hst.copies.erase (w, k) } }
      if bs.length = total then s2.endDesc w k 0 (copyBody 0 (s.short s.now) total 0)
      else ((s2.writeCopyBytes c (readBeyond (data.take total))).eventOnce 0x0232 w w w d.slot).endDesc w k 0x0232
        (copyBody 0x0232 (s.short s.now) bs.length (copyAddr c bs.length))
    else s

/-- How many bytes of an export's source, in copy order, lie before the first poisoned block (R564). -/
def State.exportClean (s : State) (c : CopyDesc) : Nat → Nat → Nat
  | _, 0 => 0
  | i, n + 1 => if s.readPoison (copyAddr c i) 1 then 0 else 1 + s.exportClean c (i + 1) n

/-- The bytes of an export in copy order. -/
def State.exportBytes (s : State) (c : CopyDesc) (n : Nat) : List Nat := (List.range n).map (fun i => s.byte (copyAddr c i))

/-- What an export reads until it ends: its rows, as far as the byte that meets a poisoned block. -/
def exportReads (c : CopyDesc) (n : Nat) : List (Nat × Nat) :=
  ((List.range c.rows).map (fun i => (c.dev + i * c.devPitch, min c.len (n + 1 - i * c.len)))).filter (fun q => decide (0 < q.2))

/-- R564: an export ends: its rows have gone to host memory, then the completion; a poisoned source read ends it early. -/
def State.exportComplete (s : State) (w k : Nat) : State :=
  match s.descAt w k with
  | none => s
  | some d =>
    if s.hst.copies.contains (w, k) ∧ d.typ = 7 then
      let c := copyOf d.bytes
      let total := c.len * c.rows
      let n := s.exportClean c 0 total
      let rows := (List.range c.rows).map (fun i =>
        (⟨c.host + i * c.hostPitch, (s.exportBytes c n).drop (i * c.len) |>.take c.len⟩ : HostWrite))
      let s1 := (s.count Reg.HST_SNAP_EXPORT n).noteReads 0 (exportReads c n)
      let s2 := { s1 with hst := { s1.hst with copies := s1.hst.copies.erase (w, k),
                                               hostOut := rows.reverse ++ s1.hst.hostOut } }
      if n = total then s2.endDesc w k 0 (copyBody 0 (s.short s.now) total 0)
      else s2.endDesc w k 0x1010 (copyBody 0x1010 (s.short s.now) n (copyAddr c n))
    else s

/-- R556: NOP does nothing but complete; its bytes from 0x08 must be 0. -/
def State.nopDesc (s : State) (w : Nat) : State :=
  match s.nextDesc w 6 with
  | none => s
  | some d =>
    let code := if (d.bytes.drop 8).all (· == 0) then 0 else 0x0212
    let s1 := if code = 0 then s else s.eventOnce code w w w d.slot
    s1.endDesc w d.num code (leBytes 2 code ++ List.replicate 22 0)

/-! ### Ring enable and disable (R561) -/

/-- R555, R561: the base and size settings of ring `w` are valid. -/
def State.ringConfigOk (s : State) (w : Nat) : Bool :=
  let wb := s.get (F.HST_WRING_BASE_BASE.nth w) * 64
  let wn := s.get (F.HST_WRING_SIZE_ENTRIES.nth w)
  let cb := s.get (F.HST_CRING_BASE_BASE.nth w) * 32
  let cn := s.get (F.HST_CRING_SIZE_ENTRIES.nth w)
  decide (2 ≤ wn) && decide (wn ≤ 4096) && decide (4 ≤ cn) && decide (cn ≤ 8192) &&
  decide (wb + 64 * wn ≤ memTop) && decide (cb + 32 * cn ≤ memTop) &&
  !s.protectedHit wb (64 * wn) && !s.protectedHit cb (32 * cn)

/-- R561: ENABLE written 1. -/
def State.ringEnable (s : State) (w : Nat) : State :=
  if (s.ring w).st = .disabled then
    if s.ringConfigOk w then
      let s1 := ((s.put (F.HST_RING_CTRL_ENABLE.nth w) 1).put (F.HST_WRING_TAIL_TAIL.nth w) 0).put
        (F.HST_CRING_HEAD_HEAD.nth w) 0
      ((s1.put (F.HST_CRING_HEAD_PHASE.nth w) 1).onRing w (fun r => { next := r.next })).setRingSt w .running
    else s.ringFault 0x0210 w
  else s

/-- R561: ENABLE written 0. -/
def State.ringDisable (s : State) (w : Nat) : State :=
  if (s.ring w).st = .running ∨ (s.ring w).st = .stalled then
    (((s.countStall w).put (F.HST_RING_CTRL_ENABLE.nth w) 0).setRingSt w .draining).settleRing w
  else s

/-! ### Link, power state, BAR2, vectors -/

/-- R547: the link trains; below 32 GT/s x16 it is logged as degraded. The return of the link completes a
link-down event, which is logged then (R567). -/
def State.linkUp (s : State) (speed width : Nat) : State :=
  let s1 := (s.put F.HST_LINK_SPEED speed).put F.HST_LINK_WIDTH width
  let s2 := if s.hst.downAt then ({ s1 with hst := { s1.hst with downAt := false } } : State).event 0x0222 0 4 0 else s1
  if speed = 5 ∧ width = 16 then s2 else s2.event 0x0220 0 0 0

/-- R548: D3hot stops descriptor taking and BAR answers; D0 resumes every ring where it stopped. -/
def State.powerState (s : State) (d3 : Bool) : State :=
  let s1 := { s with hst := { s.hst with d3 := d3 } }
  if d3 then s1 else s1.fetchAll

/-- Whether BAR2 reaches memory: the die powered, memory trained (R552). -/
def State.bar2On (s : State) : Bool := s.fieldOn && s.trained

/-- R552: a BAR2 read. Bytes beyond usable memory read all ones, PROTECTED bytes read 0 (R45), a poisoned response gives
all ones or the EP bit; with the die off or memory untrained every byte reads 0xFF (R16). -/
def State.bar2Read (s : State) (o n : Nat) : State :=
  let answer (s : State) (bs : List Nat) (ep : Bool) : State :=
    { s with hst := { s.hst with readData := bs, readEp := ep } }
  if s.hst.d3 then s
  else if !s.bar2On then answer s (List.replicate n 0xFF) false
  else
    let s0 := s.count Reg.HST_SNAP_BAR2_READS 1
    let one (a : Nat) : Nat := if memTop ≤ a then 0xFF else if s.protectedHit a 1 then 0 else s.byte a
    let s1 := if s.protectedHit o n = false then s0.noteRead 0 o n
      else if memTop < o + n then s0.noteRead 0 (max o memTop) (o + n - max o memTop) else s0
    if memTop ≤ o then answer s1 (List.replicate n 0xFF) false
    else if s.protectedHit o n then answer (s1.protectedEvent o) ((upFrom o n).map one) false
    else if s.anyPoison (o / 64) (blockCount o n) then
      let s2 := s1.eventOnce 0x0240 0 0 0 0
      if s.flag F.HST_CTRL_EP_POISON then answer s2 (List.replicate n 0) true else answer s2 (List.replicate n 0xFF) false
    else answer s1 ((upFrom o n).map one) false

/-- R552: a BAR2 write is merged into device memory, or dropped beyond usable memory or in a PROTECTED region. -/
def State.bar2Write (s : State) (o : Nat) (bs : List Nat) : State :=
  if s.hst.d3 || !s.bar2On || bs.isEmpty then s
  else
    if o < memTop ∧ s.protectedHit o bs.length = true then
      (if memTop < o + bs.length then s.rangeEvent 0 (memTop / 64) else s).protectedEvent o
    else s.store 0 o bs

/-- R554: unmasking a vector sends it when it is pending. -/
def State.msixUnmask (s : State) (v : Nat) : State :=
  let s1 := s.setMsixWord v 3 0
  if s.hst.pba.contains v then
    { s1 with hst := { s1.hst with pba := s1.hst.pba.erase v, sent := v :: s1.hst.sent } }
  else s1

/-! ### Meanings -/

/-- WORK_DOORBELL (R557). -/
def execWorkDoorbell (t w v : Nat) (s : State) : Out :=
  .next (s.whenHost t (fun s => if w < 64 then s.workDoorbell w v else s))

/-- CPL_DOORBELL (R557, R561). -/
def execCplDoorbell (t w v : Nat) (s : State) : Out :=
  .next (s.whenHost t (fun s => if w < 64 then s.cplDoorbell w v else s))

/-- INGEST (R562, R563). -/
def execIngest (t w : Nat) (s : State) : Out :=
  .next (if s.fieldOn then (s.tick t).copyStart w 1 else s.tick t)

/-- INGEST_COMPLETE (R564) of descriptor `k` of ring `w`: `data` are the bytes read from host memory in copy order. -/
def execIngestComplete (t w k : Nat) (data : List Nat) (s : State) : Out :=
  .next (if s.fieldOn then (s.tick t).ingestComplete w k data else s.tick t)

/-- EXPORT (R562, R563). -/
def execExport (t w : Nat) (s : State) : Out :=
  .next (if s.fieldOn then (s.tick t).copyStart w 7 else s.tick t)

/-- EXPORT_COMPLETE (R564). -/
def execExportComplete (t w k : Nat) (s : State) : Out :=
  .next (if s.fieldOn then (s.tick t).exportComplete w k else s.tick t)

/-- NOP (R556). -/
def execNop (t w : Nat) (s : State) : Out :=
  .next (if s.fieldOn then (s.tick t).nopDesc w else s.tick t)

/-- RING_ENABLE (R561). -/
def execRingEnable (t w : Nat) (s : State) : Out :=
  .next (s.whenHost t (fun s => if w < 64 then s.ringEnable w else s))

/-- RING_DISABLE (R561). -/
def execRingDisable (t w : Nat) (s : State) : Out :=
  .next (s.whenHost t (fun s => if w < 64 then s.ringDisable w else s))

/-- LINK_UP (R547). -/
def execLinkUp (t speed width : Nat) (s : State) : Out :=
  .next (if s.fieldOn ∧ 1 ≤ speed ∧ speed ≤ 5 then (s.tick t).linkUp speed width else s.tick t)

/-- POWER_STATE_CHANGE (R548). -/
def execPowerStateChange (t : Nat) (d3 : Bool) (s : State) : Out :=
  .next (if s.fieldOn then (s.tick t).powerState d3 else s.tick t)

/-- BAR2_READ (R552). -/
def execBar2Read (t o n : Nat) (s : State) : Out := .next ((s.tick t).bar2Read o n)

/-- BAR2_WRITE (R552). -/
def execBar2Write (t o : Nat) (bs : List Nat) (s : State) : Out := .next ((s.tick t).bar2Write o bs)

/-- MSIX_UNMASK (R554). -/
def execMsixUnmask (t v : Nat) (s : State) : Out :=
  .next (s.whenHost t (fun s => if v < 256 then s.msixUnmask v else s))

end Sys2Proof.Machine
end

