-- ==== Sys2Proof/Machine/Memory.lean ====
section
/-!
DEFINITION. The memory controller (R397 to R426): slots, the choice of the next request, ECC and poison, refresh, training
and retraining, sleep, and the patrol scrub.
-/

namespace Sys2Proof.Machine

/-! ### Places -/

/-- Channel `c`. -/
def State.chan (s : State) (c : Nat) : Chan := s.mc.chans.getD c {}

/-- Change channel `c`. -/
def State.onChan (s : State) (c : Nat) (f : Chan → Chan) : State :=
  { s with mc := { s.mc with chans := modAt s.mc.chans c f } }

/-- STATE code of a channel (R420). -/
def chanCode : ChanSt → Nat
  | .training => 0 | .active => 1 | .retrain => 2 | .failed => 3

/-- Move a channel to a state, with its status field (R423). -/
def State.setChan (s : State) (c : Nat) (st : ChanSt) : State :=
  (s.onChan c (fun x => { x with st := st })).put (F.MEM_CHAN_STATUS_STATE.nth c) (chanCode st)

/-- Requests of a channel. -/
def State.chanReqs (s : State) (c : Nat) : List MemReq := s.mc.reqs.filter (fun r => (dramPlace r.block).chan == c)

/-- A request holds a slot until its data leaves or its write is acknowledged (R408). -/
def MemReq.slot (r : MemReq) : Bool := !r.acked

/-- Slots held in all and by channel, as the status registers show them (R422, R423). -/
def State.showSlots (s : State) (c : Nat) : State :=
  (s.put F.MEM_STATUS_SLOTS (s.mc.reqs.countP MemReq.slot)).put (F.MEM_CHAN_STATUS_SLOTS.nth c)
    ((s.chanReqs c).countP MemReq.slot)

/-! ### Check blocks (R401, R402) -/

/-- The check block of a page in the DRAM: as last written back, or what its blocks call for (R401, R402). -/
def State.pageCheck (s : State) (p : Nat) : List Nat :=
  match s.mc.checks.find? (fun q => q.1 == p) with
  | some q => q.2
  | none => (upFrom (31 * p) 31).map s.checkWord

/-- Bank b of channel c precharges its row: the check block is written back first, merged (R402). -/
def State.closeRow (s : State) (c b : Nat) : State :=
  let k := (s.chan c).banks.getD b {}
  if k.openRow.isNone then s
  else
    let s1 : State := { s with mc := { s.mc with checks := (k.page, k.check) :: s.mc.checks.filter (fun q => q.1 != k.page) } }
    s1.onChan c (fun x => { x with banks := modAt x.banks b (fun k => { k with openRow := none, check := [], hits := 0 }) })

/-- The row of block n is open in its bank: a hit, or the row open before closes and the check block of n's page is read (R402). `waits`: a
request of urgency 1 or 2 waits in the bank for another row (R410). -/
def State.openRow (s : State) (c n : Nat) (waits : Bool) : State :=
  let b := bankIx n
  let row := (dramPlace n).row
  if ((s.chan c).banks.getD b {}).openRow = some row then
    s.onChan c (fun x => { x with banks := modAt x.banks b (fun k => { k with hits := if waits then k.hits + 1 else 0 }) })
  else
    let s1 := s.closeRow c b
    let check := s1.pageCheck (n / 31)
    s1.onChan c (fun x => { x with banks := modAt x.banks b (fun k =>
      { k with openRow := some row, page := n / 31, check := check, hits := 0 }) })

/-- The check word that a read of block n is checked with: of the copy kept with its open row, else of its page's check block (R402). -/
def State.dramCheck (s : State) (n : Nat) : Nat :=
  let k := (s.chan (dramPlace n).chan).banks.getD (bankIx n) {}
  (if k.openRow.isSome && k.page == n / 31 then k.check else s.pageCheck (n / 31)).getD (n % 31) 0

/-! ### Sleep (R417 to R419) -/

/-- The status field of a rank. -/
def rankField (c r : Nat) : Fld :=
  if r = 0 then F.MEM_CHAN_STATUS_RANK0_STATE.nth c else F.MEM_CHAN_STATUS_RANK1_STATE.nth c

/-- RANK_STATE code (R420). -/
def rankCode : RankSt → Nat
  | .awake => 0 | .powerDown => 1 | .selfRefresh => 2

/-- Rank `r` of channel `c`. -/
def State.rank (s : State) (c r : Nat) : Rank := (s.chan c).ranks.getD r {}

/-- Change rank `r` of channel `c`. -/
def State.onRank (s : State) (c r : Nat) (f : Rank → Rank) : State :=
  s.onChan c (fun x => { x with ranks := modAt x.ranks r f })

/-- Add a rank's time asleep up to now to its counter (R426), in ticks. -/
def State.countSleep (s : State) (c r : Nat) : State :=
  let k := s.rank c r
  match k.st with
  | .awake => s
  | .powerDown => s.count Reg.MEM_SNAP_PD_US (s.now - k.sleepAt)
  | .selfRefresh => s.count Reg.MEM_SNAP_SR_US (s.now - k.sleepAt)

/-- R417: wake a rank. -/
def State.wakeRank (s : State) (c r : Nat) : State :=
  if (s.rank c r).st = .awake then s
  else ((s.countSleep c r).onRank c r (fun k => { k with st := .awake, idleSince := s.now })).put (rankField c r) 0

/-- Exit cost of a sleeping rank, in ns (R417). -/
def exitCost : RankSt → Nat
  | .awake => 0 | .powerDown => 20 | .selfRefresh => 400

/-- R417: wake every rank whose exit cost `ns` no longer covers. -/
def State.wakeBelow (s : State) (ns : Nat) : List (Nat × Nat) → State
  | [] => s
  | (c, r) :: l => (if ns < exitCost (s.rank c r).st then s.wakeRank c r else s).wakeBelow ns l

/-- Every (channel, rank) pair. -/
def allRanks : List (Nat × Nat) := (List.range 24).flatMap (fun c => [(c, 0), (c, 1)])

/-- R328: OUT states its tolerance, `ns` capped by TOLERANCE_NS. A rank that sleeps took the cap in force when it fell asleep, which covered
its exit cost, so that `ns` alone decides whether it wakes (R419). -/
def State.setTolerance (s : State) (ns : Nat) : State :=
  { s with mc := { s.mc with tol := min ns (s.get F.MEM_POLICY1_TOLERANCE_NS) } }.wakeBelow ns allRanks

/-- The MEM_POWER policy comes into force (R50, R417); a rank that sleeps meets it at its next wake (R419). -/
def State.setMemPolicy (s : State) (p : MemPower) : State :=
  let s1 := ((s.put F.MEM_POLICY0_MODE p.mode).put F.MEM_POLICY0_IDLE_US p.idleUs).put F.MEM_POLICY1_TOLERANCE_NS p.tolNs
  { s1 with mc := { s1.mc with tol := min s1.mc.tol p.tolNs } }

/-- Slices of rank `r` whose KEEP bit is 0 (R418). -/
def State.unkept (s : State) (r : Nat) : List Nat :=
  (upFrom (8 * r) 8).filter (fun k => !bitAt (s.get F.MEM_PASR_KEEP_KEEP) k)

/-- R418: the content of one slice of a channel is lost: its blocks read as uncorrectable, and it is logged with the slice's first block on the
channel (R421). -/
def State.loseSlice (s : State) (c k : Nat) : State :=
  let inSlice := fun n => (dramPlace n).chan == c && sliceOf n == k
  let lost := if s.mc.lost.contains (c, k) then s.mc.lost else (c, k) :: s.mc.lost
  let s1 := { s with poison := s.poison.filter (fun p => !inSlice p.1), mc := { s.mc with lost := lost } }
  let n := 97517568 * k + 31 * c
  s1.event 0x1013 0 n (memArg1 0 n)

/-- Lose every slice of a list. -/
def State.loseSlices (s : State) (c : Nat) : List Nat → State
  | [] => s
  | k :: ks => (s.loseSlice c k).loseSlices c ks

/-- Put a rank to sleep under the running MODE; for self-refresh its rows are closed. -/
def State.sleepRank (s : State) (c r : Nat) (st : RankSt) : State :=
  let s0 := if st = .selfRefresh then (upFrom (16 * r) 16).foldl (fun s b => s.closeRow c b) s else s
  let s1 := (s0.onRank c r (fun k => { k with st := st, sleepAt := s.now })).put (rankField c r) (rankCode st)
  if st = .selfRefresh then s1.loseSlices c (s1.unkept r) else s1

/-- No slot is held for a rank and no refresh is due (R417). -/
def State.rankIdle (s : State) (c r : Nat) : Bool :=
  (s.chanReqs c).all (fun q => (dramPlace q.block).rank != r || !q.slot) &&
  (slice ((s.chan c).banks.map (fun b => b2n b.refreshDue)) (16 * r) 16).all (· == 0)

/-- RANK_IDLE_TIMEOUT: an idle rank sleeps when the mode and the tolerance allow (R417). -/
def State.rankIdleTimeout (s : State) (c r : Nat) : State :=
  let k := s.rank c r
  let mode := s.get F.MEM_POLICY0_MODE
  if (s.chan c).st = .active ∧ k.st = .awake ∧ s.rankIdle c r = true ∧
     s.get F.MEM_POLICY0_IDLE_US * tickUs ≤ s.now - k.idleSince then
    if mode = 1 ∧ 400 ≤ s.mc.tol then s.sleepRank c r .selfRefresh
    else if mode = 2 ∧ 20 ≤ s.mc.tol then s.sleepRank c r .powerDown
    else s
  else s

/-! ### Slots (R407 to R409) -/

/-- R400: the response to a request beyond usable memory: logged once per epoch and port; a read answers poisoned, naming its request (R409). -/
def State.rangeRequest (s : State) (port n : Nat) (write : Bool) : State :=
  let s1 := s.rangeEvent port n
  let id := s.mc.nextId
  if write then s1
  else { (s1.count Reg.MEM_SNAP_ECC_UNCORR 1) with
         mc := { s1.mc with nextId := id + 1, respId := id, respPoison := true, resp := List.replicate 64 0 } }

/-- The three limits of R408. -/
def State.slotFree (s : State) (port c : Nat) : Bool :=
  decide (s.mc.reqs.countP MemReq.slot < 4096) && decide ((s.chanReqs c).countP MemReq.slot < 256) &&
  decide (s.mc.reqs.countP (fun r => r.slot && r.port == port) < s.get (F.MEM_PORT_MAX_SLOTS.nth port))

/-- R408: the request at a port's head takes a slot, or waits there, counted once; the port takes nothing after it meanwhile. -/
def State.memAccept (s : State) (port n : Nat) (write : Bool) : State :=
  if s.mc.held.any (fun q => q.1 == port && q.2 != (n, write)) then s
  else if memTop ≤ 64 * n then s.rangeRequest port n write
  else
    let d := dramPlace n
    if s.slotFree port d.chan then
      let r : MemReq := { id := s.mc.nextId, port := port, block := n, write := write, stamp := s.now }
      (({ s with mc := { s.mc with reqs := s.mc.reqs ++ [r], nextId := s.mc.nextId + 1, held := s.mc.held.filter (fun q => q.1 != port) } }
        ).wakeRank d.chan d.rank).showSlots d.chan
    else if s.mc.held.any (fun q => q.1 == port) then s
    else
      let s1 := s.count Reg.MEM_SNAP_SLOT_WAIT 1
      { s1 with mc := { s1.mc with held := (port, n, write) :: s1.mc.held } }

/-- A request leaves the controller: its age counts, and its rank may become idle (R417, R426). -/
def State.dropReq (s : State) (r : MemReq) : State :=
  let d := dramPlace r.block
  let s1 := { s with mc := { s.mc with reqs := s.mc.reqs.filter (fun q => q.id != r.id) } }
  ((s1.onRank d.chan d.rank (fun k => { k with idleSince := s.now })).showSlots d.chan)

/-- What the DRAM gives for a read of block n: data, check word, and the number of the block that they were written for. `err` says what the
read meets: 0 nothing, 1 one flipped bit, 3 another block's address, 2 or any other two flipped bits; which bits and which block are free
values. -/
def State.dramRead (s : State) (n err : Nat) : (List Nat × Nat × Nat) × State :=
  let q := s.free 47
  let r := q.2.free 48
  let d := s.blockData n
  let c := s.dramCheck n
  match err with
  | 0 => ((d, c, n), s)
  | 1 => (eccFlip d c n (q.1 % 523), q.2)
  | 3 =>
    let m := (n + 1 + q.1 % (memTop / 64 - 1)) % (memTop / 64)
    ((s.blockData m, s.dramCheck m, m), q.2)
  | _ =>
    let i := q.1 % 523
    let f := eccFlip d c n i
    (eccFlip f.1 f.2.1 n ((i + 1 + r.1 % 522) % 523), r.2)

/-- A block is read and checked (R401, R404, R405): its data, none where it reads as uncorrectable. A corrected block is as it was written, and
stays so; the data of an uncorrectable one is lost. -/
def State.blockRead (s : State) (port n err : Nat) : Option (List Nat) × State :=
  let q := s.dramRead n err
  match eccDecode q.1.1 q.1.2.1 q.1.2.2 n with
  | .good d => (some d, q.2)
  | .corrected d => (some d, q.2.count Reg.MEM_SNAP_ECC_CORR 1)
  | .bad => (none, (q.2.setPoison n true).eccRead port n)

/-- MEM_READ_RETURN (R404, R405). -/
def State.memReturn (s : State) (id err : Nat) : State :=
  match s.mc.reqs.find? (fun r => r.id == id && r.issued && !r.write) with
  | none => s
  | some r =>
    let q := s.blockRead r.port r.block err
    let s2 := ((q.2.count Reg.MEM_SNAP_READ 64).countMax Reg.MEM_SNAP_LAT_MAX ((s.now - r.stamp) / tickNs)).dropReq r
    { s2 with mc := { s2.mc with respId := id, respPoison := q.1.isNone, resp := q.1.getD (List.replicate 64 0) } }

/-- MEM_WRITE_ACK (R403, R409): the data is accepted, at `off` within the block, and visible to every later read; `bad`:
the merge read of a partial write is uncorrectable. A write that a reset of its unit has voided is done with, and writes nothing (R94). -/
def State.memAck (s : State) (id off : Nat) (data : List Nat) (bad : Bool) : State :=
  match s.mc.reqs.find? (fun r => r.id == id && r.write && !r.acked) with
  | none => s
  | some r =>
    if r.void then s.dropReq r
    else
      let bs := data.take (64 - off)
      let s0 := if bad && decide (bs.length < 64) then s.setPoison r.block true else s
      let s2 := (s0.store r.port (64 * r.block + off) bs).countMax Reg.MEM_SNAP_LAT_MAX ((s.now - r.stamp) / tickNs)
      let d := dramPlace r.block
      let s3 := { s2 with mc := { s2.mc with reqs := s2.mc.reqs.map (fun (q : MemReq) => if q.id = id then { q with acked := true } else q) } }
      (s3.onRank d.chan d.rank (fun k => { k with idleSince := s.now })).showSlots d.chan

/-! ### The next request (R410, R411) -/

/-- Urgency of a request (R410); a write never becomes URGENT (R411). -/
def State.urgency (s : State) (r : MemReq) : Nat :=
  let a := 2 * (s.now - r.stamp)
  let t := s.get (F.MEM_PORT_TARGET_NS.nth r.port) * tickNs
  if a < t then 0 else if a < 2 * t ∨ r.write then 1 else 2

/-- Requests a channel may pick: reads not yet issued, and acknowledged writes. -/
def MemReq.open_ (r : MemReq) : Bool := if r.write then r.acked else !r.issued

/-- The older of two requests, the lower port at equal ages. -/
def older (a b : MemReq) : MemReq := if a.stamp < b.stamp ∨ (a.stamp = b.stamp ∧ a.port ≤ b.port) then a else b

/-- The oldest of a list. -/
def oldest : List MemReq → Option MemReq
  | [] => none
  | r :: rs => match oldest rs with
    | none => some r
    | some b => some (older r b)

/-- Whether a request hits the open row of its bank. -/
def Chan.hit (x : Chan) (r : MemReq) : Bool := (x.banks.getD (bankIx r.block) {}).openRow == some (dramPlace r.block).row

/-- The best of one bank's queue: highest urgency, then open-row hit, then oldest (R410). -/
def State.bestOf (s : State) (x : Chan) (q : List MemReq) : Option MemReq :=
  let top := q.foldl (fun m r => max m (s.urgency r)) 0
  let l1 := q.filter (fun r => s.urgency r == top)
  let l2 := l1.filter x.hit
  if l2.isEmpty then oldest l1 else oldest l2

/-- After 16 open-row hits of a bank in a row with a request of urgency 1 or 2 waiting in it for another row, that request goes in place of a
further hit (R410); `q` holds every request of the channel that may be picked. -/
def State.starved (s : State) (x : Chan) (q : List MemReq) (r : MemReq) : MemReq :=
  let st := q.filter (fun y => bankIx y.block == bankIx r.block && !x.hit y && decide (1 ≤ s.urgency y))
  if x.hit r && decide (16 ≤ (x.banks.getD (bankIx r.block) {}).hits) then (oldest st).getD r else r

/-- The bank rotation of R410 over `k` banks from `b`. -/
def State.rotate (s : State) (x : Chan) (q : List MemReq) (busy : List Nat) (b : Nat) : Nat → Option MemReq
  | 0 => none
  | k + 1 =>
    let qb := q.filter (fun r => bankIx r.block == b % 32)
    if qb.isEmpty ∨ busy.contains (b % 32) then s.rotate x q busy (b + 1) k
    else s.bestOf x qb

/-- Pending writes of a channel. -/
def State.pendingWrites (s : State) (c : Nat) : Nat := (s.chanReqs c).countP (fun r => r.write && r.acked)

/-- The request a channel picks (R410, R411), and whether the rotation chose it; `busy`: banks that can take no command. While the channel
drains writes it returns to reads only for an URGENT one. -/
def State.pick (s : State) (c : Nat) (busy : List Nat) (drain : Bool) : Option (MemReq × Bool) :=
  let x := s.chan c
  let q := (s.chanReqs c).filter MemReq.open_
  let u := q.filter (fun r => s.urgency r == 2 && !busy.contains (bankIx r.block))
  match oldest u with
  | some r => some (s.starved x q r, false)
  | none =>
    let rd := q.filter (fun r => !r.write)
    let wr := q.filter (fun r => r.write)
    let first := if drain then wr else rd
    let second := if drain then [] else wr
    match s.rotate x first busy (x.last + 1) 32 with
    | some r => some (s.starved x q r, true)
    | none => (s.rotate x second busy (x.last + 1) 32).map (fun r => (s.starved x q r, true))

/-- The drain flag of R411 before a pick: set at 96 pending writes, cleared at 32, or sooner when a read is URGENT. -/
def State.drainNow (s : State) (c : Nat) : Bool :=
  let n := s.pendingWrites c
  if 96 ≤ n then true else if n ≤ 32 ∨ (s.chanReqs c).any (fun r => r.open_ && s.urgency r == 2) = true then false else (s.chan c).drain

/-- A refresh that an idle command slot may take (R414): one postponed of a bank, else one ahead of time, at most 8 a bank; the banks are
looked at in the order of the rotation (log entry 161). -/
def State.idleRefresh (s : State) (c : Nat) (busy : List Nat) : Option Nat :=
  let x := s.chan c
  let bs := (upFrom (x.last + 1) 32).map (· % 32)
  let free := bs.filter (fun b => !busy.contains b && (s.rank c (b / 16)).st == .awake)
  match free.find? (fun b => decide (0 < (x.banks.getD b {}).postponed)) with
  | some b => some b
  | none => free.find? (fun b => decide ((x.banks.getD b {}).early < 8))

/-- A bank is refreshed: its row closes; a refresh owed is issued, up to which its rank was not idle (R417), or one not yet due (R414). -/
def State.refreshBank (s : State) (c b : Nat) : State :=
  let late := decide (0 < ((s.chan c).banks.getD b {}).postponed)
  let s1 := (s.closeRow c b).onChan c (fun x => { x with banks := modAt x.banks b (fun k =>
    if 0 < k.postponed then { k with postponed := k.postponed - 1, refreshDue := decide (1 < k.postponed) } else { k with early := k.early + 1 }) })
  if late then s1.onRank c (b / 16) (fun k => { k with idleSince := s.now }) else s1

/-- MEM_PICK: issue the picked request; its bank's row is open afterwards (R402, R410). A slot with no request to pick takes a refresh
(R414). -/
def State.memPick (s : State) (c : Nat) (busy : List Nat) : State :=
  if (s.chan c).st ≠ .active then s
  else
    let drain := s.drainNow c
    let s0 := s.onChan c (fun x => { x with drain := drain })
    match s0.pick c busy drain with
    | none => match s0.idleRefresh c busy with
      | some b => s0.refreshBank c b
      | none => s0
    | some (r, rot) =>
      let x := s0.chan c
      let waits := (s0.chanReqs c).any (fun q => q.open_ && bankIx q.block == bankIx r.block && !x.hit q && decide (1 ≤ s0.urgency q))
      let s1 := ((s0.wakeRank c (dramPlace r.block).rank).openRow c r.block waits).onChan c (fun x => { x with last := if rot then bankIx r.block else x.last })
      let s2 := if s.urgency r = 2 then s1.count Reg.MEM_SNAP_URGENT 1 else s1
      if r.write then
        let s3 := s2.mergeWord r.block
        { s3 with mc := { s3.mc with reqs := s3.mc.reqs.filter (fun q => q.id != r.id) } }
      else { s2 with mc := { s2.mc with reqs := s2.mc.reqs.map (fun q => if q.id = r.id then { q with issued := true } else q) } }

/-! ### Refresh and temperature (R413, R414) -/

/-- MEM_REFRESH_DUE: taken by one issued ahead of time, issued, postponed while an urgent request waits for the bank, forced after 8
(R414). A due refresh
wakes a rank in power-down, and a rank with one is not idle; a rank in self-refresh refreshes itself (R417). -/
def State.refreshDue (s : State) (c b : Nat) : State :=
  if (s.rank c (b / 16)).st = .selfRefresh then s
  else
    let s0 := (s.wakeRank c (b / 16)).onRank c (b / 16) (fun k => { k with idleSince := s.now })
    let urgent := (s0.chanReqs c).any (fun r => r.open_ && bankIx r.block == b && s0.urgency r == 2)
    let k := (s0.chan c).banks.getD b {}
    if 0 < k.early then s0.onChan c (fun x => { x with banks := modAt x.banks b (fun k => { k with early := k.early - 1 }) })
    else if urgent ∧ k.postponed < 8 then
      (s0.onChan c (fun x => { x with banks := modAt x.banks b (fun k => { k with postponed := k.postponed + 1, refreshDue := true }) })
        ).count Reg.MEM_SNAP_REF_POSTPONED 1
    else (s0.closeRow c b).onChan c (fun x => { x with banks := modAt x.banks b (fun k => { k with
      postponed := if urgent then k.postponed else 0, refreshDue := urgent, hits := 0 }) })

/-- R413 for one channel: MR4_RATE, HOT and its event, once per epoch and channel. -/
def State.mr4 (s : State) (c code : Nat) (hot : Bool) : State :=
  let s1 := (s.put (F.MEM_CHAN_STATUS_MR4_RATE.nth c) code).put (F.MEM_CHAN_STATUS_HOT.nth c) (b2n hot)
  if hot then s1.eventOnce 0x1022 c 0 c 0 else s1

/-- MR4_POLL over the channels: each code with whether it is above the operating limit. -/
def State.mr4Poll (s : State) (c : Nat) : List (Nat × Bool) → State
  | [] => s
  | (code, hot) :: r => if c < 24 then (s.mr4 c code hot).mr4Poll (c + 1) r else s

/-! ### Training (R415, R416, R420) -/

/-- R415: a training attempt of a channel ends; `step` is the step that failed. -/
def State.trainingDone (s : State) (c : Nat) (ok : Bool) (step : Nat) : State :=
  if 24 ≤ c ∨ (s.chan c).st ≠ .training then s
  else if ok then
    let s1 := (s.onChan c (fun x => { x with fails := 0, lostInService := false, driftAt := none })).setChan c .active
    if s1.mc.chans.all (fun x => x.st == .active) then (s1.put F.MEM_STATUS_TRAINED 1).put F.SYS_STATUS_MEM_TRAINED 1 else s1
  else
    let n := (s.chan c).fails + 1
    let s1 := s.onChan c (fun x => { x with fails := n })
    if n < 3 then s1
    else (s1.setChan c .failed).event 0x1020 0 c step

/-- OSCILLATOR_POLL (R416): channels, from `c` on, whose delay has drifted by more than 1/16 UI. -/
def State.oscPoll (s : State) (c : Nat) : List Bool → State
  | [] => s
  | d :: r =>
    (if d then s.onChan c (fun x => { x with driftAt := match x.driftAt with | some t => some t | none => some s.now }) else s
      ).oscPoll (c + 1) r

/-- MEM_RETRAIN_START (R416): with a tolerance of 2,000 ns, or 1 s after the drift was found. -/
def State.retrainStart (s : State) (c : Nat) : State :=
  match (s.chan c).st, (s.chan c).driftAt with
  | .active, some d =>
    if 2000 ≤ s.mc.tol ∨ tickS ≤ s.now - d then (s.onChan c (fun x => { x with pauseAt := s.now })).setChan c .retrain else s
  | _, _ => s

/-- MEM_RETRAIN_DONE (R416, R420): back to ACTIVE, or the channel is lost as a fatal error (R589). -/
def State.retrainDone (s : State) (c : Nat) (ok : Bool) : State :=
  if (s.chan c).st ≠ .retrain then s
  else
    let s1 := s.count Reg.MEM_SNAP_RETRAIN_NS (s.now - (s.chan c).pauseAt)
    if ok then (s1.onChan c (fun x => { x with driftAt := none })).setChan c .active
    else (((s1.onChan c (fun x => { x with lostInService := true, fails := 0, driftAt := none })).setChan c .failed).event 0x1021 0 c 0).raiseFatal 3 c

/-! ### Patrol scrub (R406) -/

/-- Ticks of a scrub period (R406). -/
def State.scrubPeriod (s : State) : Nat := s.get F.MEM_SCRUB_HOURS * 3600 * tickS

/-- The scrub's read of block n may go (R406): its share of the period has come, and its channel can serve a request of urgency 0, with none of
a higher urgency in the bank (R410). -/
def State.scrubDueNow (s : State) (n : Nat) : Bool :=
  let c := (dramPlace n).chan
  s.get F.MEM_SCRUB_HOURS != 0 && decide (s.mc.scrubAt ≤ s.now) && decide (n * s.scrubPeriod ≤ (s.now - s.mc.scrubAt) * (memTop / 64)) &&
    (s.chan c).st == .active && (s.chanReqs c).all (fun r => !r.open_ || bankIx r.block != bankIx n || s.urgency r == 0)

/-- PATROL_SCRUB_READ: the next usable block, under R404 and R405 with port 0xFF; a pass takes a period, and the next one begins a period
after it (R406). `err` as for a read. -/
def State.scrubRead (s : State) (err : Nat) : State :=
  let n := s.mc.scrub
  if s.scrubDueNow n = false then s
  else
    let d := dramPlace n
    let s1 := (((s.wakeRank d.chan d.rank).openRow d.chan n false).blockRead 0xFF n err).2.count Reg.MEM_SNAP_READ 64
    let next := s.mc.scrubAt + s.scrubPeriod
    let last := decide (memTop / 64 ≤ n + 1)
    { s1 with mc := { s1.mc with scrub := if last then 0 else n + 1, scrubAt := if last then max s.now next else s.mc.scrubAt } }

/-! ### Meanings -/

/-- MEM_REQUEST_ACCEPT (R408). -/
def execMemRequestAccept (t port n : Nat) (write : Bool) (s : State) : Out :=
  .next (s.whenOn t (fun s => s.memAccept (port % 16) n write))

/-- MEM_PICK (R410). -/
def execMemPick (t c : Nat) (busy : List Nat) (s : State) : Out := .next (s.whenOn t (fun s => s.memPick c busy))

/-- MEM_READ_RETURN (R405). -/
def execMemReadReturn (t id err : Nat) (s : State) : Out := .next (s.whenOn t (fun s => s.memReturn id err))

/-- MEM_WRITE_ACK (R409). -/
def execMemWriteAck (t id off : Nat) (data : List Nat) (bad : Bool) (s : State) : Out :=
  .next (s.whenOn t (fun s => s.memAck id (off % 64) data bad))

/-- MEM_REFRESH_DUE (R414). -/
def execMemRefreshDue (t c b : Nat) (s : State) : Out := .next (s.whenOn t (fun s => s.refreshDue c (b % 32)))

/-- MR4_POLL (R413). -/
def execMr4Poll (t : Nat) (codes : List (Nat × Bool)) (s : State) : Out := .next (s.whenOn t (fun s => s.mr4Poll 0 codes))

/-- OSCILLATOR_POLL (R416). -/
def execOscillatorPoll (t : Nat) (drift : List Bool) (s : State) : Out := .next (s.whenOn t (fun s => s.oscPoll 0 drift))

/-- MEM_RETRAIN_START (R416). -/
def execMemRetrainStart (t c : Nat) (s : State) : Out := .next (s.whenOn t (fun s => s.retrainStart c))

/-- MEM_RETRAIN_DONE (R420). -/
def execMemRetrainDone (t c : Nat) (ok : Bool) (s : State) : Out := .next (s.whenOn t (fun s => s.retrainDone c ok))

/-- CHANNEL_TRAINING_DONE (R415). -/
def execChannelTrainingDone (t c : Nat) (ok : Bool) (step : Nat) (s : State) : Out :=
  .next (s.whenOn t (fun s => s.trainingDone c ok step))

/-- RANK_IDLE_TIMEOUT (R417). -/
def execRankIdleTimeout (t c r : Nat) (s : State) : Out := .next (s.whenOn t (fun s => s.rankIdleTimeout c r))

/-- PATROL_SCRUB_READ (R406). -/
def execPatrolScrubRead (t err : Nat) (s : State) : Out := .next (s.whenOn t (fun s => s.scrubRead err))

end Sys2Proof.Machine
end

