-- ==== Sys2Proof/Machine/Kss.lean ====
section
/-!
DEFINITION. The Kolaskuk scene stream format (R104 to R129): access units, table sets, strata, prefix codes, prediction,
and the faults a decoder finds. All functions here are on byte lists; the units read memory.
-/

namespace Sys2Proof.Machine

/-! ### Access units (R106 to R111) -/

/-- A plane descriptor (R108). -/
structure KssPlane where
  depth : Int
  w : Nat
  h : Nat
  x0 : Nat
  y0 : Nat
deriving DecidableEq, Repr

/-- The header, planes and index of an access unit (R106 to R109). -/
structure KssAu where
  refine : Bool
  rows : Nat
  w : Nat
  h : Nat
  stream : Nat
  colour : Nat
  maxErr : Nat
  ptsS : Nat
  ptsNs : Nat
  seq : Nat
  tableset : Nat
  worst : List Nat
  length : Nat
  planes : List KssPlane
  index : List (Nat × Nat)
deriving DecidableEq, Repr

/-- ⌈LAYER_H / STRATUM_ROWS⌉ (R109). -/
def strataOf (h rows : Nat) : Nat := ceilDiv h rows

/-- Bytes of an access unit up to the end of its DESC_CRC, from its 64-byte header (R106, R109). -/
def auDescLen (h : List Nat) : Nat := 0x40 + 16 * h.getD 6 0 + 8 * strataOf (fieldLE h 10 2) (h.getD 7 0) + 4

/-- Checks 1 and 2 of R111 on the 64-byte header: 0, or the code of the first to fail. AU_LENGTH is held only to what R106 and R109
state of it: a multiple of 4 that holds every non-empty stratum (DESIGN CHOICE, log entry 140). -/
def auHeaderCode (h : List Nat) : Nat :=
  if crc32c (h.take 0x3C) ≠ fieldLE h 0x3C 4 then 0x0541
  else
    let pc := h.getD 6 0
    let rows := h.getD 7 0
    if slice h 0 4 == [0x4B, 0x53, 0x53, 0x41] && h.getD 4 0 == 1 && decide (h.getD 5 0 < 2) && decide (1 ≤ pc) &&
       decide (pc ≤ 64) && (rows == 8 || rows == 16) && decide (1 ≤ fieldLE h 8 2) && decide (fieldLE h 8 2 ≤ 8192) &&
       decide (1 ≤ fieldLE h 10 2) && decide (fieldLE h 10 2 ≤ 8192) && decide (h.getD 14 0 ≤ 3) && decide (h.getD 15 0 ≤ 15) &&
       decide (fieldLE h 0x10 4 ≤ 999999999) && fieldLE h 0x30 4 % 4 == 0 && fieldLE h 0x34 4 == 0x40 + 16 * pc &&
       fieldLE h 0x38 4 == 0 then 0
    else 0x0540

/-- A plane descriptor's fields (R108). -/
def parsePlane (b : List Nat) : KssPlane :=
  ⟨signed 32 (fieldLE b 0 4), fieldLE b 4 2, fieldLE b 6 2, fieldLE b 8 2, fieldLE b 10 2⟩

/-- An access unit's header, planes and index from its leading bytes. -/
def parseAu (b : List Nat) : KssAu :=
  let pc := b.getD 6 0
  let n := strataOf (fieldLE b 10 2) (b.getD 7 0)
  { refine := bitAt (b.getD 5 0) 0, rows := b.getD 7 0, w := fieldLE b 8 2, h := fieldLE b 10 2, stream := fieldLE b 12 2,
    colour := b.getD 14 0, maxErr := b.getD 15 0, ptsNs := fieldLE b 0x10 4, ptsS := fieldLE b 0x14 4, seq := fieldLE b 0x18 4,
    tableset := fieldLE b 0x1C 4, worst := [fieldLE b 0x20 4, fieldLE b 0x24 4, fieldLE b 0x28 4, fieldLE b 0x2C 4],
    length := fieldLE b 0x30 4, planes := (List.range pc).map (fun i => parsePlane (slice b (0x40 + 16 * i) 16)),
    index := (List.range n).map (fun i => (fieldLE b (0x40 + 16 * pc + 8 * i) 4, fieldLE b (0x44 + 16 * pc + 8 * i) 4)) }

/-- Depth never increases down the list (R108). -/
def depthsFall : List KssPlane → Bool
  | a :: b :: r => decide (b.depth ≤ a.depth) && depthsFall (b :: r)
  | _ => true

/-- Plane p intersects stratum s (R113). -/
def KssPlane.meets (p : KssPlane) (rows s : Nat) : Bool := decide (p.y0 ≤ s * rows) && decide (s * rows < p.y0 + p.h)

/-- No two non-empty strata overlap (R109). -/
def strataApart : List (Nat × Nat) → Bool
  | [] => true
  | a :: r => r.all (fun b => a.2 == 0 || b.2 == 0 || decide (a.1 + a.2 ≤ b.1) || decide (b.1 + b.2 ≤ a.1)) && strataApart r

/-- Check 4 of R111: planes and index. -/
def auPlanesOk (b : List Nat) (au : KssAu) : Bool :=
  let pc := au.planes.length
  let first := auDescLen b
  (List.range pc).all (fun i => fieldLE b (0x4C + 16 * i) 4 == 0) &&
  au.planes.all (fun p => decide (1 ≤ p.w) && decide (p.w ≤ 8192) && decide (1 ≤ p.h) && decide (p.h ≤ 8192) && p.x0 % 64 == 0 &&
    p.y0 % au.rows == 0 && decide (p.x0 + p.w ≤ au.w) && decide (p.y0 + p.h ≤ au.h)) && depthsFall au.planes &&
  (au.index.zipIdx).all (fun q => q.1.1 % 4 == 0 && (q.1.2 == 0 ||
    (decide (first ≤ q.1.1) && decide (q.1.1 + q.1.2 ≤ au.length) &&
     au.planes.any (fun p => p.meets au.rows q.2)))) && strataApart au.index

/-- Checks 3 and 4 of R111 on the bytes up to the end of DESC_CRC. -/
def auDescCode (b : List Nat) : Nat :=
  let n := auDescLen b
  if crc32c (slice b 0x40 (n - 0x44)) ≠ fieldLE b (n - 4) 4 then 0x0541
  else if auPlanesOk b (parseAu b) then 0 else 0x0540

/-! ### Prefix codes (R117 to R119) -/

/-- Kraft sum of 24 code lengths in units of 2^-15. -/
def kraft (ls : List Nat) : Nat := ls.foldl (fun a l => if l = 0 then a else a + 2 ^ (15 - l)) 0

/-- R117: complete, or a single symbol. -/
def codeValid (ls : List Nat) : Bool := kraft ls == 2 ^ 15 || ls.countP (· != 0) == 1

/-- The first code of each length 0 to 15 (R117). -/
def nextCodes (ls : List Nat) : List Nat :=
  (List.range 15).foldl (fun acc i => acc ++ [(acc.getD i 0 + (if i = 0 then 0 else ls.count i)) * 2]) [0]

/-- The bits of a number, most significant first. -/
def msbBits (n v : Nat) : List Bool := (List.range n).map (fun i => bitAt v (n - 1 - i))

/-- The canonical code: (bits, symbol) for each symbol that occurs (R117). -/
def canonical (ls : List Nat) : List (List Bool × Nat) :=
  if ls.countP (· != 0) = 1 then (ls.zipIdx.filter (fun q => q.1 != 0)).map (fun q => ([false], q.2))
  else
    let nc := nextCodes ls
    (ls.zipIdx.filter (fun q => q.1 != 0)).map (fun q =>
      (msbBits q.1 (nc.getD q.1 0 + (ls.take q.2).count q.1), q.2))

/-- Read one symbol: none when the bits run out or no code matches. -/
def readSym (code : List (List Bool × Nat)) (bits : List Bool) : Option (Nat × List Bool) :=
  (code.find? (fun c => c.1.isPrefixOf bits)).map (fun c => (c.2, bits.drop c.1.length))

/-- Read `n` bits, most significant first; none when they run out. -/
def readBits (n : Nat) (bits : List Bool) : Option (Nat × List Bool) :=
  if bits.length < n then none else some ((bits.take n).foldl (fun a b => 2 * a + b2n b) 0, bits.drop n)

/-- The bits of bytes, bit 7 of each first (R105). -/
def payloadBits (bs : List Nat) : List Bool := bs.flatMap (byteBits false)

/-- Faults within a coded payload, with the reason values of R129. -/
abbrev Reason := Nat

/-- The code-length list of R118: the lengths and the bits left. A list that overshoots 24 or is no valid code has reason
LENGTH_LIST, one that needs bits beyond the payload BITS (R129). -/
def lengthList : Nat → List Nat → List Bool → Except Reason (List Nat × List Bool)
  | 0, _, _ => .error 4
  | k + 1, acc, bits =>
    match readBits 7 bits with
    | none => .error 8
    | some (x, rest) =>
      let acc1 := acc ++ List.replicate (x % 8 + 1) (x / 8)
      if acc1.length < 24 then lengthList k acc1 rest
      else if acc1.length = 24 ∧ codeValid acc1 = true then .ok (acc1, rest) else .error 4

/-- Decode `n` values of one component (R119, R123); `maxCat` is the largest category valid. -/
def decodeComp (code : List (List Bool × Nat)) (maxCat : Nat) : Nat → Nat → List Bool → Except Reason (List Int × List Bool)
  | 0, n, bits => if n = 0 then .ok ([], bits) else .error 8
  | k + 1, n, bits =>
    if n = 0 then .ok ([], bits)
    else
      match readSym code bits with
      | none => .error 8
      | some (sym, b1) =>
        if 16 ≤ sym then
          match readBits (sym - 15) b1 with
          | none => .error 8
          | some (x, b2) =>
            let run := 2 ^ (sym - 15) + x
            if n < run then .error 7
            else match decodeComp code maxCat k (n - run) b2 with
              | .error e => .error e
              | .ok (vs, r) => .ok (List.replicate run 0 ++ vs, r)
        else if sym = 0 then
          match decodeComp code maxCat k (n - 1) b1 with
          | .error e => .error e
          | .ok (vs, r) => .ok (0 :: vs, r)
        else if maxCat < sym then .error 6
        else match readBits sym b1 with
          | none => .error 8
          | some (x, b2) =>
            -- one sign bit, then the sym − 1 bits below the leading 1
            let mag : Int := ((2 ^ (sym - 1) + x % 2 ^ (sym - 1) : Nat) : Int)
            let q : Int := if x / 2 ^ (sym - 1) = 1 then -mag else mag
            match decodeComp code maxCat k (n - 1) b2 with
            | .error e => .error e
            | .ok (vs, r) => .ok (q :: vs, r)

/-- Decode `c` components of `n` values each. -/
def decodeComps (code : List (List Bool × Nat)) (maxCat n : Nat) : Nat → List Bool → Except Reason (List (List Int) × List Bool)
  | 0, bits => .ok ([], bits)
  | c + 1, bits =>
    match decodeComp code maxCat n n bits with
    | .error e => .error e
    | .ok (vs, b1) =>
      match decodeComps code maxCat n c b1 with
      | .error e => .error e
      | .ok (r, b2) => .ok (vs :: r, b2)

/-- The end rule of R123. -/
def endOk (bits : List Bool) : Bool := decide (bits.length < 8) && bits.all (fun b => !b)

/-- A coded payload whose code is known, with the end rule (R123). -/
def decodeCoded (ls : List Nat) (maxCat n c : Nat) (bits : List Bool) : Except Reason (List (List Int)) :=
  match decodeComps (canonical ls) maxCat n c bits with
  | .error e => .error e
  | .ok (vs, r) => if endOk r then .ok vs else .error 8

/-! ### Table sets (R110) -/

/-- Table t of a record: its 24 lengths. -/
def tableLens (b : List Nat) (t : Nat) : List Nat :=
  (slice b (0x10 + 12 * t) 12).flatMap (fun x => [x % 16, x / 16])

/-- R110 on a record's bytes. -/
def tablesetOk (b : List Nat) : Bool :=
  let n := b.getD 5 0
  slice b 0 4 == [0x4B, 0x53, 0x53, 0x54] && b.getD 4 0 == 1 && decide (1 ≤ n) && decide (n ≤ 16) && fieldLE b 6 2 == 0 &&
  decide (1 ≤ fieldLE b 8 4) && fieldLE b 12 4 == 20 + 12 * n && fieldLE b (16 + 12 * n) 4 == crc32c (b.take (16 + 12 * n)) &&
  (List.range n).all (fun t => codeValid (tableLens b t))

/-! ### Prediction (R120, R121) -/

/-- The predictor of R120 at index `i` of a plane of width `w`, from the values before it, latest first. -/
def predict (w : Nat) (first : Int) (i : Nat) (acc : List Int) : Int :=
  let a := acc.getD 0 0
  let b := acc.getD (w - 1) 0
  let c := acc.getD w 0
  let x := i % w
  let y := i / w
  if x = 0 ∧ y = 0 then first
  else if y = 0 then a
  else if x = 0 then b
  else if max a b ≤ c then min a b
  else if c ≤ min a b then max a b
  else a + b - c

/-- Reconstruct a component: `step` 2n + 1 and the clamp of the base tier, or 1 and none (R120, R121). -/
def recon (w : Nat) (base : Bool) (step : Int) : Nat → List Int → List Int → List Int
  | _, acc, [] => acc.reverse
  | i, acc, q :: qs =>
    let p := predict w (if base then 512 else 0) i acc
    let v := p + q * step
    recon w base step (i + 1) ((if base then max 0 (min 1023 v) else v) :: acc) qs

/-- The stored samples of a STORED payload: 4 components of n 10-bit values (R116). -/
def storedVals (n : Nat) (bs : List Nat) : List (List Int) :=
  let bits := payloadBits bs
  (List.range 4).map (fun c => (List.range n).map (fun i =>
    (((bits.drop (10 * (c * n + i))).take 10).foldl (fun a b => 2 * a + (b2n b : Int)) 0)))

/-! ### Strata (R112 to R128) -/

/-- One tile of a stratum: its plane, tile column, size, its full or base samples as four lists of codes. -/
structure KssTile where
  plane : Nat
  tile : Nat
  w : Nat
  h : Nat
  /-- Shown from its base tier alone: the samples are ⌈w / 2⌉ × ⌈h / 2⌉. -/
  half : Bool
  vals : List (List Int)
deriving DecidableEq, Repr

/-- A fault: code, reason, plane (0x3F none), tile (0x7F none). -/
structure KssFault where
  code : Nat
  reason : Nat
  plane : Nat
  tile : Nat
deriving DecidableEq, Repr

/-- What decoding a stratum gives (R125, R126). -/
structure KssOut where
  baseFault : Bool
  event : Option KssFault
  tiles : List KssTile
  mismatches : Nat
  tileFaults : Nat
  clamps : Nat
deriving DecidableEq, Repr

/-- A base fault (R125). -/
def KssOut.fault (f : KssFault) : KssOut :=
  ⟨true, some f, [], if f.code = 0x0550 ∨ f.code = 0x0551 ∨ f.code = 0x0553 then 1 else 0, 0, 0⟩

/-- An entry of the tile table with the place of its tile. -/
structure TileEnt where
  plane : Nat
  tile : Nat
  w : Nat
  h : Nat
  baseOff : Nat
  refOff : Nat
deriving DecidableEq, Repr

/-- Planes of a stratum with their tile columns and heights (R113). -/
def stratumPlanes (au : KssAu) (s : Nat) : List (Nat × KssPlane) :=
  (au.planes.zipIdx.filter (fun q => q.1.meets au.rows s)).map (fun q => (q.2, q.1))

/-- Rows of a plane in a stratum (R113). -/
def tileH (au : KssAu) (p : KssPlane) (s : Nat) : Nat := min au.rows (p.y0 + p.h - s * au.rows)

/-- Tile columns of a plane (R113). -/
def tileCols (p : KssPlane) : Nat := ceilDiv p.w 64

/-- Bytes of the occupancy maps with their padding (R112, R113). -/
def mapBytes (ps : List (Nat × KssPlane)) : Nat := alignUp ((ps.map (fun q => ceilDiv (tileCols q.2) 8)).foldl (· + ·) 0) 4

/-- The occupied tiles of a stratum in the order of its table, from the bitmaps at offset `o` (R113, R114). -/
def occupied (au : KssAu) (s : Nat) (b : List Nat) : Nat → List (Nat × KssPlane) → List (Nat × Nat × Nat × Nat)
  | _, [] => []
  | o, (ix, p) :: r =>
    ((List.range (tileCols p)).filter (fun t => bitAt (b.getD (o + t / 8) 0) (t % 8))).map (fun t =>
      (ix, t, min 64 (p.w - 64 * t), tileH au p s)) ++ occupied au s b (o + ceilDiv (tileCols p) 8) r

/-- Bits of the bitmaps at t ≥ TP are 0 (R113). -/
def mapTailsOk (b : List Nat) : Nat → List (Nat × KssPlane) → Bool
  | _, [] => true
  | o, (_, p) :: r =>
    let n := ceilDiv (tileCols p) 8
    (List.range (8 * n)).all (fun t => decide (t < tileCols p) || !bitAt (b.getD (o + t / 8) 0) (t % 8)) && mapTailsOk b (o + n) r

/-- Offsets of a tier: the first 0, each later one at least 8 above the one before, each inside its section, which is read as its
block's whole header inside (DESIGN CHOICE, log entry 141). A section without blocks is empty (R112). -/
def offsetsOk (len : Nat) : List Nat → Bool
  | [] => len == 0
  | os => os.head? == some 0 && (os.zip (os.drop 1)).all (fun q => decide (q.1 + 8 ≤ q.2)) && os.all (fun o => decide (o + 8 ≤ len))

/-- The map-level view of a stratum: its entries, and the lengths of its sections. -/
structure MapView where
  ents : List TileEnt
  m : Nat
  t : Nat
  baseLen : Nat
  refLen : Nat
deriving DecidableEq, Repr

/-- A map-level malformation (R125, R129). -/
def mapFault : KssFault := ⟨0x0554, 1, 0x3F, 0x7F⟩

/-- Bytes of a stratum up to the end of MAP_CRC, from its first 16 bytes (R112). -/
def mapEnd (au : KssAu) (s : Nat) (b : List Nat) : Nat := 0x14 + mapBytes (stratumPlanes au s) + 8 * fieldLE b 12 4

/-- What the map part of a stratum of `len` bytes shows, from its bytes up to MAP_CRC: no check value is read where a part of R112
would lie beyond the stratum (R125). -/
def mapView (au : KssAu) (s len : Nat) (b : List Nat) : Except KssFault MapView :=
  let ps := stratumPlanes au s
  let m := mapBytes ps
  let t := fieldLE b 12 4
  let bl := fieldLE b 4 4
  let rl := fieldLE b 8 4
  if len < 16 ∨ len < 0x10 + m + 8 * t + 4 + bl + 4 + (if rl = 0 then 0 else rl + 4) then .error mapFault
  else if crc32c (b.take (0x10 + m + 8 * t)) ≠ fieldLE b (0x10 + m + 8 * t) 4 then .error ⟨0x0550, 0, 0x3F, 0x7F⟩
  else
    .ok ⟨(occupied au s b 0x10 ps).zipIdx.map (fun q => (⟨q.1.1, q.1.2.1, q.1.2.2.1, q.1.2.2.2, fieldLE b (0x10 + m + 8 * q.2) 4,
      fieldLE b (0x14 + m + 8 * q.2) 4⟩ : TileEnt)), m, t, bl, rl⟩

/-- Where BASE_CRC ends. -/
def MapView.baseEnd (v : MapView) : Nat := 0x10 + v.m + 8 * v.t + 4 + v.baseLen + 4

/-- The map-level rules of R112 to R114 on a map whose check passed (R125), for a stratum of `len` bytes. -/
def mapOk (au : KssAu) (s len : Nat) (b : List Nat) (v : MapView) : Bool :=
  let ps := stratumPlanes au s
  let maps := (ps.map (fun q => ceilDiv (tileCols q.2) 8)).foldl (· + ·) 0
  fieldLE b 0 2 == s && b.getD 2 0 == ps.length && b.getD 3 0 == 0 && v.baseLen % 4 == 0 && v.refLen % 4 == 0 && v.t == v.ents.length &&
  mapTailsOk b 0x10 ps && (slice b (0x10 + maps) (v.m - maps)).all (· == 0) && offsetsOk v.baseLen (v.ents.map (·.baseOff)) &&
  (if au.refine then offsetsOk v.refLen (v.ents.map (·.refOff)) else v.refLen == 0 && v.ents.all (fun e => e.refOff == 0)) &&
  v.baseEnd + (if v.refLen = 0 then 0 else v.refLen + 4) == len

/-- R112 to R114 with R125: the map-level fields of a stratum, or its base fault. -/
def readMap (au : KssAu) (s len : Nat) (b : List Nat) : Except KssFault MapView :=
  match mapView au s len b with
  | .error f => .error f
  | .ok v => if mapOk au s len b v then .ok v else .error mapFault

/-- The entries of a tile table, each with the one after it. -/
def withNext (es : List TileEnt) : List (TileEnt × Option TileEnt) := es.zip ((es.drop 1).map some ++ [none])

/-- One block of a section (R115, R116, R123, R125): `nxt` is where the next block starts, the section's length for the
last. Answers the component values, and whether they are STORED. Where one block breaks several rules its reason is the first of:
its end, header field, table, size, then payload. A non-zero TABLE in a STORED or DYNAMIC block has reason HEADER_FIELD, a STORED
payload shorter than its samples BITS, and non-zero bytes after the last block of a section MAP (DESIGN CHOICE, log entry 142). -/
def readBlock (au : KssAu) (tables : List (List Nat)) (sec : List Nat) (off nxt : Nat) (last base : Bool) (e : TileEnt) :
    Except KssFault (Bool × List (List Int)) :=
  let h := slice sec off 8
  let mk (c r : Nat) : KssFault := ⟨c, r, e.plane, e.tile⟩
  let w := if base then (e.w + 1) / 2 else e.w
  let hh := if base then (e.h + 1) / 2 else e.h
  let n := w * hh
  let b0 := h.getD 0 0
  let mode := b0 / 64
  let tb := b0 % 16
  let plen := fieldLE h 4 2
  if crc16 (h.take 6) ≠ fieldLE h 6 2 then .error (mk 0x0553 0)
  else if (if last then decide (nxt < off + 8 + plen) || decide (off + 8 + plen + 3 < nxt) ||
      (slice sec (off + 8 + plen) (nxt - (off + 8 + plen))).any (· != 0) else off + 8 + plen != nxt) then .error (mk 0x0554 1)
  else if mode = 3 ∨ bitAt b0 4 = true ∨ bitAt b0 5 = base ∨ h.getD 1 0 ≠ 0 ∨ fieldLE h 2 2 ≠ e.tile * 64 + e.plane ∨
      (mode ≠ 1 ∧ tb ≠ 0) then .error (mk 0x0554 2)
  else if mode = 1 ∧ (tables.length ≤ tb ∨ au.tableset = 0) then .error (mk 0x0554 3)
  else if ceilDiv (40 * n) 8 < plen then .error (mk 0x0554 5)
  else
    let pay := slice sec (off + 8) plen
    if mode = 0 then
      let bits := payloadBits pay
      if plen < ceilDiv (40 * n) 8 ∨ (bits.drop (40 * n)).any id = true then .error (mk 0x0554 8)
      else .ok (true, storedVals n pay)
    else
      let lens : Except Reason (List Nat × List Bool) :=
        if mode = 1 then .ok (tables.getD tb [], payloadBits pay) else lengthList 24 [] (payloadBits pay)
      match lens with
      | .error r => .error (mk 0x0554 r)
      | .ok (ls, bits) =>
        match decodeCoded ls 11 n 4 bits with
        | .error r => .error (mk 0x0554 r)
        | .ok qs =>
          .ok (false, qs.map (recon w base (if base then 2 * (au.maxErr : Int) + 1 else 1) 0 []))

/-- The base samples of each tile, or the base fault of the first bad block (R125). -/
def readBases (au : KssAu) (tables : List (List Nat)) (sec : List Nat) :
    List (TileEnt × Option TileEnt) → Except KssFault (List (List (List Int)))
  | [] => .ok []
  | e :: r =>
    match readBlock au tables sec e.1.baseOff ((e.2.map (·.baseOff)).getD sec.length) e.2.isNone true e.1 with
    | .error f => .error f
    | .ok (_, v) =>
      match readBases au tables sec r with
      | .error f => .error f
      | .ok vs => .ok (v :: vs)

/-- Base value at full resolution: U(x, y) of R121. -/
def baseAt (w : Nat) (v : List Int) (i : Nat) : Int := v.getD ((i / w / 2) * ((w + 1) / 2) + (i % w) / 2) 0

/-- R121: the full-resolution samples of a tile, none where one falls outside 0 to 1,023. -/
def refined (e : TileEnt) (base : List (List Int)) (stored : Bool) (r : List (List Int)) : Option (List (List Int)) :=
  let full := (List.range 4).map (fun c => ((r.getD c []).zipIdx).map (fun q =>
    if stored then q.1 else baseAt e.w (base.getD c []) q.2 + q.1))
  if full.all (fun c => c.all (fun x => decide (0 ≤ x) && decide (x ≤ 1023))) then some full else none

/-- R122: colours held to alpha; the samples and how many changed. -/
def premulClamp (v : List (List Int)) : List (List Int) × Nat :=
  let a := v.getD 3 []
  let out := (v.take 3).map (fun c => (c.zip a).map (fun q => min q.1 q.2)) ++ [a]
  let changed := (List.range a.length).countP (fun i => (v.take 3).any (fun c => decide (a.getD i 0 < c.getD i 0)))
  (out, changed)

/-- The tiles of a stratum with their refine tier, when it is decoded and its section's check passed. -/
def refineTiles (au : KssAu) (tables : List (List Nat)) (sec : List Nat) (use : Bool) :
    List (TileEnt × Option TileEnt) → List (List (List Int)) → KssOut
  | [], _ => ⟨false, none, [], 0, 0, 0⟩
  | (e, after) :: r, bs =>
    let base := bs.getD 0 []
    let rest := refineTiles au tables sec use r (bs.drop 1)
    let got : Except KssFault (Option (List (List Int))) :=
      if !use then .ok none
      else match readBlock au tables sec e.refOff ((after.map (·.refOff)).getD sec.length) after.isNone false e with
        | .error f => .error f
        | .ok (st, v) => match refined e base st v with
          | none => .error ⟨0x0554, 9, e.plane, e.tile⟩
          | some full => .ok (some full)
    match got with
    | .ok (some full) =>
      let c := premulClamp full
      { rest with tiles := ⟨e.plane, e.tile, e.w, e.h, false, c.1⟩ :: rest.tiles, clamps := rest.clamps + c.2 }
    | .ok none =>
      let c := premulClamp base
      { rest with tiles := ⟨e.plane, e.tile, e.w, e.h, true, c.1⟩ :: rest.tiles, clamps := rest.clamps + c.2 }
    | .error f =>
      let c := premulClamp base
      ⟨false, some f, ⟨e.plane, e.tile, e.w, e.h, true, c.1⟩ :: rest.tiles,
        rest.mismatches + (if f.code = 0x0553 then 1 else 0), rest.tileFaults + 1, rest.clamps + c.2⟩

/-- A block header of a section fails its CRC-16 (R124). -/
def badHeader (sec : List Nat) (off : Nat) : Bool := crc16 (slice sec off 6) != fieldLE sec (off + 6) 2

/-- Decode and check one stratum (R125 to R128); `withRefine`: the band decodes the refine tier; `only`: the tiles of that plane
alone (R140). -/
def decodeStratum (au : KssAu) (tables : List (List Nat)) (s : Nat) (b : List Nat) (withRefine : Bool) (only : Option Nat) : KssOut :=
  match readMap au s b.length b with
  | .error f => .fault f
  | .ok v =>
    let o := 0x10 + v.m + 8 * v.t + 4
    let base := slice b o v.baseLen
    let ents := (withNext v.ents).filter (fun e => only.all (fun p => e.1.plane == p))
    if crc32c base ≠ fieldLE b (o + v.baseLen) 4 then
      match ents.find? (fun e => badHeader base e.1.baseOff) with
      | some e => .fault ⟨0x0553, 0, e.1.plane, e.1.tile⟩
      | none => .fault ⟨0x0551, 0, 0x3F, 0x7F⟩
    else
      match readBases au tables base ents with
      | .error f => .fault f
      | .ok bs =>
        let ref := slice b v.baseEnd v.refLen
        let use := withRefine && au.refine && decide (0 < v.refLen)
        if use && crc32c ref != fieldLE b (v.baseEnd + v.refLen) 4 then
          { refineTiles au tables ref false ents bs with
            event := some ⟨0x0552, 0, 0x3F, 0x7F⟩
            mismatches := 1 + ents.countP (fun e => badHeader ref e.1.refOff)
            tileFaults := ents.length }
        else refineTiles au tables ref use ents bs

/-- Bytes of a stratum that decoding it reads (R125, R128): all of it, up to BASE_CRC where the refine tier is skipped or the base tier
has a base fault, the map part alone where that has one. -/
def stratumReads (au : KssAu) (tables : List (List Nat)) (s len : Nat) (b : List Nat) (withRefine : Bool) (only : Option Nat) : Nat :=
  match readMap au s len b with
  | .error _ => min len (mapEnd au s b)
  | .ok v => if withRefine && !(decodeStratum au tables s b false only).baseFault then len else v.baseEnd

/-- Cost of a stratum in reconstructed bytes (R134), from its map. -/
def stratumCost (v : MapView) (withRefine : Bool) : Nat :=
  2048 + (v.ents.map (fun e => 256 + 8 * (((e.w + 1) / 2) * ((e.h + 1) / 2)) + (if withRefine then 8 * e.w * e.h else 0))).foldl (· + ·) 0

end Sys2Proof.Machine
end

