-- ==== Sys2Proof/Machine/Loam.lean ====
section
/-!
DEFINITION. Loam (R141 to R145): units, their payloads, the encoder's choice of mode, and decoding of a whole stream.
-/

namespace Sys2Proof.Machine

/-- A unit header (R141). -/
structure LoamHdr where
  mode : Nat
  elem : Nat
  orig : Nat
  payload : Nat
deriving DecidableEq, Repr

/-- What a unit's header shows: its fields, a check mismatch, or a malformed header (R145). -/
inductive LoamHead where
  | ok (h : LoamHdr) | check | malformed
deriving DecidableEq, Repr

/-- R141: read a unit's header from its first 8 bytes. -/
def loamHead (b : List Nat) : LoamHead :=
  let b0 := b.getD 0 0
  let h : LoamHdr := ⟨b0 / 64, 2 ^ (b0 / 16 % 4), fieldLE b 2 2 + 1, fieldLE b 4 2⟩
  if b.length < 8 ∨ crc16 (b.take 6) ≠ fieldLE b 6 2 then .check
  else if (h.mode = 0 ∨ h.mode = 2) ∧ b0 % 16 = 0 ∧ b.getD 1 0 = 0 ∧ h.orig ≤ 4096 ∧ h.orig % h.elem = 0 ∧ 1 ≤ h.payload ∧
      h.payload ≤ 4096 ∧ (h.mode = 2 ∨ h.payload = h.orig) then .ok h
  else .malformed

/-- Bytes a unit occupies with its padding (R141). -/
def LoamHdr.size (h : LoamHdr) : Nat := alignUp (12 + h.payload) 8

/-- One byte plane from its residuals (R142); a residual outside −128 to 127 counts modulo 256 (DESIGN CHOICE, log entry 172). -/
def planeBytes : Nat → List Int → List Nat
  | _, [] => []
  | p, q :: qs =>
    let v := (((p : Int) + q) % 256).toNat
    v :: planeBytes v qs

/-- The original bytes of a unit from its byte planes: element i takes byte i of each plane (R142). -/
def weave (planes : List (List Nat)) (n : Nat) : List Nat := (List.range n).flatMap (fun i => planes.map (fun p => p.getD i 0))

/-- Decode a unit's payload (R142), none where it is malformed. -/
def loamPayload (h : LoamHdr) (pay : List Nat) : Option (List Nat) :=
  if h.mode = 0 then some pay
  else match lengthList 24 [] (payloadBits pay) with
    | .error _ => none
    | .ok (ls, bits) =>
      match decodeCoded ls 8 (h.orig / h.elem) h.elem bits with
      | .error _ => none
      | .ok qs => some (weave (qs.map (planeBytes 0)) (h.orig / h.elem))

/-- What a unit decodes to: its bytes, a malformed payload, or a DATA_CRC mismatch (R145). -/
inductive LoamBody where
  | ok (b : List Nat) | malformed | check
deriving DecidableEq, Repr

/-- Decode the unit at the start of a byte list under a header that passed. -/
def loamBody (h : LoamHdr) (b : List Nat) : LoamBody :=
  match loamPayload h (slice b 8 h.payload) with
  | none => .malformed
  | some o => if crc32c o = fieldLE b (8 + h.payload) 4 then .ok o else .check

/-- R143: the unit the encoder writes for at most 4,096 bytes: DYNAMIC where its coded payload is shorter, else STORED.
Answers the unit's bytes and whether it is STORED. -/
def loamUnit (elem : Nat) (orig : List Nat) : List Nat × Bool :=
  let p := Config.loamPayload elem orig
  let hd : LoamHdr := ⟨2, 2 ^ elem, orig.length, p.length⟩
  let dyn := decide (1 ≤ p.length) && decide (p.length < orig.length) && orig.length % 2 ^ elem == 0 &&
    loamPayload hd p == some orig
  let mode := if dyn then 2 else 0
  let pay := if dyn then p else orig
  let h6 := [mode * 64 + elem * 16, 0] ++ leBytes 2 (orig.length - 1) ++ leBytes 2 pay.length
  let u := h6 ++ leBytes 2 (crc16 h6) ++ pay ++ leBytes 4 (crc32c orig)
  (u ++ List.replicate (alignUp u.length 8 - u.length) 0, !dyn)

/-- Decode a whole stream of units of an element size, none on any fault (used where a file must decode whole: R187, R189, R378, R379). -/
def loamAll (elem : Nat) : Nat → List Nat → Option (List Nat)
  | 0, _ => none
  | k + 1, b =>
    if b.isEmpty then some []
    else match loamHead b with
      | .ok h => match loamBody h b with
        | .ok o =>
          if h.elem ≠ elem ∨ (h.orig < 4096 ∧ h.size < b.length) then none
          else (loamAll elem k (b.drop h.size)).map (fun r => o ++ r)
        | _ => none
      | _ => none

end Sys2Proof.Machine
end

