-- ==== Sys2Proof/Machine/Colour.lean ====
section
/-!
DEFINITION. Logarithm and power in fixed point, and the transfer functions that R132 names: BT.1886, PQ and HLG, as their published
standards define them (PRESUMED, log entry 22).
-/

namespace Sys2Proof.Machine

/-! ### Fixed point -/

/-- Fraction bits of the mantissas below. -/
abbrev fixBits : Nat := 96

/-- ⌊k-th root of n⌋, bit by bit. -/
def iroot (k n : Nat) : Nat :=
  ((List.range (Nat.log2 n / max k 1 + 1)).reverse).foldl (fun a b => if (a + 2 ^ b) ^ k ≤ n then a + 2 ^ b else a) 0

/-- The next `n` bits of log2 of a mantissa m / 2^96 from 1 to below 2, by squaring, below those in `acc`. -/
def log2Bits : Nat → Nat → Nat → Nat
  | 0, _, acc => acc
  | n + 1, m, acc =>
    let q := m * m / 2 ^ fixBits
    if 2 ^ (fixBits + 1) ≤ q then log2Bits n (q / 2) (2 * acc + 1) else log2Bits n q (2 * acc)

/-- ⌊2^n · log2 x⌋ of a positive rational. -/
def log2Fix (n : Nat) (x : Rat) : Int :=
  let e := log2Quot x.num.natAbs x.den
  let m := if 0 ≤ e then x.num.natAbs * 2 ^ fixBits / (x.den * 2 ^ e.toNat) else x.num.natAbs * 2 ^ (fixBits + (-e).toNat) / x.den
  e * ((2 ^ n : Nat) : Int) + ((log2Bits n m 0 : Nat) : Int)

/-- The mantissa of 2 to the minus (the `n` low bits of f, the highest a half), times `acc`; `r` is that of the highest bit. -/
def exp2Bits : Nat → Nat → Nat → Nat → Nat
  | 0, _, _, acc => acc
  | n + 1, f, r, acc => exp2Bits n f (iroot 2 (r * 2 ^ fixBits)) (if bitAt f n then acc * r / 2 ^ fixBits else acc)

/-- 2^x of a rational, to 96 fraction bits below its leading bit and 64 bits of x. -/
def exp2Fix (x : Rat) : Rat :=
  let up := x.ceil
  let f := ((((up : Rat) - x) * ((2 ^ 64 : Nat) : Rat)).floor).toNat
  let m : Rat := ((exp2Bits 64 (f % 2 ^ 64) (iroot 2 (2 ^ (2 * fixBits - 1))) (2 ^ fixBits) : Nat) : Rat) / ((2 ^ fixBits : Nat) : Rat)
  if 0 ≤ up then m * ((2 ^ up.toNat : Nat) : Rat) else m / ((2 ^ (-up).toNat : Nat) : Rat)

/-- x to the power y of a non-negative x and a positive y. -/
def powFix (x y : Rat) : Rat := if x ≤ 0 then 0 else exp2Fix (y * ((log2Fix 64 x : Int) : Rat) / ((2 ^ 64 : Nat) : Rat))

/-! ### Transfer functions (R132) -/

/-- BT.1886 with black level 0: relative light. -/
def bt1886 (v : Rat) : Rat := powFix v (12 / 5)

/-- PQ (BT.2100): light in cd/m². -/
def pqLight (v : Rat) : Rat :=
  let w := powFix v (32 / 2523)
  10000 * powFix (max 0 (w - 3424 / 4096) / (2413 / 128 - 2392 / 128 * w)) (16384 / 2610)

/-- log2 e, to 24 decimals. -/
def log2e : Rat := 1442695040888963407359925 / 1000000000000000000000000

/-- The inverse OETF of HLG (BT.2100). -/
def hlgScene (v : Rat) : Rat :=
  if v ≤ 1 / 2 then v * v / 3 else (exp2Fix (log2e * (v - 55991073 / 100000000) / (17883277 / 100000000)) + 28466892 / 100000000) / 12

/-- HLG (BT.2100): the inverse OETF of three components, then the OOTF with a nominal peak in cd/m² and a system gamma in hundredths:
light in cd/m². -/
def hlgLight (peak gamma : Nat) (c : List Rat) : List Rat :=
  let e := c.map hlgScene
  let y := 2627 / 10000 * e.getD 0 0 + 678 / 1000 * e.getD 1 0 + 593 / 10000 * e.getD 2 0
  let k : Rat := (peak : Rat) * (if gamma ≤ 100 then 1 else powFix y (((gamma - 100 : Nat) : Rat) / 100))
  e.map (fun x => k * x)

/-- Step 4 of R132 before the division by REF_WHITE: COLOUR value 1 BT.1886, 2 PQ, 3 HLG. -/
def transferLight (e peak gamma : Nat) (c : List Rat) : List Rat :=
  match e with
  | 1 => c.map bt1886
  | 2 => c.map pqLight
  | _ => hlgLight peak gamma c

end Sys2Proof.Machine
end

