-- ==== Sys2Proof/Machine/Modes.lean ====
section
/-!
DEFINITION. Output modes (R308), their checks against a panel and a reference (R309), and band geometry.
-/

namespace Sys2Proof.Machine

/-- One output mode: ROWS, frame rate as a quotient, V_total (R308). -/
structure Mode where
  rows : Nat
  num : Nat
  den : Nat
  vtotal : Nat
deriving DecidableEq, Repr

/-- The PY-5220 standard modes 0 to 23 (R308). -/
def modeTable : List Mode :=
  [⟨17280, 48000, 1001, 17360⟩, ⟨17280, 48, 1, 17360⟩, ⟨17280, 50, 1, 17360⟩, ⟨17280, 60000, 1001, 17360⟩,
   ⟨17280, 60, 1, 17360⟩, ⟨8640, 48000, 1001, 8680⟩, ⟨8640, 48, 1, 8680⟩, ⟨8640, 50, 1, 8680⟩,
   ⟨8640, 60000, 1001, 8680⟩, ⟨8640, 60, 1, 8680⟩, ⟨8640, 100, 1, 8680⟩, ⟨8640, 120000, 1001, 8680⟩,
   ⟨8640, 120, 1, 8680⟩, ⟨4320, 48000, 1001, 4340⟩, ⟨4320, 48, 1, 4340⟩, ⟨4320, 50, 1, 4340⟩,
   ⟨4320, 60000, 1001, 4340⟩, ⟨4320, 60, 1, 4340⟩, ⟨4320, 100, 1, 4340⟩, ⟨4320, 120000, 1001, 4340⟩,
   ⟨4320, 120, 1, 4340⟩, ⟨2160, 50, 1, 2170⟩, ⟨2160, 60000, 1001, 2170⟩, ⟨2160, 60, 1, 2170⟩]

/-- The raster of a mode; mode 24 + n has the raster of mode n (R308). -/
def modeAt (m : Nat) : Mode := modeTable.getD (m % 24) ⟨17280, 60, 1, 17360⟩

/-- Modes 24 to 47 run in panel-memory mode (R308, R322). -/
def panelMemory (m : Nat) : Bool := decide (24 ≤ m)

/-- Nominal frame period in ticks, as a quotient: 256·10^9 · den / num. -/
def framePeriod (m : Mode) : Nat × Nat := (tickS * m.den, m.num)

/-- Reasons 2, 3 and 4 of R309: 0 where the mode is enabled by the panel (R46). -/
def modePanelReason (mode : Nat) (p : PanelDesc) : Nat :=
  let m := modeAt mode
  let fast := decide (60 * m.den < m.num)
  if (fast ∧ p.refresh = 0) ∨ (fast = false ∧ p.refresh = 1) then 2
  else if p.height < m.rows ∨ (panelMemory mode = false ∧ m.rows ≠ p.height) then 3
  else if panelMemory mode = true ∧ p.scan = 0 then 4
  else 0

/-- The plan of a mode in a list of SILT_PLAN records (R46). -/
def planOf (plans : List Plan) (mode : Nat) : Option Plan := plans.find? (fun p => p.mode == mode)

/-- The reason of `OUT_MODE_INVALID` (R309), 0 where none applies. Half the reference period in ns is compared exactly. -/
def modeReason (im : Image) (mode row0 : Nat) (phase : Int) : Nat :=
  let m := modeAt mode
  match planOf im.plans mode with
  | none => 1
  | some pl =>
    let r := modePanelReason mode im.panel
    if r ≠ 0 then r
    else if row0 % max pl.bandRows 1 ≠ 0 ∨ im.panel.height < row0 + m.rows then 5
    else if 10 ^ 9 * im.genlock.rateDen ≤ 2 * phase.natAbs * im.genlock.rateNum then 6
    else 0

/-- R309: the mode's frame rate is k × RATE_NUM / RATE_DEN with k 1 or 2. -/
def modeRateOk (g : Genlock) (mode : Nat) : Bool :=
  let m := modeAt mode
  [1, 2].any (fun k => m.num * g.rateDen == k * g.rateNum * m.den)

/-- k of R309: 2 where the mode runs at twice the reference rate. -/
def modeK (g : Genlock) (mode : Nat) : Nat :=
  let m := modeAt mode
  if m.num * g.rateDen = 2 * g.rateNum * m.den then 2 else 1

/-- The mode that first light takes (R309): the lowest-numbered that passes with ROW0 0. -/
def firstMode (im : Image) (phase : Int) : Option Nat :=
  (List.range 48).find? (fun m => modeReason im m 0 phase == 0 && modeRateOk im.genlock m)

/-- LOOKAHEAD_BANDS × BAND_ROWS of a plan (R77). -/
def Plan.lookahead (p : Plan) : Nat := p.lookBands * p.bandRows

/-- The latch line of a mode under a plan (R77). -/
def latchLine (m : Mode) (p : Plan) : Nat := m.vtotal - p.lookahead

/-- Bands of a frame (R306). -/
def bandCount (m : Mode) (p : Plan) : Nat := ceilDiv m.rows (max p.bandRows 1)

end Sys2Proof.Machine
end

