-- ==== Sys2Proof/Machine/Nvs.lean ====
section
/-!
DEFINITION. The non-volatile store, the lockable page and the OTP (R512 to R532): records and their resolution, queued
writes, open sectors, collection, scrub, wide counters, the host's operations.
-/

namespace Sys2Proof.Machine

/-! ### Records and keys (R514 to R518) -/

/-- Bytes a record occupies (R514). -/
def recBytes (len : Nat) : Nat := 48 + 16 * ((len + 15) / 16)

/-- The bytes of a record (R514): header with HCRC, payload, CRC word and commit word. -/
def recordBytes (typ key seq flags : Nat) (payload : List Nat) : List Nat :=
  let h := leBytes 2 typ ++ leBytes 2 key ++ leBytes 4 seq ++ leBytes 2 payload.length ++ leBytes 2 flags
  let head := h ++ leBytes 2 (crc16 h) ++ [0, 0]
  let pad := List.replicate (16 * ((payload.length + 15) / 16) - payload.length) 0
  head ++ payload ++ pad ++ leBytes 4 (crc32c (head ++ payload)) ++ List.replicate 12 0 ++ [0x43, 0x4F, 0x4D, 0x54] ++ List.replicate 12 0

/-- TYPE of a record. -/
def NvsRec.typ (r : NvsRec) : Nat := fieldLE r.bytes 0 2
/-- KEY of a record. -/
def NvsRec.key (r : NvsRec) : Nat := fieldLE r.bytes 2 2
/-- SEQ of a record. -/
def NvsRec.seq (r : NvsRec) : Nat := fieldLE r.bytes 4 4
/-- LEN of a record. -/
def NvsRec.len (r : NvsRec) : Nat := fieldLE r.bytes 8 2
/-- FLAGS of a record. -/
def NvsRec.flags (r : NvsRec) : Nat := fieldLE r.bytes 10 2
/-- The LEN payload bytes of a record. -/
def NvsRec.payload (r : NvsRec) : List Nat := slice r.bytes 16 r.len
/-- DUP of FLAGS. -/
def NvsRec.dup (r : NvsRec) : Bool := bitAt r.flags 0
/-- TOMBSTONE of FLAGS. -/
def NvsRec.tomb (r : NvsRec) : Bool := bitAt r.flags 1
/-- COPY of FLAGS. -/
def NvsRec.copy (r : NvsRec) : Bool := bitAt r.flags 2

/-- The header's HCRC passes (R515). -/
def NvsRec.headOk (r : NvsRec) : Bool := crc16 (r.bytes.take 12) == fieldLE r.bytes 12 2

/-- HCRC, CRC word and commit word all pass (R515). -/
def NvsRec.valid (r : NvsRec) : Bool :=
  let n := 16 + 16 * ((r.len + 15) / 16)
  r.headOk && slice r.bytes n 16 == leBytes 4 (crc32c (r.bytes.take (16 + r.len))) ++ List.replicate 12 0 &&
    slice r.bytes (n + 16) 16 == [0x43, 0x4F, 0x4D, 0x54] ++ List.replicate 12 0

/-- The records that the store reads, in append order: those of each sector before the bad header that ended them (R515). -/
def State.nvsRead (s : State) : List NvsRec :=
  s.nvs.recs.zipIdx.filterMap (fun q =>
    match (s.nvs.sectors.getD q.1.sector {}).ends with
    | none => some q.1
    | some n => if ((s.nvs.recs.take q.2).filter (fun r => r.sector == q.1.sector)).length < n then some q.1 else none)

/-- The highest SEQ seen for a key, invalid records and queued writes counted, and those of sectors erased since (R516). -/
def State.nvsTopSeq (s : State) (typ key : Nat) : Nat :=
  let a := s.nvsRead.foldl (fun m r => if r.typ = typ ∧ r.key = key ∧ r.headOk = true then max m r.seq else m)
    (sparseGet (fun _ => 0) s.nvs.seen (typ * 65536 + key))
  s.nvs.queue.foldl (fun m j => if j.typ = typ ∧ j.key = key then max m j.seq else m) a

/-- The 32 bytes of a sector's header (R513). -/
def sectorHeader (gen erases : Nat) : List Nat :=
  let b := [0x4E, 0x56, 0x53, 0x53, 1, 0, 0, 0] ++ leBytes 4 gen ++ leBytes 4 erases ++ List.replicate 12 0
  b ++ leBytes 4 (crc32c b)

/-- A sector's header passes its checks (R513). -/
def Sector.headOk (c : Sector) : Bool :=
  c.head.take 5 == [0x4E, 0x56, 0x53, 0x53, 1] && fieldLE c.head 28 4 == crc32c (c.head.take 28)

/-- A sector's header is all 0xFF (R513). -/
def Sector.blank (c : Sector) : Bool := c.head.all (· == 0xFF)

/-- GEN of a sector's header, 0 where it has none. -/
def Sector.gen (c : Sector) : Nat := if c.headOk then fieldLE c.head 8 4 else 0

/-- GEN of a sector. -/
def State.sectorGen (s : State) (k : Nat) : Nat := (s.nvs.sectors.getD k {}).gen

/-- R516, R518: of two valid records of one key the better one: higher SEQ; then, when they differ, the sector with the
higher GEN; then the later in append order (`b` is the later). -/
def State.nvsBetter (s : State) (a b : NvsRec) : NvsRec :=
  if a.seq < b.seq then b
  else if b.seq < a.seq then a
  else if a.payload = b.payload then a
  else if s.sectorGen b.sector < s.sectorGen a.sector then a else b

/-- The current record of a key (R516): none where the key was never written. -/
def State.nvsCurrent (s : State) (typ key : Nat) : Option NvsRec :=
  s.nvsRead.foldl (fun best r =>
    if r.valid = true ∧ r.typ = typ ∧ r.key = key then
      match best with
      | none => some r
      | some b => some (s.nvsBetter b r)
    else best) none

/-- The current payload of a key: none for a key with no value (R516). -/
def State.nvsValue (s : State) (typ key : Nat) : Option (List Nat) :=
  match s.nvsCurrent typ key with
  | some r => if r.tomb then none else some r.payload
  | none => none

/-- MIN_SERIAL of a kind: 0 Shoash image, 1 firmware (R519); no record: 0. -/
def State.minSerial (s : State) (kind : Nat) : Nat := fieldLE ((s.nvsValue 0x0010 kind).getD []) 0 4

/-! ### Wide counters (R520) -/

/-- The value of cell `c` in the set `seq` of a counter, either copy. -/
def State.nvsCell (s : State) (ctr seq c : Nat) : Option Nat :=
  (s.nvsRead.filter (fun r => r.valid && r.typ == 0x0020 && r.key == ctr && r.seq == seq && r.payload.getD 0 0 == c)).foldl
    (fun best r => match best with
      | none => some (fieldLE r.payload 4 8, r)
      | some (_, b) => let x := s.nvsBetter b r; some (fieldLE x.payload 4 8, x)) (none : Option (Nat × NvsRec))
  |>.map (·.1)

/-- The cells of a complete set (R520): valid close, every cell present, the close's CRC over the VALUE fields. -/
def State.nvsSet (s : State) (ctr seq : Nat) : Option (List Nat) :=
  match s.nvsRead.find? (fun r => r.valid && r.typ == 0x0021 && r.key == ctr && r.seq == seq) with
  | none => none
  | some close =>
    let n := close.payload.getD 0 0
    let cells := (List.range n).filterMap (s.nvsCell ctr seq)
    if cells.length = n ∧ 1 ≤ n ∧ crc32c (cells.flatMap (leBytes 8)) = fieldLE close.payload 4 4 then some cells else none

/-- A counter's value: its complete set with the highest SEQ, with that SEQ (R520). -/
def State.nvsCounter (s : State) (ctr : Nat) : Option (Nat × List Nat) :=
  let seqs := (s.nvsRead.filter (fun r => r.valid && r.typ == 0x0021 && r.key == ctr)).map (·.seq)
  seqs.foldl (fun best q =>
    match s.nvsSet ctr q with
    | none => best
    | some v => match best with
      | none => some (q, v)
      | some (b, w) => if b < q then some (q, v) else some (b, w)) none

/-! ### Sectors (R513, R521, R524) -/

/-- The code of a sector state (R545); a dirty sector counts as erased-to-be and reads ERASED only after its erase. -/
def sectorCode : SectorSt → Nat
  | .erased => 0 | .open_ => 1 | .full => 2 | .retired => 3 | .dirty => 2

/-- Numbers of the sectors in a state. -/
def State.sectorsIn (s : State) (st : SectorSt) : List Nat :=
  (List.range 64).filter (fun k => (s.nvs.sectors.getD k {}).st == st)

/-- Change a sector and its register. -/
def State.onSector (s : State) (k : Nat) (f : Sector → Sector) : State :=
  let s1 := { s with nvs := { s.nvs with sectors := modAt s.nvs.sectors k f } }
  let c := s1.nvs.sectors.getD k {}
  let s2 := (s1.put (F.NVS_SECTOR_STATE.nth k) (sectorCode c.st)).put (F.NVS_SECTOR_ERASES.nth k) c.erases
  (s2.put F.NVS_STATUS_FREE (s2.sectorsIn .erased).length).put F.NVS_STATUS_RETIRED (s2.sectorsIn .retired).length

/-- Open an erased sector, the lowest-numbered one (log entry 31), with a new highest GEN (R513). -/
def State.openSector (s : State) : Option (Nat × State) :=
  match s.sectorsIn .erased with
  | [] => none
  | k :: _ =>
    let g := s.nvs.sectors.foldl (fun m c => max m c.gen) 0
    some (k, s.onSector k (fun c => { c with st := .open_, head := sectorHeader (g + 1) c.erases, used := 32, ends := none }))

/-- Whether a record of `len` payload bytes fits in a sector (R514, R515). -/
def Sector.fits (c : Sector) (len : Nat) : Bool := c.ends.isNone && decide (c.used + recBytes len ≤ 65536)

/-- Whether an open sector has room for a record. -/
def State.openFits (s : State) (o : Option Nat) (len : Nat) : Bool := o.any (fun k => (s.nvs.sectors.getD k {}).fits len)

/-- R521: whether a write of `len` bytes of payload, in one copy or two, can be placed without the last two erased sectors. -/
def State.nvsRoom (s : State) (len : Nat) (dup : Bool) : Bool :=
  let need := b2n (!s.openFits s.nvs.open1 len) + b2n (dup && !s.openFits s.nvs.open2 len)
  need == 0 || decide (need + 2 ≤ (s.sectorsIn .erased).length)

/-- Make room for a record in the first or second open sector (R521): a sector in which it does not fit becomes FULL and
an erased one is opened; `reserve` lets a collection use the last two. -/
def State.placeIn (s : State) (reserve second : Bool) (len : Nat) : Option (Nat × State) :=
  let cur := if second then s.nvs.open2 else s.nvs.open1
  if reserve = false ∧ s.openFits cur len = false ∧ (s.sectorsIn .erased).length < 3 then none
  else match cur with
  | some k =>
    if (s.nvs.sectors.getD k {}).fits len then some (k, s)
    else
      let s1 := s.onSector k (fun c => { c with st := .full })
      (s1.openSector).map (fun p => (p.1, { p.2 with nvs :=
        if second then { p.2.nvs with open2 := some p.1 } else { p.2.nvs with open1 := some p.1 } }))
  | none =>
    (s.openSector).map (fun p => (p.1, { p.2 with nvs :=
      if second then { p.2.nvs with open2 := some p.1 } else { p.2.nvs with open1 := some p.1 } }))

/-- The store keeps two open sectors (R517): where one is missing an erased one is opened, but for the last two (R521). -/
def State.keepOpen (s : State) : State :=
  let one (s : State) (second : Bool) : State :=
    if (if second then s.nvs.open2 else s.nvs.open1).isSome ∨ (s.sectorsIn .erased).length < 3 then s
    else match s.openSector with
      | none => s
      | some (k, t) => { t with nvs := if second then { t.nvs with open2 := some k } else { t.nvs with open1 := some k } }
  one (one s false) true

/-- Append a record to a sector. -/
def State.appendRec (s : State) (k : Nat) (r : NvsRec) : State :=
  let s1 := s.onSector k (fun c => { c with used := c.used + r.bytes.length })
  let q := r.typ * 65536 + r.key
  let seen := if r.headOk then sparseSet (fun _ => 0) s1.nvs.seen q (max r.seq (sparseGet (fun _ => 0) s1.nvs.seen q)) else s1.nvs.seen
  { s1 with nvs := { s1.nvs with recs := s1.nvs.recs ++ [r], seen := seen } }

/-! ### Queued writes (R516, R517, R522) -/

/-- Insert a write behind those of its priority and above those of lower priority (R522). -/
def insertJob (j : NvsJob) : List NvsJob → List NvsJob
  | [] => [j]
  | x :: xs => if x.prio ≤ j.prio then x :: insertJob j xs else j :: x :: xs

/-- Put a write into the queue: the write at its front has started unless the store is stopped, and nothing goes before it. -/
def State.nvsPush (s : State) (j : NvsJob) : State :=
  let started := s.nvs.flight || !s.nvs.stopped
  let q := match s.nvs.queue with
    | [] => [j]
    | x :: xs => if started then x :: insertJob j xs else insertJob j (x :: xs)
  { s with nvs := { s.nvs with queue := q } }

/-- Queue one record write with an explicit SEQ; DUP makes two, first copy then second (R517). -/
def State.nvsQueueSeq (s : State) (who : NvsWho) (prio typ key seq : Nat) (dup tomb : Bool) (payload : List Nat) : State :=
  let f := b2n dup + 2 * b2n tomb
  let j : NvsJob := ⟨who, prio, typ, key, seq, f, payload, none⟩
  let s1 := s.nvsPush j
  if dup then s1.nvsPush { j with flags := f + 4 } else s1

/-- Queue a new record of a key: SEQ one above the highest seen (R516); refused with NVS_SEQ_EXHAUSTED past 32 bits and
with NVS_FULL where it cannot be placed without the reserve (R521). The code is 0 where it was queued. -/
def State.nvsWrite (s : State) (who : NvsWho) (prio typ key : Nat) (dup tomb : Bool) (payload : List Nat) : Nat × State :=
  let seq := s.nvsTopSeq typ key + 1
  let a0 := typ * 65536 + key
  if 0xFFFFFFFF < seq then (0x1518, s.event 0x1518 0 a0 0)
  else if s.nvsRoom payload.length dup then (0, s.nvsQueueSeq who prio typ key seq dup tomb payload)
  else (0x1517, s.event 0x1517 0 a0 0)

/-- Queue a complete wide-counter set (R520): every cell, then the close, sharing one SEQ; refused past 32 bits (R516). -/
def State.nvsWriteSet (s : State) (ctr : Nat) (cells : List Nat) : State :=
  let seq := max (s.nvsTopSeq 0x0020 ctr) (s.nvsTopSeq 0x0021 ctr) + 1
  if 0xFFFFFFFF < seq then s.event 0x1518 0 (0x0020 * 65536 + ctr) 0
  else
  let s1 := (cells.zipIdx).foldl (fun s p =>
    s.nvsQueueSeq .counter 3 0x0020 ctr seq true false ([p.2, 0, 0, 0] ++ leBytes 8 p.1)) s
  s1.nvsQueueSeq .counter 3 0x0021 ctr seq true false
    ([cells.length, 0, 0, 0] ++ leBytes 4 (crc32c (cells.flatMap (leBytes 8))))

/-- R520: the OPERATING counter as the firmware holds it, powered seconds counted up to the present. -/
def State.operatingCells (s : State) : List Nat :=
  match s.nvs.operating with
  | p :: r => (p + (s.now - s.nvs.poweredFrom) / tickS) :: r
  | [] => []

/-- R520: after a counted event (1 POWER_UPS, 2 FATAL_RESUMES, 3 ORDERLY_TRIPS) the firmware writes the counter. -/
def State.countOperating (s : State) (cell : Nat) : State :=
  let s1 := { s with nvs := { s.nvs with operating := modAt s.nvs.operating cell (· + 1) } }
  if s.flag F.NVS_STATUS_READY = false then s
  else { (s1.nvsWriteSet 1 s1.operatingCells) with nvs := { (s1.nvsWriteSet 1 s1.operatingCells).nvs with lastCounter := s.now } }

/-- Whether a record is one that collection and scrub copy (R521, R523): the current record of its key, or part of a
counter's current complete set. -/
def State.nvsKept (s : State) (r : NvsRec) : Bool :=
  r.valid &&
  (if r.typ == 0x0020 || r.typ == 0x0021 then
     (match s.nvsCounter r.key with | some (q, _) => q == r.seq | none => false)
   else (match s.nvsCurrent r.typ r.key with | some c => c.seq == r.seq | none => false))

/-- The sector that holds the other copy of a record (R517). -/
def State.otherSector (s : State) (r : NvsRec) : Option Nat :=
  (s.nvsRead.find? (fun x => x.valid && x.typ == r.typ && x.key == r.key && x.seq == r.seq && x.sector != r.sector
    && x.copy != r.copy)).map (·.sector)

/-- R521: with fewer than six sectors erased, collect the FULL sector with the lowest GEN: queue copies of what it keeps. -/
def State.nvsCollect (s : State) : State :=
  if (s.sectorsIn .erased).length < 6 ∧ s.nvs.collecting = none ∧ s.nvs.stopped = false then
    match (s.sectorsIn .full) with
    | [] => s
    | k0 :: ks =>
      let k := ks.foldl (fun b k => if s.sectorGen k < s.sectorGen b then k else b) k0
      let keep := s.nvsRead.filter (fun r => r.sector == k && s.nvsKept r)
      let s1 := keep.foldl (fun (s : State) r => s.nvsPush ⟨.collect, 4, r.typ, r.key, r.seq, r.flags, r.payload, s.otherSector r⟩) s
      { s1 with nvs := { s1.nvs with
          collecting := some k
          erasing := if keep.isEmpty then s1.nvs.erasing ++ [k] else s1.nvs.erasing } }
  else s

/-- A collection copy could not be written: the sector keeps its records and is collected again later (R521). -/
def State.collectFailed (s : State) : State :=
  { s with nvs := { s.nvs with collecting := none, queue := s.nvs.queue.filter (fun x => x.who != NvsWho.collect) } }

/-- A scrub ends with its SCRUB_STATE record (R523, R545). -/
def State.scrubEnd (s : State) (j : NvsJob) : State := if j.typ = 0x0003 then s.put F.NVS_STATUS_SCRUB 0 else s

/-- Set the result registers of a host operation that ends: DONE, BUSY, the vector (R526, R545). -/
def State.nvsResult (s : State) (code len seq : Nat) : State :=
  let s1 := ((s.put F.NVS_RESULT_CODE code).put F.NVS_RESULT_LEN len).put F.NVS_RESULT_SEQ_SEQ seq
  ((s1.put F.NVS_STATUS_DONE 1).put F.NVS_STATUS_BUSY 0).raise 7

/-- Which of the two open sectors a queued copy goes to: by its COPY bit, turned away from `avoid` (R517, R521). -/
def State.jobSecond (s : State) (j : NvsJob) : Bool :=
  let want := bitAt j.flags 2
  match j.avoid with
  | none => want
  | some k => if (if want then s.nvs.open2 else s.nvs.open1) = some k then !want else want

/-- The bytes of a queued write's record. -/
def NvsJob.bytes (j : NvsJob) : List Nat := recordBytes j.typ j.key j.seq j.flags j.payload

/-- The first `n` bytes programmed of some, the rest erased. -/
def tornBytes (n : Nat) (b : List Nat) : List Nat := b.take n ++ List.replicate (b.length - n) 0xFF

/-- Append `n` failed attempts of a write: records whose verify failed, without a commit word (R514, R515, R522). -/
def State.failedTries (s : State) (j : NvsJob) : Nat → State
  | 0 => s
  | n + 1 =>
    match s.placeIn (j.who == .collect) (s.jobSecond j) j.payload.length with
    | none => s
    | some (k, s1) => (s1.appendRec k ⟨k, tornBytes (j.bytes.length - 16) j.bytes⟩).failedTries j n

/-- A record write of the label strip failed (R394): it is to be tried again, and nothing is written to the strip before. -/
def State.lblWriteFailed (s : State) (typ code : Nat) : State :=
  let s1 := s.event 0x0F21 0 code 0
  { s1 with lbl := { s1.lbl with dirty := typ == 0x0031 || s1.lbl.dirty, retry := some typ } }

/-- A record of the label strip is written: counted once its last copy is, and with a failed one's retry the strip may be written (R394, R396). -/
def State.lblWritten (s : State) (last : Bool) : State :=
  if last then { (s.count Reg.LBL_SNAP_NV 1) with lbl := { s.lbl with retry := none } } else s

/-! ### The mailbox's answer (R539) -/

/-- Roles of R540. -/
inductive SecRole where
  | none_ | user | openUser | officer
deriving DecidableEq, Repr

/-- The role of a command number (R540). -/
def roleOf (cmd : Nat) : SecRole :=
  if cmd = 0x10 then .openUser else if 0x11 ≤ cmd ∧ cmd ≤ 0x13 then .user else if 0x20 ≤ cmd then .officer else .none_

/-- Trailer bytes of a command (R539). -/
def trailerLen (r : SecRole) : Nat :=
  match r with
  | .officer => 128 | .user => 48 | _ => 0

/-- Bytes of the response to a command (R539): header and body, and the tag within a session. -/
def State.respBytes (s : State) (cmd : Nat) (body : List Nat) : Nat :=
  16 + body.length + (if s.sec.session.isSome && roleOf cmd == .user then 48 else 0)

/-- The response fits RESP_CAP (R539). -/
def State.respFits (s : State) (cmd : Nat) (body : List Nat) : Bool :=
  decide (s.respBytes cmd body ≤ s.get F.SEC_MB_RESP_LEN_RESP_CAP)

/-- Write the response (R539): header, body, and a tag within a session; DONE and vector 8 follow. One that does not fit RESP_CAP is
not written, and the command fails with SEC_FORMAT. A code of SEC is logged with its command (R544); one of NVS was logged by the store. -/
def State.secRespond (s : State) (cmd code : Nat) (body tag : List Nat) : State :=
  let sid := (s.sec.session.map (·.id)).getD 0
  let withTag := s.sec.session.isSome && roleOf cmd == .user
  let hdr := leBytes 2 cmd ++ leBytes 2 code ++ leBytes 4 (if withTag then sid else 0) ++ leBytes 4 body.length ++
    [s.get F.SEC_STATUS_APPROVED, 0, 0, 0]
  let bs := hdr ++ body ++ (if withTag then slice tag 0 48 else [])
  let fits := s.respFits cmd body
  let code' := if fits then code else 0x1621
  let s1 := if fits then (s.store 15 (s.get F.SEC_MB_RESP_ADDR * 64) bs).put F.SEC_MB_RESP_LEN_USED bs.length else s
  let s2 := (s1.put F.SEC_MB_RESULT_CODE code').put F.SEC_MB_RESULT_CMD cmd
  let s3 := { s2 with sec := { s2.sec with running := none } }
  let s4 := if code' / 256 = 0x16 then s3.event code' 0 cmd 0 else s3
  let s5 := s4.put F.SEC_MB_CTRL_BUSY 0
  if fits then (s5.put F.SEC_MB_CTRL_DONE 1).raise 8 else s5

/-- A record write of the module ended (R522, R540): the command that waits for it is answered. -/
def State.secWritten (s : State) (j : NvsJob) (code : Nat) : State :=
  match s.sec.running with
  | some c => if (c = 0x20 ∧ j.typ = 0x0010) ∨ (c = 0x25 ∧ j.typ = 0x0060 ∧ bitAt j.flags 1 = false) then s.secRespond c code [] [] else s
  | none => s

/-- A write that waits on one that failed (R517, R520): its second copy, and the rest of its counter set. -/
def NvsJob.waitsOn (x j : NvsJob) : Bool :=
  x.who == j.who && x.key == j.key && x.seq == j.seq && (x.typ == j.typ || (j.typ == 0x0020 && x.typ == 0x0021))

/-- R514, R517, R522: the front queued write ends after `fails` attempts that failed to verify; four failures make it
fail with NVS_WRITE_FAIL. -/
def State.recordWriteComplete (s : State) (fails : Nat) : State :=
  match s.nvs.queue with
  | [] => s
  | j :: rest =>
    if s.nvs.stopped = true ∧ s.nvs.flight = false then s
    else
    let s1 := ({ s with nvs := { s.nvs with queue := rest, flight := false } } : State).scrubEnd j
    let a0 := j.typ * 65536 + j.key
    let second := bitAt j.flags 2
    let last := !(bitAt j.flags 0) || second
    if 4 ≤ fails then
      let s2 := (s1.failedTries j 4).event 0x1515 0 a0 (j.seq % 2 ^ 24)
      let fl := if j.who == .dump then j.who :: s2.nvs.failed else s2.nvs.failed
      let q2 := s2.nvs.queue.filter (fun x => !x.waitsOn j)
      let s3 := { s2 with nvs := { s2.nvs with failed := fl, queue := q2 } }
      if j.who = .host then s3.nvsResult 0x1515 0 0
      else if j.who = .label then s3.lblWriteFailed j.typ 0x1515
      else if j.who = .collect then s3.collectFailed
      else if j.who = .security then s3.secWritten j 0x1515
      else s3
    else
      let st := s1.failedTries j fails
      match st.placeIn (j.who == .collect) (st.jobSecond j) j.payload.length with
      | none =>
        let st' : State := { st with nvs := { st.nvs with queue := st.nvs.queue.filter (fun x => !x.waitsOn j) } }
        let s2 := st'.event 0x1517 0 a0 0
        if j.who = .host then s2.nvsResult 0x1517 0 0
        else if j.who = .label then s2.lblWriteFailed j.typ 0x1517
        else if j.who = .collect then s2.collectFailed
        else if j.who = .security then s2.secWritten j 0x1517
        else s2
      | some (k, s2) =>
        let s3 := s2.appendRec k ⟨k, j.bytes⟩
        let s4 := s3.put F.NVS_COUNT_WRITES_COUNT (sat32 (s3.get F.NVS_COUNT_WRITES_COUNT + 1))
        let s5 := if j.who = .scrub then
            (s4.put F.NVS_COUNT_WEAK_COUNT (sat32 (s4.get F.NVS_COUNT_WEAK_COUNT + 1)))
          else if j.who = .repair then s4.event 0x1513 0 a0 (k * 2 ^ 24 + j.seq % 2 ^ 24)
          else if j.who = .label then s4.lblWritten last
          else s4
        let s6 := if j.who = .host ∧ last = true then s5.nvsResult 0 0 j.seq
          else if j.who = .security ∧ last = true then s5.secWritten j 0 else s5
        -- a collected sector is erased once its last copy has been written
        let s7 := match s6.nvs.collecting with
          | some c => if j.who = NvsWho.collect ∧ s6.nvs.queue.all (fun x => x.who != NvsWho.collect) = true then
              { s6 with nvs := { s6.nvs with erasing := s6.nvs.erasing ++ [c] } } else s6
          | none => s6
        s7.nvsCollect

/-- A record write is in progress: the one at the queue's front, unless the store was stopped before it started (R522). -/
def State.nvsWriting (s : State) : Bool := !s.nvs.queue.isEmpty && (s.nvs.flight || !s.nvs.stopped)

/-- R513, R524: the first waiting erase ends: verified, the sector is erased with one more ERASES; failed or worn out, it
is retired and SECTOR_RETIRED is written. While a record write is in progress no erase runs, so none ends (R512). -/
def State.eraseComplete (s : State) (ok : Bool) : State :=
  if s.nvsWriting then s
  else match s.nvs.erasing with
  | [] => s
  | k :: rest =>
    let e := (s.nvs.sectors.getD k {}).erases + 1
    let s1 := { s with nvs := { s.nvs with erasing := rest, recs := s.nvs.recs.filter (fun r => r.sector != k),
                                           collecting := if s.nvs.collecting = some k then none else s.nvs.collecting } }
    if ok ∧ e < 100000 then (s1.onSector k (fun _ => { st := .erased, erases := e })).keepOpen.nvsCollect
    else
      let s2 := (s1.onSector k (fun c => { c with st := .retired, erases := e })).event 0x1516 0 (2 * 65536 + k) (k * 2 ^ 24)
      (s2.nvsWrite .store 4 0x0002 k true false []).2.nvsCollect

/-- An erase in progress is cut short: its sector is dirty, and nothing in it is read again (R513, R522). -/
def State.eraseCut (s : State) : State :=
  match s.nvs.erasing with
  | [] => s
  | k :: ks => ({ s with nvs := { s.nvs with erasing := ks, recs := s.nvs.recs.filter (fun r => r.sector != k) } } : State).onSector k
      (fun c => { c with st := .dirty })

/-- The store starts no new write (R501, R522): a record write that has started finishes, and an erase in progress is abandoned. -/
def State.nvsStop (s : State) : State :=
  ({ s with nvs := { s.nvs with stopped := true, flight := s.nvs.flight || (!s.nvs.stopped && !s.nvs.queue.isEmpty) } } : State).eraseCut

/-- The keeper loses power (R502, R515, R520): of a record write in progress, with the header of the sector it opens, some bytes are programmed,
how many no rule says (a free value), and never the commit word. -/
def State.nvsCut (s : State) : State :=
  match s.nvs.queue with
  | [] => s.eraseCut
  | j :: _ =>
    if s.nvsWriting = false then s.eraseCut
    else match s.placeIn (j.who == .collect) (s.jobSecond j) j.payload.length with
      | none => s.eraseCut
      | some (k, s1) =>
        let head := if (s.nvs.sectors.getD k {}).st = .erased then 32 else 0
        let q := s1.free 45
        let n := q.1 % (head + j.bytes.length - 15)
        if n < head then (q.2.onSector k (fun c => { c with st := if n = 0 then .erased else .dirty, head := tornBytes n c.head })).eraseCut
        else if n = head then q.2.eraseCut
        else (q.2.appendRec k ⟨k, tornBytes (n - head) j.bytes⟩).eraseCut

/-! ### Start-up, scrub, repair (R515, R517, R518, R523, R525) -/

/-- What the two copies of a record share: TYPE, KEY, SEQ and, in a counter's set, CELL (R518, R520). -/
def NvsRec.place (r : NvsRec) : Nat × Nat × Nat × Nat :=
  (r.typ, r.key, r.seq, if r.typ = 0x0020 then r.payload.getD 0 0 else 0)

/-- The ties of R518, one for each SEQ that differing valid records share: the record that wins. -/
def State.nvsTies (s : State) : List NvsRec :=
  let vs := s.nvsRead.filter NvsRec.valid
  let ps := ((vs.filter (fun r => vs.any (fun x => x.place == r.place && x.payload != r.payload))).map NvsRec.place).eraseDups
  ps.filterMap (fun p => match vs.filter (fun r => r.place == p) with
    | [] => none
    | r :: rs => some (rs.foldl s.nvsBetter r))

/-- Counters whose highest set is incomplete (R520). -/
def State.nvsIncomplete (s : State) : List Nat :=
  let ofSet (r : NvsRec) : Bool := r.valid && (r.typ == 0x0020 || r.typ == 0x0021)
  let ctrs := ((s.nvsRead.filter ofSet).map (·.key)).eraseDups
  ctrs.filter (fun c =>
    let top := s.nvsRead.foldl (fun m r => if ofSet r = true ∧ r.key = c then max m r.seq else m) 0
    match s.nvsCounter c with
    | some (q, _) => decide (q < top)
    | none => true)

/-- The current DUP records with a single valid copy (R517). -/
def State.nvsSingles (s : State) : List NvsRec :=
  s.nvsRead.filter (fun r => r.dup && s.nvsKept r && !(s.nvsRead.any (fun x =>
    x.valid && x.typ == r.typ && x.key == r.key && x.seq == r.seq && x.copy != r.copy &&
    (r.typ != 0x0020 || x.payload.getD 0 0 == r.payload.getD 0 0))))

/-- R515: sector k is read from offset 32: a header whose HCRC fails ends its records. `bad` says that one fails though it was programmed
whole; which one of the sector's, no rule says (a free value). -/
def State.readSector (s : State) (bad : List Nat) (k : Nat) : State :=
  let rs := s.nvs.recs.filter (fun r => r.sector == k)
  let q := s.free 46
  let n := rs.findIdx (fun r => !r.headOk)
  let m := if bad.contains k then min n (q.1 % (rs.length + 1)) else n
  let s1 := if bad.contains k then q.2 else s
  let set (f : Sector → Sector) : State := { s1 with nvs := { s1.nvs with sectors := modAt s1.nvs.sectors k f } }
  if m < rs.length ∨ bad.contains k = true then
    (set (fun c => { c with ends := some m, st := if c.st = .open_ then .full else c.st })).event 0x1511 0 0 (k * 2 ^ 24)
  else set (fun c => { c with ends := none })

/-- R513: what a sector's header makes of it at start-up. -/
def Sector.atStart (c : Sector) : Sector :=
  if c.st = .retired ∨ c.st = .dirty then c
  else if c.blank then { c with st := .erased }
  else if c.headOk then c
  else { c with st := .dirty }

/-- R515, R525: the start-up scan: every sector is read, every key resolved; ties and incomplete sets are logged, dirty sectors are queued
for erase, two sectors are open, and the store becomes ready. `bad` names sectors in which the header of a whole record fails its HCRC. -/
def State.nvsScan (s : State) (bad : List Nat) : State :=
  let s0 : State := { s with nvs := { s.nvs with sectors := s.nvs.sectors.map Sector.atStart } }
  let s1 := (List.range 64).foldl (fun s k => if (s.nvs.sectors.getD k {}).st = .erased then s else s.readSector bad k) s0
  let s2 := s1.nvsTies.foldl (fun s r => (s.event 0x1510 0 (r.typ * 65536 + r.key) (r.sector * 2 ^ 24 + r.seq % 2 ^ 24)).put
    F.NVS_COUNT_TIES_COUNT (s.get F.NVS_COUNT_TIES_COUNT + 1)) s1
  let s3 := s2.nvsIncomplete.foldl (fun s c => s.event 0x1512 0 (0x20 * 65536 + c) 0) s2
  let cells := (s3.nvsCounter 1).map (·.2)
  let isOpen (o : Option Nat) : Option Nat := o.filter (fun k => (s3.nvs.sectors.getD k {}).st == .open_)
  let s4 := { s3 with nvs := { s3.nvs with erasing := s3.nvs.erasing ++ s3.sectorsIn .dirty,
                                           operating := cells.getD [0, 0, 0, 0], poweredFrom := s3.pwr.bootAt.getD s3.now,
                                           stopped := false, repair := s3.nvsSingles,
                                           open1 := isOpen s3.nvs.open1, open2 := isOpen s3.nvs.open2 } }
  let s5 := (List.range 64).foldl (fun s k => s.onSector k id) s4
  (s5.keepOpen.put F.NVS_STATUS_READY 1).countOperating 1 |>.nvsCollect

/-- R517: write the missing copies that start-up found, of records that are still current. -/
def State.copyRepair (s : State) : State :=
  let s1 : State := { s with nvs := { s.nvs with repair := [] } }
  (s.nvs.repair.filter (fun r => s.nvsSingles.contains r)).foldl (fun s r =>
    s.nvsPush ⟨.repair, 4, r.typ, r.key, r.seq, if r.copy then r.flags - 4 else r.flags + 4, r.payload, some r.sector⟩) s1

/-- Powered seconds up to the present (R520 cell 0). -/
def State.poweredS (s : State) : Nat := s.operatingCells.getD 0 0

/-- R523: the scrub is due when the powered seconds exceed the SCRUB_STATE value by 86,400. -/
def State.scrubDue (s : State) : Bool :=
  decide (fieldLE ((s.nvsValue 0x0003 0).getD []) 0 8 + 86400 < s.poweredS)

/-- R523: a scrub: each weak record (`weak` lists their places in append order) that is kept is rewritten with its SEQ
unchanged and logged, and SCRUB_STATE is written at the end. -/
def State.nvsScrub (s : State) (weak : List Nat) : State :=
  if s.scrubDue ∧ s.flag F.NVS_STATUS_READY ∧ s.flag F.NVS_STATUS_SCRUB = false then
    let rs := weak.filterMap (fun i => s.nvs.recs[i]?) |>.filter s.nvsKept
    let s1 := rs.foldl (fun s r =>
      (s.nvsPush ⟨.scrub, 4, r.typ, r.key, r.seq, r.flags, r.payload, s.otherSector r⟩).event 0x1514 0 (r.typ * 65536 + r.key)
        (r.sector * 2 ^ 24 + r.seq % 2 ^ 24)) (s.put F.NVS_STATUS_SCRUB 1)
    let w := s1.nvsWrite .store 4 0x0003 0 false false (leBytes 8 s1.poweredS)
    if w.1 = 0 then w.2 else w.2.put F.NVS_STATUS_SCRUB 0
  else s

/-- R520: the firmware writes the OPERATING counter every 3,600 s. -/
def State.counterUpdate (s : State) : State :=
  if s.nvs.lastCounter + 3600 * tickS ≤ s.now ∧ s.flag F.NVS_STATUS_READY then
    { (s.nvsWriteSet 1 s.operatingCells) with nvs := { (s.nvsWriteSet 1 s.operatingCells).nvs with lastCounter := s.now } }
  else s

/-! ### OTP and the lockable page (R527 to R532) -/

/-- The marker of a slot, programmed last (R531). -/
def otpMarker : List Nat := [0x3C, 0x3C, 0xC3, 0xC3]

/-- State of a slot (R526, R531): 0 unprogrammed, 1 valid, 2 bad. -/
def OtpSlot.st (o : OtpSlot) : Nat :=
  if o.bytes.all (· == 0) then 0
  else if slice o.bytes (o.len + 4) 4 == otpMarker && fieldLE o.bytes o.len 4 == crc32c (o.bytes.take o.len) then 1
  else 2

/-- The payload of a slot. -/
def OtpSlot.payload (o : OtpSlot) : List Nat := o.bytes.take o.len

/-- A slot with a payload programmed (R531). -/
def OtpSlot.program (o : OtpSlot) (v : List Nat) : OtpSlot :=
  let p := slice v 0 o.len
  { o with bytes := p ++ leBytes 4 (crc32c p) ++ otpMarker ++ List.replicate (o.bytes.length - o.len - 8) 0 }

/-- A slot programmed to all ones, which is bad (R532). -/
def OtpSlot.burn (o : OtpSlot) : OtpSlot := { o with bytes := List.replicate o.bytes.length 0xFF }

/-- The slots of a group. -/
def State.otpGroup (s : State) (g : Nat) : List OtpSlot := s.nvs.otp.getD g []

/-- The newest valid slot of a group: its index and payload (R531). -/
def newestSlot : Nat → List OtpSlot → Option (Nat × List Nat)
  | _, [] => none
  | i, sl :: r =>
    match newestSlot (i + 1) r with
    | some x => some x
    | none => if sl.st = 1 then some (i, sl.payload) else none

/-- The value of a group (R531). -/
def State.otpValue (s : State) (g : Nat) : Option (List Nat) := (newestSlot 0 (s.otpGroup g)).map (·.2)

/-- The generation byte of a group: the newest valid slot, 0xFF for none (R540). -/
def State.otpGen (s : State) (g : Nat) : Nat := ((newestSlot 0 (s.otpGroup g)).map (·.1)).getD 0xFF

/-- The group has an unprogrammed slot (R532). -/
def State.otpSpare (s : State) (g : Nat) : Bool := (s.otpGroup g).any (fun x => x.st == 0)

/-- R532: program a new value into the lowest unprogrammed slot and burn every older programmed one. -/
def programGroup (v : List Nat) : List OtpSlot → List OtpSlot
  | [] => []
  | sl :: r => if sl.st = 0 then sl.program v :: r else sl.burn :: programGroup v r

/-- R532 on a group. -/
def State.otpProgram (s : State) (g : Nat) (v : List Nat) : State :=
  { s with nvs := { s.nvs with otp := modAt s.nvs.otp g (programGroup v) } }

/-- R538: burn every programmed slot of a group. -/
def State.otpBurn (s : State) (g : Nat) : State :=
  { s with nvs := { s.nvs with otp := modAt s.nvs.otp g (List.map (fun x => if x.st = 0 then x else x.burn)) } }

/-- The page is locked (R529). -/
def State.pageLocked (s : State) : Bool := (s.otpGroup 8).any (fun x => x.st != 0)

/-- R528: one FFE triple: each tap −32 to 31, magnitudes summing to at most 63. -/
def ffeOk (b : List Nat) : Bool :=
  let t := (slice b 0 3).map (signed 8)
  t.all (fun v => decide (-32 ≤ v) && decide (v ≤ 31)) && decide ((t.map Int.natAbs).foldl (· + ·) 0 ≤ 63)

/-- TEMP of start point `k` of a page, none where absent (R528). -/
def startTemp (p : List Nat) (k : Nat) : Option Int :=
  let w := fieldLE p (0x160 + 80 * k) 2
  if w = 0x8000 then none else some (signed 16 w)

/-- Strictly rising integers. -/
def risingInts : List Int → Bool
  | a :: b :: r => decide (a < b) && risingInts (b :: r)
  | _ => true

/-- R527 to R529: the page is valid. -/
def pageOk (p : List Nat) : Bool :=
  let temps := (List.range 4).filterMap (startTemp p)
  p.length == 4096 && slice p 0 4 == [0x4C, 0x4B, 0x50, 0x47] && p.getD 4 0 == 1 &&
  fieldLE p 0xFFC 4 == crc32c (p.take 0xFFC) &&
  (List.range 48).all (fun l => ffeOk (p.drop (0x80 + 3 * l))) &&
  (List.range 4).all (fun q => ffeOk (p.drop (0x148 + 3 * q))) &&
  (slice p 0x110 48 ++ slice p 0x140 8 ++ slice p 0x154 4).all (fun c => decide (c < 16)) &&
  !temps.isEmpty && risingInts temps &&
  (List.range 4).all (fun k => (startTemp p k).isNone ||
    (List.range 8).all (fun l => slice p (0x160 + 80 * k + 8 + 6 * l + 3) 3 == [0, 0, 0]))

/-- The lockable page is valid now (R529). -/
def State.pageValid (s : State) : Bool := pageOk s.nvs.page

/-- What configuration space identifies the function by (R549): Vendor ID, Device ID, Revision ID, Class Code, Subsystem Vendor
ID and Subsystem ID. -/
def State.configIds (s : State) : List Nat :=
  [0x1D7C, 0x7440, s.get F.SYS_ID_STEPPING, 0x038000] ++
  (if s.pageValid then [fieldLE s.nvs.page 0x008 2, fieldLE s.nvs.page 0x00A 2] else [0x1D7C, 0x0000])

/-- The Device Serial Number of configuration space: the low 8 bytes of the device serial, zeros where DEVICE_ID has no value (R530,
R548). -/
def State.configSerial (s : State) : List Nat := slice ((s.otpValue 6).getD []) 48 8

/-! ### Host operations (R526) -/

/-- Bytes of host records written in [now − 3,600 s, now) (R526). -/
def State.hostRate (s : State) : Nat :=
  s.nvs.hostBytes.foldl (fun a p => if s.now ≤ p.1 + 3600 * tickS ∧ p.1 < s.now then a + p.2 else a) 0

/-- Common refusals of an operation: not ready, or the address or length out of format (R525, R526). -/
def State.nvsPre (s : State) (len : Nat) : Nat :=
  if !s.flag F.NVS_STATUS_READY then 0x1520
  else if 8192 < len then 0x1521
  else 0

/-- Refuse an operation with a code, logged. -/
def State.nvsRefuse (s : State) (code : Nat) : State :=
  let a0 := s.get F.NVS_REQ_ID_TYPE * 65536 + s.get F.NVS_REQ_ID_KEY
  (s.event code 0 a0 0).nvsResult code 0 0

/-- Start a host operation by a write of NVS_REQ: kept out and logged while BUSY (R526). -/
def State.nvsStart (s : State) (op dup len : Nat) (k : State → State) : State :=
  if s.flag F.NVS_STATUS_BUSY then s.event 0x1520 0 (s.get F.NVS_REQ_ID_TYPE * 65536 + s.get F.NVS_REQ_ID_KEY) 0
  else
    let s1 := ((s.put F.NVS_REQ_OP op).put F.NVS_REQ_DUP dup).put F.NVS_REQ_LEN len
    let c := s1.nvsPre len
    if c ≠ 0 then s1.nvsRefuse c else k s1

/-- The address of the request (R526: 64-byte units). -/
def State.nvsAddr (s : State) : Nat := s.get F.NVS_REQ_ADDR_ADDR * 64

/-- R526 READ. -/
def State.nvsOpRead (s : State) : State :=
  let typ := s.get F.NVS_REQ_ID_TYPE
  let key := s.get F.NVS_REQ_ID_KEY
  if typ = 0x0060 then s.nvsRefuse 0x1522
  else if typ = 0x0020 then
    match s.nvsCounter key with
    | none => s.nvsRefuse 0x1523
    | some (q, cells) =>
      let bs := cells.flatMap (leBytes 8)
      (s.store 15 s.nvsAddr bs).nvsResult 0 bs.length q
  else
    match s.nvsCurrent typ key with
    | none => s.nvsRefuse 0x1523
    | some r => if r.tomb then s.nvsRefuse 0x1523 else (s.store 15 s.nvsAddr r.payload).nvsResult 0 r.payload.length r.seq

/-- R526 WRITE and DELETE: host types only, the hourly rate, then a queued record. -/
def State.nvsOpWrite (s : State) (tomb : Bool) : State :=
  let typ := s.get F.NVS_REQ_ID_TYPE
  let key := s.get F.NVS_REQ_ID_KEY
  let dup := !tomb && s.flag F.NVS_REQ_DUP
  let payload := if tomb then [] else s.read s.nvsAddr (s.get F.NVS_REQ_LEN)
  let bytes := recBytes payload.length * (if dup then 2 else 1)
  if typ < 0x8000 then s.nvsRefuse 0x1522
  else if 1048576 < s.hostRate + bytes then s.nvsRefuse 0x1524
  else
    let r := (if tomb then s else s.noteRead 15 s.nvsAddr (s.get F.NVS_REQ_LEN)).nvsWrite .host 3 typ key dup tomb payload
    if r.1 = 0 then
      { (r.2.put F.NVS_STATUS_BUSY 1) with nvs := { (r.2.put F.NVS_STATUS_BUSY 1).nvs with
          hostBytes := (s.now, bytes) :: s.nvs.hostBytes } }
    else r.2.nvsResult r.1 0 0

/-- R526 PAGE_READ. -/
def State.nvsOpPage (s : State) : State := (s.store 15 s.nvsAddr s.nvs.page).nvsResult 0 4096 0

/-- R526 OTP_READ: slot states, then the newest valid payload for ROOT_HASH, SETTINGS and PAGE_LOCK only. -/
def State.nvsOpOtp (s : State) : State :=
  let g := s.get F.NVS_REQ_ID_KEY / 256
  if 9 ≤ g then s.nvsRefuse 0x1521
  else
    let st := (s.otpGroup g).map (·.st)
    let v := if g = 0 ∨ g = 7 ∨ g = 8 then (s.otpValue g).getD [] else []
    (s.store 15 s.nvsAddr (st ++ v)).nvsResult 0 (st ++ v).length 0

/-! ### Meanings -/

/-- NVS_STARTUP_SCAN (R525). -/
def execNvsStartupScan (t : Nat) (bad : List Nat) (s : State) : Out :=
  .next (if s.flag F.NVS_STATUS_READY then s.tick t else (s.tick t).nvsScan bad)

/-- RECORD_WRITE_COMPLETE (R514). -/
def execRecordWriteComplete (t fails : Nat) (s : State) : Out := .next ((s.tick t).recordWriteComplete fails)

/-- ERASE_COMPLETE (R513). -/
def execEraseComplete (t : Nat) (ok : Bool) (s : State) : Out := .next ((s.tick t).eraseComplete ok)

/-- NVS_SCRUB (R523). -/
def execNvsScrub (t : Nat) (weak : List Nat) (s : State) : Out := .next ((s.tick t).nvsScrub weak)

/-- COPY_REPAIR (R517). -/
def execCopyRepair (t : Nat) (s : State) : Out := .next ((s.tick t).copyRepair)

/-- COUNTER_UPDATE (R520). -/
def execCounterUpdate (t : Nat) (s : State) : Out := .next ((s.tick t).counterUpdate)

/-- READ (R526). -/
def execNvsRead (t : Nat) (s : State) : Out := .next (s.whenBar t (fun s => s.nvsStart 1 0 0 State.nvsOpRead))

/-- WRITE (R526). -/
def execNvsWrite (t dup len : Nat) (s : State) : Out :=
  .next (s.whenBar t (fun s => s.nvsStart 2 dup len (fun s => s.nvsOpWrite false)))

/-- DELETE (R526). -/
def execNvsDelete (t : Nat) (s : State) : Out := .next (s.whenBar t (fun s => s.nvsStart 3 0 0 (fun s => s.nvsOpWrite true)))

/-- PAGE_READ (R526). -/
def execNvsPageRead (t : Nat) (s : State) : Out := .next (s.whenBar t (fun s => s.nvsStart 4 0 0 State.nvsOpPage))

/-- OTP_READ (R526). -/
def execNvsOtpRead (t : Nat) (s : State) : Out := .next (s.whenBar t (fun s => s.nvsStart 5 0 0 State.nvsOpOtp))

end Sys2Proof.Machine
end

