-- ==== Sys2Proof/Machine/Security.lean ====
section
/-!
DEFINITION. The security module's mailbox (R533 to R542): requests, authentication, every command of R540, sessions, nonces
and key components. Cryptographic outcomes (a signature, an HMAC or a tag verifies; an unwrapped key; DRBG bytes) are what
the command carries. Zeroisation's reach into other units is in SecurityEvents.
-/

namespace Sys2Proof.Machine

/-- Set the module's state with its registers: STATE, APPROVED and the copy in SYS_STATUS (R537, R574). -/
def State.setSec (s : State) (st : SecSt) : State :=
  let code := match st with
    | .selfTest => 0 | .operational => 1 | .error => 2
  let ap := if st = .operational then 1 else 0
  (({ s with sec := { s.sec with st := st } }.put F.SEC_STATUS_STATE code).put F.SEC_STATUS_APPROVED ap).put
    F.SYS_STATUS_APPROVED ap

/-- The module is OPERATIONAL and no zeroisation holds it (R537, R538). -/
def State.secOk (s : State) : Bool := s.sec.st == .operational && !s.sec.burning

/-- End the user session (R535). -/
def State.endSession (s : State) : State :=
  { s with sec := { s.sec with session := none } }.put F.SEC_STATUS_ROLE 0

/-- A request read from the mailbox address (R539). -/
structure SecReq where
  cmd : Nat
  session : Nat
  len : Nat
  counter : Nat
  body : List Nat
  trailer : List Nat
  /-- Reserved bytes 0 and lengths consistent. -/
  okForm : Bool
deriving DecidableEq, Repr

/-- Bytes of a command's body (R540). -/
def bodyLen (cmd : Nat) : Nat :=
  match cmd with
  | 0x10 | 0x12 | 0x24 => 48
  | 0x13 => 4
  | 0x20 => 8
  | 0x21 => 64
  | 0x23 => 16
  | 0x25 => 76
  | 0x26 => 4096
  | _ => 0

/-- Read the request at SEC_MB_ADDR (R539). -/
def State.secRequest (s : State) : SecReq :=
  let a := s.get F.SEC_MB_ADDR_ADDR * 64
  let n := s.get F.SEC_MB_LEN_LEN
  let b := s.read a n
  let cmd := fieldLE b 0 2
  let len := fieldLE b 8 4
  let tl := trailerLen (roleOf cmd)
  ⟨cmd, fieldLE b 4 4, len, fieldLE b 12 4, slice b 16 len, slice b (16 + len) tl,
   decide (16 ≤ n) && fieldLE b 2 2 == 0 && n == 16 + len + tl && len == bodyLen cmd⟩

/-- The keeper bridge reads the request (R407, R539). -/
def State.noteRequest (s : State) : State := s.noteRead 15 (s.get F.SEC_MB_ADDR_ADDR * 64) (s.get F.SEC_MB_LEN_LEN)

/-- The newest nonce still usable: issued within 10 s and unused (R535). -/
def State.freshNonce (s : State) : Option Nonce :=
  s.sec.nonces.find? (fun n => !n.used && decide (s.now < n.at_ + 10 * tickS))

/-- The nonce with these bytes, if it may serve a command now (R535). -/
def State.nonceOk (s : State) (b : List Nat) : Bool :=
  s.sec.nonces.any (fun n => n.bytes == b && !n.used && decide (s.now < n.at_ + 10 * tickS))

/-- A nonce serves one command (R535). -/
def State.useNonce (s : State) (b : List Nat) : State :=
  { s with sec := { s.sec with nonces := s.sec.nonces.map (fun n => if n.bytes = b then { n with used := true } else n) } }

/-- Authentication of a request (R535, R537, R539): the code of the first failure, 0 for none; `auth` says that the
signature, tag or HMAC verifies. -/
def State.secAuth (s : State) (r : SecReq) (auth : Bool) : Nat :=
  if !r.okForm then 0x1621
  else if s.sec.st ≠ .operational ∧ r.cmd ≠ 1 ∧ r.cmd ≠ 4 then 0x1626
  else match roleOf r.cmd with
    | .none_ => 0
    | .openUser => if s.freshNonce.isNone then 0x1624 else if auth then 0 else 0x1622
    | .user =>
      match s.sec.session with
      | none => 0x1623
      | some u => if u.id ≠ r.session ∨ u.last + 60 * tickS ≤ s.now then 0x1623
        else if auth = false ∨ r.counter ≠ u.counter + 1 then 0x1622 else 0
    | .officer => if s.nonceOk (r.trailer.take 32) then (if auth then 0 else 0x1622) else 0x1624

/-- Account for an accepted request: the session's counter and time, or the officer's nonce (R535). -/
def State.secAccept (s : State) (r : SecReq) : State :=
  match roleOf r.cmd with
  | .user => { s with sec := { s.sec with session := s.sec.session.map (fun u => { u with counter := r.counter, last := s.now }) } }
  | .officer => s.useNonce (r.trailer.take 32)
  | .openUser => match s.freshNonce with
    | some n => s.useNonce n.bytes
    | none => s
  | .none_ => s

/-- A command stays running (R542). -/
def State.secRun (s : State) (cmd : Nat) : State :=
  ({ s with sec := { s.sec with running := some cmd } } : State).put F.SEC_MB_CTRL_BUSY 1

/-- R539, R542: GO written for command `cmd`: ignored and logged while BUSY; else the request is read and authenticated and
`k` gives the command's code, body and effect; a command that waits for a record write stays running (R522). A request for another
command is not this command's step, and one written while a zeroisation holds the module waits for its end (R542). -/
def State.secCommand (s : State) (cmd : Nat) (auth : Bool) (tag : List Nat)
    (k : SecReq → State → Nat × List Nat × State) : State :=
  if s.flag F.SEC_MB_CTRL_BUSY then s.event 0x1620 0 cmd 0
  else
    let r := s.secRequest
    if r.cmd ≠ cmd then s
    else
    let s := s.noteRequest
    if s.sec.burning then s.secRun cmd
    else
      let c := s.secAuth r auth
      if c ≠ 0 then s.secRespond cmd c [] tag
      else
        let s1 := s.secAccept r
        let x := k r s1
        if x.1 ≠ 0 then x.2.2.secRespond cmd x.1 [] tag
        else if s1.respFits cmd x.2.1 = false then s1.secRespond cmd 0 x.2.1 tag
        else if x.2.2.sec.running.isSome then x.2.2
        else x.2.2.secRespond cmd 0 x.2.1 tag

/-- The generation bytes of the nine OTP groups (R540). -/
def State.otpGens (s : State) : List Nat := (List.range 9).map s.otpGen

/-- Body of STATUS (R540): state, APPROVED, role, TAMPER, generations. -/
def State.secStatusBody (s : State) : List Nat :=
  [s.get F.SEC_STATUS_STATE, s.get F.SEC_STATUS_APPROVED, s.get F.SEC_STATUS_ROLE, s.sec.tamper] ++ s.otpGens

/-- R541: the ATTEST statement without its signature. -/
def State.attestBody (s : State) (nonce : List Nat) : List Nat :=
  let im := s.sho.run
  slice ((s.otpValue 6).getD []) 48 16 ++ [s.get F.SYS_ID_STEPPING, s.get F.SEC_STATUS_APPROVED] ++ s.otpGens ++ [0] ++
  leBytes 4 ((im.map (·.serial)).getD 0) ++ slice ((im.map (·.digest)).getD []) 0 48 ++ leBytes 4 (s.get F.SYS_FW_SERIAL) ++
  leBytes 4 (s.minSerial 0) ++ leBytes 4 (s.minSerial 1) ++ [0, 0, 0, 0] ++ slice nonce 0 48

/-- GET_NONCE: a fresh 32-byte nonce (R540). -/
def secGetNonce (rnd : List Nat) (_ : SecReq) (s : State) : Nat × List Nat × State :=
  let b := slice rnd 0 32
  (0, b, { s with sec := { s.sec with nonces := { bytes := b, at_ := s.now } :: s.sec.nonces } })

/-- DEVICE_PUBKEY: the public key (`pub`, computed from the private scalar) and the serial (R540). -/
def secPubkey (pub : List Nat) (_ : SecReq) (s : State) : Nat × List Nat × State :=
  match s.otpValue 6 with
  | none => (0x1627, [], s)
  | some v => (0, slice pub 0 97 ++ slice v 48 16, s)

/-- OPEN_USER: opens a session (R535). -/
def secOpenUser (_ : SecReq) (s : State) : Nat × List Nat × State :=
  match s.nvsValue 0x0060 0, s.otpValue 1 with
  | some _, some _ =>
    let id := s.sec.nextSession
    (0, leBytes 4 id, { s with sec := { s.sec with session := some ⟨id, 0, s.now⟩, nextSession := id + 1 } }.put F.SEC_STATUS_ROLE 1)
  | _, _ => (0x1627, [], s)

/-- ATTEST (R541); `sig` is the 96-byte signature. -/
def secAttest (sig : List Nat) (r : SecReq) (s : State) : Nat × List Nat × State :=
  match s.otpValue 6 with
    | none => (0x1627, [], s)
    | some _ => (0, s.attestBody r.body ++ slice sig 0 96, s)

/-- RANDOM: `rnd` are the DRBG's bytes (R540). -/
def secRandom (rnd : List Nat) (r : SecReq) (s : State) : Nat × List Nat × State :=
  let n := fieldLE r.body 0 4
  if n < 1 ∨ 4096 < n then (0x1621, [], s) else (0, slice rnd 0 n, s)

/-- RAISE_MIN_SERIAL (R540): a SERIAL below the current one is refused. -/
def secRaiseSerial (r : SecReq) (s : State) : Nat × List Nat × State :=
  let kind := r.body.getD 0 0
  let v := fieldLE r.body 4 4
  if 1 < kind ∨ slice r.body 1 3 ≠ [0, 0, 0] then (0x1621, [], s)
  else if v < s.minSerial kind then (0x1621, [], s)
  else
    let w := s.nvsWrite .security 2 0x0010 kind true false (leBytes 4 v)
    (w.1, [], if w.1 = 0 then w.2.secRun 0x20 else w.2)

/-- The exclusive or of two byte strings. -/
def xorBytes (a b : List Nat) : List Nat := (a.zip b).map (fun p => Nat.xor p.1 p.2)

/-- PROVISION_KEY (R540, R532): wrapped under the KEK (`plain` is the unwrapped key, none where its tag fails), or the KEK
by split knowledge while it has no value. -/
def secProvision (plain : Option (List Nat)) (r : SecReq) (s : State) : Nat × List Nat × State :=
  let g := r.body.getD 0 0
  let comp := r.body.getD 1 0
  let field := slice r.body 16 32
  let zeros := (slice r.body 4 12 ++ slice r.body 48 16).all (· == 0)
  if g < 1 ∨ 5 < g then (0x1621, [], s)
  else if comp ≠ 0 then
    if g ≠ 1 ∨ (s.otpValue 1).isSome ∨ 2 < comp ∨ zeros = false ∨ slice r.body 2 2 ≠ [0, 0] then (0x1621, [], s)
    else if !s.otpSpare 1 then (0x1625, [], s)
    else if comp = 1 then (0, [], { s with sec := { s.sec with component := some (1, field, s.now) } })
    else match s.sec.component with
      | some (1, b, at0) =>
        if s.now < at0 + 60 * tickS then
          (0, [], { (s.otpProgram 1 (xorBytes b field)) with sec := { s.sec with component := none } })
        else (0x1621, [], s)
      | _ => (0x1621, [], s)
  else if slice r.body 2 2 ≠ [0, 0] then (0x1621, [], s)
  else if (s.otpValue 1).isNone then (0x1627, [], s)
  else if !s.otpSpare g then (0x1625, [], s)
  else match plain with
    | none => (0x1621, [], s)
    | some k => (0, [], s.otpProgram g (slice k 0 32))

/-- GEN_DEVICE_KEY: `scalar` and `pub` are the generated pair; the serial is kept (R540, R532). -/
def secGenKey (scalar pub : List Nat) (_ : SecReq) (s : State) : Nat × List Nat × State :=
  if !s.otpSpare 6 then (0x1625, [], s)
  else
    let serial := slice ((s.otpValue 6).getD []) 48 16
    (0, slice pub 0 97, s.otpProgram 6 (slice scalar 0 48 ++ serial))

/-- DEBUG_LOCK of a SETTINGS payload stops the trace (R538, R581). -/
def State.lockTrace (s : State) (settings : List Nat) : State :=
  if bitAt (settings.getD 0 0) 0 then (s.put F.DBG_TRACE_CTRL_EN 0).put F.DBG_TRACE_STATUS_STATE 0 else s

/-- SET_SETTINGS and ROTATE_ROOT: a new value of a group (R540, R532). -/
def secSetGroup (g : Nat) (r : SecReq) (s : State) : Nat × List Nat × State :=
  if !s.otpSpare g then (0x1625, [], s)
  else (0, [], (s.otpProgram g r.body).lockTrace (if g = 7 then r.body else []))

/-- INSTALL_USER_KEY: the wrapped key goes into record SEC_USER_KEY (R519, R540). -/
def secInstallUser (r : SecReq) (s : State) : Nat × List Nat × State :=
  if (s.otpValue 1).isNone then (0x1627, [], s)
  else
    let w := s.nvsWrite .security 2 0x0060 0 true false r.body
    (w.1, [], if w.1 = 0 then w.2.secRun 0x25 else w.2)

/-- PAGE_WRITE (R529). -/
def secPageWrite (r : SecReq) (s : State) : Nat × List Nat × State :=
  if s.pageLocked then (0x1531, [], s.event 0x1531 0 0 0)
  else if !pageOk r.body then (0x1530, [], s.event 0x1530 0 0 0)
  else (0, [], { s with nvs := { s.nvs with page := r.body } })

/-- PAGE_LOCK (R529): programs the PAGE_LOCK group. -/
def secPageLock (_ : SecReq) (s : State) : Nat × List Nat × State :=
  if !s.otpSpare 8 then (0x1625, [], s)
  else (0, [], s.otpProgram 8 (leBytes 4 0x4C4F434B))

/-! ### Meanings -/

/-- STATUS (R540). -/
def execSecStatus (t : Nat) (s : State) : Out :=
  .next (s.whenBar t (fun s => s.secCommand 1 true [] (fun _ s => (0, s.secStatusBody, s))))

/-- GET_NONCE (R540). -/
def execGetNonce (t : Nat) (rnd : List Nat) (s : State) : Out := .next (s.whenBar t (fun s => s.secCommand 2 true [] (secGetNonce rnd)))

/-- DEVICE_PUBKEY (R540). -/
def execDevicePubkey (t : Nat) (pub : List Nat) (s : State) : Out := .next (s.whenBar t (fun s => s.secCommand 3 true [] (secPubkey pub)))

/-- SELF_TEST (R537, R540): the module goes to SELF_TEST and the command stays running until the tests end. -/
def State.secSelfTest (s : State) : State :=
  if s.flag F.SEC_MB_CTRL_BUSY then s.event 0x1620 0 4 0
  else
    let r := s.secRequest
    if r.cmd ≠ 4 then s
    else
    let s := s.noteRequest
    if s.sec.burning then s.secRun 4
    else if !r.okForm then s.secRespond 4 0x1621 [] []
    else (s.setSec .selfTest).secRun 4

/-- SELF_TEST (R540). -/
def execSelfTest (t : Nat) (s : State) : Out := .next (s.whenBar t State.secSelfTest)

/-- OPEN_USER (R535). -/
def execOpenUser (t : Nat) (auth : Bool) (s : State) : Out := .next (s.whenBar t (fun s => s.secCommand 0x10 auth [] secOpenUser))

/-- CLOSE (R540): the response is tagged under the session, then the session ends. -/
def State.secClose (s : State) (auth : Bool) (tag : List Nat) : State :=
  let ok := !s.sec.burning && !s.flag F.SEC_MB_CTRL_BUSY && s.secRequest.cmd == 0x11 && s.secAuth s.secRequest auth == 0 &&
    s.respFits 0x11 []
  let s1 := s.secCommand 0x11 auth tag (fun _ s => (0, [], s))
  if ok then s1.endSession else s1

/-- CLOSE (R540). -/
def execClose (t : Nat) (auth : Bool) (tag : List Nat) (s : State) : Out := .next (s.whenBar t (fun s => s.secClose auth tag))

/-- ATTEST (R541). -/
def execAttest (t : Nat) (auth : Bool) (sig tag : List Nat) (s : State) : Out :=
  .next (s.whenBar t (fun s => s.secCommand 0x12 auth tag (secAttest sig)))

/-- RANDOM (R540). -/
def execRandom (t : Nat) (auth : Bool) (rnd tag : List Nat) (s : State) : Out :=
  .next (s.whenBar t (fun s => s.secCommand 0x13 auth tag (secRandom rnd)))

/-- RAISE_MIN_SERIAL (R540). -/
def execRaiseMinSerial (t : Nat) (auth : Bool) (s : State) : Out := .next (s.whenBar t (fun s => s.secCommand 0x20 auth [] secRaiseSerial))

/-- PROVISION_KEY (R540): `plain` is the key unwrapped under the KEK, none where the wrap's tag fails. -/
def execProvisionKey (t : Nat) (auth : Bool) (plain : Option (List Nat)) (s : State) : Out :=
  .next (s.whenBar t (fun s => s.secCommand 0x21 auth [] (secProvision plain)))

/-- GEN_DEVICE_KEY (R540). -/
def execGenDeviceKey (t : Nat) (auth : Bool) (scalar pub : List Nat) (s : State) : Out :=
  .next (s.whenBar t (fun s => s.secCommand 0x22 auth [] (secGenKey scalar pub)))

/-- SET_SETTINGS (R540). -/
def execSetSettings (t : Nat) (auth : Bool) (s : State) : Out := .next (s.whenBar t (fun s => s.secCommand 0x23 auth [] (secSetGroup 7)))

/-- ROTATE_ROOT (R540). -/
def execRotateRoot (t : Nat) (auth : Bool) (s : State) : Out := .next (s.whenBar t (fun s => s.secCommand 0x24 auth [] (secSetGroup 0)))

/-- INSTALL_USER_KEY (R540). -/
def execInstallUserKey (t : Nat) (auth : Bool) (s : State) : Out := .next (s.whenBar t (fun s => s.secCommand 0x25 auth [] secInstallUser))

/-- PAGE_WRITE (R529). -/
def execPageWrite (t : Nat) (auth : Bool) (s : State) : Out := .next (s.whenBar t (fun s => s.secCommand 0x26 auth [] secPageWrite))

/-- PAGE_LOCK (R529). -/
def execPageLock (t : Nat) (auth : Bool) (s : State) : Out := .next (s.whenBar t (fun s => s.secCommand 0x27 auth [] secPageLock))

/-- R537: burn slots left by a zeroisation cut short (R538: no valid KEK but another key valid). -/
def State.burnLeftovers (s : State) : State :=
  if (s.otpValue 1).isNone ∧ ([2, 3, 4, 5, 6].any (fun g => (s.otpValue g).isSome)) = true then
    [2, 3, 4, 5, 6].foldl (fun s g => s.otpBurn g) s
  else s

/-- SELF_TEST_COMPLETE (R536, R537): every test passed or not; a SELF_TEST command is answered with the result. -/
def State.selfTestComplete (s : State) (pass : Bool) : State :=
  if s.sec.st = .selfTest ∧ s.sec.burning = false then
    let s0 := s.burnLeftovers
    let s1 := if pass then s0.setSec .operational else ((s0.setSec .error).endSession).event 0x1610 0 0 0
    if s1.sec.running = some 4 then s1.secRespond 4 0 [b2n (!pass)] [] else s1
  else s

/-- SELF_TEST_COMPLETE (R536). -/
def execSelfTestComplete (t : Nat) (pass : Bool) (s : State) : Out := .next ((s.tick t).selfTestComplete pass)

/-- CONDITIONAL_TEST_FAIL (R537): entry to ERROR ends the session (R535). -/
def execConditionalTestFail (t : Nat) (s : State) : Out :=
  .next (if s.sec.st = .operational then (((s.tick t).setSec .error).endSession).event 0x1611 0 0 0 else s.tick t)

/-- SESSION_TIMEOUT (R535): 60 s without a request. -/
def execSessionTimeout (t : Nat) (s : State) : Out :=
  .next (match s.sec.session with
    | some u => if u.last + 60 * tickS ≤ max s.now t then (s.tick t).endSession else s.tick t
    | none => s.tick t)

/-- COMPONENT_TIMEOUT (R540): a component without its partner for 60 s is discarded. -/
def execComponentTimeout (t : Nat) (s : State) : Out :=
  .next (match s.sec.component with
    | some (_, _, at0) => if at0 + 60 * tickS ≤ max s.now t then { s.tick t with sec := { s.sec with component := none } } else s.tick t
    | none => s.tick t)

end Sys2Proof.Machine
end

