-- ==== Sys2Proof/Machine/Registry.lean ====
section
/-!
DEFINITION. The Ray Registry engine (R181 to R213): registry addresses, the rebuild of a ray, set loads, zone runs and their
publication, registry faults, and lane trims.
-/

namespace Sys2Proof.Machine

/-! ### Geometry (R9, R181 to R186) -/

/-- The running panel record; an empty one before the first image. -/
def State.panel (s : State) : PanelDesc :=
  match s.sho.run with
  | some im => im.panel
  | none => ⟨0, 0, 0, 0, 0, 0, 0, 0, 0, []⟩

/-- PATCH_W (R181). -/
def PanelDesc.patchW (p : PanelDesc) : Nat := ceilDiv p.width 8
/-- PATCH_H (R181). -/
def PanelDesc.patchH (p : PanelDesc) : Nat := ceilDiv p.height 4
/-- Subpixel columns of the panel (R9). -/
def PanelDesc.cols (p : PanelDesc) : Nat := 3 * p.width

/-- A tile group has tiles (R47). -/
def PanelDesc.hasGroup (p : PanelDesc) (n : Nat) : Bool := decide (0 < (p.groups.getD n ⟨0, 0, 0, 0⟩).w)

/-- Whether a pixel lies in a group rectangle. -/
def GroupRect.has (g : GroupRect) (x y : Nat) : Bool :=
  decide (g.x0 ≤ x) && decide (x < g.x0 + g.w) && decide (g.y0 ≤ y) && decide (y < g.y0 + g.h)

/-- The group that contains a pixel (R47: the rectangles tile the panel). -/
def PanelDesc.groupAt (p : PanelDesc) (x y : Nat) : Nat := p.groups.findIdx (fun g => g.has x y)

/-- The zone of patch k (R182). -/
def PanelDesc.zoneOf (p : PanelDesc) (k : Nat) : Nat := p.groupAt (8 * (k % max p.patchW 1)) (4 * (k / max p.patchW 1))

/-- Entry indices of a zone, in index order. -/
def PanelDesc.zoneEntries (p : PanelDesc) (n : Nat) : List Nat :=
  (List.range (p.patchW * p.patchH)).filter (fun k => p.zoneOf k == n)

/-- Bytes from one set, or live half, to the next (R183). -/
abbrev regStride : Nat := 134217728

/-- Address of entry k of set `i` (R183). -/
def State.setAddr (s : State) (i k : Nat) : Nat := s.regionBase 1 + i * regStride + 8 * k

/-- Address of entry k of live half `h` (R183). -/
def State.liveAddr (s : State) (h k : Nat) : Nat := s.regionBase 2 + h * regStride + 8 * k

/-- The fields of a registry entry (R184). -/
structure RegEntry where
  u0 : Nat
  dux : Int
  duy : Int
  v0 : Nat
  dvy : Int
deriving DecidableEq, Repr

/-- Unpack an entry (R184). -/
def unpackEntry (w : Nat) : RegEntry :=
  ⟨bitsOf w 63 46, signed 15 (bitsOf w 45 31), signed 12 (bitsOf w 30 19), bitsOf w 18 9, signed 9 (bitsOf w 8 0)⟩

/-- Pack an entry (R184). -/
def packEntry (e : RegEntry) : Nat :=
  (e.u0 % 2 ^ 18) * 2 ^ 46 + unsigned 15 e.dux * 2 ^ 31 + unsigned 12 e.duy * 2 ^ 19 + (e.v0 % 2 ^ 10) * 2 ^ 9 + unsigned 9 e.dvy

/-- A valid set, for the mapping coefficients that every valid set shares (R188). -/
def State.coefs (s : State) : Option RegSet := s.rrg.sets.find? (fun x => x.valid)

/-- Phases of subpixel (i, j) of a patch, in units of 2^-18 cycle (R185). -/
def RegEntry.phase (e : RegEntry) (i j : Nat) : Nat × Nat :=
  ((((e.u0 : Int) + 8 * (i : Int) * e.dux + 64 * (j : Int) * e.duy) % (2 ^ 18 : Nat)).toNat,
   ((256 * (e.v0 : Int) + 512 * (j : Int) * e.dvy) % (2 ^ 18 : Nat)).toNat)

/-- The ray of subpixel (x, y) under its patch's entry: the tangents in fp32 (R185). -/
def rayOf (p : PanelDesc) (c : RegSet) (e : RegEntry) (x y : Nat) : Rat × Rat :=
  let ph := e.phase (x % 24) (y % 4)
  let q16 : Rat := 65536
  let q32 : Rat := ((2 ^ 32 : Nat) : Rat)
  let dx : Rat := (x : Rat) - 3 * (p.width : Rat) / 2
  let dy : Rat := (y : Rat) - (p.height : Rat) / 2
  let u : Rat := (ph.1 : Rat) / ((2 ^ 18 : Nat) : Rat)
  let v : Rat := (ph.2 : Rat) / ((2 ^ 18 : Nat) : Rat)
  (rndF32 ((c.hCentre : Rat) / q16 + (c.hX : Rat) / q32 * dx + (c.hY : Rat) / q32 * dy + (u - 1 / 2) * ((c.hSpan : Rat) / q16)),
   rndF32 ((c.vCentre : Rat) / q16 + (c.vX : Rat) / q32 * dx + (c.vY : Rat) / q32 * dy + (v - 1 / 2) * ((c.vSpan : Rat) / q16)))

/-- The cone spreads Δ_h and Δ_v of a set's coefficients over a panel (R186). -/
def spreads (p : PanelDesc) (c : RegSet) : Rat × Rat :=
  let q16 : Rat := 65536
  let q32 : Rat := ((2 ^ 32 : Nat) : Rat)
  ((c.hSpan : Rat) / q16 + (c.hX.natAbs : Rat) / q32 * ((p.cols - 1 : Nat) : Rat) + (c.hY.natAbs : Rat) / q32 * ((p.height - 1 : Nat) : Rat),
   (c.vSpan : Rat) / q16 + (c.vX.natAbs : Rat) / q32 * ((p.cols - 1 : Nat) : Rat) + (c.vY.natAbs : Rat) / q32 * ((p.height - 1 : Nat) : Rat))

/-- An unsigned 8.8 field of a non-negative rational, saturating (R177); rounded up, so that the real cone is never wider than SLT_GEOM
reports (R165; DEDUCED, log entry 173). -/
def fix88 (x : Rat) : Nat := min 0xFFFF (x * 256).ceil.toNat

/-- R177, R186: recompute SLT_GEOM from the valid sets. -/
def State.setGeom (s : State) : State :=
  match s.coefs with
  | none => (s.put F.SLT_GEOM_DELTA_H 0).put F.SLT_GEOM_DELTA_V 0
  | some c =>
    let d := spreads s.panel c
    (s.put F.SLT_GEOM_DELTA_H (fix88 d.1)).put F.SLT_GEOM_DELTA_V (fix88 d.2)

/-! ### Zones (R191 to R199) -/

/-- STATE of a zone (R198): 0 IDLE, 1 QUEUED, 2 RUNNING, 3 PENDING, 4 HALTED. -/
def State.zoneSt (s : State) (n : Nat) : Nat := s.get (F.RRG_ZONE_STATUS_STATE.nth n)

/-- Zone `n`. -/
def State.zone (s : State) (n : Nat) : Zone := s.rrg.zones.getD n {}

/-- Change zone `n`. -/
def State.onZone (s : State) (n : Nat) (f : Zone → Zone) : State :=
  { s with rrg := { s.rrg with zones := modAt s.rrg.zones n f } }

/-- Set a zone's state. -/
def State.setZone (s : State) (n st : Nat) : State := s.put (F.RRG_ZONE_STATUS_STATE.nth n) st

/-- A zone is built (R199). -/
def State.zoneBuilt (s : State) (n : Nat) : Bool := s.flag (F.RRG_ZONE_STATUS_BUILT.nth n)

/-- Every zone is built (R199). -/
def State.allBuilt (s : State) : Bool := (List.range 8).all s.zoneBuilt

/-- Trigger a zone (R191, R197, R198); the zone of an empty group is never queued (R199). -/
def State.trigger (s : State) (n : Nat) : State :=
  if !s.panel.hasGroup n then s
  else match s.zoneSt n with
    | 0 => (s.onZone n (fun z => { z with trigAt := s.now })).setZone n 1
    | 1 => s
    | 4 => s.onZone n (fun z => { z with requeue := true, trigAt := if z.requeue then z.trigAt else s.now })
    | _ => s.onZone n (fun z => { z with again := true, againAt := if z.again then z.againAt else s.now })

/-- Trigger every zone (R189, R199). -/
def State.triggerAll (s : State) : State := (List.range 8).foldl State.trigger s

/-- ZONE_TEMP_REPORT (R191, R192): a report in signed 8.8 °C. -/
def State.zoneReport (s : State) (n temp : Nat) : State :=
  let lost := s.flag (F.RRG_ZONE_STATUS_TEMP_LOST.nth n)
  let s1 := (s.put (F.RRG_ZONE_TEMP_TEMP.nth n) temp).onZone n (fun z => { z with reported := true, since := some s.now })
  let s2 := if lost then s1.put (F.RRG_ZONE_STATUS_TEMP_LOST.nth n) 0 else s1
  let d := signed 16 temp - s.getS (F.RRG_ZONE_STATUS_RUN_TEMP.nth n)
  -- 8.8 against sixteenths of a degree
  if s2.flag F.RRG_CTRL_ZONE_TRIM_EN ∧ s2.get F.RRG_TRIGGER_ZONE_DELTA * 16 < d.natAbs then s2.trigger n else s2

/-- ZONE_TEMP_TIMEOUT (R192): 100 ms without a report; none is declared before the group entered EXCHANGE, and none for an empty group. -/
def State.zoneTempTimeout (s : State) (n : Nat) : State :=
  match (s.zone n).since with
  | none => s
  | some t0 =>
    if s.panel.hasGroup n = false ∨ s.flag (F.RRG_ZONE_STATUS_TEMP_LOST.nth n) ∨ s.now < t0 + 100 * tickMs then s
    else (s.put (F.RRG_ZONE_STATUS_TEMP_LOST.nth n) 1).event 0x0720 0 n 0

/-- Slots that a run may use (R189, R190, R200): valid, not CORRUPT, and not being loaded. -/
def State.usableSets (s : State) : List (Nat × RegSet) :=
  let busy : Option Nat := if s.flag F.RRG_SET_STATUS_BUSY then some (s.rrg.file.getD 5 0) else none
  (s.rrg.sets.zipIdx.filter (fun q => q.1.valid && !q.1.corrupt && busy != some q.2)).map (fun q => (q.2, q.1))

/-- The sets of a run at temperature T (R193): equal slots mean one set. Sets rise in TEMP with their slot (R188). -/
def runSets (sets : List (Nat × RegSet)) (t : Int) : Option (Nat × Nat) :=
  match sets.filter (fun q => decide (q.2.temp ≤ t)), sets.filter (fun q => decide (t ≤ q.2.temp)) with
  | [], [] => none
  | [], h :: _ => some (h.1, h.1)
  | l, [] => l.getLast?.map (fun q => (q.1, q.1))
  | l, h :: _ => l.getLast?.map (fun q => if q.2.temp = t then (q.1, q.1) else (q.1, h.1))

/-- The queued zone the engine takes next: oldest trigger, lower zone first (R194). -/
def State.nextZone (s : State) : Option Nat :=
  (List.range 8).foldl (fun b n =>
    if s.zoneSt n ≠ 1 then b
    else match b with
      | none => some n
      | some m => if (s.zone n).trigAt < (s.zone m).trigAt then some n else b) none

/-- ZONE_RUN_START (R193, R194). -/
def State.zoneRunStart (s : State) : State :=
  match s.rrg.running, s.nextZone with
  | none, some n =>
    let sets := s.usableSets
    let t := if (s.zone n).reported then s.getS (F.RRG_ZONE_TEMP_TEMP.nth n) else ((sets.head?.map (·.2.temp)).getD 0)
    match runSets sets t with
    | none => s
    | some (lo, hi) =>
      let s1 := (s.onZone n (fun z => { z with runT := t, lo := lo, hi := hi, pubEpoch := 0 })).setZone n 2
      { s1 with rrg := { s1.rrg with running := some n } }
  | _, _ => s

/-- A rational rounded to the nearest integer, ties to even (R193). -/
def roundEvenR (x : Rat) : Int := if x.num < 0 then -((divEven x.num.natAbs x.den : Nat) : Int) else (divEven x.num.natAbs x.den : Nat)

/-- Interpolate a phase of `n` bits the shortest way round (R193). -/
def mixPhase (n lo hi : Nat) (w : Rat) : Nat :=
  let d := (((hi : Int) - lo) % (2 ^ n : Nat))
  let d1 := if ((2 ^ (n - 1) : Nat) : Int) ≤ d then d - (2 ^ n : Nat) else d
  (((lo : Int) + roundEvenR (w * (d1 : Rat))) % (2 ^ n : Nat)).toNat

/-- Interpolate a gradient (R193). -/
def mixGrad (lo hi : Int) (w : Rat) : Int := roundEvenR ((lo : Rat) + w * ((hi - lo : Int) : Rat))

/-- Interpolate an entry (R193). -/
def mixEntry (a b : RegEntry) (w : Rat) : RegEntry :=
  ⟨mixPhase 18 a.u0 b.u0 w, mixGrad a.dux b.dux w, mixGrad a.duy b.duy w, mixPhase 10 a.v0 b.v0 w, mixGrad a.dvy b.dvy w⟩

/-- w of R193. -/
def mixWeight (lo hi t : Int) : Rat := if hi = lo then 0 else ((t - lo : Int) : Rat) / ((hi - lo : Int) : Rat)

/-- R200: mark a slot CORRUPT, logged once per slot with the zone and the entry being run (R207). -/
def State.corruptSet (s : State) (i n k : Nat) : State :=
  if (s.rrg.sets.getD i {}).corrupt then s
  else
    let s1 := { s with rrg := { s.rrg with sets := modAt s.rrg.sets i (fun x => { x with corrupt := true }) } }
    (s1.put F.RRG_SET_STATUS_VALID (withBits (s1.get F.RRG_SET_STATUS_VALID) i i 0)).event 0x0723 0 n k

/-- R200: one entry of a zone's run, written into half `h`: from the sets, else the published half, else the neighbour. -/
def State.runEntry (s : State) (n h : Nat) (k : Nat) : State :=
  let z := s.zone n
  let aBad := s.readPoison (s.setAddr z.lo k) 8
  let bBad := s.readPoison (s.setAddr z.hi k) 8
  let dst := s.liveAddr h k
  if !aBad && !bBad then
    let a := s.readLE (s.setAddr z.lo k) 8
    let b := s.readLE (s.setAddr z.hi k) 8
    let w := mixWeight (s.rrg.sets.getD z.lo {}).temp (s.rrg.sets.getD z.hi {}).temp z.runT
    s.write dst (leBytes 8 (if z.lo = z.hi then a else packEntry (mixEntry (unpackEntry a) (unpackEntry b) w)))
  else
    let s1 := if aBad then s.corruptSet z.lo n k else s
    let s2 := if bBad then s1.corruptSet z.hi n k else s1
    let s2n := if s2.zoneBuilt n then s2.noteRead 6 (s2.liveAddr (1 - h) k) 8 else s2
    if s2.zoneBuilt n && !s2.readPoison (s2.liveAddr (1 - h) k) 8 then s2n.write dst (s2.read (s2.liveAddr (1 - h) k) 8)
    else
      let pw := s2.panel.patchW
      let nb := if k % max pw 1 = 0 then k - pw else k - 1
      let s3 := (s2n.event 0x0721 0 n k).count Reg.RRG_SNAP_ENTRY_LOST 1
      if k = 0 then
        let f := s3.free 7
        f.2.write dst (leBytes 8 f.1)
      else
        let m := s3.panel.zoneOf nb
        let hh := if m = n then h else s3.get (F.RRG_ZONE_STATUS_ACTIVE_HALF.nth m)
        s3.write dst (s3.read (s3.liveAddr hh nb) 8)

/-- Blocks of memory whose eight entries all belong to zone n: a run writes each of them whole, so that none stays poisoned in half `h`
(R200, R403). -/
def State.freshBlocks (s : State) (n h : Nat) : State :=
  let p := s.panel
  let whole := (p.zoneEntries n).filter (fun k => s.liveAddr h k % 64 == 0 &&
    (upFrom k 8).all (fun j => decide (j < p.patchW * p.patchH) && p.zoneOf j == n))
  whole.foldl (fun s k => s.setPoison (s.liveAddr h k / 64) false) s

/-- Publish a pending run (R195, R197, R198). -/
def State.zonePublish (s : State) (n : Nat) : State :=
  let z := s.zone n
  let h := s.get (F.RRG_ZONE_STATUS_ACTIVE_HALF.nth n)
  let s1 := (((s.put (F.RRG_ZONE_STATUS_ACTIVE_HALF.nth n) (1 - h)).put
    (F.RRG_ZONE_STATUS_BUILT.nth n) 1).putS (F.RRG_ZONE_STATUS_RUN_TEMP.nth n) z.runT).count Reg.RRG_SNAP_PUBLISHED 1
  if z.again then (s1.onZone n (fun z => { z with again := false, trigAt := z.againAt, pubEpoch := 0 })).setZone n 1
  else (s1.onZone n (fun z => { z with pubEpoch := 0 })).setZone n 0

/-- R189: a checked set takes its slot: entries, header, SLT_GEOM, and a run for every zone. -/
def State.installSet (s : State) (i : Nat) (x : RegSet) (entries : List Nat) : State :=
  let s1 := s.store 6 (s.setAddr i 0) entries
  let s2 := { s1 with rrg := { s1.rrg with sets := modAt s1.rrg.sets i (fun _ => x), parked := none, file := [] } }
  let s3 := (((s2.put F.RRG_SET_STATUS_VALID (withBits (s2.get F.RRG_SET_STATUS_VALID) i i 1)).putS
    (F.RRG_SET_TEMP_TEMP.nth i) x.temp).put F.RRG_SET_STATUS_BUSY 0).put F.RRG_SET_STATUS_DONE 1
  (s3.setGeom.triggerAll).raise 3

/-- ZONE_RUN_COMPLETE (R195, R198): every entry is written into the half not in use, and the zone is PENDING. Before the
first epoch no marker exists and the run is published at once (R94). A set that waited for the run takes its slot (R190). -/
def State.zoneRunComplete (s : State) : State :=
  match s.rrg.running with
  | none => s
  | some n =>
    let h := 1 - s.get (F.RRG_ZONE_STATUS_ACTIVE_HALF.nth n)
    let ks := s.panel.zoneEntries n
    let z := s.zone n
    let reads := ks.map (fun k => (s.setAddr z.lo k, 8)) ++ (if z.lo = z.hi then [] else ks.map (fun k => (s.setAddr z.hi k, 8)))
    let s0 := ks.foldl (fun s k => s.runEntry n h k) ((s.noteReads 6 reads).freshBlocks n h)
    let s1 := (joinSpans (ks.map (fun k => (s.liveAddr h k, 8)))).foldl (fun s q => s.noteWrite 6 q.1 q.2) s0
    let s1d := s1.onZone n (fun z => { z with doneAt := s.now })
    let s2 : State := (State.setZone { s1d with rrg := { s1d.rrg with running := none } } n 3).count Reg.RRG_SNAP_ZONE_RUNS 1
    let s3 := if s2.cmt.last = 0 then s2.zonePublish n else s2
    match s3.rrg.parked with
    | some (i, x, b) => s3.installSet i x b
    | none => s3

/-- R195: at a latch instant every run whose last write completed at an earlier stamp is published in the epoch sealed. -/
def State.zonesAtLatch (s : State) (epoch : Nat) : State :=
  (List.range 8).foldl (fun s n =>
    if s.zoneSt n = 3 ∧ (s.zone n).pubEpoch = 0 ∧ (s.zone n).doneAt < s.now then s.onZone n (fun z => { z with pubEpoch := epoch }) else s) s

/-- R195: when the RRG consumes a marker, the runs published in that epoch come into force. -/
def State.zonesAtMarker (s : State) (epoch : Nat) : State :=
  (List.range 8).foldl (fun s n =>
    if s.zoneSt n = 3 ∧ (s.zone n).pubEpoch = epoch then s.zonePublish n else s) s

/-- STALE_ZONES of R196: zones QUEUED, RUNNING or PENDING at sealing. A zone whose pending run this seal (or an earlier
one) publishes is not stale, as the worked example of R199 shows, unless it was triggered again (log entry 33). -/
def State.staleZones (s : State) : Nat :=
  (List.range 8).foldl (fun a n =>
    let st := s.zoneSt n
    if st = 1 ∨ st = 2 ∨ (st = 3 ∧ ((s.zone n).pubEpoch = 0 ∨ (s.zone n).again = true)) then a + 2 ^ n else a) 0

/-- A lane's run is abandoned: FOM_STALE stays only where no FoM has been measured yet (R212). -/
def State.laneAbandon (s : State) (n : Nat) : State :=
  let l := s.rrg.lanes.getD n {}
  let s1 : State := { s with rrg := { s.rrg with lanes := modAt s.rrg.lanes n (fun l => { l with queued := false }) } }
  s1.put (F.RRG_LANE_STATUS_FOM_STALE.nth n) (b2n (!l.measured))

/-- R198: the RRG halts (reset or freeze): runs in progress are discarded, lanes halt with their settings kept (R206). A checked set that
waited for the run takes its slot (DESIGN CHOICE, log entry 153). -/
def State.rrgHalt (s : State) : State :=
  let s1 := (List.range 8).foldl (fun s n =>
    let st := s.zoneSt n
    if st = 4 then s
    else
      let s1 := if st = 2 ∨ st = 3 then s.event 0x0724 0 n 0 else s
      (s1.onZone n (fun z => { z with requeue := st != 0, again := false, pubEpoch := 0 })).setZone n 4) s
  let s2 := (List.range 12).foldl (fun s n =>
    (if s.get (F.RRG_LANE_STATUS_STATE.nth n) = 2 then s.laneAbandon n else s).put (F.RRG_LANE_STATUS_STATE.nth n) 3) s1
  let s3 : State := { s2 with rrg := { s2.rrg with running := none } }
  match s3.rrg.parked with
  | some (i, x, b) => s3.installSet i x b
  | none => s3

/-- R198: release of the zones at the next marker the RRG consumes. -/
def State.zonesRelease (s : State) : State :=
  (List.range 8).foldl (fun s n =>
    if s.zoneSt n ≠ 4 then s
    else
      let need := s.panel.hasGroup n && ((s.zone n).requeue || !s.zoneBuilt n)
      let trig := if (s.zone n).trigAt = 0 then s.now else (s.zone n).trigAt
      (s.onZone n (fun z => { z with requeue := false, trigAt := trig })).setZone n (if need then 1 else 0)) s

/-- R206: release of the lanes. -/
def State.lanesRelease (s : State) : State :=
  (List.range 12).foldl (fun s n =>
    if s.get (F.RRG_LANE_STATUS_STATE.nth n) = 3 then
      s.put (F.RRG_LANE_STATUS_STATE.nth n) (if (s.rrg.lanes.getD n {}).locked then 1 else 0)
    else s) s

/-- R199: the first full image is in force: every zone with a group is queued, the others are built. -/
def State.zonesFirst (s : State) : State :=
  (List.range 8).foldl (fun s n =>
    if s.panel.hasGroup n then
      if s.zoneSt n = 4 then s.onZone n (fun z => { z with requeue := true, trigAt := s.now }) else s.trigger n
    else s.put (F.RRG_ZONE_STATUS_BUILT.nth n) 1) s

/-- R47, R199: a later full image: the zone of an empty group counts as built and is not queued, that of a group that was empty is
queued; the others stay as they are (R190). -/
def State.zonesSwitch (s : State) (old : List Nat) : State :=
  (List.range 8).foldl (fun s n =>
    if !s.panel.hasGroup n then
      ((if s.zoneSt n = 1 then s.setZone n 0 else s).put (F.RRG_ZONE_STATUS_BUILT.nth n) 1).onZone n (fun z => { z with since := none })
    else if old.contains n then s
    else (s.put (F.RRG_ZONE_STATUS_BUILT.nth n) 0).trigger n) s

/-! ### Live entries (R200, R26) -/

/-- The live entry streamed for patch k, by up to `fuel` steps to the left neighbour, or above at the left edge; where no
neighbour is left, a free value (log entries 118, 119). -/
def State.liveEntry (s : State) : Nat → Nat → Nat
  | 0, _ => Config.freeValue 8 s.fresh % 2 ^ 64
  | f + 1, k =>
    let a := s.liveAddr (s.get (F.RRG_ZONE_STATUS_ACTIVE_HALF.nth (s.panel.zoneOf k))) k
    if s.readPoison a 8 then
      let pw := max s.panel.patchW 1
      s.liveEntry f (if k % pw = 0 then k - pw else k - 1)
    else s.readLE a 8

/-- The patch of subpixel (x, y) (R181). -/
def PanelDesc.patchAt (p : PanelDesc) (x y : Nat) : Nat := (y / 4) * p.patchW + x / 24

/-- Patches of panel rows [y0, y0 + n). -/
def PanelDesc.patchesOf (p : PanelDesc) (y0 n : Nat) : List Nat :=
  upFrom ((y0 / 4) * p.patchW) ((min p.patchH (ceilDiv (y0 + n) 4) - y0 / 4) * p.patchW)

/-- What streaming these patches reads of the live registry (R26). -/
def State.liveSpans (s : State) (ks : List Nat) : List (Nat × Nat) :=
  ks.map (fun k => (s.liveAddr (s.get (F.RRG_ZONE_STATUS_ACTIVE_HALF.nth (s.panel.zoneOf k))) k, 8))

/-- R200: log, count and trigger for each live entry that reads uncorrectable. -/
def State.liveEcc (s : State) : List Nat → State
  | [] => s
  | k :: ks =>
    let n := s.panel.zoneOf k
    if s.readPoison (s.liveAddr (s.get (F.RRG_ZONE_STATUS_ACTIVE_HALF.nth n)) k) 8 then
      ((((s.event 0x0722 0 n k).count Reg.RRG_SNAP_LIVE_ECC 1).trigger n)).liveEcc ks
    else s.liveEcc ks

/-- The RRG streams no entries while HALTED or while a zone is not built (R199). -/
def State.rrgStreams (s : State) : Bool := s.allBuilt && (List.range 8).all (fun n => s.zoneSt n != 4)

/-! ### Set loads (R187 to R190) -/

/-- The set record of a header (R187). -/
def parseSet (b : List Nat) : RegSet :=
  { valid := true, corrupt := false, temp := signed 16 (fieldLE b 8 2), hCentre := signed 32 (fieldLE b 0x40 4),
    hX := signed 32 (fieldLE b 0x44 4), hY := signed 32 (fieldLE b 0x48 4), hSpan := fieldLE b 0x4C 4,
    vCentre := signed 32 (fieldLE b 0x50 4), vX := signed 32 (fieldLE b 0x54 4), vY := signed 32 (fieldLE b 0x58 4),
    vSpan := fieldLE b 0x5C 4 }

/-- Check 1 of R189. -/
def setFormatOk (b : List Nat) : Bool :=
  let pl := fieldLE b 0x64 4
  let pad := alignUp pl 16
  let t := signed 16 (fieldLE b 8 2)
  decide (356 ≤ b.length) && fieldLE b 0x9C 4 == crc32c (b.take 0x9C) && slice b 0 4 == [0x52, 0x52, 0x47, 0x53] &&
  b.getD 4 0 == 1 && decide (b.getD 5 0 ≤ 7) && decide (b.getD 6 0 ≤ 3) && decide (b.getD 7 0 < 2) &&
  decide (-10240 ≤ t) && decide (t ≤ 25600) && fieldLE b 0x0E 2 == 0 && fieldLE b 0x74 4 == 0 &&
  (slice b 0x88 20).all (· == 0) && b.length == 160 + pad + 196 && (slice b (160 + pl) (pad - pl)).all (· == 0) &&
  slice b (160 + pad + 97) 3 == [0, 0, 0] &&
  (bitAt (b.getD 7 0) 0 || pl == 8 * fieldLE b 0x0A 2 * fieldLE b 0x0C 2)

/-- R188 for a set in slot `i` against the other valid sets. -/
def State.setFits (s : State) (i : Nat) (x : RegSet) : Bool :=
  (s.rrg.sets.zipIdx.all (fun q => !q.1.valid || q.2 == i ||
    (q.1.hCentre == x.hCentre && q.1.hX == x.hX && q.1.hY == x.hY && q.1.hSpan == x.hSpan && q.1.vCentre == x.vCentre &&
     q.1.vX == x.vX && q.1.vY == x.vY && q.1.vSpan == x.vSpan &&
     (if q.2 < i then decide (q.1.temp < x.temp) else decide (x.temp < q.1.temp))))) &&
  (s.panel.viewsV != 1 || (x.vX == 0 && x.vY == 0 && x.vSpan == 0))

/-- Refuse a set load. -/
def State.setRefuse (s : State) (code : Nat) : State :=
  let s1 := ((({ s with rrg := { s.rrg with file := [] } }.event code 0 0 0).put F.RRG_SET_STATUS_CODE code).put
    F.RRG_SET_STATUS_BUSY 0).put F.RRG_SET_STATUS_DONE 1
  s1.raise 3

/-- RRG_SET_LOAD (R189, R190). -/
def State.setLoad (s : State) : State :=
  if s.flag F.RRG_SET_STATUS_BUSY then s.event 0x0715 0 0 0
  else if s.sho.run.isNone then s.setRefuse 0x0716
  else
    let s1 := (s.put F.RRG_SET_STATUS_BUSY 1).noteRead 6 (s.get F.RRG_SET_ADDR_ADDR * 4096) (s.get F.RRG_SET_LEN_LEN)
    { s1 with rrg := { s1.rrg with file := s.read (s.get F.RRG_SET_ADDR_ADDR * 4096) (s.get F.RRG_SET_LEN_LEN) } }

/-- The signer of a file is the root key or the panel signer (R187): the hash of its SIGNER_KEY. -/
def State.panelSigner (s : State) (key : List Nat) : Bool :=
  let h := Config.sha384 key
  s.otpValue 0 == some h || (h == slice s.nvs.page 0x50 48 && !(slice s.nvs.page 0x50 48).all (· == 0))

/-- RRG_SET_CHECKED (R189): the security module's answers are the signature's result, the tag's result and the
plaintext. -/
def State.setChecked (s : State) (sigOk tagOk : Bool) (plain : List Nat) : State :=
  let b := s.rrg.file
  let pad := alignUp (fieldLE b 0x64 4) 16
  let want := 8 * s.panel.patchW * s.panel.patchH
  if !s.flag F.RRG_SET_STATUS_BUSY ∨ s.rrg.parked.isSome then s
  else if !setFormatOk b then s.setRefuse 0x0710
  else if fieldLE b 0x0A 2 ≠ s.panel.patchW ∨ fieldLE b 0x0C 2 ≠ s.panel.patchH ∨ slice b 0x10 48 ≠ slice s.nvs.page 0x20 48 then
    s.setRefuse 0x0713
  else if !s.secOk then s.setRefuse 0x0717
  else if !sigOk ∨ !s.panelSigner (slice b (160 + pad) 97) then s.setRefuse 0x0711
  else
    let body := slice plain 0 (fieldLE b 0x64 4)
    let entries : Option (List Nat) := if bitAt (b.getD 7 0) 0 then loamAll 8 (body.length + 1) body else some body
    let i := b.getD 5 0
    let x := parseSet b
    if !tagOk ∨ (s.otpValue (2 + b.getD 6 0)).isNone then s.setRefuse 0x0712
    else match entries with
      | none => s.setRefuse 0x0712
      | some e =>
        if e.length ≠ want then s.setRefuse 0x0712
        else if !s.setFits i x then s.setRefuse 0x0714
        else
          let reading : Bool := match s.rrg.running with
            | some n => (s.zone n).lo == i || (s.zone n).hi == i
            | none => false
          if reading then { s with rrg := { s.rrg with parked := some (i, x, e) } } else s.installSet i x e

/-! ### Lane trims (R201 to R206) -/

/-- Parameters a lane trims: OFFSET and its taps (R201). -/
def laneParams (n : Nat) : Nat := if n < 8 then 3 else 6

/-- Lane `n`. -/
def State.lane (s : State) (n : Nat) : Lane := s.rrg.lanes.getD n {}

/-- Change lane `n`. -/
def State.onLane (s : State) (n : Nat) (f : Lane → Lane) : State :=
  { s with rrg := { s.rrg with lanes := modAt s.rrg.lanes n f } }

/-- STATE of a lane (R206). -/
def State.laneSt (s : State) (n : Nat) : Nat := s.get (F.RRG_LANE_STATUS_STATE.nth n)

/-- The start point of lane `n` at a temperature (R202, R528), interpolated as R193 does. -/
def State.startPoint (s : State) (n : Nat) (t : Int) : List Int :=
  let p := s.nvs.page
  let pts := (List.range 4).filterMap (fun k => (startTemp p k).map (fun x => (k, x)))
  let at' (k : Nat) : List Int := (slice p (0x160 + 80 * k + 8 + 6 * n) 6).map (signed 8)
  match (pts.filter (fun q => decide (q.2 ≤ t))).getLast?, pts.find? (fun q => decide (t ≤ q.2)) with
  | none, none => List.replicate 6 0
  | some a, none => at' a.1
  | none, some b => at' b.1
  | some a, some b =>
    let w := mixWeight a.2 b.2 t
    ((at' a.1).zip (at' b.1)).map (fun q => mixGrad q.1 q.2 w)

/-- Clamp settings to the bound around a start point (R201). -/
def clampLane (start cur : List Int) : List Int :=
  (start.zip cur).zipIdx.map (fun q =>
    let b : Int := if q.2 = 0 then 16 else 8
    max (q.1.1 - b) (min (q.1.1 + b) q.1.2))

/-- Show a lane's main settings (R212). -/
def State.showLane (s : State) (n : Nat) : State :=
  let v := (s.lane n).main
  ((((((s.putS (F.RRG_LANE_SET0_OFFSET.nth n) (v.getD 0 0)).putS (F.RRG_LANE_SET0_TAP1.nth n) (v.getD 1 0)).putS
    (F.RRG_LANE_SET0_TAP2.nth n) (v.getD 2 0)).putS (F.RRG_LANE_SET0_TAP3.nth n) (v.getD 3 0)).putS
    (F.RRG_LANE_SET1_TAP4.nth n) (v.getD 4 0)).putS (F.RRG_LANE_SET1_TAP5.nth n) (v.getD 5 0))

/-- The reported die temperature (R494), signed 8.8 °C. -/
def State.dieTemp (s : State) : Int := s.getS F.THM_STATUS_TEMP

/-- Begin a run (R202, R203). -/
def State.laneRun (s : State) (n : Nat) : State :=
  let t := s.dieTemp
  let st := s.startPoint n t
  let s1 := s.onLane n (fun l => { l with start := st, aux := clampLane st l.main, iter := 0, limit := false, startTemp := t, lastRun := s.now })
  ((s1.put (F.RRG_LANE_STATUS_STATE.nth n) 2).put (F.RRG_LANE_STATUS_FOM_STALE.nth n) 1).put (F.RRG_LANE_STATUS_AT_LIMIT.nth n) 0

/-- Trigger a lane (R205, R206): only from IDLE, with LANE_TRIM_EN. -/
def State.laneTrigger (s : State) (n : Nat) : State :=
  if s.laneSt n = 1 ∧ s.flag F.RRG_CTRL_LANE_TRIM_EN then s.laneRun n else s

/-- RRG_CTRL.LANE_RUN for a lane (R208): a run in progress is followed by another. -/
def State.laneQueue (s : State) (n : Nat) : State :=
  if s.laneSt n = 2 ∧ s.flag F.RRG_CTRL_LANE_TRIM_EN then s.onLane n (fun l => { l with queued := true }) else s.laneTrigger n

/-- LANE_LOCK (R206): settings go to the start point and a run starts. -/
def State.laneLock (s : State) (n : Nat) : State :=
  let s1 := s.onLane n (fun l => { l with locked := true })
  if s1.laneSt n ≠ 0 then s1
  else ((s1.onLane n (fun l => { l with main := s1.startPoint n s1.dieTemp })).showLane n).laneRun n

/-- LANE_LOCK_LOST (R206); lanes 0 to 7 are the backchannel receivers, whose symbol lock BC_LOCK shows (R364). RRG_LANE_ABANDONED,
whose cause is a lock lost during a run (R207), is logged for a running lane alone
(DEDUCED, log entry 154). -/
def State.laneLost (s : State) (n : Nat) : State :=
  let st := s.laneSt n
  let s0 := s.onLane n (fun l => { l with locked := false })
  let s1 := if n < 8 then s0.put (F.TLK_GROUP_STATUS_BC_LOCK.nth n) 0 else s0
  let s2 := if st = 2 then (s1.event 0x0732 0 n (s1.get (F.RRG_LANE_STATUS_FOM.nth n))).laneAbandon n else s1
  if st = 1 ∨ st = 2 then s2.put (F.RRG_LANE_STATUS_STATE.nth n) 0 else s2

/-- One parameter's step (R201): +1 where A exceeds B (log entry 34), never beyond the bound; and whether the bound held
it. -/
def laneStep (bound start v : Int) (a b : Nat) : Int × Bool :=
  let diff := if a < b then b - a else a - b
  if diff * 256 ≤ a + b then (v, false)
  else
    let w := if b < a then v + 1 else v - 1
    if start - bound ≤ w ∧ w ≤ start + bound then (w, false) else (v, true)

/-- All parameters' steps of one iteration. -/
def laneSteps (start aux : List Int) (counts : List (Nat × Nat)) (n : Nat) : List (Int × Bool) :=
  aux.zipIdx.map (fun q =>
    if n ≤ q.2 then (q.1, false)
    else laneStep (if q.2 = 0 then 16 else 8) (start.getD q.2 0) q.1 (counts.getD q.2 (0, 0)).1 (counts.getD q.2 (0, 0)).2)

/-- A run's end (R203, R204): h and H are the auxiliary slicer's measurements. -/
def State.laneRunEnd (s : State) (n h hh : Nat) : State :=
  let l := s.lane n
  let main := (l.main.zip l.aux).map (fun q => q.1 + max (-4) (min 4 (q.2 - q.1)))
  let fom := if hh = 0 then 0 else min 255 (255 * h / hh)
  let s1 := ((s.onLane n (fun l => { l with main := main, measured := true, queued := false })).showLane n).put (F.RRG_LANE_STATUS_FOM.nth n) fom
  let s2 := s1.count Reg.RRG_SNAP_LANE_RUNS 1
  let s3 := if l.limit then s2.count Reg.RRG_SNAP_LANE_LIMIT 1 else s2
  let s4 := if fom < s3.get F.RRG_FOM_FOM_MIN then s3.event 0x0731 0 n fom else s3
  if (main ≠ l.aux ∨ l.queued = true) ∧ s4.flag F.RRG_CTRL_LANE_TRIM_EN = true then s4.laneRun n
  else (s4.put (F.RRG_LANE_STATUS_STATE.nth n) 1).put (F.RRG_LANE_STATUS_FOM_STALE.nth n) 0

/-- LANE_ITERATION_END (R201, R203): the counts (A, B) of each parameter in the window, and the eye measurement that a run's
end takes. -/
def State.laneIteration (s : State) (n : Nat) (counts : List (Nat × Nat)) (h hh : Nat) : State :=
  if s.laneSt n ≠ 2 then s
  else
    let l := s.lane n
    let r := laneSteps l.start l.aux counts (laneParams n)
    let aux := r.map (·.1)
    let hit := r.any (·.2)
    let s1 := s.onLane n (fun l => { l with aux := aux, iter := l.iter + 1, limit := l.limit || hit })
    let s2 := if hit && !l.limit then
        (s1.put (F.RRG_LANE_STATUS_AT_LIMIT.nth n) 1).event 0x0730 0 n (s1.get (F.RRG_LANE_STATUS_FOM.nth n)) else s1
    let balanced := (List.range (laneParams n)).all (fun i =>
      let c := counts.getD i (0, 0)
      decide ((if c.1 < c.2 then c.2 - c.1 else c.1 - c.2) * 256 ≤ c.1 + c.2))
    if balanced ∨ l.iter + 1 = 32 then s2.laneRunEnd n h hh else s2

/-- LANE_PERIOD_EXPIRY (R205). -/
def State.lanePeriod (s : State) (n : Nat) : State :=
  let p := s.get F.RRG_TRIGGER_LANE_PERIOD
  if p = 0 ∨ s.now < (s.lane n).lastRun + p * tickS then s else s.laneTrigger n

/-- LANE_FOM_TRIGGER (R205): at most once per second per lane. -/
def State.laneFom (s : State) (n : Nat) : State :=
  if s.get (F.RRG_LANE_STATUS_FOM.nth n) < s.get F.RRG_FOM_FOM_MIN ∧ s.flag (F.RRG_LANE_STATUS_FOM_STALE.nth n) = false ∧
     ((s.lane n).lastFom = 0 ∨ (s.lane n).lastFom + tickS ≤ s.now) then
    (s.onLane n (fun l => { l with lastFom := s.now })).laneTrigger n
  else s

/-- R205: a change of the die temperature by more than LANE_DELTA since a lane's last start point. -/
def State.lanesAtTemp (s : State) : State :=
  (List.range 12).foldl (fun s n =>
    if s.get F.RRG_TRIGGER_LANE_DELTA * 16 < (s.dieTemp - (s.lane n).startTemp).natAbs then s.laneTrigger n else s) s

/-! ### Meanings -/


/-- RRG_SET_LOAD (R189). -/
def execRrgSetLoad (t : Nat) (s : State) : Out := .next (s.whenHost t State.setLoad)

/-- RRG_SET_CHECKED (R189). -/
def execRrgSetChecked (t : Nat) (sigOk tagOk : Bool) (plain : List Nat) (s : State) : Out :=
  .next (s.whenOn t (fun s => s.setChecked sigOk tagOk plain))

/-- ZONE_TEMP_REPORT (R191). -/
def execZoneTempReport (t n temp : Nat) (s : State) : Out := .next (s.whenOn t (fun s => s.zoneReport (n % 8) temp))

/-- ZONE_RUN (R208). -/
def execZoneRun (t n : Nat) (s : State) : Out := .next (s.whenHost t (fun s => s.trigger (n % 8)))

/-- ZONE_TEMP_TIMEOUT (R192). -/
def execZoneTempTimeout (t n : Nat) (s : State) : Out := .next (s.whenOn t (fun s => s.zoneTempTimeout (n % 8)))

/-- ZONE_RUN_START (R194). -/
def execZoneRunStart (t : Nat) (s : State) : Out := .next (s.whenOn t State.zoneRunStart)

/-- ZONE_RUN_COMPLETE (R198). -/
def execZoneRunComplete (t : Nat) (s : State) : Out := .next (s.whenOn t State.zoneRunComplete)

/-- LANE_LOCK (R206). -/
def execLaneLock (t n : Nat) (s : State) : Out := .next (s.whenOn t (fun s => s.laneLock (n % 12)))

/-- LANE_LOCK_LOST (R206). -/
def execLaneLockLost (t n : Nat) (s : State) : Out := .next (s.whenOn t (fun s => s.laneLost (n % 12)))

/-- LANE_ITERATION_END (R201). -/
def execLaneIterationEnd (t n : Nat) (counts : List (Nat × Nat)) (h hh : Nat) (s : State) : Out :=
  .next (s.whenOn t (fun s => s.laneIteration (n % 12) counts h hh))

/-- LANE_PERIOD_EXPIRY (R205). -/
def execLanePeriodExpiry (t n : Nat) (s : State) : Out := .next (s.whenOn t (fun s => s.lanePeriod (n % 12)))

/-- LANE_FOM_TRIGGER (R205). -/
def execLaneFomTrigger (t n : Nat) (s : State) : Out := .next (s.whenOn t (fun s => s.laneFom (n % 12)))

/-- LANE_RUN (R208). -/
def execLaneRun (t n : Nat) (s : State) : Out := .next (s.whenHost t (fun s => s.laneQueue (n % 12)))

end Sys2Proof.Machine
end

