-- ==== Sys2Proof/Machine/Pipe.lean ====
section
/-!
DEFINITION. The geometry the Board, Silt, the Kiln and the Rook share: layer descriptors (R251), grain pyramids (R274), the
ray mapping (R218), grain levels (R219), cones and footprints (R255, R256), and the windows of a band (R164 to R166).
-/

namespace Sys2Proof.Machine

/-! ### Layer descriptors (R251) -/

/-- KIND of a descriptor. -/
def lKind (b : List Nat) : Nat := b.getD 0 0
/-- FLAGS bit 0 OPAQUE. -/
def lOpaque (b : List Nat) : Bool := bitAt (b.getD 1 0) 0
/-- FLAGS bit 2 HOLD_BASE. -/
def lHoldBase (b : List Nat) : Bool := bitAt (b.getD 1 0) 2
/-- POLICY: 0 HOLD, 1 OMIT, 2 FALLBACK. -/
def lPolicy (b : List Nat) : Nat := b.getD 2 0 % 4
/-- LAYER_ID. -/
def lId (b : List Nat) : Nat := fieldLE b 4 2
/-- CONTEXT, or STREAM_ID of a SCENE layer. -/
def lContext (b : List Nat) : Nat := fieldLE b 6 2
/-- The six affine coefficients, fp32 patterns. -/
def lAffine (b : List Nat) : List Nat := (List.range 6).map (fun i => fieldLE b (0x10 + 4 * i) 4)
/-- SRC_W. -/
def lW (b : List Nat) : Nat := fieldLE b 0x28 2
/-- SRC_H. -/
def lH (b : List Nat) : Nat := fieldLE b 0x2A 2
/-- STALE_NS. -/
def lStale (b : List Nat) : Nat := fieldLE b 0x2C 4
/-- CONTENT_ADDR. -/
def lContent (b : List Nat) : Nat := fieldLE b 0x30 8
/-- TABLESET_ADDR. -/
def lTableset (b : List Nat) : Nat := fieldLE b 0x38 8
/-- A flat layer (R250). -/
def lFlat (b : List Nat) : Bool := lKind b != 4

/-! ### Pyramids (R274) -/

/-- Width or height of level g (R274). -/
def levelDim (n g : Nat) : Nat := ceilDiv n (2 ^ g)

/-- P_g of R274. -/
def levelPitch (w p0 g : Nat) : Nat := if g = 0 then p0 else 64 * ceilDiv (8 * levelDim w g) 64

/-- A_g of R274. -/
def levelAddr (a0 p0 w h : Nat) : Nat → Nat
  | 0 => a0
  | g + 1 => 4096 * ceilDiv (levelAddr a0 p0 w h g + levelPitch w p0 g * levelDim h g) 4096

/-- Bytes of a pyramid of `l` levels (R274). -/
def pyramidSize (a0 p0 w h l : Nat) : Nat := levelAddr a0 p0 w h l - a0

/-- Address of sample (i, j) of level g (R274). -/
def sampleAddr (a0 p0 w h g i j : Nat) : Nat := levelAddr a0 p0 w h g + levelPitch w p0 g * j + 8 * i

/-! ### Positions and rays (R217, R218) -/

/-- Exact fp32 sum of products of R218: each operation rounded to nearest, ties to even. -/
def affineRow (a b c X Y : Rat) : Rat := rndF32 (rndF32 (rndF32 (a * X) + rndF32 (b * Y)) + c)

/-- Level-0 layer position of a ray with tangents (tθ, tφ) at panel position (x, y) (R218). -/
def layerPos (z : Rat) (aff : List Nat) (x y : Nat) (tt tp : Rat) : Rat × Rat :=
  let X := rndF32 ((x : Rat) + rndF32 (z * tt))
  let Y := rndF32 ((y : Rat) + rndF32 (z * tp))
  let a (i : Nat) : Rat := ofF32 (aff.getD i 0)
  (affineRow (a 0) (a 1) (a 2) X Y, affineRow (a 3) (a 4) (a 5) X Y)

/-- Position at level g (R218). -/
def atLevel (v : Rat) (g : Nat) : Rat := rndF32 (rndF32 ((v + 1 / 2) / ((2 ^ g : Nat) : Rat)) - 1 / 2)

/-- Absolute value of a rational. -/
def absR (x : Rat) : Rat := if x < 0 then -x else x

/-! ### Grain level (R219) -/

/-- g and f (in 2^-16) of R219 from the square of the larger footprint and LOD_BIAS in sixteenths; f is cut to that unit (DESIGN
CHOICE, log entry 24). -/
def grain (footSq : Rat) (bias16 : Int) : Nat × Nat :=
  if footSq ≤ 0 then (0, 0)
  else
    let l := log2Fix 15 footSq + 4096 * bias16
    let g : Nat := (max 0 (min 5 (l / 65536))).toNat
    (g, (max 0 (min 65536 (l - 65536 * (g : Int)))).toNat)

/-- The square of the larger footprint F of R219, in level-0 samples: vpH and vpV are columns and rows per mm between views. -/
def footprintSq (z : Rat) (aff : List Nat) (vpH vpV : Rat) : Rat :=
  let a (i : Nat) : Rat := ofF32 (aff.getD i 0)
  let h := max 1 (absR z * vpH)
  let v := max 1 (absR z * vpV)
  max (h * h * (a 0 * a 0 + a 3 * a 3)) (v * v * (a 1 * a 1 + a 4 * a 4))

/-- vp_h and vp_v of R219: VIEW_PITCH is unsigned with 32 fraction bits (R47), V_SPAN that of the valid sets, 0 with none. -/
def State.viewPitch (s : State) : Rat × Rat :=
  let p := s.panel
  ((p.viewPitch : Rat) / ((2 ^ 32 : Nat) : Rat),
   if 1 < p.viewsV then ((s.coefs.map (·.vSpan)).getD 0 : Rat) / 65536 / (p.viewsV : Rat) else 0)

/-! ### Cones and footprints (R255, R256) -/

/-- A rectangle of panel subpixels, with its last column and row. -/
structure PanelRect where
  xa : Nat
  ya : Nat
  xb : Nat
  yb : Nat
deriving DecidableEq, Repr

/-- The cone of a rectangle (R255): tθ and tφ ranges over its corner subpixels. -/
def coneOf (p : PanelDesc) (c : RegSet) (r : PanelRect) : (Rat × Rat) × (Rat × Rat) :=
  let q16 : Rat := 65536
  let q32 : Rat := ((2 ^ 32 : Nat) : Rat)
  let pts : List (Nat × Nat) := [(r.xa, r.ya), (r.xb, r.ya), (r.xa, r.yb), (r.xb, r.yb)]
  let mid (cc cx cy : Int) (q : Nat × Nat) : Rat :=
    (cc : Rat) / q16 + (cx : Rat) / q32 * ((q.1 : Rat) - 3 * (p.width : Rat) / 2) + (cy : Rat) / q32 * ((q.2 : Rat) - (p.height : Rat) / 2)
  let hs := pts.map (mid c.hCentre c.hX c.hY)
  let vs := pts.map (mid c.vCentre c.vX c.vY)
  let lo (l : List Rat) : Rat := l.foldl min (l.headD 0)
  let hi (l : List Rat) : Rat := l.foldl max (l.headD 0)
  ((lo hs - (c.hSpan : Rat) / q16 / 2, hi hs + (c.hSpan : Rat) / q16 / 2),
   (lo vs - (c.vSpan : Rat) / q16 / 2, hi vs + (c.vSpan : Rat) / q16 / 2))

/-- The 16 footprint points of an entry for a rectangle (R256). -/
def footPoints (p : PanelDesc) (c : RegSet) (z : Rat) (aff : List Nat) (r : PanelRect) : List (Rat × Rat) :=
  let k := coneOf p c r
  [(r.xa, r.ya), (r.xb, r.ya), (r.xa, r.yb), (r.xb, r.yb)].flatMap (fun q =>
    [(k.1.1, k.2.1), (k.1.1, k.2.2), (k.1.2, k.2.1), (k.1.2, k.2.2)].map (fun t => layerPos z aff q.1 q.2 t.1 t.2))

/-- Bounding box of points: (x lo, x hi, y lo, y hi). -/
def boxOf (pts : List (Rat × Rat)) : Rat × Rat × Rat × Rat :=
  let h := pts.headD (0, 0)
  pts.foldl (fun b q => (min b.1 q.1, max b.2.1 q.1, min b.2.2.1 q.2, max b.2.2.2 q.2)) (h.1, h.1, h.2, h.2)

/-- R256: the box widened by 2 × 2^g on every side meets the entry's bounds, edges included. -/
def boxMeets (b : Rat × Rat × Rat × Rat) (g x0 x1 y0 y1 : Nat) : Bool :=
  let m : Rat := ((2 * 2 ^ g : Nat) : Rat)
  decide (b.1 - m ≤ (x1 : Rat) - 1 / 2) && decide ((x0 : Rat) - 1 / 2 ≤ b.2.1 + m) &&
  decide (b.2.2.1 - m ≤ (y1 : Rat) - 1 / 2) && decide ((y0 : Rat) - 1 / 2 ≤ b.2.2.2 + m)

/-- Depth of an entry. -/
def Entry.zr (e : Entry) : Rat := ofF32 e.z

/-- The footprint box of an entry for a rectangle. -/
def Entry.box (e : Entry) (p : PanelDesc) (c : RegSet) (r : PanelRect) : Rat × Rat × Rat × Rat := boxOf (footPoints p c e.zr e.aff r)

/-- Rows of an entry's bounds after a band substitute's limit (R264). -/
def Entry.rows (e : Entry) : Nat × Nat :=
  match e.only with
  | some (a, b) => (max e.y0 a, min e.y1 b)
  | none => (e.y0, e.y1)

/-- R256: the entry's footprint reaches its bounds in the rectangle. -/
def Entry.reaches (e : Entry) (p : PanelDesc) (c : RegSet) (r : PanelRect) : Bool :=
  boxMeets (e.box p c r) e.g e.x0 e.x1 e.rows.1 e.rows.2

/-- R257: all 16 points lie in the safe interior at the entry's grain level. -/
def Entry.covers (e : Entry) (p : PanelDesc) (c : RegSet) (r : PanelRect) : Bool :=
  let w : Rat := ((levelDim (e.x1 - e.x0) e.g : Nat) : Rat)
  let h : Rat := ((levelDim (e.y1 - e.y0) e.g : Nat) : Rat)
  (footPoints p c e.zr e.aff r).all (fun q =>
    let x := atLevel q.1 e.g
    let y := atLevel q.2 e.g
    decide (1 ≤ x) && decide (x < w - 2) && decide (1 ≤ y) && decide (y < h - 2))

/-! ### Windows (R164 to R166, R170) -/

/-- First and last tap offset of the filter: cubic −1 to 2, bilinear 0 to 1 (R220). -/
def tapSpan (cubic : Bool) : Int × Int := if cubic then (-1, 2) else (0, 1)

/-- The level-0 rows or columns that the taps of positions lo to hi touch at level g, as a half-open range. -/
def tapRange (cubic : Bool) (g : Nat) (lo hi : Rat) : Int × Int :=
  let t := tapSpan cubic
  let q : Int := ((2 ^ g : Nat) : Int)
  (((atLevel lo g).floor + t.1) * q, ((atLevel hi g).floor + t.2 + 1) * q)

/-- Cut an integer range to [a, b). -/
def cutRange (r : Int × Int) (a b : Nat) : Nat × Nat := ((max r.1 a).toNat, (min r.2 b).toNat)

/-- Numbers from `a` to `b` exclusive. -/
def between (a b : Nat) : List Nat := upFrom a (b - a)

/-- Units of `n` rows that a half-open range of rows touches. -/
def unitsOf (n : Nat) (r : Nat × Nat) : List Nat := if r.2 ≤ r.1 then [] else between (r.1 / n) ((r.2 - 1) / n + 1)

/-- The part of a square that lies in a band. -/
def squareRect (sx sy row0 rows : Nat) : PanelRect :=
  ⟨384 * sx, max (64 * sy) row0, 384 * sx + 383, min (64 * sy + 63) (row0 + rows - 1)⟩

/-- The squares of a band's frame whose lists hold entry `k`. -/
def Band.squaresOf (bd : Band) (k : Nat) : List SquareList := bd.squares.filter (fun q => q.ents.contains k)

/-- Layer rows that the band's squares reach on an entry, with the filter's taps at level g (R170), cut to its bounds. -/
def Band.rowsOf (bd : Band) (p : PanelDesc) (c : RegSet) (k : Nat) (e : Entry) (cubic : Bool) (g : Nat) : List (Nat × Nat) :=
  (bd.squaresOf k).map (fun q =>
    let b := e.box p c (squareRect q.sx q.sy bd.row0 bd.rows)
    cutRange (tapRange cubic g b.2.2.1 b.2.2.2) e.rows.1 e.rows.2)

/-- Strata that a band reaches on a scene plane (R170). -/
def Band.strataOf (bd : Band) (p : PanelDesc) (c : RegSet) (k : Nat) (e : Entry) (cubic : Bool) (g : Nat) : List Nat :=
  ((bd.rowsOf p c k e cubic g).flatMap (unitsOf e.sr)).eraseDups

/-- Layer rows that the band reaches with no margin (R166). -/
def Band.rawStrata (bd : Band) (p : PanelDesc) (c : RegSet) (k : Nat) (e : Entry) : List Nat :=
  ((bd.squaresOf k).flatMap (fun q =>
    let b := e.box p c (squareRect q.sx q.sy bd.row0 bd.rows)
    unitsOf e.sr (cutRange (b.2.2.1.floor, b.2.2.2.floor + 1) e.rows.1 e.rows.2))).eraseDups

/-- Fetch tiles (strip, column) of a flat entry that the widened footprints of its squares reach (R165), at level g. -/
def Band.fetchTiles (bd : Band) (p : PanelDesc) (c : RegSet) (k : Nat) (e : Entry) (g : Nat) : List (Nat × Nat) :=
  let m : Rat := ((2 * 2 ^ g : Nat) : Rat)
  ((bd.squaresOf k).flatMap (fun q =>
    let b := e.box p c (squareRect q.sx q.sy bd.row0 bd.rows)
    let lv (v : Rat) : Int := (atLevel v g).floor
    let rs := unitsOf 8 (cutRange (lv (b.2.2.1 - m), lv (b.2.2.2 + m) + 1) (e.rows.1 / 2 ^ g) (levelDim e.rows.2 g))
    let cs := unitsOf 64 (cutRange (lv (b.1 - m), lv (b.2.1 + m) + 1) (e.x0 / 2 ^ g) (levelDim e.x1 g))
    rs.flatMap (fun r => cs.map (fun x => (r, x))))).eraseDups

/-- Granules of one plane-stratum with n_t occupied tiles at level g (R162, R164). -/
def granulesOf (nt sr g : Nat) : Nat := ceilDiv (nt * sr) (8 * 4 ^ g)

end Sys2Proof.Machine
end

