-- ==== Sys2Proof/Machine/Ports.lean ====
section
/-!
DEFINITION. The unit ports fixed in silicon and what may feed them (R619), the power domains and which are optional (R503),
as data, with the checks of a topology against them (R20, R40, R41).
-/

namespace Sys2Proof.Machine

/-- One consumer port of R619: its unit and number, the producer ports that may feed it, whether it is required. -/
structure PortRow where
  unit : Nat
  port : Nat
  from_ : List (Nat × Nat)
  required : Bool
deriving DecidableEq, Repr

/-- Consumer ports of R619, part 1. -/
def portTable0 : List PortRow :=
  [⟨2, 31, [(4, 2)], true⟩, ⟨5, 31, [(4, 5)], true⟩, ⟨6, 31, [(4, 6)], true⟩, ⟨7, 31, [(4, 7)], true⟩,
   ⟨8, 31, [(4, 8)], true⟩, ⟨9, 31, [(4, 9)], true⟩, ⟨10, 31, [(4, 10)], true⟩, ⟨11, 31, [(4, 11)], true⟩,
   ⟨12, 31, [(4, 12)], true⟩, ⟨13, 31, [(4, 13)], true⟩, ⟨14, 31, [(4, 14)], true⟩, ⟨15, 31, [(4, 15)], true⟩,
   ⟨17, 31, [(4, 17)], true⟩, ⟨18, 31, [(4, 18)], true⟩, ⟨19, 31, [(4, 19)], true⟩, ⟨20, 31, [(4, 20)], true⟩,
   ⟨1, 2, [(2, 31)], true⟩, ⟨1, 3, [], true⟩, ⟨1, 4, [(4, 31)], true⟩, ⟨1, 5, [(5, 31)], true⟩,
   ⟨1, 6, [(6, 31)], true⟩, ⟨1, 7, [(7, 31)], true⟩, ⟨1, 8, [(8, 31)], true⟩, ⟨1, 9, [(9, 31)], true⟩]

/-- Consumer ports of R619, part 2. -/
def portTable1 : List PortRow :=
  [⟨1, 10, [(10, 31)], true⟩, ⟨1, 11, [(11, 31)], true⟩, ⟨1, 12, [(12, 31)], true⟩, ⟨1, 13, [(13, 31)], true⟩,
   ⟨1, 14, [(14, 31)], true⟩, ⟨1, 15, [(15, 31)], true⟩, ⟨1, 16, [(16, 31)], true⟩, ⟨1, 17, [(17, 31)], true⟩,
   ⟨1, 18, [(18, 31)], true⟩, ⟨1, 19, [(19, 31)], true⟩, ⟨1, 20, [(20, 31)], true⟩, ⟨1, 21, [(21, 31)], true⟩,
   ⟨1, 22, [(22, 31)], true⟩, ⟨1, 23, [(23, 31)], true⟩, ⟨2, 2, [(4, 24)], true⟩, ⟨2, 3, [(5, 5)], true⟩,
   ⟨2, 4, [(10, 2)], true⟩, ⟨2, 5, [(11, 1)], true⟩, ⟨2, 6, [(1, 1)], true⟩, ⟨2, 7, [(9, 5)], true⟩,
   ⟨2, 8, [(24, 0)], false⟩, ⟨4, 1, [(2, 2)], true⟩, ⟨4, 2, [(2, 30), (5, 30), (6, 30), (7, 30), (8, 30), (9, 30), (10, 30), (11, 30), (12, 30), (13, 30), (14, 30), (15, 30), (17, 30), (18, 30), (19, 30), (20, 30), (16, 30)], true⟩, ⟨4, 3, [(9, 6)], true⟩]

/-- Consumer ports of R619, part 3. -/
def portTable2 : List PortRow :=
  [⟨5, 2, [(2, 3)], true⟩, ⟨5, 3, [(9, 1)], true⟩, ⟨5, 4, [(6, 3)], true⟩, ⟨6, 0, [(5, 2), (5, 3)], true⟩,
   ⟨6, 2, [(9, 2)], true⟩, ⟨6, 3, [(8, 2)], true⟩, ⟨7, 2, [(13, 2)], true⟩, ⟨7, 3, [(13, 3)], true⟩,
   ⟨7, 4, [(17, 2), (17, 3)], true⟩, ⟨8, 0, [(9, 3)], true⟩, ⟨8, 1, [(7, 2)], true⟩, ⟨8, 2, [(6, 1)], true⟩,
   ⟨9, 1, [(10, 1)], true⟩, ⟨9, 2, [(5, 4)], true⟩, ⟨9, 3, [(4, 25)], true⟩, ⟨9, 4, [(6, 2)], true⟩,
   ⟨9, 5, [(8, 3)], true⟩, ⟨9, 6, [(11, 2)], true⟩, ⟨9, 7, [(18, 1)], true⟩, ⟨10, 1, [(2, 4)], true⟩,
   ⟨11, 1, [(2, 5)], true⟩, ⟨12, 0, [(8, 0), (8, 1)], true⟩, ⟨12, 1, [(9, 4)], true⟩, ⟨12, 2, [(17, 1)], true⟩]

/-- Consumer ports of R619, part 4. -/
def portTable3 : List PortRow :=
  [⟨12, 3, [(13, 4)], true⟩, ⟨13, 0, [(12, 0)], true⟩, ⟨13, 1, [(14, 0)], true⟩, ⟨13, 2, [(7, 3)], true⟩,
   ⟨14, 0, [(12, 1)], true⟩, ⟨14, 2, [(13, 1)], true⟩, ⟨17, 1, [(7, 4)], true⟩, ⟨18, 1, [(12, 2)], true⟩,
   ⟨16, 0, [(2, 0)], true⟩, ⟨2, 0, [(16, 0)], true⟩, ⟨16, 1, [(4, 0)], true⟩, ⟨4, 0, [(16, 1)], true⟩,
   ⟨16, 2, [(5, 0)], true⟩, ⟨5, 0, [(16, 2)], true⟩, ⟨16, 3, [(5, 1)], true⟩, ⟨5, 1, [(16, 3)], true⟩,
   ⟨16, 4, [(6, 0)], true⟩, ⟨6, 1, [(16, 4)], true⟩, ⟨16, 5, [(7, 0)], true⟩, ⟨7, 0, [(16, 5)], true⟩,
   ⟨16, 6, [(7, 1)], true⟩, ⟨7, 1, [(16, 6)], true⟩, ⟨16, 7, [(10, 0)], true⟩, ⟨10, 0, [(16, 7)], true⟩]

/-- Consumer ports of R619, part 5. -/
def portTable4 : List PortRow :=
  [⟨16, 8, [(11, 0)], true⟩, ⟨11, 0, [(16, 8)], true⟩, ⟨16, 9, [(14, 1)], true⟩, ⟨14, 1, [(16, 9)], true⟩,
   ⟨16, 10, [(9, 0)], true⟩, ⟨9, 0, [(16, 10)], true⟩, ⟨16, 11, [(18, 0)], true⟩, ⟨18, 0, [(16, 11)], true⟩,
   ⟨16, 12, [(17, 0)], true⟩, ⟨17, 0, [(16, 12)], true⟩, ⟨16, 13, [(2, 1)], true⟩, ⟨2, 1, [(16, 13)], true⟩,
   ⟨16, 14, [(23, 0)], true⟩, ⟨23, 0, [(16, 14)], true⟩, ⟨16, 15, [(1, 0)], true⟩, ⟨1, 0, [(16, 15)], true⟩]

/-- Every consumer port of R619 with the producer ports that may feed it. -/
def portTable : List PortRow := portTable0 ++ portTable1 ++ portTable2 ++ portTable3 ++ portTable4

/-- Domains marked optional in R503. -/
def optionalDomains : List Nat := [6, 7, 8, 12, 13, 15, 19]

/-- The domains that hold a unit port's owner: a port needs at least one of them on. Ports whose instance R619 names in
brackets belong to that instance; the keeper's units and PD00's are always on (R503). -/
def portDomains (unit port : Nat) (cons : Bool) : List Nat :=
  if unit = 5 then
    (if port = 0 then [14] else if port = 1 then [15]
     else if cons = false ∧ port = 2 then [14] else if cons = false ∧ port = 3 then [15] else [14, 15])
  else if unit = 8 then
    (if cons = false ∧ port = 0 then [18] else if cons = false ∧ port = 1 then [19] else [18, 19])
  else if unit = 17 then
    (if cons = false ∧ port = 2 then [5] else if cons = false ∧ port = 3 then [6] else [5])
  else if unit = 10 then [11, 12]
  else if unit = 18 then [7]
  else if unit = 19 then [8]
  else if unit = 11 then [13]
  else []

/-- The owner of a port is on under a power plan. -/
def portOn (pw : PowerPlan) (unit port : Nat) (cons : Bool) : Bool :=
  let ds := portDomains unit port cons
  ds.isEmpty || ds.any (fun d => !((pw.domains.getD d ⟨false, 0, 0⟩).leaveOff))

/-- MEM consumer and producer ports follow the producer instance of R407: 3, 8 and 11 go with PD15, PD13 and PD07. -/
def memPortOn (pw : PowerPlan) (p : Nat) : Bool :=
  let off (d : Nat) := (pw.domains.getD d ⟨false, 0, 0⟩).leaveOff
  !((p == 3 && off 15) || (p == 8 && off 13) || (p == 11 && off 7))

/-- Whether a queue's ports exist and pair under R619 (R20, R40). -/
def routePairs (r : Route) : Bool :=
  portTable.any (fun x => x.unit == r.consUnit && x.port == r.consPort && x.from_.contains (r.prodUnit, r.prodPort))

/-- Both instances that a queue joins lie in domains switched on (R503). -/
def routePowered (pw : PowerPlan) (r : Route) : Bool :=
  portOn pw r.prodUnit r.prodPort false && portOn pw r.consUnit r.consPort true &&
  (r.consUnit != 16 || memPortOn pw r.consPort) && (r.prodUnit != 16 || 30 ≤ r.prodPort || memPortOn pw r.prodPort)

/-- The required consumer ports that a topology leaves without their queues (R40, R503, R619). -/
def missingPorts (pw : PowerPlan) (rs : List Route) : List PortRow :=
  portTable.filter (fun x =>
    let on (q : Nat × Nat) := portOn pw q.1 q.2 false && (q.1 != 16 || 30 ≤ q.2 || memPortOn pw q.2)
    let owner := portOn pw x.unit x.port true && (x.unit != 16 || memPortOn pw x.port)
    let prods := x.from_.filter on
    x.required && owner && !prods.isEmpty &&
    prods.any (fun q => !(rs.any (fun r => r.consUnit == x.unit && r.consPort == x.port && r.prodUnit == q.1 && r.prodPort == q.2))))

end Sys2Proof.Machine
end

