-- ==== Sys2Proof/Machine/Tilth.lean ====
section
/-!
DEFINITION. The Tilth queue fabric (R17 to R22, R40 to R42) and the pace counters (R25): placing an entry against credits,
the choice of a consumer port, credit changes of an overlay, and the windows of the pace counters.
-/

namespace Sys2Proof.Machine

/-- Entries in the whole fabric (R20). -/
abbrev tilthEntries : Nat := 65536

/-- Entries a queue holds of the fabric: its granted credits, or its outstanding entries after a reduction (R42). -/
def TiltQueue.held (q : TiltQueue) : Nat := max q.granted q.entries.length

/-- R42: an increase is granted from entries that no queue holds, queue by queue in queue order. `free` is what is left. -/
def regrant : Nat → List TiltQueue → List TiltQueue
  | _, [] => []
  | free, q :: qs =>
    if q.granted < q.credits then
      let g := min (q.credits - q.granted) (free + (q.held - q.granted))
      { q with granted := q.granted + g } :: regrant (free + q.held - max (q.granted + g) q.entries.length) qs
    else q :: regrant free qs

/-- Grant what can be granted after a change (R42). -/
def settleCredits (qs : List TiltQueue) : List TiltQueue :=
  regrant (tilthEntries - qs.foldl (fun a q => a + q.held) 0) qs

/-- A queue with a new credit count and priority (R42): entries placed stay. -/
def TiltQueue.recredit (q : TiltQueue) (c prio : Nat) : TiltQueue :=
  { q with credits := c, granted := min q.granted c, prio := prio }

/-- R42: give queue `k` a new credit count; a reduction takes back no entry already placed. -/
def setCredits (k c prio : Nat) (qs : List TiltQueue) : List TiltQueue :=
  settleCredits (qs.map (fun q => if q.num = k then q.recredit c prio else q))

/-- Change queue `k` of the fabric. -/
def State.onQueue (s : State) (k : Nat) (f : TiltQueue → TiltQueue) : State :=
  { s with tlt := { s.tlt with queues := s.tlt.queues.map (fun q => if q.num = k then f q else q) } }

/-- Queue `k`. -/
def State.queue (s : State) (k : Nat) : Option TiltQueue := s.tlt.queues.find? (fun q => q.num == k)

/-- Append an entry and note when the front changed. -/
def TiltQueue.push (q : TiltQueue) (e : TiltEntry) (now : Nat) : TiltQueue :=
  { q with entries := q.entries ++ [e], blocked := false, frontSince := if q.entries.isEmpty then now else q.frontSince }

/-- R42: marker e has entered the queue, and with it the credit count that its epoch's overlay gives. -/
def TiltQueue.changed (q : TiltQueue) (e : Nat) : TiltQueue :=
  let q1 := { q with changes := q.changes.filter (fun x => x.1 != e) }
  match q.changes.find? (fun x => x.1 == e) with
  | some x => q1.recredit x.2.1 x.2.2
  | none => q1

/-- R22: markers that wait for a credit enter as soon as one is held, in order, each spending a credit. -/
def TiltQueue.pushOwed (now : Nat) : Nat → TiltQueue → TiltQueue
  | 0, q => q
  | n + 1, q =>
    match q.owed with
    | [] => q
    | e :: r =>
      if q.entries.length < q.granted then
        (({ q with owed := r }.push ⟨e, [], now⟩ now).changed e).pushOwed now n
      else q

/-- R18, R22: place an entry while a credit is held; without one, or behind a waiting marker, the producer waits. -/
def TiltQueue.place (q : TiltQueue) (data : List Nat) (now : Nat) : TiltQueue :=
  if q.owed.isEmpty ∧ q.entries.length < q.granted then q.push ⟨0, data, now⟩ now else { q with blocked := true }

/-- R22: issue a marker into a queue: it occupies one entry and waits for a credit like any other. -/
def TiltQueue.issue (q : TiltQueue) (epoch now : Nat) : TiltQueue :=
  { q with owed := q.owed ++ [epoch] }.pushOwed now (q.owed.length + 1)

/-- R18: remove the front entry; its credit returns, and a waiting marker may enter. -/
def TiltQueue.pop (q : TiltQueue) (now : Nat) : TiltQueue :=
  { q with entries := q.entries.drop 1, frontSince := now, blocked := false }.pushOwed now q.owed.length

/-- The queue has a data entry ready at its front (a marker is consumed by its unit, R22). -/
def TiltQueue.ready (q : TiltQueue) : Bool :=
  match q.entries with
  | e :: _ => e.marker == 0
  | [] => false

/-! ### The grant rule of R19 -/

/-- The levels, highest first, that have an entry ready. -/
def readyLevels (qs : List TiltQueue) : List Nat := [3, 2, 1, 0].filter (fun l => qs.any (fun q => q.prio == l && q.ready))

/-- The queues that feed a consumer port. -/
def State.feeding (s : State) (u p : Nat) : List TiltQueue :=
  s.tlt.queues.filter (fun q => q.consUnit == u && q.consPort == p)

/-- Arbitration state of a consumer port. -/
def State.tiltPort (s : State) (u p : Nat) : TiltPort :=
  (s.tlt.ports.find? (fun x => x.unit == u && x.port == p)).getD { unit := u, port := p }

/-- The queue that a consumer port takes from next, with its level (R19). -/
def State.grantChoice (s : State) (u p : Nat) : Option (Nat × Nat) :=
  let qs := s.feeding u p
  let tp := s.tiltPort u p
  match grantLevel tp.starve (readyLevels qs) with
  | none => none
  | some l =>
    -- "none granted yet" is told from queue 0 by storing the number plus one
    let last := assocGet l 0 tp.last
    let nums := (qs.filter (fun q => q.prio == l && q.ready)).map (fun q => q.num + 1)
    (roundRobin last nums).map (fun n => (n - 1, l))

/-- Grant what can be granted, and let the markers that waited for a credit enter (R22, R42). -/
def settleQueues (now : Nat) (qs : List TiltQueue) : List TiltQueue :=
  settleCredits ((settleCredits qs).map (fun q => q.pushOwed now q.owed.length))

/-- The markers that a consumer may take are removed from the front of a queue: the queue, and the epochs taken in order (R22). -/
def TiltQueue.takeMarkers (ok : Nat → Bool) (now : Nat) : Nat → TiltQueue → TiltQueue × List Nat
  | 0, q => (q, [])
  | n + 1, q =>
    match q.entries with
    | [] => (q, [])
    | e :: _ =>
      if e.marker ≠ 0 ∧ ok e.marker = true then
        let r := TiltQueue.takeMarkers ok now n (q.pop now)
        (r.1, e.marker :: r.2)
      else (q, [])

/-! ### Meanings -/

/-- TILTH_PLACE_ENTRY (R18). -/
def execTilthPlaceEntry (t k : Nat) (data : List Nat) (s : State) : Out :=
  .next ((s.tick t).onQueue k (fun q => q.place data (max s.now t)))

end Sys2Proof.Machine
end

