-- ==== Sys2Proof/Machine/Shoash.lean ====
section
/-!
DEFINITION. Shoash images (R35 to R65, R619): the container, every check of R52 in its order, overlays (R41, R57, R58), and
the load from COPY to SWITCH.
-/

namespace Sys2Proof.Machine

/-! ### The container (R35 to R38) -/

/-- Check 1 of R52: the header and the trailer. `full` says which KIND is required; `len` is the length software gave. -/
def shoHeaderOk (b : List Nat) (len : Nat) (full : Bool) : Bool :=
  let n := fieldLE b 0x14 4
  slice b 0 4 == [0x53, 0x48, 0x4F, 0x41] &&
  fieldLE b 0x7C 4 == crc32c (b.take 0x7C) &&
  n == len && decide (n % 16 = 0) && decide (512 ≤ n) && decide (n ≤ 16777216) &&
  b.getD 0x0C 0 == (if full then 1 else 2) && decide (b.getD 0x0D 0 ≤ 3) &&
  decide (1 ≤ fieldLE b 0x0E 2) && decide (fieldLE b 0x0E 2 ≤ 64) &&
  fieldLE b 0x18 8 == 0 && fieldLE b 0x2C 4 == 0 && fieldLE b 0x74 8 == 0 &&
  slice b (n - 196 + 97) 3 == [0, 0, 0] &&
  (!full || (slice b 0x30 48).all (· == 0))

/-- Checks 1 to 3 of R52: the code of the first to fail, 0 for none. -/
def shoEarly (b : List Nat) (len : Nat) (full : Bool) (stepping : Nat) : Nat :=
  if !shoHeaderOk b len full then 0x0141
  else if fieldLE b 4 2 ≠ 2 then 0x0142
  else if fieldLE b 8 2 ≠ 0x7440 ∨ stepping < b.getD 0x0A 0 ∨ (b.getD 0x0B 0 ≠ 0xFF ∧ b.getD 0x0B 0 < stepping) then 0x0143
  else 0

/-- The image digest (R38): SHA-384 of every byte to the end of the trailer's reserved bytes. -/
def shoDigest (b : List Nat) : List Nat := Config.sha384 (b.take (b.length - 96))

/-- A section-table entry (R37). -/
structure Section_ where
  typ : Nat
  flags : Nat
  off : Nat
  len : Nat
  crc : Nat
deriving DecidableEq, Repr

/-- The section table of an image (R35, R37). -/
def shoSections (b : List Nat) : List Section_ :=
  (List.range (fieldLE b 0x0E 2)).map (fun i =>
    let o := 128 + 16 * i
    ⟨fieldLE b o 2, fieldLE b (o + 2) 2, fieldLE b (o + 4) 4, fieldLE b (o + 8) 4, fieldLE b (o + 12) 4⟩)

/-- Bytes of the encrypted payload (R35). -/
def shoPayloadLen (b : List Nat) : Nat :=
  b.length - alignUp (128 + 16 * fieldLE b 0x0E 2) 16 - 196

/-- Record size of a section type (R39); 0 for an unknown type. -/
def recordSize (t : Nat) : Nat := [0, 16, 32, 32, 96, 8, 16, 32].getD t 0

/-- The length rule of R39: whole records, and the fixed lengths. -/
def sectionLenOk (x : Section_) : Bool :=
  match x.typ with
  | 4 => x.len == 96
  | 5 => x.len == 200
  | 6 => x.len == 16
  | 7 => x.len == 32
  | t => decide (0 < recordSize t) && x.len % recordSize t == 0

/-- No two sections overlap (R37). -/
def sectionsApart : List Section_ → Bool
  | [] => true
  | x :: r => r.all (fun y => !overlaps x.off x.len y.off y.len) && sectionsApart r

/-- Check 7 of R52: table entries, lengths, the CRC of each section's plaintext. -/
def shoTableOk (secs : List Section_) (payload : List Nat) : Bool :=
  secs.all (fun x => x.flags == 0 && x.off % 16 == 0 && decide (x.off + x.len ≤ payload.length) && sectionLenOk x &&
    crc32c (slice payload x.off x.len) == x.crc) && sectionsApart secs

/-- How many sections of a type there are. -/
def countType (secs : List Section_) (t : Nat) : Nat := secs.countP (fun x => x.typ == t)

/-- Presence rules of R39. -/
def presenceOk (secs : List Section_) (full : Bool) : Bool :=
  secs.all (fun x => decide (1 ≤ x.typ) && decide (x.typ ≤ 7)) &&
  (if full then [1, 2, 3, 4, 5, 6, 7].all (fun t => countType secs t == 1)
   else decide (1 ≤ secs.length) && [1, 3, 6, 7].all (fun t => decide (countType secs t ≤ 1)) &&
     [2, 4, 5].all (fun t => countType secs t == 0))

/-- The plaintext of the section of a type, none where absent. -/
def sectionBytes (secs : List Section_) (payload : List Nat) (t : Nat) : Option (List Nat) :=
  (secs.find? (fun x => x.typ == t)).map (fun x => slice payload x.off x.len)

/-- Cut a byte list into records of `n` bytes. -/
def records (n : Nat) (b : List Nat) : List (List Nat) := (List.range (b.length / max n 1)).map (fun i => slice b (n * i) n)

/-! ### Section records (R40 to R50) -/

/-- A TOPOLOGY record (R40). -/
def parseRoute (b : List Nat) : Route :=
  ⟨fieldLE b 0 2, b.getD 2 0, b.getD 3 0, b.getD 4 0, b.getD 5 0, b.getD 6 0, fieldLE b 8 4⟩

/-- An ALLOCATION record (R43). -/
def parseRegion (b : List Nat) : Region := ⟨fieldLE b 0 2, b.getD 2 0, b.getD 3 0, fieldLE b 8 8, fieldLE b 0x10 8⟩

/-- A SILT_PLAN record (R46). -/
def parsePlan (b : List Nat) : Plan :=
  ⟨b.getD 0 0, b.getD 1 0, b.getD 2 0, b.getD 3 0, fieldLE b 4 2, fieldLE b 6 2, fieldLE b 8 2, fieldLE b 10 2, fieldLE b 12 4⟩

/-- The PANEL record (R47). -/
def parsePanel (b : List Nat) : PanelDesc :=
  ⟨fieldLE b 0 2, fieldLE b 2 2, b.getD 4 0, b.getD 5 0, b.getD 6 0, b.getD 7 0, b.getD 8 0, b.getD 9 0, fieldLE b 0x10 4,
   (List.range 8).map (fun i => ⟨fieldLE b (0x20 + 8 * i) 2, fieldLE b (0x22 + 8 * i) 2, fieldLE b (0x24 + 8 * i) 2,
     fieldLE b (0x26 + 8 * i) 2⟩)⟩

/-- The POWER_PLAN section (R49). -/
def parsePower (b : List Nat) : PowerPlan :=
  ⟨fieldLE b 0 2, fieldLE b 2 2, fieldLE b 4 2,
   (records 8 (b.drop 8)).map (fun r => ⟨bitAt (r.getD 1 0) 0, fieldLE r 2 2, fieldLE r 4 2⟩)⟩

/-- The MEM_POWER record (R50). -/
def parseMemp (b : List Nat) : MemPower := ⟨b.getD 0 0, fieldLE b 4 4, fieldLE b 8 4⟩

/-- The GENLOCK record (R50). -/
def parseGenlock (b : List Nat) : Genlock :=
  ⟨b.getD 0 0, b.getD 1 0, b.getD 2 0, b.getD 3 0, fieldLE b 4 4, fieldLE b 8 4, fieldLE b 12 4, fieldLE b 16 2⟩

/-- The bytes of a TOPOLOGY record (R40). -/
def Route.bytes (r : Route) : List Nat :=
  leBytes 2 r.queue ++ [r.prodUnit, r.prodPort, r.consUnit, r.consPort, r.prio, 0] ++ leBytes 4 r.credits ++ [0, 0, 0, 0]

/-- The bytes of an ALLOCATION record (R43). -/
def Region.bytes (r : Region) : List Nat :=
  leBytes 2 r.id ++ [r.owner, r.flags, 0, 0, 0, 0] ++ leBytes 8 r.base ++ leBytes 8 r.size ++ leBytes 8 0

/-- The bytes of a SILT_PLAN record (R46). -/
def Plan.bytes (p : Plan) : List Nat :=
  [p.mode, p.bandRows, p.lookBands, p.carryRows] ++ leBytes 2 p.bankGr ++ leBytes 2 p.sceneGr ++ leBytes 2 p.flatGr ++
  leBytes 2 p.maxPlanes ++ leBytes 4 p.worst ++ leBytes 16 0

/-- The bytes of the PANEL record (R47). -/
def PanelDesc.bytes (p : PanelDesc) : List Nat :=
  leBytes 2 p.width ++ leBytes 2 p.height ++ [p.refresh, p.codeBits, p.order, p.viewsH, p.viewsV, p.scan] ++ leBytes 6 0 ++
  leBytes 4 p.viewPitch ++ leBytes 12 0 ++ p.groups.flatMap (fun g => leBytes 2 g.x0 ++ leBytes 2 g.y0 ++ leBytes 2 g.w ++ leBytes 2 g.h)

/-- The bytes of the POWER_PLAN section (R49). -/
def PowerPlan.bytes (p : PowerPlan) : List Nat :=
  leBytes 2 p.budget ++ leBytes 2 p.vMin ++ leBytes 2 p.vMax ++ [0, 0] ++
  p.domains.zipIdx.flatMap (fun q => [q.2, b2n q.1.leaveOff] ++ leBytes 2 q.1.gap ++ leBytes 2 q.1.inrush ++ [0, 0])

/-- The bytes of the MEM_POWER record (R50). -/
def MemPower.bytes (p : MemPower) : List Nat := [p.mode, 0, 0, 0] ++ leBytes 4 p.idleUs ++ leBytes 4 p.tolNs ++ [0, 0, 0, 0]

/-- The bytes of the GENLOCK record (R50). -/
def Genlock.bytes (g : Genlock) : List Nat :=
  [g.source, g.relock, g.polarity, g.castling] ++ leBytes 4 g.slewWindow ++ leBytes 4 g.rateNum ++ leBytes 4 g.rateDen ++
  leBytes 2 g.tolPpm ++ leBytes 14 0

/-- The records of a structure in the order of R590. -/
def Image.records (im : Image) : List Nat :=
  im.routes.flatMap Route.bytes ++ im.regions.flatMap Region.bytes ++ im.plans.flatMap Plan.bytes ++ im.panel.bytes ++
  im.power.bytes ++ im.memp.bytes ++ im.genlock.bytes

/-- A group rectangle lies inside the panel and is empty only as a whole (R47), and one of its rows fits a line of the link
(R346). -/
def groupOk (p : PanelDesc) (g : GroupRect) : Bool :=
  if g.w = 0 ∧ g.h = 0 then g.x0 == 0 && g.y0 == 0
  else decide (0 < g.w) && decide (0 < g.h) && decide (g.x0 + g.w ≤ p.width) && decide (g.y0 + g.h ≤ p.height) &&
    decide (ceilDiv (12 + ceilDiv (3 * g.w * p.codeBits) 8) 96 ≤ 227)

/-- Two rectangles overlap. -/
def rectsMeet (a b : GroupRect) : Bool := overlaps a.x0 a.w b.x0 b.w && overlaps a.y0 a.h b.y0 b.h

/-- Pairwise no overlap. -/
def rectsApart : List GroupRect → Bool
  | [] => true
  | a :: r => r.all (fun b => !rectsMeet a b) && rectsApart r

/-- R47: limits and tiling; rectangles inside the panel that do not overlap and whose areas add up to it tile it. -/
def panelOk (b : List Nat) : Bool :=
  let p := parsePanel b
  let ne := p.groups.filter (fun g => decide (0 < g.w))
  decide (1 ≤ p.width) && decide (p.width ≤ 30720) && decide (1 ≤ p.height) && decide (p.height ≤ 17280) &&
  decide (p.refresh ≤ 2) && (p.codeBits == 10 || p.codeBits == 12) && p.order == 0 &&
  decide (96 ≤ p.viewsH) && decide (p.viewsH ≤ 128) && decide (1 ≤ p.viewsV) && decide (p.viewsV ≤ 32) && decide (p.scan ≤ 1) &&
  (slice b 10 6).all (· == 0) && (slice b 0x14 12).all (· == 0) &&
  p.groups.all (groupOk p) && !ne.isEmpty && rectsApart ne &&
  (ne.map (fun g => g.w * g.h)).foldl (· + ·) 0 == p.width * p.height

/-- R49, R503: the power plan. -/
def powerOk (b : List Nat) : Bool :=
  let p := parsePower b
  decide (400 ≤ p.budget) && decide (p.budget ≤ 1180) && decide (620 ≤ p.vMin) && decide (p.vMax ≤ 880) &&
  decide (p.vMin < p.vMax) && fieldLE b 6 2 == 0 &&
  ((records 8 (b.drop 8)).zipIdx).all (fun q =>
    q.1.getD 0 0 == q.2 && decide (q.1.getD 1 0 < 2) && decide (40 ≤ fieldLE q.1 2 2) && decide (fieldLE q.1 2 2 ≤ 1000) &&
    decide (1 ≤ fieldLE q.1 4 2) && decide (fieldLE q.1 4 2 ≤ 2000) && fieldLE q.1 6 2 == 0 &&
    (q.1.getD 1 0 == 0 || optionalDomains.contains q.2))

/-- Field rules of a TOPOLOGY record (R40). -/
def routeOk (b : List Nat) : Bool :=
  let r := parseRoute b
  decide (r.queue < 512) && decide (r.prodPort < 32) && decide (r.consPort < 32) && decide (r.prio ≤ 3) && b.getD 7 0 == 0 &&
  decide (1 ≤ r.credits) && decide (r.credits ≤ 65536) && fieldLE b 12 4 == 0

/-- Sum of the credits of a topology (R20). -/
def creditSum (rs : List Route) : Nat := rs.foldl (fun a r => a + r.credits) 0

/-- One TOPOLOGY record after those whose queues are `seen` (R40, R503): 0, or its code. A port of an instance left off fails with
SYS_SHOASH_POWER, after the queue's number and the pairing of its ports, before its other fields (log entry 17). -/
def routeCode (pw : PowerPlan) (seen : List Nat) (b : List Nat) : Nat :=
  let r := parseRoute b
  if 512 ≤ r.queue ∨ seen.contains r.queue = true ∨ routePairs r = false then 0x0149
  else if !routePowered pw r then 0x014C
  else if !routeOk b then 0x0149
  else 0

/-- TOPOLOGY records in their order (R52): the code of the first that fails. -/
def routesCode (pw : PowerPlan) (seen : List Nat) : List (List Nat) → Nat
  | [] => 0
  | b :: r => if routeCode pw seen b ≠ 0 then routeCode pw seen b else routesCode pw ((parseRoute b).queue :: seen) r

/-- R20, R40, R503, R619 for a full image: 0, or the code of the first failure. The spec gives no order between the records' own
faults, the credit total and a missing port: the model checks them in this order (DESIGN CHOICE, log entry 17). -/
def topologyCode (pw : PowerPlan) (bs : List (List Nat)) : Nat :=
  let rs := bs.map parseRoute
  if routesCode pw [] bs ≠ 0 then routesCode pw [] bs
  else if tilthEntries < creditSum rs then 0x0148
  else if !(missingPorts pw rs).isEmpty then 0x0149
  else 0

/-- The fixed regions: owner, least size, exact, PROTECTED (R43). -/
def fixedRegion (id : Nat) : Option (Nat × Nat × Bool × Nat) :=
  match id with
  | 1 => some (7, 1073741824, false, 1)
  | 2 => some (7, 268435456, false, 1)
  | 3 => some (14, 265420800, false, 1)
  | 4 => some (14, 0, false, 1)
  | 5 => some (23, 268435456, true, 0)
  | 6 => some (1, 131072, true, 0)
  | 7 => some (1, 33554432, true, 1)
  | _ => none

/-- Least bytes of PNL_SEGMENTS: 16 × Σ ⌈W / 64⌉ × H (R44, R371). -/
def segmentBytes (p : PanelDesc) : Nat := 16 * (p.groups.map (fun g => ((g.w + 63) / 64) * g.h)).foldl (· + ·) 0

/-- R43, R44: one region record. A region whose condition does not hold meets the rest of its row; of PNL_SEGMENTS with SCAN 0 the size
is not checked, of AUD_DELAY with PD07 left off it is (DESIGN CHOICE, log entry 18). -/
def regionOk (p : PanelDesc) (b : List Nat) : Bool :=
  let r := parseRegion b
  let form := decide (r.flags < 2) && fieldLE b 4 4 == 0 && fieldLE b 0x18 8 == 0 && r.base % 4096 == 0 && r.size % 4096 == 0 &&
    decide (0 < r.size) && decide (r.base + r.size ≤ memTop)
  let rule := match fixedRegion r.id with
    | some (own, n, ex, prot) => r.owner == own && (if ex then r.size == n else decide (n ≤ r.size)) && r.flags == prot
    | none =>
      if r.id = 0x0120 then r.owner == 10 && r.size == 524288 && r.flags == 0
      else if r.id = 0x0130 then r.owner == 11 && decide (4096 ≤ r.size) && decide (r.size ≤ 1073741824) && r.flags == 0
      else if r.id = 0x0140 then r.owner == 14 && (p.scan == 0 || decide (segmentBytes p ≤ r.size)) && r.flags == 1
      else if r.id = 0x0150 then r.owner == 18 && decide (12582912 ≤ r.size) && r.flags == 1
      else false
  form && rule

/-- Pairwise no overlap of regions (R43). -/
def regionsApart : List Region → Bool
  | [] => true
  | a :: r => r.all (fun b => !overlaps a.base a.size b.base b.size) && regionsApart r

/-- R43, R44: the allocation of a full image. A working region given twice and a region of SIZE 0 are refused too, which the spec
does not state (DESIGN CHOICE, log entry 18). -/
def allocationOk (p : PanelDesc) (pw : PowerPlan) (bs : List (List Nat)) : Bool :=
  let rs := bs.map parseRegion
  let ids : List Nat := rs.map (·.id)
  bs.all (regionOk p) && decide ids.Nodup && regionsApart rs && [1, 2, 3, 4, 5, 6, 7].all ids.contains &&
  ids.contains 0x0120 && (p.scan == 0 || ids.contains 0x0140) &&
  ((pw.domains.getD 7 ⟨false, 0, 0⟩).leaveOff || ids.contains 0x0150)

/-- R46, R78, R168: one SILT_PLAN record. The band period of the mode is BAND_ROWS line periods, T / V_total each, as in R324 and R499
(DEDUCED, log entry 171). -/
def planOk (b : List Nat) : Bool :=
  let p := parsePlan b
  let m := modeAt p.mode
  decide (p.mode < 48) && [16, 32, 64, 128].contains p.bandRows && decide (2 ≤ p.lookBands) && decide (p.lookBands ≤ 8) &&
  decide (p.carryRows ≤ 64) && decide (2 * p.carryRows ≤ p.bandRows) &&
  decide (1 ≤ p.bankGr) && decide (p.bankGr ≤ 6144) && decide (p.sceneGr + p.flatGr ≤ p.bankGr) &&
  decide (1 ≤ p.maxPlanes) && decide (p.maxPlanes ≤ 4096) && (b.drop 16).all (· == 0) &&
  decide (m.vtotal - m.rows < p.lookahead) && decide (p.worst ≤ p.sceneGr * 4096 * 4) &&
  decide ((p.flatGr * 4096 + 160000) * m.num * m.vtotal ≤ 160 * p.bandRows * 10 ^ 9 * m.den)

/-- R46: the plans of a full image: each in order, no mode twice, every enabled mode planned. -/
def plansOk (p : PanelDesc) (bs : List (List Nat)) : Bool :=
  let ps := bs.map parsePlan
  bs.all planOk && decide (ps.map (·.mode)).Nodup &&
  (List.range 48).all (fun m => modePanelReason m p != 0 || (planOf ps m).isSome)

/-- R50: MEM_POWER. -/
def mempOk (b : List Nat) : Bool :=
  let p := parseMemp b
  decide (p.mode ≤ 2) && fieldLE b 1 3 == 0 && decide (1 ≤ p.idleUs) && decide (p.idleUs ≤ 1000000) &&
  decide (100 ≤ p.tolNs) && decide (p.tolNs ≤ 100000) && fieldLE b 12 4 == 0

/-- R50: GENLOCK. -/
def genlockOk (b : List Nat) : Bool :=
  let g := parseGenlock b
  decide (g.source ≤ 3) && decide (g.relock ≤ 1) && decide (g.polarity ≤ 1) && decide (g.castling ≤ 1) &&
  decide (1 ≤ g.rateNum) && decide (1 ≤ g.rateDen) && decide (1 ≤ g.tolPpm) && decide (g.tolPpm ≤ 1000) && (b.drop 0x12).all (· == 0)

/-- Checks 7 and 8 of R52 on a full image: the code of the first to fail, or the structure. -/
def shoFullCheck (b payload : List Nat) (panelHash : List Nat) (pageOk : Bool) (phase : Int) : Except Nat Image :=
  let secs := shoSections b
  let sec (t : Nat) : List Nat := (sectionBytes secs payload t).getD []
  if !shoTableOk secs payload ∨ !presenceOk secs true then .error 0x0147
  else
    let panel := parsePanel (sec 4)
    let power := parsePower (sec 5)
    let im : Image := ⟨fieldLE b 0x10 4, shoDigest b, (records 16 (sec 1)).map parseRoute, (records 32 (sec 2)).map parseRegion,
      (records 32 (sec 3)).map parsePlan, panel, power, parseMemp (sec 6), parseGenlock (sec 7)⟩
    if !panelOk (sec 4) ∨ !pageOk ∨ Config.sha384 (sec 4) ≠ panelHash then .error 0x014B
    else if !powerOk (sec 5) then .error 0x014C
    else if topologyCode power (records 16 (sec 1)) ≠ 0 then .error (topologyCode power (records 16 (sec 1)))
    else if !allocationOk panel power (records 32 (sec 2)) then .error 0x014A
    else if !plansOk panel (records 32 (sec 3)) then .error 0x0150
    else if !mempOk (sec 6) then .error 0x014C
    else if !genlockOk (sec 7) ∨ (firstMode im phase).isNone then .error 0x0150
    else .ok im

/-- A route list with the records of an overlay applied: PRIORITY and CREDITS only (R41, R58). -/
def applyRoutes (rs ov : List Route) : List Route :=
  rs.map (fun r => match ov.find? (fun o => o.queue == r.queue) with
    | some o => { r with prio := o.prio, credits := o.credits }
    | none => r)

/-- A plan list with an overlay's records: a keyed record replaces the record of its mode (R58), or is added. -/
def applyPlans (ps ov : List Plan) : List Plan :=
  ps.map (fun p => (planOf ov p.mode).getD p) ++ ov.filter (fun o => (planOf ps o.mode).isNone)

/-- R41: every overlay record names a defined queue with the same endpoints. -/
def overlayRoutesOk (rs ov : List Route) : Bool :=
  ov.all (fun o => rs.any (fun r => r.queue == o.queue && r.prodUnit == o.prodUnit && r.prodPort == o.prodPort &&
    r.consUnit == o.consUnit && r.consPort == o.consPort))

/-- The changes of a checked overlay (R58): routes, plans, memory power, genlock; none where a section is absent. -/
structure Overlay where
  routes : List Route
  plans : List Plan
  memp : Option MemPower
  genlock : Option Genlock
deriving DecidableEq, Repr

/-- Parse an overlay's sections. -/
def parseOverlay (b payload : List Nat) : Overlay :=
  let secs := shoSections b
  let sec := sectionBytes secs payload
  ⟨(records 16 ((sec 1).getD [])).map parseRoute, (records 32 ((sec 3).getD [])).map parsePlan, (sec 6).map parseMemp,
   (sec 7).map parseGenlock⟩

/-- R58: an overlay applied on top of a structure. -/
def Overlay.apply (o : Overlay) (im : Image) : Image :=
  { im with routes := applyRoutes im.routes o.routes, plans := applyPlans im.plans o.plans,
            memp := o.memp.getD im.memp, genlock := o.genlock.getD im.genlock }

/-- Checks 7 and 8 of R52, and R41, on an overlay against the structure it will meet: the code, or its changes. Two SILT_PLAN records
of one mode are refused with SYS_SHOASH_PLAN: the spec says only that records are keyed by mode (DESIGN CHOICE, log entry 18). -/
def shoOverlayCheck (b payload : List Nat) (im : Image) : Except Nat Overlay :=
  let secs := shoSections b
  let sec (t : Nat) : Option (List Nat) := sectionBytes secs payload t
  if !shoTableOk secs payload ∨ !presenceOk secs false then .error 0x0147
  else
    let o := parseOverlay b payload
    let rb := records 16 ((sec 1).getD [])
    let pb := records 32 ((sec 3).getD [])
    if !(rb.all routeOk) ∨ ¬ (o.routes.map (·.queue)).Nodup ∨ !overlayRoutesOk im.routes o.routes then .error 0x0149
    else if tilthEntries < creditSum (applyRoutes im.routes o.routes) then .error 0x0148
    else if !(pb.all planOk) ∨ ¬ (o.plans.map (·.mode)).Nodup then .error 0x0150
    else if (sec 6).isSome ∧ !mempOk ((sec 6).getD []) then .error 0x014C
    else if (sec 7).isSome ∧ !genlockOk ((sec 7).getD []) then .error 0x0150
    else .ok o

/-! ### Stages of a full load (R51 to R56, R65) -/

/-- STAGE codes of R65. -/
def stageCode : LoadStage → Nat
  | .idle => 0 | .copy => 1 | .auth => 2 | .decrypt => 3 | .check => 4 | .switch => 5 | .done => 6 | .refused => 7

/-- Move the load to a stage; BUSY covers COPY to SWITCH (R63). -/
def State.setStage (s : State) (st : LoadStage) : State :=
  let busy := if 1 ≤ stageCode st ∧ stageCode st ≤ 5 then 1 else 0
  ({ s with sho := { s.sho with stage := st } }.put F.SYS_IMG_STATUS_STAGE (stageCode st)).put F.SYS_IMG_STATUS_BUSY busy

/-- A full load is in progress. -/
def State.loadBusy (s : State) : Bool := s.flag F.SYS_IMG_STATUS_BUSY

/-- R52, R59: refuse a full load: code, log, STAGE REFUSED, DONE, vector 0. -/
def State.shoRefuse (s : State) (code : Nat) : State :=
  let s1 := ((s.put F.SYS_IMG_ERROR_CODE code).event code 0 0 0).setStage .refused
  { (s1.put F.SYS_IMG_STATUS_DONE 1) with sho := { (s1.put F.SYS_IMG_STATUS_DONE 1).sho with next := none } }.raise 0

/-- R51, R55, R586: LOAD written: ignored and logged while BUSY, refused with no firmware running, else the copy starts, and COPIED
falls (DESIGN CHOICE, log entry 19). -/
def State.shoLoad (s : State) : State :=
  if s.trained = false then s
  else if s.loadBusy then s.event 0x0140 0 0 0
  else if s.flag F.SYS_FW_STATUS_RUNNING = false then s.shoRefuse 0x0166
  else (s.put F.SYS_IMG_STATUS_COPIED 0).setStage .copy

/-- The base of SHOASH_STAGING, for the copy that later checks work on (R51); before the first image none is allocated. -/
def State.stagingBase (s : State) : Option Nat := (s.region 0x0007).map (·.base)

/-- Bytes of SHOASH_STAGING (R43): a copy ends there; an image longer than that fails check 1 by its length (R35). -/
abbrev stagingSize : Nat := 33554432

/-- R51, R52: the copy is complete: COPIED, checks 1 to 3, then the signature request, which needs the module OPERATIONAL. The
source bytes, SYS_IMG_ADDR and SYS_IMG_LEN are taken as they stand when the copy completes (DESIGN CHOICE, log entry 19). -/
def State.imageCopyComplete (s : State) : State :=
  if s.sho.stage ≠ .copy then s
  else
    let n := s.get F.SYS_IMG_LEN_LEN
    let b := s.read (s.get F.SYS_IMG_ADDR_ADDR * 4096) (min n stagingSize)
    let s0 := s.noteRead 15 (s.get F.SYS_IMG_ADDR_ADDR * 4096) (min n stagingSize)
    let s1 := match s.stagingBase with
      | some a => s0.store 15 a b
      | none => s0
    let s2 := ({ s1 with sho := { s1.sho with staging := b } }.put F.SYS_IMG_STATUS_COPIED 1).setStage .auth
    let c := shoEarly b n true (s.get F.SYS_ID_STEPPING)
    if c ≠ 0 then s2.shoRefuse c
    else if !s2.secOk then s2.shoRefuse 0x014F
    else s2

/-- Check 4 of R52: the SHA-384 of an image's SIGNER_KEY is the root key hash in OTP. -/
def State.rootSigned (s : State) (b : List Nat) : Bool := s.otpValue 0 == some (Config.sha384 (slice b (b.length - 196) 97))

/-- R52 checks 4 and 5: SIGNER_KEY and the signature's result, then SERIAL, then the decryption request. -/
def State.imageSignature (s : State) (ok : Bool) : State :=
  if s.sho.stage ≠ .auth then s
  else if !ok ∨ s.rootSigned s.sho.staging = false then s.shoRefuse 0x0144
  else if fieldLE s.sho.staging 0x10 4 < s.minSerial 0 then s.shoRefuse 0x0145
  else if !s.secOk then s.shoRefuse 0x014F
  else s.setStage .decrypt

/-- The PANEL hash of the lockable page (R48, R527). -/
def State.panelHash (s : State) : List Nat := slice s.nvs.page 0x20 48

/-- PHASE_NS in force (R309 reason 6). -/
def State.phaseNs (s : State) : Int := signed 32 (s.live F.OUT_PHASE_PHASE_NS)

/-- R52 checks 6 to 8: the tag result with the plaintext; an empty key slot fails here. An accepted image waits for the
switch. -/
def State.imageDecrypt (s : State) (ok : Bool) (plain : List Nat) : State :=
  if s.sho.stage ≠ .decrypt then s
  else if !ok ∨ (s.otpValue (2 + s.sho.staging.getD 0x0D 0)).isNone then s.shoRefuse 0x0146
  else
    let s1 := s.setStage .check
    match shoFullCheck s1.sho.staging (slice plain 0 (shoPayloadLen s1.sho.staging)) s1.panelHash s1.pageValid s1.phaseNs with
    | .error c => s1.shoRefuse c
    | .ok im => { (s1.setStage .switch) with sho := { (s1.setStage .switch).sho with next := some im } }

/-- R55, R96: a function-level reset before the switch has started abandons the load. -/
def State.shoAbort (s : State) : State :=
  if 1 ≤ stageCode s.sho.stage ∧ stageCode s.sho.stage ≤ 4 then s.shoRefuse 0x014E
  else if s.sho.stage = .switch ∧ s.sho.switching = false then s.shoRefuse 0x014E
  else s

/-- The Tilth queues of a topology: a queue that keeps its endpoints keeps nothing across a switch, since the units have
drained (R54). -/
def queuesOf (im : Image) : List TiltQueue :=
  im.routes.map (fun r => { num := r.queue, prodUnit := r.prodUnit, prodPort := r.prodPort, consUnit := r.consUnit,
                            consPort := r.consPort, credits := r.credits, granted := r.credits, prio := r.prio })

/-! ### Overlays of commits (R57) -/

/-- R57: an overlay's copy starts, or waits while a full load is busy; then checks 1 to 3 and BASE_DIGEST. Answers the
refusal code, none while it waits. -/
def State.overlayEarly (s : State) (b : List Nat) (len : Nat) : Nat :=
  let c := shoEarly b len false (s.get F.SYS_ID_STEPPING)
  if c ≠ 0 then c
  else if !s.secOk then 0x014F
  else 0

/-! ### Meanings -/

/-- SHOASH_LOAD (R51). -/
def execShoashLoad (t : Nat) (s : State) : Out := .next (s.whenHost t State.shoLoad)

/-- IMAGE_COPY_COMPLETE (R51). -/
def execImageCopyComplete (t : Nat) (s : State) : Out := .next ((s.tick t).imageCopyComplete)

/-- IMAGE_SIGNATURE_RESULT (R52): `ok`: the signer's hash is the root key hash and the signature verifies. -/
def execImageSignatureResult (t : Nat) (ok : Bool) (s : State) : Out := .next ((s.tick t).imageSignature ok)

/-- IMAGE_DECRYPT_RESULT (R52): `ok`: the GCM tag verifies; `plain` is the payload's plaintext. -/
def execImageDecryptResult (t : Nat) (ok : Bool) (plain : List Nat) (s : State) : Out :=
  .next ((s.tick t).imageDecrypt ok plain)

end Sys2Proof.Machine
end

