-- ==== Sys2Proof/Machine/BoardCheck.lean ====
section
/-!
DEFINITION. The checks of a commit's layer list (R252, R111, R167, R281): descriptors, the rules of each kind, and the
Silt totals; and the buffers a list names (R84).
-/

namespace Sys2Proof.Machine

/-! ### Context descriptors (R276, R277, R281) -/

/-- Whether `n` bytes are all 0 in a list. -/
def zeros (b : List Nat) (off n : Nat) : Bool := (slice b off n).all (· == 0)

/-- Address of context c's descriptor, none before an image is in force (R276). -/
def State.ctxAddr (s : State) (c : Nat) : Option Nat := (s.region 0x0120).map (fun r => r.base + 128 * c)

/-- OUT_W and OUT_H of a context descriptor. -/
def ctxSize (d : List Nat) : Nat × Nat := (fieldLE d 0x0C 2, fieldLE d 0x0E 2)

/-- The Sieve's line limits (R281). -/
def ctxLinesOk (d : List Nat) : Bool :=
  (decide (fieldLE d 0x0C 2 ≤ 4096) || bitAt (d.getD 1 0) 0) && decide (fieldLE d 0x0A 2 ≤ 4 * fieldLE d 0x0E 2)

/-- The format rules of R276 and R277, but for the regions. -/
def ctxFormOk (d : List Nat) : Bool :=
  let f := d.getD 0 0
  decide (1 ≤ f) && decide (f ≤ 4) && decide (d.getD 1 0 < 8) && decide (d.getD 2 0 ≤ 3) && decide (d.getD 3 0 ≤ 3) &&
  decide (d.getD 4 0 ≤ 7) && decide (d.getD 5 0 ≤ 2) && (d.getD 5 0 == 0 || f == 3) &&
  decide (1 ≤ d.getD 6 0) && decide (d.getD 6 0 ≤ 6) && decide (2 ≤ d.getD 7 0) && decide (d.getD 7 0 ≤ 8) &&
  [8, 10, 12, 14].all (fun o => decide (1 ≤ fieldLE d o 2) && decide (fieldLE d o 2 ≤ 8192)) &&
  fieldLE d 0x10 8 % 4096 == 0 && fieldLE d 0x18 4 % 4096 == 0 && fieldLE d 0x1C 4 % 64 == 0 &&
  decide (8 * fieldLE d 0x0C 2 ≤ fieldLE d 0x1C 4) &&
  decide (pyramidSize 0 (fieldLE d 0x1C 4) (fieldLE d 0x0C 2) (fieldLE d 0x0E 2) (d.getD 6 0) ≤ fieldLE d 0x18 4) &&
  zeros d 0x50 48 &&
  (f != 3 || fieldLE d 8 2 % 2 == 0)

/-- Address of slot k of a context. -/
def slotAddr (d : List Nat) (k : Nat) : Nat := fieldLE d 0x10 8 + k * fieldLE d 0x18 4

/-- Bytes of one slot's pyramid. -/
def slotSize (d : List Nat) : Nat :=
  pyramidSize 0 (fieldLE d 0x1C 4) (fieldLE d 0x0C 2) (fieldLE d 0x0E 2) (d.getD 6 0)

/-- A context that is not FREE. -/
def State.ctx (s : State) (c : Nat) : Option Context := s.brd.ctxs.find? (fun x => x.num == c)

/-- The descriptor a SOURCE layer is checked against (R276): the kept copy of a LIVE context, else the one in memory. -/
def State.ctxDesc (s : State) (x : Context) : List Nat :=
  if x.st = .live then x.desc
  else match s.ctxAddr x.num with
    | some a => s.read a 128
    | none => []

/-! ### Descriptors (R251, R252) -/

/-- Fields that only one kind uses are 0 in the others (R251). -/
def layerUnusedOk (b : List Nat) : Bool :=
  let k := lKind b
  (k == 1 || k == 4 || fieldLE b 6 2 == 0) && (k == 2 || k == 4 || zeros b 0x30 8) && (k == 4 || zeros b 0x38 8) &&
  (k == 2 || (zeros b 0x48 4 && b.getD 0x50 0 == 0 && zeros b 0x54 4)) && (k == 3 || zeros b 0x58 36) &&
  (lPolicy b == 2 || (zeros b 0x40 8 && zeros b 0x4C 4 && b.getD 0x51 0 == 0))

/-- METER fields (R251, R252). -/
def meterOk (b : List Nat) : Bool :=
  lKind b != 3 ||
  (decide (1 ≤ b.getD 0x58 0) && decide (b.getD 0x58 0 ≤ 16) && decide (b.getD 0x59 0 ≤ 1) && decide (20 ≤ b.getD 0x5A 0) &&
   decide (b.getD 0x5A 0 ≤ 90) && decide (b.getD 0x5B 0 < b.getD 0x5A 0) && decide (b.getD 0x5C 0 < b.getD 0x5B 0) &&
   (List.range 16).all (fun i =>
     let c := b.getD (0x60 + i) 0
     if i < b.getD 0x58 0 then c / 16 % 8 == 0 else c == 0))

/-- The first row of R252's table. -/
def layerFormOk (b : List Nat) : Bool :=
  let k := lKind b
  decide (1 ≤ k) && decide (k ≤ 4) && decide (b.getD 1 0 < 8) && decide (b.getD 2 0 < 3) && decide (b.getD 3 0 < 16) &&
  decide (b.getD 3 0 % 8 ≤ 4) && decide (1 ≤ lW b) && decide (lW b ≤ 8192) && decide (1 ≤ lH b) && decide (lH b ≤ 8192) &&
  zeros b 0x52 2 && zeros b 0x5D 3 && zeros b 0x7C 4 && layerUnusedOk b && !(k == 4 && lOpaque b) && !(k != 4 && lHoldBase b) &&
  (k != 2 || (fieldLE b 0x48 4 % 64 == 0 && decide (8 * lW b ≤ fieldLE b 0x48 4) && decide (1 ≤ b.getD 0x50 0) && decide (b.getD 0x50 0 ≤ 6))) &&
  (lPolicy b != 2 || (fieldLE b 0x4C 4 % 64 == 0 && decide (8 * lW b ≤ fieldLE b 0x4C 4) && decide (b.getD 0x51 0 ≤ 6)))

/-- `BRD_AFFINE` does not apply (R252). -/
def layerAffineOk (b : List Nat) : Bool :=
  let z := fieldLE b 8 4
  let al := fieldLE b 12 4
  let a := lAffine b
  let v (i : Nat) : Rat := ofF32 (a.getD i 0)
  finF32 z && finF32 al && a.all finF32 && decide (absR (ofF32 z) ≤ 10000) && decide (0 ≤ ofF32 al) && decide (ofF32 al ≤ 1) &&
  decide (v 0 * v 4 - v 1 * v 3 ≠ 0)

/-- Byte ranges of the buffers a layer names by address (R84). -/
def State.layerBuffers (s : State) (b : List Nat) : List (Nat × Nat) :=
  (if lKind b = 2 then [(lContent b, pyramidSize (lContent b) (fieldLE b 0x48 4) (lW b) (lH b) (b.getD 0x50 0))] else []) ++
  (if lKind b = 4 then [(lContent b, max 64 (s.readLE (lContent b + 0x30) 4))] else []) ++
  (if lKind b = 4 ∧ lTableset b ≠ 0 then [(lTableset b, max 20 (s.readLE (lTableset b + 12) 4))] else []) ++
  (if lPolicy b = 2 then [(fieldLE b 0x40 8, pyramidSize (fieldLE b 0x40 8) (fieldLE b 0x4C 4) (lW b) (lH b) (b.getD 0x51 0))] else [])

/-- Addresses are aligned and no buffer lies in a PROTECTED region (R251, R252). -/
def State.layerRegionOk (s : State) (b : List Nat) : Bool :=
  (lKind b != 4 || (lContent b % 64 == 0 && lTableset b % 64 == 0)) && (lKind b != 2 || lContent b % 4096 == 0) &&
  fieldLE b 0x40 8 % 4096 == 0 && (s.layerBuffers b).all (fun q => !s.protectedHit q.1 q.2)

/-- The descriptor rules of R252 in the table's order: 0, or the code; `ids` are the earlier layers' LAYER_IDs. -/
def State.descCode (s : State) (ids : List Nat) (b : List Nat) : Nat :=
  if !layerFormOk b ∨ !meterOk b then 0x0910
  else if lId b = 0 ∨ ids.contains (lId b) = true then 0x0911
  else if !layerAffineOk b then 0x0912
  else if !s.layerRegionOk b then 0x0913
  else if lKind b = 1 ∧ (match s.ctx (lContext b) with
      | some x => ctxSize (s.ctxDesc x) != (lW b, lH b)
      | none => true) = true then 0x0914
  else if lPolicy b = 2 ∧ (fieldLE b 0x40 8 = 0 ∨ b.getD 0x51 0 = 0) then 0x0915
  else 0

/-! ### Scene content (R111) -/

/-- The bytes of an access unit up to its DESC_CRC. -/
def State.auBytes (s : State) (a : Nat) : List Nat := s.read a (auDescLen (s.read a 64))

/-- The access unit at an address. -/
def State.auAt (s : State) (a : Nat) : KssAu := parseAu (s.auBytes a)

/-- The tables of a table-set record, none where the address is 0. -/
def State.tablesAt (s : State) (a : Nat) : List (List Nat) :=
  if a = 0 then []
  else
    let h := s.read a 16
    let r := s.read a (20 + 12 * h.getD 5 0)
    (List.range (h.getD 5 0)).map (tableLens r)

/-- Check 6 of R111. -/
def State.tablesetCode (s : State) (a id : Nat) : Nat :=
  if a = 0 then (if id = 0 then 0 else 0x0542)
  else
    let h := s.read a 16
    let n := 20 + 12 * h.getD 5 0
    if s.readPoison a n then 0x0412
    else if !tablesetOk (s.read a n) ∨ (id ≠ 0 ∧ id ≠ fieldLE h 8 4) then 0x0542 else 0

/-- R111: the access unit of a SCENE layer: 0, or the code of the first check to fail. -/
def State.auCode (s : State) (b : List Nat) : Nat :=
  let a := lContent b
  if s.readPoison a 64 then 0x0412
  else
    let h := s.read a 64
    if auHeaderCode h ≠ 0 then auHeaderCode h
    else if s.readPoison a (auDescLen h) then 0x0412
    else
      let d := s.auBytes a
      let au := parseAu d
      if auDescCode d ≠ 0 then auDescCode d
      else if au.stream ≠ lContext b then 0x0543
      else s.tablesetCode (lTableset b) au.tableset

/-- What the checks of R111 read of the access unit at `a` and its table set at `ts`, as far as they pass: the header, the descriptor, the
table-set record. -/
def State.auReads (s : State) (a ts : Nat) : List (Nat × Nat) :=
  let h := s.read a 64
  if s.readPoison a 64 = true ∨ auHeaderCode h ≠ 0 then [(a, 64)]
  else if s.readPoison a (auDescLen h) = true ∨ auDescCode (s.auBytes a) ≠ 0 ∨ ts = 0 then [(a, auDescLen h)]
  else [(a, auDescLen h), (ts, 20 + 12 * (s.read ts 16).getD 5 0)]

/-- The rules of a layer's kind (R252, R281). -/
def State.kindCode (s : State) (b : List Nat) : Nat :=
  if lKind b = 4 then s.auCode b
  else if lKind b = 1 then
    match s.ctx (lContext b) with
    | some x => if ctxLinesOk (s.ctxDesc x) then 0 else 0x0A11
    | none => 0
  else 0

/-- Every layer in index order: the first failure as (code, layer), (0, _) where all pass (R252). -/
def State.layersCode (s : State) : Nat → List Nat → List (List Nat) → Nat × Nat
  | _, _, [] => (0, 0xFFFF)
  | i, ids, b :: r =>
    let c := s.descCode ids b
    if c ≠ 0 then (c, i)
    else
      let k := s.kindCode b
      if k ≠ 0 then (k, i) else s.layersCode (i + 1) (lId b :: ids) r

/-- What the Board reads to check a list (R111, R252): of each SCENE layer up to the first that fails, what its access unit's checks read. -/
def State.layersReads (s : State) : Nat → List Nat → List (List Nat) → List (Nat × Nat)
  | _, _, [] => []
  | i, ids, b :: r =>
    if s.descCode ids b ≠ 0 then []
    else
      (if lKind b = 4 then s.auReads (lContent b) (if (s.auAt (lContent b)).stream = lContext b then lTableset b else 0) else []) ++
      (if s.kindCode b ≠ 0 then [] else s.layersReads (i + 1) (lId b :: ids) r)

/-! ### The totals of R167 -/

/-- Place of a band height in the WORST fields (R106). -/
def worstIx (rows : Nat) : Nat := if rows = 16 then 0 else if rows = 32 then 1 else if rows = 64 then 2 else 3

/-- Ceiling of a rational, at least 0. -/
def ceilR (x : Rat) : Nat := (max 0 (x.ceil)).toNat

/-- X_L of R164: the layer's extent on the panel, in subpixel columns. -/
def layerExtent (p : PanelDesc) (aff : List Nat) (w h : Nat) : Rat :=
  let a (i : Nat) : Rat := ofF32 (aff.getD i 0)
  let det := a 0 * a 4 - a 1 * a 3
  let px (lx ly : Rat) : Rat := (a 4 * (lx - a 2) - a 1 * (ly - a 5)) / det
  let hf : Rat := 1 / 2
  let xs := [px (-hf) (-hf), px ((w : Rat) - hf) (-hf), px (-hf) ((h : Rat) - hf), px ((w : Rat) - hf) ((h : Rat) - hf)]
  let cut (v : Rat) : Rat := clampR (-hf) ((p.cols : Rat) - hf) v
  cut (xs.foldl max (xs.headD 0)) - cut (xs.foldl min (xs.headD 0))

/-- r of R164, in level-0 rows. -/
def rowsReached (p : PanelDesc) (aff : List Nat) (w h bandRows : Nat) (z dv dh : Rat) : Nat :=
  let a (i : Nat) : Rat := ofF32 (aff.getD i 0)
  ceilR (absR (a 4) * ((bandRows : Rat) + absR z * dv) + absR (a 3) * (layerExtent p aff w h + absR z * dh))

/-- Levels a flat layer's pyramid has (R251, R276); a meter is drawn at every level (log entry 37). -/
def State.flatLevels (s : State) (b : List Nat) : Nat :=
  match lKind b with
  | 1 => match s.ctx (lContext b) with
    | some x => (s.ctxDesc x).getD 6 1
    | none => 1
  | 2 => b.getD 0x50 1
  | _ => 6

/-- SLT_GEOM's spreads as rationals (R167, R177). -/
def State.geom (s : State) : Rat × Rat := ((s.get F.SLT_GEOM_DELTA_H : Rat) / 256, (s.get F.SLT_GEOM_DELTA_V : Rat) / 256)

/-- G_f of R165 for a flat layer under a plan, LOD_BIAS and FILTER. -/
def State.flatGranules (s : State) (p : PanelDesc) (plan : Plan) (bias16 : Int) (filter : Nat) (b : List Nat) : Nat :=
  let z := ofF32 (fieldLE b 8 4)
  let vp := s.viewPitch
  let g := min ((grain (footprintSq z (lAffine b) vp.1 vp.2) bias16).1) (s.flatLevels b - 1)
  let m := if filter = 1 then 1 else 3
  let r := rowsReached p (lAffine b) (lW b) (lH b) plan.bandRows z s.geom.2 s.geom.1
  let rg := ceilDiv r (2 ^ g) + m
  (ceilDiv (rg - 1) 8 + 1) * ceilDiv (levelDim (lW b) g) 64

/-- The first layer at which a running sum passes a limit. -/
def overAt (limit : Nat) : Nat → Nat → List Nat → Option Nat
  | _, _, [] => none
  | i, acc, v :: r => if limit < acc + v then some i else overAt limit (i + 1) (acc + v) r

/-- R167: the totals of a layer list under a plan: (code, layer), (0, _) where they fit. -/
def State.totalsCode (s : State) (p : PanelDesc) (plan : Plan) (bias16 : Int) (filter : Nat) (ls : List (List Nat)) : Nat × Nat :=
  let au (b : List Nat) : KssAu := s.auAt (lContent b)
  let worst := ls.map (fun b => if lKind b = 4 then (au b).worst.getD (worstIx plan.bandRows) 0 else 0)
  let planes := ls.map (fun b => if lKind b = 4 then (au b).planes.length else 0)
  let flat := ls.map (fun b => if lFlat b then s.flatGranules p plan bias16 filter b else 0)
  match overAt plan.worst 0 0 worst, overAt plan.maxPlanes 0 0 planes, overAt plan.flatGr 0 0 flat with
  | some i, _, _ => (0x0610, i)
  | none, some i, _ => (0x0611, i)
  | none, none, some i => (0x0612, i)
  | none, none, none => (0, 0xFFFF)

end Sys2Proof.Machine
end

