-- ==== Sys2Proof/Machine/Sieve.lean ====
section
/-!
DEFINITION. The Sieve (R276 to R292): source frames queued, scaled and written, the tables and their copies, PIPE_EN and
pipe faults.
-/

namespace Sys2Proof.Machine

/-! ### fp32 arithmetic -/

/-- A sum, rounded to fp32. -/
def compAdd (a b : Ext) : Ext := (a.add b).rnd

/-- A product, rounded to fp32. -/
def compMul (a b : Ext) : Ext := (a.mul b).rnd

/-- A weighted sum of components, rounded to fp32 once (log entry 40). -/
def compSum (l : List (Rat × Ext)) : Ext := (l.foldl (fun (a : Ext) q => a.add (q.2.scale q.1)) (.fin 0)).rnd

/-- The fp16 pattern of a component: values beyond ±65,504 saturate (R278), infinite ones too; one that is not a number is a free value
(log entry 20). -/
def compOut (seed place : Nat) : Ext → Nat
  | .fin x => toF16 (clampR (-65504) 65504 x)
  | .inf n => toF16 (if n then -65504 else 65504)
  | .nan => Config.freeValue place seed % 65536

/-! ### Input samples (R277, R278) -/

/-- Bytes of one input row (R277). -/
def sveRowBytes (fmt w : Nat) : Nat := if fmt = 4 then 8 * w else 4 * w

/-- The 16-bit words Cb, Y0, Cr, Y1 of the pair that holds column x, 10 bits each. -/
def yccWord (row : List Nat) (x k : Nat) : Nat := fieldLE row (8 * (x / 2) + 2 * k) 2 % 1024

/-- Chroma at column x (R278): even columns hold it, an odd one takes the mean of its neighbours, the left at the edge. -/
def yccChroma (w : Nat) (row : List Nat) (x k : Nat) : Rat :=
  let at' (x : Nat) : Rat := (yccWord row x k : Rat)
  if x % 2 = 0 ∨ w ≤ x + 1 then at' x else (at' x + at' (x + 1)) / 2

/-- K_R and K_B of YCC (R276). -/
def yccK (ycc : Nat) : Rat × Rat := if ycc = 1 then (2126 / 10000, 722 / 10000) else (2627 / 10000, 593 / 10000)

/-- Steps 1 of R278 for YCC422_10; with YCC 0 the spec states no R'G'B' (log entry 20). -/
def yccSample (d row : List Nat) (x : Nat) : List Ext :=
  let full := bitAt (d.getD 1 0) 2
  let w := fieldLE d 8 2
  let y0 : Rat := (yccWord row x (if x % 2 = 0 then 1 else 3) : Rat)
  let y := rndF32 (if full then y0 / 1023 else (y0 - 64) / 876)
  let ch (k : Nat) : Rat := rndF32 ((yccChroma w row x k - 512) / (if full then 1023 else 896))
  let cb := ch 0
  let cr := ch 2
  let k := yccK (d.getD 5 0)
  if d.getD 5 0 = 0 then [.nan, .nan, .nan, .fin 1]
  else
    let r := rndF32 (y + rndF32 (2 * (1 - k.1) * cr))
    let b := rndF32 (y + rndF32 (2 * (1 - k.2) * cb))
    let g := rndF32 ((y - k.1 * r - k.2 * b) / (1 - k.1 - k.2))
    [.fin r, .fin g, .fin b, .fin 1]

/-- The components of input sample x of a row before the input LUT. -/
def sveSample (d row : List Nat) (x : Nat) : List Ext :=
  let q (n m : Nat) : Ext := .fin (rndF32 ((n : Rat) / (m : Rat)))
  match d.getD 0 0 with
  | 1 => (List.range 4).map (fun c => q (row.getD (4 * x + c) 0) 255)
  | 2 =>
    let w := fieldLE row (4 * x) 4
    [q (bitsOf w 9 0) 1023, q (bitsOf w 19 10) 1023, q (bitsOf w 29 20) 1023, q (bitsOf w 31 30) 3]
  | 3 => yccSample d row x
  | _ => (List.range 4).map (fun c => extF16 (fieldLE row (8 * x + 2 * c) 2))

/-- Step 2 of R278 for one colour: min(1, c / A), and 0 where A is 0. -/
def unpremul (c a : Ext) : Ext :=
  match a with
  | .fin y =>
    if y = 0 then .fin 0
    else match (c.scale (1 / y)).rnd with
      | .fin v => .fin (min 1 v)
      | .inf n => if n then .inf true else .fin 1
      | .nan => .nan
  | .inf _ => (match c with
    | .fin _ => .fin 0
    | _ => .nan)
  | .nan => .nan

/-- Step 2 of R278. -/
def svePremulIn (d : List Nat) (v : List Ext) : List Ext :=
  let a := v.getD 3 .nan
  if bitAt (d.getD 1 0) 1 then (v.take 3).map (fun c => unpremul c a) ++ [a] else v

/-! ### Tables (R280) -/

/-- Key of a table entry: kind, table, index. -/
def sveKey (kind table ix : Nat) : Nat := (kind * 8 + table) * 4096 + ix

/-- A table entry as 16 bits: written, or its reset value (log entry 25 for the banks). -/
def sveEntry (t : List (Nat × Option Nat)) (kind table ix : Nat) : Nat :=
  match sparseGet (fun _ => none) t (sveKey kind table ix) with
  | some v => v
  | none => if kind = 0 then toF16 (((ix % 1025 : Nat) : Rat) / 1024) else unsigned 16 (Config.sieveReset table ix)

/-- Step 3 of R278 on channel c. -/
def sveLut (t : List (Nat × Option Nat)) (lut c : Nat) (x : Ext) : Ext :=
  match x with
  | .nan => .nan
  | _ =>
    let pos := 1024 * x.unit
    let i := min pos.floor.toNat 1023
    let node (k : Nat) : Ext := extF16 (sveEntry t 0 lut (1025 * c + k))
    compAdd (node i) (((compAdd (node (i + 1)) ((node i).scale (-1))).scale (pos - (i : Rat))).rnd)

/-- Steps 3 to 5 of R278. -/
def sveColour (t : List (Nat × Option Nat)) (d : List Nat) (v : List Ext) : List Ext :=
  let a := v.getD 3 .nan
  let rgb := if d.getD 0 0 = 4 then v.take 3 else ((v.take 3).zipIdx).map (fun q => sveLut t (d.getD 4 0) q.2 q.1)
  let m (i : Nat) : Ext := extF32 (fieldLE d (0x20 + 4 * i) 4)
  let out := (List.range 3).map (fun r =>
    let p (k : Nat) : Ext := compMul (m (4 * r + k)) (rgb.getD k .nan)
    compAdd (compAdd (compAdd (p 0) (p 1)) (p 2)) (m (4 * r + 3)))
  out.map (fun c => compMul c a) ++ [a]

/-! ### Scaling (R279) -/

/-- Base and phase of output sample j (R279). -/
def svePhase (nin nout j : Nat) : Int × Nat :=
  let p : Rat := ((j : Rat) + 1 / 2) * (nin : Rat) / (nout : Rat) - 1 / 2
  let base := p.floor
  let ph := (roundEvenR ((p - (base : Rat)) * 64)).toNat
  if ph = 64 then (base + 1, 0) else (base, ph)

/-- A coefficient of a bank: signed 2.14. -/
def sveCoef (t : List (Nat × Option Nat)) (bank ix : Nat) : Rat := fixR 16 14 (sveEntry t 1 bank ix)

/-- A tap position held to the input (R279). -/
def tapAt (n : Nat) (p : Int) : Nat := (max 0 (min ((n : Int) - 1) p)).toNat

/-- One output sample of an axis from the input samples of its line, by 4 components. -/
def sveTap (t : List (Nat × Option Nat)) (bank off taps : Nat) (first : Int) (nin nout j : Nat) (line : Nat → List Ext) : List Ext :=
  let p := svePhase nin nout j
  let ws := (List.range taps).map (fun (k : Nat) =>
    (sveCoef t bank (off + taps * p.2 + k), line (tapAt nin (p.1 + first + (k : Int)))))
  (List.range 4).map (fun c => compSum (ws.map (fun q => (q.1, q.2.getD c .nan))))

/-- The level-0 samples of a frame as rows of components: colour, then horizontal, then vertical scaling. -/
def sveScale (t : List (Nat × Option Nat)) (d : List Nat) (rows : List (List Nat)) : List (List (List Ext)) :=
  let iw := fieldLE d 8 2
  let ih := fieldLE d 10 2
  let ow := fieldLE d 12 2
  let oh := fieldLE d 14 2
  let bank := d.getD 3 0
  let inRows := rows.map (fun r => (List.range iw).map (fun x => sveColour t d (svePremulIn d (sveSample d r x))))
  let hRows := inRows.map (fun r => (List.range ow).map (fun j => sveTap t bank 0 8 (-3) iw ow j (fun p => r.getD p [])))
  (List.range oh).map (fun j => (List.range ow).map (fun x =>
    sveTap t bank 512 6 (-2) ih oh j (fun p => (hRows.getD p []).getD x [])))

/-! ### Pyramid levels (R275) -/

/-- The mean of four fp16 samples' components (R275): formed in fp32, rounded to fp16. -/
def meanF16 (seed : Nat) (ws : List Nat) : Nat :=
  match compSum (ws.map (fun w => ((1 : Rat) / 4, extF16 w))) with
  | .fin x => toF16 x
  | .inf n => if n then 0xFC00 else 0x7C00
  | .nan => Config.freeValue 41 seed % 65536

/-- The four fp16 words of a sample as it was written. -/
def State.sampleAt (s : State) (a : Nat) : List Nat := (List.range 4).map (fun c => s.byte (a + 2 * c) + 256 * s.byte (a + 2 * c + 1))

/-- Row j of level g + 1 from level g in memory (R275). -/
def State.levelRow (s : State) (a0 p0 w h g j : Nat) : List Nat :=
  let wg := levelDim w g
  let hg := levelDim h g
  let smp (x y : Nat) : List Nat := if x < wg ∧ y < hg then s.sampleAt (sampleAddr a0 p0 w h g x y) else [0, 0, 0, 0]
  (List.range (levelDim w (g + 1))).flatMap (fun i =>
    let q := [smp (2 * i) (2 * j), smp (2 * i + 1) (2 * j), smp (2 * i) (2 * j + 1), smp (2 * i + 1) (2 * j + 1)]
    (List.range 4).flatMap (fun c => leBytes 2 (meanF16 (s.fresh + 4 * i + c) (q.map (fun x => x.getD c 0)))))

/-- Write rows j, j + 1, … (`n` of them) of level g + 1 through a port. -/
def State.formRows (s : State) (port a0 p0 w h g : Nat) : Nat → Nat → State
  | _, 0 => s
  | j, n + 1 =>
    let s1 := s.store port (sampleAddr a0 p0 w h (g + 1) 0 j) (s.levelRow a0 p0 w h g j)
    { s1 with fresh := s1.fresh + 4 * levelDim w (g + 1) }.formRows port a0 p0 w h g (j + 1) n

/-- Form levels g + 1 to g + n from level g (R275). -/
def State.formLevels (s : State) (a0 p0 w h : Nat) : Nat → Nat → State
  | _, 0 => s
  | g, n + 1 => (s.formRows 7 a0 p0 w h g 0 (levelDim h (g + 1))).formLevels a0 p0 w h (g + 1) n

/-- Write the level-0 rows of a scaled frame. -/
def State.writeLevel0 (s : State) (a0 p0 : Nat) : Nat → List (List (List Ext)) → State
  | _, [] => s
  | j, r :: rs =>
    let bytes := (r.zipIdx).flatMap (fun q => (q.1.zipIdx).flatMap (fun c =>
      leBytes 2 (compOut (s.fresh + 4 * q.2 + c.2) 40 c.1)))
    let s1 := s.store 7 (a0 + p0 * j) bytes
    { s1 with fresh := s1.fresh + 4 * r.length }.writeLevel0 a0 p0 (j + 1) rs

/-! ### Pipes (R285 to R288) -/

/-- Pipe p. -/
def State.pipe (s : State) (p : Nat) : SvePipe := s.sve.pipes.getD p {}

/-- Change pipe p. -/
def State.onPipe (s : State) (p : Nat) (f : SvePipe → SvePipe) : State :=
  { s with sve := { s.sve with pipes := modAt s.sve.pipes p f } }

/-- State of pipe p (R288). -/
def State.pipeSt (s : State) (p : Nat) : Nat := bitsOf (s.get F.SVE_STATUS_P_STATE) (4 * p + 3) (4 * p)

/-- Set the state of pipe p and show its queue's depth. -/
def State.setPipe (s : State) (p st : Nat) : State :=
  let s1 := s.put F.SVE_STATUS_P_STATE (withBits (s.get F.SVE_STATUS_P_STATE) (4 * p + 3) (4 * p) st)
  s1.put F.SVE_QUEUE_DEPTH (withBits (s.get F.SVE_QUEUE_DEPTH) (8 * p + 7) (8 * p) (s.pipe p).queue.length)

/-- The completion body of a source frame (R566). -/
def sveBody (code ctx slot pipe stamp : Nat) : List Nat :=
  leBytes 2 code ++ leBytes 2 ctx ++ [slot, pipe, 0, 0] ++ leBytes 4 stamp ++ List.replicate 8 0

/-- The snapshot counter of a frame code (R292). -/
def sveCounter (code : Nat) : Nat :=
  if code = 0x0A23 then Reg.SVE_SNAP_SUPERSEDED
  else if code = 0x0A22 then Reg.SVE_SNAP_NOT_LIVE
  else Reg.SVE_SNAP_DROPPED

/-- Log a frame code with its pipe; 0x0A20 to 0x0A24 at most once per epoch and pipe (R289). -/
def State.sveLog (s : State) (p code ctx : Nat) : State := if code = 0x0A30 then s.event code p ctx 0 else s.eventOnce code p p ctx 0

/-- A frame ends without being written: counted, logged, completed with its code (R285 to R289). -/
def State.sveDrop (s : State) (p : Nat) (j : SveJob) (code stamp : Nat) : State :=
  let s1 := (s.count (sveCounter code) 1).sveLog p code j.ctx
  s1.endDesc j.ring j.num code (sveBody code j.ctx 0xFF p stamp)

/-- At a frame boundary: an APPLY request is taken, else the pipe scales or idles (R280, R288). -/
def State.pipeBoundary (s : State) (p : Nat) : State :=
  if bitAt (s.get F.SVE_APPLY_APPLY) p then s.setPipe p 2
  else s.setPipe p (if (s.pipe p).queue.isEmpty then 0 else 1)

/-- The frame in progress is dropped with a code (R287, R288). -/
def State.dropCurrent (s : State) (p code : Nat) : State :=
  match (s.pipe p).cur with
  | none => s
  | some f =>
    let s1 := s.onPipe p (fun x => { x with cur := none })
    if f.readDone then (s1.count Reg.SVE_SNAP_DROPPED 1).sveLog p code f.job.ctx
    else s1.sveDrop p f.job code 0

/-- Drop queued frames with a code. -/
def State.dropJobs (s : State) (p code : Nat) : List SveJob → State
  | [] => s
  | j :: js => (s.sveDrop p j code 0).dropJobs p code js

/-- R288: pipe p enters HALTED. -/
def State.pipeHalt (s : State) (p : Nat) : State :=
  let q := (s.pipe p).queue
  let s1 := (s.onPipe p (fun x => { x with queue := [] })).setPipe p 3
  (s1.dropCurrent p 0x0A22).dropJobs p 0x0A22 q

/-- Release pipe p where neither its enable nor a reset, freeze or power domain holds it. -/
def State.pipeRelease (s : State) (p : Nat) : State :=
  if s.pipeSt p = 3 ∧ s.sve.held = false ∧ (decide (2 ≤ p) && s.leftOff 12) = false ∧
      bitAt (s.get F.SVE_CTRL_PIPE_EN) p = true then s.pipeBoundary p else s

/-- A reset, freeze or power-off of the Sieve (R288). -/
def State.sveHalt (s : State) : State :=
  let s1 : State := { s with sve := { s.sve with held := true } }
  [0, 1, 2, 3].foldl State.pipeHalt s1

/-- The release from it. -/
def State.sveRelease (s : State) : State :=
  let s1 : State := { s with sve := { s.sve with held := false } }
  [0, 1, 2, 3].foldl State.pipeRelease s1

/-! ### SOURCE_FRAME (R566, R285) -/

/-- The checks of R566 on a descriptor: 0, or the refusal code. -/
def State.sourceCode (s : State) (b : List Nat) : Nat :=
  let addr := fieldLE b 0x10 8
  let pitch := fieldLE b 0x0C 4
  if fieldLE b 8 2 ≥ 4096 ∨ fieldLE b 0x0A 2 ≠ 0 ∨ zeros b 0x18 40 = false ∨ addr % 64 ≠ 0 ∨ pitch % 4 ≠ 0 then 0x0212
  else match s.ctx (fieldLE b 8 2) with
    | some x =>
      if x.st ≠ .live then 0x0A22
      else if pitch < sveRowBytes (x.desc.getD 0 0) (fieldLE x.desc 8 2) then 0x0212
      else if s.protectedHit addr (pitch * fieldLE x.desc 10 2) then 0x0111
      else 0
    | none => 0x0A22

/-- Insert a frame into a pipe's queue in the order of stamps (R285). -/
def insertFrame (j : SveJob) : List SveJob → List SveJob
  | [] => [j]
  | x :: xs => if x.stamp ≤ j.stamp then x :: insertFrame j xs else j :: x :: xs

/-- A checked frame meets its pipe (R285): dropped where the pipe is HALTED, superseded by a waiting frame of its context with a later
stamp, superseding, queued, or one too many. -/
def State.sourceQueue (s : State) (p : Nat) (j : SveJob) : State :=
  if s.pipeSt p = 3 then s.sveDrop p j 0x0A22 0
  else
    let old := (s.pipe p).queue.filter (fun (q : SveJob) => q.ctx == j.ctx)
    let s1 := (s.onPipe p (fun x => { x with queue := x.queue.filter (fun (q : SveJob) => q.ctx != j.ctx) })).dropJobs p 0x0A23 old
    if old.any (fun q => decide (j.stamp < q.stamp)) then s.sveDrop p j 0x0A23 0
    else if 64 ≤ (s1.pipe p).queue.length then s1.sveDrop p j 0x0A24 0
    else
      let s2 := s1.onPipe p (fun x => { x with queue := insertFrame j x.queue })
      s2.setPipe p (if s2.pipeSt p = 0 then 1 else s2.pipeSt p)

/-- SOURCE_FRAME (R566) on ring w. -/
def State.sourceFrame (s : State) (w : Nat) : State :=
  match s.nextDesc w 2 with
  | none => s
  | some d =>
    let b := d.bytes
    let ctx := fieldLE b 8 2
    let code := s.sourceCode b
    let pipe := match s.ctx ctx with
      | some x => if x.st = .live then x.desc.getD 2 0 else 0
      | none => 0
    let s1 := s.startDesc w d.num
    let j : SveJob := ⟨w, d.num, ctx, fieldLE b 0x10 8, fieldLE b 0x0C 4, d.stamp⟩
    if code = 0 then s1.sourceQueue pipe j
    else if code = 0x0A22 then s1.sveDrop pipe j code 0
    else
      let s2 := if code = 0x0111 then s1.protectedEvent j.addr else s1.eventOnce code w w w d.slot
      s2.endDesc w d.num code (sveBody code ctx 0xFF pipe 0)

/-! ### Frames (R283, R284, R287) -/

/-- Slots of a context in cyclic order after the last written (R283); from slot 0 where none has been. -/
def slotOrder (n : Nat) : Option Nat → List Nat
  | none => List.range n
  | some l => (List.range n).map (fun k => (l + 1 + k) % n)

/-- R283: a slot is skipped: the newest complete frame, or named by an unretired epoch or a completed commit. -/
def State.slotSkipped (s : State) (x : Context) (d : List Nat) (k : Nat) : Bool :=
  let newest := match (s.sve.sent.filter (fun (q : Nat × Nat × Nat) => q.1 == x.num)).getLast? with
    | some q => some q.2.2
    | none => (x.arrivals.head?).map (·.2)
  newest == some k || s.namedBuffers.any (fun q => overlaps (slotAddr d k) (slotSize d) q.1 q.2)

/-- Change context c. -/
def State.onCtx (s : State) (c : Nat) (f : Context → Context) : State :=
  { s with brd := { s.brd with ctxs := s.brd.ctxs.map (fun x => if x.num = c then f x else x) } }

/-- SIEVE_FRAME_START (R283, R285): pipe p takes its next frame. -/
def State.sveStart (s : State) (p : Nat) : State :=
  match (s.pipe p).queue with
  | [] => s
  | j :: rest =>
    if s.pipeSt p ≠ 1 ∨ (s.pipe p).cur.isSome then s
    else
      let s1 := s.onPipe p (fun x => { x with queue := rest })
      match s.ctx j.ctx with
      | none => (s1.sveDrop p j 0x0A22 0).pipeBoundary p
      | some x =>
        match (slotOrder (x.desc.getD 7 2) x.lastSlot).find? (fun k => !s.slotSkipped x x.desc k) with
        | none => (s1.sveDrop p j 0x0A20 0).pipeBoundary p
        | some k =>
          let s2 := s1.onCtx j.ctx (fun x => { x with lastSlot := some k, arrivals := x.arrivals.filter (fun (a : Nat × Nat) => a.2 != k) })
          (s2.onPipe p (fun q => { q with cur := some { job := j, desc := x.desc, slot := k } })).setPipe p 1

/-- INPUT_READ_COMPLETE (R284, R287): the pipe has read the last input byte; the frame's writes are on their way and its
completion is written. -/
def State.sveRead (s : State) (p : Nat) : State :=
  match (s.pipe p).cur with
  | none => s
  | some f =>
    if f.readDone then s
    else
      let d := f.desc
      let rb := sveRowBytes (d.getD 0 0) (fieldLE d 8 2)
      let addrs := (List.range (fieldLE d 10 2)).map (fun y => f.job.addr + f.job.pitch * y)
      match addrs.find? (fun a => s.readPoison a rb) with
      | some a =>
        let rows := addrs.takeWhile (fun x => !s.readPoison x rb) ++ [a]
        let s1 := (s.noteReads 7 (rows.map (fun x => (x, rb)))).onPipe p (fun x => { x with cur := none })
        (s1.sveDrop p f.job 0x0A21 (s.short s.now)).pipeBoundary p
      | none =>
        let px := sveScale (s.pipe p).live d (addrs.map (fun a => s.read a rb))
        let a0 := slotAddr d f.slot
        let s1 := ((s.noteReads 7 (addrs.map (fun a => (a, rb)))).writeLevel0 a0 (fieldLE d 0x1C 4) 0 px).formLevels a0 (fieldLE d 0x1C 4) (fieldLE d 12 2) (fieldLE d 14 2)
          0 (d.getD 6 1 - 1)
        let s2 := s1.onPipe p (fun x => { x with cur := some { f with readDone := true } })
        s2.endDesc f.job.ring f.job.num 0 (sveBody 0 f.job.ctx f.slot p (s.short s.now))

/-- SIEVE_FRAME_WRITTEN (R284): the last write of the last level is acknowledged at this stamp. -/
def State.sveWritten (s : State) (p : Nat) : State :=
  match (s.pipe p).cur with
  | none => s
  | some f =>
    if !f.readDone then s
    else
      let striped := bitAt (f.desc.getD 1 0) 0 && decide (4096 < fieldLE f.desc 0x0C 2)
      let s1 := (s.count Reg.SVE_SNAP_FRAMES 1).count Reg.SVE_SNAP_STRIPED (b2n striped)
      let s2 : State := { s1 with sve := { s1.sve with sent := s1.sve.sent ++ [(f.job.ctx, s.now, f.slot)] } }
      (s2.onPipe p (fun x => { x with cur := none })).pipeBoundary p

/-- The Sieve discards the queued frames of a context (R285). -/
def State.sveDiscard (s : State) (c : Nat) : State :=
  [0, 1, 2, 3].foldl (fun s p =>
    let old := (s.pipe p).queue.filter (fun (q : SveJob) => q.ctx == c)
    let s1 := s.onPipe p (fun x => { x with queue := x.queue.filter (fun (q : SveJob) => q.ctx != c) })
    let s2 := s1.dropJobs p 0x0A22 old
    s2.setPipe p (if s2.pipeSt p = 1 ∧ (s2.pipe p).queue.isEmpty ∧ (s2.pipe p).cur.isNone then 0 else s2.pipeSt p)) s

/-! ### Tables and enables (R280, R290, R291) -/

/-- A phase of a bank: first place and number of its coefficients. -/
def svePhases : List (Nat × Nat) :=
  (List.range 64).map (fun k => (8 * k, 8)) ++ (List.range 64).map (fun k => (512 + 6 * k, 6))

/-- A phase sums to 16,384 ± 16; one with no entry written keeps its reset coefficients, which pass (R280, log entry 25). -/
def phaseOk (t : List (Nat × Option Nat)) (bank : Nat) (ph : Nat × Nat) : Bool :=
  let ks := upFrom ph.1 ph.2
  let written := ks.any (fun k => (sparseGet (fun _ => none) t (sveKey 1 bank k)).isSome)
  let sum : Int := ks.foldl (fun a k => a + signed 16 (sveEntry t 1 bank k)) 0
  !written || (decide (16368 ≤ sum) && decide (sum ≤ 16400))

/-- The first phase that fails its sum, as (bank, phase) with the V phases counted from 0 too. -/
def badPhase (t : List (Nat × Option Nat)) : Option (Nat × Nat) :=
  (List.range 4).findSome? (fun b => ((svePhases.zipIdx).find? (fun q => !phaseOk t b q.1)).map (fun q => (b, q.2 % 64)))

/-- SVE_APPLY (R280, R291): bits written 1 are requested; an idle pipe is at a frame boundary at once. -/
def State.sveApply (s : State) (v : Nat) : State :=
  let s1 := s.put F.SVE_APPLY_APPLY (Nat.lor (s.get F.SVE_APPLY_APPLY) (v % 16))
  [0, 1, 2, 3].foldl (fun s p =>
    if s.pipeSt p ≤ 1 ∧ (s.pipe p).cur.isNone ∧ bitAt v p = true then s.pipeBoundary p else s) s1

/-- TABLE_COPY (R280): in APPLYING, check the sums, then copy or refuse. -/
def State.tableCopy (s : State) (p : Nat) : State :=
  if s.pipeSt p ≠ 2 then s
  else
    let s1 := s.put F.SVE_APPLY_APPLY (withBits (s.get F.SVE_APPLY_APPLY) p p 0)
    let s2 := match badPhase (s.pipe p).shadow with
      | some q => (s1.event 0x0A12 p q.1 q.2).count Reg.SVE_SNAP_APPLY_REFUSED 1
      | none => s1.onPipe p (fun x => { x with live := x.shadow })
    s2.pipeBoundary p

/-- TBL_DATA_ACCESS (R291): an access to the shadow entry at INDEX, which then advances. An index beyond the table reads 0
and keeps nothing (log entry 41). -/
def State.tblAccess (s : State) (write : Bool) (v : Nat) : State :=
  let p := s.get F.SVE_TBL_SEL_PIPE
  let kind := s.get F.SVE_TBL_SEL_KIND
  let table := s.get F.SVE_TBL_SEL_TABLE
  let ix := s.get F.SVE_TBL_SEL_INDEX
  let inside := decide (ix < if kind = 0 then 3075 else 896)
  let s1 :=
    if write then
      if inside then s.onPipe p (fun x => { x with shadow := sparseSet (fun _ => none) x.shadow (sveKey kind table ix) (some (v % 65536)) })
      else s
    else
      let r := if inside then sveEntry (s.pipe p).shadow kind table ix else 0
      { s with hst := { s.hst with readData := leBytes 4 r, readEp := false } }
  s1.put F.SVE_TBL_SEL_INDEX ((ix + 1) % 4096)

/-- PIPE_EN_WRITE (R288, R290, R505). -/
def State.pipeEnWrite (s : State) (w : Nat) : State :=
  let v := if s.leftOff 12 then w % 4 else w
  let s1 := s.put F.SVE_CTRL_PIPE_EN (v % 16)
  [0, 1, 2, 3].foldl (fun s p => if bitAt v p then s.pipeRelease p else if s.pipeSt p = 3 then s else s.pipeHalt p) s1

/-- PIPE_PARITY_FAULT (R287): the pipe resumes with the next queued frame. -/
def State.pipeParity (s : State) (p : Nat) : State :=
  if (s.pipe p).cur.isSome then (s.dropCurrent p 0x0A30).pipeBoundary p else s.event 0x0A30 p 0 0

/-! ### Meanings -/

/-- SOURCE_FRAME (R566). -/
def execSourceFrame (t w : Nat) (s : State) : Out := .next (s.whenOn t (fun s => s.sourceFrame w))

/-- SIEVE_FRAME_START (R283). -/
def execSieveFrameStart (t p : Nat) (s : State) : Out := .next (s.whenOn t (fun s => s.sveStart (p % 4)))

/-- INPUT_READ_COMPLETE (R284). -/
def execInputReadComplete (t p : Nat) (s : State) : Out := .next (s.whenOn t (fun s => s.sveRead (p % 4)))

/-- SIEVE_FRAME_WRITTEN (R284). -/
def execSieveFrameWritten (t p : Nat) (s : State) : Out := .next (s.whenOn t (fun s => s.sveWritten (p % 4)))

/-- SVE_APPLY (R280). -/
def execSveApply (t v : Nat) (s : State) : Out := .next (s.whenHost t (fun s => s.sveApply v))

/-- TABLE_COPY (R280). -/
def execTableCopy (t p : Nat) (s : State) : Out := .next (s.whenOn t (fun s => s.tableCopy (p % 4)))

/-- TBL_DATA_ACCESS (R291). -/
def execTblDataAccess (t : Nat) (write : Bool) (v : Nat) (s : State) : Out := .next (s.whenHost t (fun s => s.tblAccess write v))

/-- PIPE_EN_WRITE (R288, R505). -/
def execPipeEnWrite (t v : Nat) (s : State) : Out := .next (s.whenHost t (fun s => s.pipeEnWrite v))

/-- PIPE_PARITY_FAULT (R287). -/
def execPipeParityFault (t p : Nat) (s : State) : Out := .next (s.whenOn t (fun s => s.pipeParity (p % 4)))

end Sys2Proof.Machine
end

