-- ==== Sys2Proof/Machine/Trowel.lean ====
section
/-!
DEFINITION. The Trowel (R293 to R305): its jobs checked, run in the order their overlap requires, watermarked and ended.
-/

namespace Sys2Proof.Machine

/-- Fields of a Trowel job (R293). -/
structure TrwFields where
  op : Nat
  flags : Nat
  fmt : Nat
  levels : Nat
  tag : Nat
  dst : Nat
  src : Nat
  dpitch : Nat
  spitch : Nat
  w : Nat
  h : Nat
  mark : Nat
deriving DecidableEq, Repr

/-- The fields of a job's 64 bytes. -/
def trwFields (b : List Nat) : TrwFields :=
  ⟨b.getD 8 0, b.getD 9 0, b.getD 10 0, b.getD 11 0, fieldLE b 12 4, fieldLE b 0x10 8, fieldLE b 0x18 8, fieldLE b 0x20 4,
   fieldLE b 0x24 4, fieldLE b 0x28 2, fieldLE b 0x2A 2, fieldLE b 0x2C 2⟩

/-- COPY and BLEND read a source. -/
def TrwFields.sourced (f : TrwFields) : Bool := f.op == 1 || f.op == 3

/-- Bytes of one source sample. -/
def TrwFields.elem (f : TrwFields) : Nat := if f.fmt = 1 then 4 else 8

/-- R293: every field in range, the fields an OP does not use at 0. -/
def trwFormatOk (b : List Nat) : Bool :=
  let f := trwFields b
  decide (1 ≤ f.op) && decide (f.op ≤ 4) && decide (f.flags < 4) && (f.op == 3 || !bitAt f.flags 0) &&
  (if f.sourced then decide (f.fmt ≤ 1) else f.fmt == 0) && (if f.op = 4 then decide (2 ≤ f.levels) && decide (f.levels ≤ 6) else f.levels == 0) &&
  decide (1 ≤ f.tag) && f.dst % (if f.op = 4 then 4096 else 8) == 0 && (if f.sourced then f.src % f.elem == 0 else f.src == 0) &&
  f.dpitch % 8 == 0 && decide (8 * f.w ≤ f.dpitch) && (!f.sourced || (f.spitch % f.elem == 0 && decide (f.elem * f.w ≤ f.spitch))) &&
  decide (1 ≤ f.w) && decide (1 ≤ f.h) && (f.mark == 0xFFFF || decide (f.mark < f.h)) && zeros b 0x2E 2 &&
  (if f.op = 3 then finF32 (fieldLE b 0x30 4) && decide (0 ≤ ofF32 (fieldLE b 0x30 4)) && decide (ofF32 (fieldLE b 0x30 4) ≤ 1)
    else zeros b 0x30 4) && (f.op == 2 || zeros b 0x34 8) && zeros b 0x3C 4

/-- Places written, in forward order: (level, row), level 0 standing for the rectangle and levels 1 on for REDUCE. -/
def TrwFields.rows (f : TrwFields) : List (Nat × Nat) :=
  if f.op = 4 then (upFrom 1 (f.levels - 1)).flatMap (fun g => (List.range (levelDim f.h g)).map (fun j => (g, j)))
  else (List.range f.h).map (fun j => (0, j))

/-- Destination bytes of a place. -/
def TrwFields.dstSpan (f : TrwFields) (q : Nat × Nat) : Nat × Nat :=
  if f.op = 4 then (sampleAddr f.dst f.dpitch f.w f.h q.1 0 q.2, 8 * levelDim f.w q.1) else (f.dst + f.dpitch * q.2, 8 * f.w)

/-- Source bytes of a place: the source rectangle's row, the two rows below a REDUCE row, nothing for FILL. -/
def TrwFields.srcSpans (f : TrwFields) (q : Nat × Nat) : List (Nat × Nat) :=
  if f.op = 4 then
    [2 * q.2, 2 * q.2 + 1].filterMap (fun j =>
      if j < levelDim f.h (q.1 - 1) then some (sampleAddr f.dst f.dpitch f.w f.h (q.1 - 1) 0 j, 8 * levelDim f.w (q.1 - 1)) else none)
  else if f.sourced then [(f.src + f.spitch * q.2, f.elem * f.w)] else []

/-- Bytes from a rectangle's first to its last sample (R296). -/
def rectSpan (a pitch w h elem : Nat) : Nat × Nat := (a, pitch * (h - 1) + elem * w)

/-- The source and destination spans of COPY or BLEND meet (R296). -/
def TrwFields.aliased (f : TrwFields) : Bool :=
  let s := rectSpan f.src f.spitch f.w f.h f.elem
  let d := rectSpan f.dst f.dpitch f.w f.h 8
  f.sourced && overlaps s.1 s.2 d.1 d.2

/-- METHOD of R299: 0 forward, 1 reversed, 2 scratch (R296). -/
def TrwFields.method (f : TrwFields) : Nat :=
  if !f.aliased then 0
  else if f.dpitch = f.spitch ∧ f.fmt = 0 then (if f.src < f.dst then 1 else 0)
  else 2

/-- Scratch bytes a job needs: its source samples, packed (log entry 42). -/
def TrwFields.scratch (f : TrwFields) : Nat := f.elem * f.w * f.h

/-- R295: the first refusal of a job, or 0. -/
def State.trwCode (s : State) (b : List Nat) : Nat :=
  let f := trwFields b
  if !trwFormatOk b then 0x0B10
  else if f.rows.any (fun q => (f.dstSpan q :: f.srcSpans q).any (fun x => s.protectedHit x.1 x.2)) then 0x0B11
  else if !bitAt f.flags 1 && f.rows.any (fun q => (s.guardedPage (f.dstSpan q).1 (f.dstSpan q).2).isSome) then 0x0B12
  else if f.method = 2 ∧ (match s.region 0x0130 with
      | some r => decide (r.size < f.scratch)
      | none => true) = true then 0x0B13
  else 0

/-- A Trowel completion (R299). -/
def trwBody (kind method code tag stamp rows : Nat) : List Nat :=
  [kind, method] ++ leBytes 2 code ++ leBytes 4 tag ++ leBytes 4 stamp ++ leBytes 2 (min rows 65535) ++ [0, 0, 0, 0, 0, 0, 0, 0]

/-- The state of the Trowel (R302). -/
def State.trwSt (s : State) : Nat := s.get F.TRW_STATUS_STATE

/-- The next Trowel job: the earliest doorbell stamp, then the lowest ring (the Trowel's order; R302). -/
def State.trwNext (s : State) : Option (Nat × Desc) :=
  (List.range 64).foldl (fun best w =>
    match best, s.nextDesc w 5 with
    | none, some d => some (w, d)
    | some (v, e), some d => if d.stamp < e.stamp then some (w, d) else some (v, e)
    | b, none => b) none

/-- A job is taken (R293 to R296): refused whole, or started. `op` is the command's OP; a reserved OP is refused by
whichever command takes it. -/
def State.trwTake (s : State) (op : Nat) : State :=
  match s.trwNext with
  | none => s
  | some (w, d) =>
    let b := d.bytes
    let f := trwFields b
    if s.trwSt ≠ 0 ∨ (f.op ≠ op ∧ 1 ≤ f.op ∧ f.op ≤ 4) then s
    else
      let s1 : State := { s with trw := { s.trw with taken := ⟨f.tag, s.now, none⟩ :: s.trw.taken } }
      let s2 := s1.startDesc w d.num
      let code := s.trwCode b
      if code ≠ 0 then
        ((s2.count Reg.TRW_SNAP_REFUSED 1).event code 0 f.tag 0).endDesc w d.num code (trwBody 3 0 code f.tag (s.short s.now) 0)
      else
        let s3 : State := { s2 with trw := { s2.trw with cur := some { ring := w, num := d.num, bytes := b, method := f.method } } }
        ((s3.put F.TRW_STATUS_STATE (if f.method = 2 then 2 else 1)).put F.TRW_STATUS_METHOD f.method).put F.TRW_STATUS_ROWS 0

/-! ### Samples (R294) -/

/-- Four components of a source sample. -/
def trwSource (fmt : Nat) (b : List Nat) (x : Nat) : List Ext :=
  (List.range 4).map (fun c =>
    if fmt = 1 then .fin (rndF32 ((b.getD (4 * x + c) 0 : Nat) / 255)) else extF16 (fieldLE b (8 * x + 2 * c) 2))

/-- The fp16 word of a result; what is not a number is a free value (log entry 20). -/
def f16Out (seed : Nat) : Ext → Nat
  | .fin x => toF16 x
  | .inf n => if n then 0xFC00 else 0x7C00
  | .nan => Config.freeValue 42 seed % 65536

/-- One destination row of COPY, FILL or BLEND (R294): `src` and `dst` are the rows read. -/
def trwRow (b : List Nat) (seed : Nat) (src dst : List Nat) : List Nat :=
  let f := trwFields b
  let al : Ext := .fin (ofF32 (fieldLE b 0x30 4))
  (List.range f.w).flatMap (fun x =>
    if f.op = 2 then slice b 0x34 8
    else if f.op = 1 ∧ f.fmt = 0 then slice src (8 * x) 8
    else
      let sv := trwSource f.fmt src x
      let sa := sv.getD 3 .nan
      (List.range 4).flatMap (fun c =>
        let v := sv.getD c .nan
        let d := extF16 (fieldLE dst (8 * x + 2 * c) 2)
        let r := if f.op = 1 then v
          else if bitAt f.flags 0 then
            compAdd (compMul al v) (compMul (compAdd (.fin 1) ((compMul al sa).scale (-1))) d)
          else compAdd (compMul al (if c = 3 then .fin 1 else v)) (compMul (compAdd (.fin 1) (al.scale (-1))) d)
        leBytes 2 (f16Out (seed + 4 * x + c) r)))

/-! ### Running -/

/-- Where a job's source row lies: in the source, or packed in scratch. -/
def State.trwSrcAddr (s : State) (j : TrwJob) (f : TrwFields) (r : Nat) : Nat :=
  if j.copied then s.regionBase 0x0130 + f.elem * f.w * r else f.src + f.spitch * r

/-- The place a job writes after `i` rows, none at its end. -/
def TrwJob.place (j : TrwJob) (i : Nat) : Option (Nat × Nat) :=
  let l := (trwFields j.bytes).rows
  if l.length ≤ i then none else if j.method = 1 then l[l.length - 1 - i]? else l[i]?

/-- Byte spans that one row reads, destination rows of BLEND included. -/
def State.trwReads (s : State) (j : TrwJob) (q : Nat × Nat) : List (Nat × Nat) :=
  let f := trwFields j.bytes
  (if f.op = 4 then f.srcSpans q else if f.sourced then [(s.trwSrcAddr j f q.2, f.elem * f.w)] else []) ++
  (if f.op = 3 then [f.dstSpan q] else [])

/-- Write one row. -/
def State.trwWrite (s : State) (j : TrwJob) (q : Nat × Nat) : State :=
  let f := trwFields j.bytes
  if f.op = 4 then s.formRows 8 f.dst f.dpitch f.w f.h (q.1 - 1) q.2 1
  else
    let src := if f.sourced then s.read (s.trwSrcAddr j f q.2) (f.elem * f.w) else []
    let dst := if f.op = 3 then s.read (f.dstSpan q).1 (8 * f.w) else []
    let s1 := s.store 8 (f.dstSpan q).1 (trwRow j.bytes s.fresh src dst)
    { s1 with fresh := s1.fresh + 4 * f.w }

/-- Write up to `n` more rows in traversal order; true where a read met poison (R300). -/
def State.trwRun (s : State) (j : TrwJob) : Nat → State × TrwJob × Bool
  | 0 => (s, j, false)
  | n + 1 =>
    match j.place j.rows with
    | none => (s, j, false)
    | some q =>
      match (s.trwReads j q).find? (fun x => s.readPoison x.1 x.2) with
      | some _ => (s.noteReads 8 (s.trwReads j q), j, true)
      | none =>
        let s1 := ((s.noteReads 8 (s.trwReads j q)).trwWrite j q).count Reg.TRW_SNAP_SAMPLES (((trwFields j.bytes).dstSpan q).2 / 8)
        s1.trwRun { j with rows := j.rows + 1 } n

/-- Show the running job. -/
def State.trwShow (s : State) (j : TrwJob) : State :=
  let s1 : State := { s with trw := { s.trw with cur := some j } }
  s1.put F.TRW_STATUS_ROWS (min j.rows 65535)

/-- The job ends (R297, R300): its DONE completion, the counters, the fence it completes. -/
def State.trwEnd (s : State) (j : TrwJob) (code : Nat) : State :=
  let f := trwFields j.bytes
  let s1 : State := { s with trw := { s.trw with cur := none } }
  let s2 :=
    if code = 0 then
      let taken := match s1.trw.taken with
        | t :: r => { t with done := some s.now } :: r
        | [] => []
      let s' : State := { s1 with trw := { s1.trw with taken := taken } }
      (((s'.put F.TRW_LAST_TAG f.tag).count Reg.TRW_SNAP_JOBS 1).count Reg.TRW_SNAP_REVERSED (b2n (j.method == 1))).count
        Reg.TRW_SNAP_SCRATCH (b2n (j.method == 2))
    else s1.event code 0 f.tag j.rows
  (s2.put F.TRW_STATUS_STATE 0).endDesc j.ring j.num code (trwBody 2 j.method code f.tag (s.short s.now) j.rows)

/-- SCRATCH_COPIED (R296): the source is copied whole into scratch, packed. -/
def State.trwScratch (s : State) : State :=
  match s.trw.cur with
  | none => s
  | some j =>
    if s.trwSt ≠ 2 then s
    else
      let f := trwFields j.bytes
      let rows := (List.range f.h).map (fun r => (f.src + f.spitch * r, f.elem * f.w))
      match rows.find? (fun x => s.readPoison x.1 x.2) with
      | some x => (s.noteReads 8 (rows.takeWhile (fun q => !s.readPoison q.1 q.2) ++ [x])).trwEnd j 0x0B20
      | none =>
        let bytes := rows.flatMap (fun x => s.read x.1 x.2)
        (((s.noteReads 8 rows).store 8 (s.regionBase 0x0130) bytes).trwShow { j with copied := true }).put F.TRW_STATUS_STATE 1

/-- Rows of the job to write before its watermark: rows 0 to N, or all of them where the order or scratch puts them last
(R298). -/
def TrwJob.markRows (j : TrwJob) : Nat :=
  let f := trwFields j.bytes
  if j.method = 0 then f.mark + 1 else f.rows.length

/-- Post the WATERMARK completion (R298). -/
def State.trwMark (s : State) (j : TrwJob) : State :=
  let f := trwFields j.bytes
  (s.postCompletion j.ring j.num (trwBody 1 j.method 0 f.tag (s.short s.now) j.rows)).trwShow { j with marked := true }

/-- Post the WATERMARK completion of a job that has one, once the rows it stands for are written (R298). -/
def State.trwMarkIf (s : State) (j : TrwJob) : State :=
  if (trwFields j.bytes).mark ≠ 0xFFFF ∧ j.marked = false ∧ j.markRows ≤ j.rows then s.trwMark j else s

/-- WATERMARK (R298): destination rows 0 to N are written and acknowledged. -/
def State.trwWatermarkEv (s : State) : State :=
  match s.trw.cur with
  | none => s
  | some j =>
    if s.trwSt ≠ 1 ∨ j.marked ∨ (trwFields j.bytes).mark = 0xFFFF then s
    else
      let r := s.trwRun j (j.markRows - j.rows)
      if r.2.2 then (r.1.trwShow r.2.1).trwEnd r.2.1 0x0B20 else r.1.trwMark r.2.1

/-- TRW_JOB_DONE (R297, R300). -/
def State.trwDone (s : State) : State :=
  match s.trw.cur with
  | none => s
  | some j =>
    if s.trwSt ≠ 1 then s
    else
      let r := s.trwRun j ((trwFields j.bytes).rows.length - j.rows)
      ((r.1.trwMarkIf r.2.1).trwShow r.2.1).trwEnd r.2.1 (if r.2.2 then 0x0B20 else 0)

/-- A Trowel reset or fatal freeze (R300, R302). -/
def State.trwHalt (s : State) : State :=
  let s1 := match s.trw.cur with
    | some j => s.trwEnd j 0x0B21
    | none => s
  s1.put F.TRW_STATUS_STATE 3

/-- Release, at the next marker consumed (R302). -/
def State.trwRelease (s : State) : State := if s.trwSt = 3 then s.put F.TRW_STATUS_STATE 0 else s

/-- R297: the fence of a GRAPHIC layer is complete before L: the job with that tag taken most recently before the capture
stamp completed before L. -/
def State.fenceDone (s : State) (tag capture l : Nat) : Bool :=
  match s.trw.taken.find? (fun x => x.tag == tag && decide (x.taken < capture)) with
  | some x => (match x.done with | some d => decide (d < l) | none => false)
  | none => false

/-! ### Meanings -/

/-- COPY (R293 to R296). -/
def execCopy (t : Nat) (s : State) : Out := .next (s.whenOn t (fun s => s.trwTake 1))

/-- FILL (R293 to R295). -/
def execFill (t : Nat) (s : State) : Out := .next (s.whenOn t (fun s => s.trwTake 2))

/-- BLEND (R293 to R296). -/
def execBlend (t : Nat) (s : State) : Out := .next (s.whenOn t (fun s => s.trwTake 3))

/-- REDUCE (R275, R293, R295). -/
def execReduce (t : Nat) (s : State) : Out := .next (s.whenOn t (fun s => s.trwTake 4))

/-- SCRATCH_COPIED (R296). -/
def execScratchCopied (t : Nat) (s : State) : Out := .next (s.whenOn t State.trwScratch)

/-- WATERMARK (R298). -/
def execWatermark (t : Nat) (s : State) : Out := .next (s.whenOn t State.trwWatermarkEv)

/-- TRW_JOB_DONE (R297, R300). -/
def execTrwJobDone (t : Nat) (s : State) : Out := .next (s.whenOn t State.trwDone)

end Sys2Proof.Machine
end

