-- ==== Sys2Proof/Machine/Board.lean ====
section
/-!
DEFINITION. The Board (R250 to R273): source contexts, the content of each layer at the latch instant, plane entries, and
the lists of each band.
-/

namespace Sys2Proof.Machine

/-! ### Raster instants (R306, R307) -/

/-- Frame in progress (R69). -/
def State.frameNo (s : State) : Nat := s.get F.CMT_FRAME_FRAME

/-- Start of line n of frame f, predicted from the frame in progress (R306, R307; log entry 43 for frames ahead). -/
def State.lineAt (s : State) (f mode n : Nat) : Rat :=
  let m := modeAt mode
  let p := framePeriod m
  let nominal : Rat := (p.1 : Rat) / (p.2 : Rat)
  let per := if modeAt s.out.mode = m then s.out.period else nominal
  let cur := s.frameNo
  if f ≤ cur then s.out.start - ((cur - f : Nat) : Rat) * s.out.period + (n : Rat) * s.out.period / (m.vtotal : Rat)
  else s.out.next + ((f - cur - 1 : Nat) : Rat) * per + (n : Rat) * per / (m.vtotal : Rat)

/-- A staged field as the last sealed epoch has it (R103). -/
def State.sealed (s : State) (f : Fld) : Nat := s.cmt.sealedRegs.get f

/-- A staged field in an epoch, for a unit that works on that epoch's bands and does not own the field (R22, R31); in force at its
unit once the epoch has been dropped. -/
def State.settingAt (s : State) (epoch : Nat) (f : Fld) : Nat :=
  match s.cmt.epochs.find? (fun e => e.num == epoch) with
  | some e => e.staged.get f
  | none => s.live f

/-! ### Source contexts (R254) -/

/-- Layers of the epochs and completed commits that still count as naming (R84, R254). -/
def State.namedLayers (s : State) : List (List Nat) :=
  (s.cmt.epochs.filter (fun (e : Epoch) => !e.retired)).flatMap (fun e => e.layers ++ e.commits.flatMap (·.layers)) ++ s.cmt.waiting.flatMap (·.layers)

/-- Context c is named by an unretired epoch or a completed commit that has not landed. -/
def State.ctxNamed (s : State) (c : Nat) : Bool := s.namedLayers.any (fun b => lKind b == 1 && lContext b == c)

/-- Show the counts and the state of context c (R271). -/
def State.ctxShow (s : State) (c : Nat) : State :=
  let st := match s.ctx c with
    | some x => (match x.st with | .registered => 1 | .live => 2)
    | none => 0
  ((s.put (F.BRD_CTX_STATE_STATE.nth c) st).put F.BRD_CTX_COUNT_REGISTERED s.brd.ctxs.length).put F.BRD_CTX_COUNT_LIVE
    (s.brd.ctxs.countP (fun x => x.st == .live))

/-- A context command ends with its code (R254): logged where it is a refusal. -/
def State.ctxAnswer (s : State) (c code inst : Nat) : State :=
  let s1 := if code = 0 then s else s.event code inst c 0
  ((s1.put F.BRD_CTX_RESULT_CODE code).put F.BRD_CTX_RESULT_DONE 1).ctxShow c

/-- A context command ends with a code of the Board. -/
def State.ctxResult (s : State) (c code : Nat) : State := s.ctxAnswer c code 0

/-- REGISTER (R254). -/
def State.ctxRegister (s : State) (c : Nat) : State :=
  match s.ctx c with
  | some _ => s.ctxResult c 0x0920
  | none =>
    let s1 : State := { s with brd := { s.brd with ctxs := s.brd.ctxs ++ [{ num := c }] } }
    s1.ctxResult c 0

/-- The code ACTIVATE meets (R254, R276, R281), and the descriptor read; the pipe it names is the unit instance of a Sieve code (R287). -/
def State.activateCode (s : State) (c : Nat) : Nat × List Nat :=
  if 256 ≤ s.brd.ctxs.countP (fun x => x.st == .live) then (0x0921, [])
  else match s.ctxAddr c with
    | none => (0x0A10, [])
    | some a =>
      let d := s.read a 128
      let slots := (List.range (d.getD 7 0)).map (fun k => (slotAddr d k, slotSize d))
      if s.readPoison a 128 ∨ ctxFormOk d = false ∨ slots.any (fun q => s.protectedHit q.1 q.2) then (0x0A10, d)
      else if !ctxLinesOk d then (0x0A11, d)
      else (0, d)

/-- ACTIVATE (R254, R276): frames already written stay usable while the descriptor is the same (log entry 44). -/
def State.ctxActivate (s : State) (c : Nat) : State :=
  match s.ctx c with
  | some x =>
    if x.st ≠ .registered then s.ctxResult c 0x0920
    else
      let r := s.activateCode c
      let s := if r.1 = 0x0921 then s else s.noteReads 10 (((s.ctxAddr c).map (fun a => [(a, 128)])).getD [])
      if r.1 ≠ 0 then s.ctxAnswer c r.1 (r.2.getD 2 0)
      else
        let keep := decide (x.desc = r.2)
        (s.onCtx c (fun x => { x with st := .live, desc := r.2, arrivals := if keep then x.arrivals else [],
                                      lastSlot := if keep then x.lastSlot else none })).ctxResult c 0
  | none => s.ctxResult c 0x0920

/-- DEACTIVATE (R254, R285). -/
def State.ctxDeactivate (s : State) (c : Nat) : State :=
  match s.ctx c with
  | some x =>
    if x.st ≠ .live then s.ctxResult c 0x0920
    else ((s.sveDiscard c).onCtx c (fun x => { x with st := .registered })).ctxResult c 0
  | none => s.ctxResult c 0x0920

/-- UNREGISTER (R254). -/
def State.ctxUnregister (s : State) (c : Nat) : State :=
  match s.ctx c with
  | some x =>
    if x.st ≠ .registered then s.ctxResult c 0x0920
    else if s.ctxNamed c then s.ctxResult c 0x0922
    else
      let s1 : State := { s with brd := { s.brd with ctxs := s.brd.ctxs.filter (fun x => x.num != c) } }
      s1.ctxResult c 0
  | none => s.ctxResult c 0x0920

/-- SOURCE_FRAME_ARRIVAL (R261, R284): the Board takes the oldest arrival reported. -/
def State.sourceArrival (s : State) : State :=
  match s.sve.sent with
  | [] => s
  | (c, stamp, slot) :: r =>
    let s1 : State := { s with sve := { s.sve with sent := r } }
    s1.onCtx c (fun x => { x with arrivals := (stamp, slot) :: x.arrivals })

/-! ### Content at the latch instant (R259, R261, R262) -/

/-- Blink generator n is on at a full time (R259) under the settings that `rd` reads. -/
def blinkWith (rd : Fld → Nat) (n full : Nat) : Bool :=
  let p := rd (F.BRD_BLINK_PERIOD_MS.nth n) * 1000000
  let t := full / tickNs
  p == 0 || decide (256 * (t % p) < p * rd (F.BRD_BLINK_DUTY.nth n))

/-- Blink generator n is on at a full time under the Board's settings in force. -/
def State.blinkOn (s : State) (n full : Nat) : Bool := blinkWith s.live n full

/-- Two stored states are used in an epoch's frame (R375). -/
def State.twoStates (s : State) (epoch mode : Nat) : Bool := panelMemory mode && s.settingAt epoch F.PNL_CTRL_SELECT_EN == 1

/-- A layer is shown by its blink state (R259, R375) in the frame that starts at a full time, under the settings of
the epoch last sealed, which is the frame's own. -/
def State.layerShown (s : State) (mode frame full : Nat) (b : List Nat) : Bool :=
  let g := b.getD 3 0 % 8
  let on := if panelMemory mode && s.sealed F.PNL_CTRL_SELECT_EN == 1 then frame % 2 == 0 else blinkWith s.sealed (g - 1) full
  g == 0 || (on != bitAt (b.getD 3 0) 3)

/-- The staleness window of R261 holds an arrival. -/
def inWindow (stale l stamp : Nat) : Bool := stale == 0 || decide (l ≤ stamp + stale * tickNs)

/-- The newest block of a channel that arrived before L (R261). -/
def State.meterBlock (s : State) (ch l : Nat) : Option (Nat × Int) :=
  (s.brd.meters.find? (fun q => q.1 == ch && decide (q.2.1 < l))).map (fun q => q.2)

/-- The content R261 takes for a layer, and whether it is on time. `capture` is the capture stamp of the list's commit. -/
def State.freshContent (s : State) (l target capture : Nat) (b : List Nat) : Content × Bool :=
  let stale := lStale b
  match lKind b with
  | 1 =>
    match s.ctx (lContext b) with
    | none => (.none, false)
    | some x =>
      match x.arrivals.find? (fun q => decide (q.1 < l)) with
      | none => (.none, false)
      | some q => (.pyramid (slotAddr x.desc q.2) (fieldLE x.desc 0x1C 4) (x.desc.getD 6 1) (lW b) (lH b), inWindow stale l q.1)
  | 2 => (.pyramid (lContent b) (fieldLE b 0x48 4) (b.getD 0x50 1) (lW b) (lH b),
          fieldLE b 0x54 4 == 0 || s.fenceDone (fieldLE b 0x54 4) capture l)
  | 3 =>
    let bl := (List.range (b.getD 0x58 0)).map (fun i => s.meterBlock (b.getD (0x60 + i) 0) l)
    if bl.all (·.isSome) then (.meter (bl.map (fun q => (q.map (·.2)).getD 0)), bl.all (fun q => inWindow stale l ((q.map (·.1)).getD 0)))
    else (.none, false)
  | _ =>
    let au := s.auAt (lContent b)
    (.scene (lContent b) (lTableset b), stale == 0 || decide (target ≤ nearFull au.ptsS au.ptsNs target + stale * tickNs))

/-- What a layer shown last (R262), none where its LAYER_ID is new or its KIND changed. -/
def State.lastContent (s : State) (b : List Nat) : Option Content :=
  (s.brd.last.find? (fun q => q.1 == lId b && q.2.1 == lKind b)).map (fun q => q.2.2)

/-- The fallback still of a layer. -/
def fallbackOf (b : List Nat) : Content := .pyramid (fieldLE b 0x40 8) (fieldLE b 0x4C 4) (b.getD 0x51 1) (lW b) (lH b)

/-- R261, R262: the decision on one layer. `bands` are the frame's bands. -/
def State.decideLayer (s : State) (l target capture mode frame bands i : Nat) (b : List Nat) : LayerShow :=
  let base : LayerShow := { index := i, id := lId b, kind := lKind b, shown := s.layerShown mode frame target b }
  if !base.shown then base
  else
    let r := s.freshContent l target capture b
    if r.2 then { base with content := r.1 }
    else
      let why := if lKind b = 2 then 2 else 1
      match lPolicy b with
      | 0 =>
        let held : Option Content := match s.lastContent b with
          | some c => if lKind b = 1 then (if r.1 = .none then none else some r.1) else some c
          | none => none
        match held with
        | some c =>
          { base with reason := why, applied := if lKind b = 4 ∧ lHoldBase b = true then 3 else 0, content := c,
                      baseOnly := lKind b == 4 && lHoldBase b, bands := bands }
        | none => { base with reason := 5, applied := 1, bands := bands }
      | 2 => { base with reason := why, applied := 2, content := fallbackOf b, bands := bands }
      | _ => { base with reason := why, applied := 1, bands := bands }

/-- Byte ranges of the buffers a content takes. -/
def State.contentBuffers (s : State) : Content → List (Nat × Nat)
  | .none => []
  | .meter _ => []
  | .pyramid a p l w h => [(a, pyramidSize a p w h l)]
  | .scene a ts => (a, max 64 (s.readLE (a + 0x30) 4)) :: (if ts = 0 then [] else [(ts, max 20 (s.readLE (ts + 12) 4))])

/-- R263: the buffers an epoch's layers refer to, held content included. -/
def State.epochNames (s : State) (descs : List (List Nat)) (shows : List LayerShow) : List (Nat × Nat) :=
  (descs.zip shows).flatMap (fun q =>
    s.layerBuffers q.1 ++ s.contentBuffers q.2.content ++
    (if lPolicy q.1 = 0 then ((s.lastContent q.1).map s.contentBuffers).getD [] else []))

/-! ### Entries (R253, R219, R257) -/

/-- One flat entry of a layer. -/
def State.flatEntry (s : State) (bias : Int) (b : List Nat) (i levels : Nat) (still : Bool) : Entry :=
  let vp := s.viewPitch
  let gf := grain (footprintSq (ofF32 (fieldLE b 8 4)) (lAffine b) vp.1 vp.2) bias
  { layer := i, plane := 255, scene := false, still := still, z := fieldLE b 8 4, aff := lAffine b, alpha := fieldLE b 12 4,
    x0 := 0, x1 := lW b, y0 := 0, y1 := lH b, g := gf.1, f := gf.2, cap := levels - 1,
    occludes := lOpaque b && fieldLE b 12 4 == 0x3F800000, sr := 8 }

/-- The entries of a scene layer's planes (R253, R133). -/
def State.sceneEntries (s : State) (bias : Int) (b : List Nat) (i : Nat) (au : KssAu) : List Entry :=
  let vp := s.viewPitch
  au.planes.zipIdx.map (fun q =>
    let depth := rndF32 ((q.1.depth : Rat) / 65536)
    let z := rndF32 (ofF32 (fieldLE b 8 4) + depth)
    let gf := grain (footprintSq z (lAffine b) vp.1 vp.2) bias
    { layer := i, plane := q.2, scene := true, z := toF32 z, aff := lAffine b, alpha := fieldLE b 12 4, x0 := q.1.x0,
      x1 := q.1.x0 + q.1.w, y0 := q.1.y0, y1 := q.1.y0 + q.1.h, g := gf.1, f := gf.2, cap := if au.rows = 8 then 3 else 4,
      occludes := false, sr := au.rows })

/-- The entries a decided layer gives. -/
def State.showEntries (s : State) (bias : Int) (b : List Nat) (x : LayerShow) : List Entry :=
  match x.content with
  | .none => []
  | .pyramid _ _ l _ _ => [s.flatEntry bias b x.index l (x.applied == 2 && x.reason != 0)]
  | .meter _ => [s.flatEntry bias b x.index 6 false]
  | .scene a _ => s.sceneEntries bias b x.index (s.auAt a)

/-- Insert an entry behind every entry of at least its depth (R253: larger z in front, ties in the order met). -/
def insertEntry (e : Entry) : List Entry → List Entry
  | [] => [e]
  | x :: xs => if e.zr ≤ x.zr then x :: insertEntry e xs else e :: x :: xs

/-- The frame's entries, front to back (R253). -/
def sortEntries (es : List Entry) : List Entry := es.foldl (fun a e => insertEntry e a) []

/-- Update what each LAYER_ID last showed (R262): a layer hidden by blink or drawn transparent keeps what it showed, a
fallback still is not content of the layer (log entry 45), and an identifier that left the list is forgotten. -/
def newLast (old : List (Nat × Nat × Content)) (shows : List LayerShow) : List (Nat × Nat × Content) :=
  shows.filterMap (fun x =>
    if x.content ≠ .none ∧ x.applied ≠ 2 ∧ (x.reason = 0 ∨ x.applied ≠ 1) then some (x.id, x.kind, x.content)
    else old.find? (fun q => q.1 == x.id && q.2.1 == x.kind))

/-- The layers of an epoch late at its latch instant (R266, R268), kept for its report and logged. -/
def State.lateLayers (s : State) (epoch : Nat) (shows : List LayerShow) : State :=
  let late := shows.filter (fun x => x.reason != 0)
  let s1 : State := { s with brd := { s.brd with late := (epoch, late) :: s.brd.late } }
  match late with
  | [] => s1
  | x :: _ => s1.event 0x0930 0 x.index 0

/-- The Board counts the layers late at an epoch's latch instant as it takes that epoch's marker, so that they stand in the snapshot of
that epoch and not of the one before (R81, R272, R273). -/
def State.countLate (s : State) (epoch : Nat) : State :=
  let late := ((s.brd.late.find? (fun q => q.1 == epoch)).map (·.2)).getD []
  let s1 := late.foldl (fun s x =>
    s.countSet (Reg.BRD_SNAP_LAYER_LATE + 4 * x.index) (x.applied * 2 ^ 28 + x.reason * 2 ^ 24 + min x.bands 0xFFFFFF)) s
  s1.count Reg.BRD_SNAP_LATE_LAYERS late.length

/-- LAYER_CONTENT_DECISION (R261): decide frame `frame` of `epoch` at latch instant `l`; answers the buffers named. -/
def State.decideFrame (s : State) (epoch frame l target capture : Nat) (plan : Plan) (mode row0 : Nat) (descs : List (List Nat)) :
    State × List (Nat × Nat) :=
  let bands := bandCount (modeAt mode) plan
  let shows := descs.zipIdx.map (fun q => s.decideLayer l target capture mode frame bands q.2 q.1)
  let bias := signed 8 (s.sealed F.ROK_LOD_LOD_BIAS)
  let entries := sortEntries ((descs.zip shows).flatMap (fun q => s.showEntries bias q.1 q.2))
  let names := s.epochNames descs shows
  let fr : BrdFrame := { epoch := epoch, frame := frame, target := target, plan := plan, mode := mode, row0 := row0, descs := descs,
                         shows := shows, entries := entries, prev := s.brd.last }
  let s1 : State := { s with brd := { s.brd with frames := s.brd.frames ++ [fr], last := newLast s.brd.last shows,
                                                 before := (epoch, s.brd.last) :: s.brd.before.take 3
                                                 reports := s.brd.reports ++ [{ epoch := epoch }] } }
  (s1.lateLayers epoch shows, names)

/-! ### Epochs and frame reports' counts -/

/-- Change the epoch numbered `e`. -/
def State.onEpoch (s : State) (e : Nat) (f : Epoch → Epoch) : State :=
  { s with cmt := { s.cmt with epochs := s.cmt.epochs.map (fun x => if x.num = e then f x else x) } }

/-- Change the counts of an epoch's report. -/
def State.onReport (s : State) (epoch : Nat) (f : RepCount → RepCount) : State :=
  { s with brd := { s.brd with reports := s.brd.reports.map (fun r => if r.epoch = epoch then f r else r) } }

/-- Count a band at its final step (R234). -/
def State.countStep (s : State) (epoch step : Nat) : State := 
  s.onReport epoch (fun r => { r with steps := modAt r.steps step (· + 1), order := step :: r.order })

/-! ### Lists (R255 to R258, R260) -/

/-- The list of one square: entries whose footprint reaches their bounds, up to the first that occludes it (R256, R257). -/
def listSquare (p : PanelDesc) (c : RegSet) (cull : Bool) (es : List (Entry × Nat)) (rect : PanelRect) : List Nat × Nat :=
  let hit := es.filter (fun q => q.1.reaches p c rect)
  let front := hit.takeWhile (fun q => !(cull && q.1.occludes && q.1.covers p c rect))
  let kept := (front ++ (hit.drop front.length).take 1).map (·.2)
  (kept, hit.length - kept.length)

/-- Squares that a band meets, in raster order. -/
def bandSquares (p : PanelDesc) (row0 rows : Nat) : List (Nat × Nat) :=
  (between (row0 / 64) ((row0 + rows - 1) / 64 + 1)).flatMap (fun sy => (List.range (ceilDiv p.cols 384)).map (fun sx => (sx, sy)))

/-- The lists of a band (R255 to R258, R260): each entry is first tested against the whole band. -/
def State.bandLists (s : State) (fr : BrdFrame) (row0 rows : Nat) : List SquareList :=
  let p := s.panel
  let c := s.coefs.getD {}
  let whole : PanelRect := ⟨0, row0, p.cols - 1, row0 + rows - 1⟩
  let es := fr.entries.zipIdx.filter (fun q => q.1.reaches p c whole)
  let cull := s.liveFlag F.BRD_CTRL_CULL_EN
  (bandSquares p row0 rows).map (fun q =>
    let l := listSquare p c cull es ⟨384 * q.1, 64 * q.2, 384 * q.1 + 383, 64 * q.2 + 63⟩
    ⟨q.1, q.2, l.1.take 256, l.1.length, l.2⟩)

/-- The frame with the next band to list. -/
def State.listFrame (s : State) : Option BrdFrame :=
  s.brd.frames.find? (fun f => decide (f.listed < bandCount (modeAt f.mode) f.plan))

/-- Epoch a is b or earlier (R68). -/
def epochLe (a b : Nat) : Bool := decide ((b + 2 ^ 32 - a) % 2 ^ 32 < 2 ^ 31)

/-- Epoch a lies before b (R68). -/
def epochBefore (a b : Nat) : Bool := a != b && epochLe a b

/-- The next band lies within the lookahead: it does from the start of the band LOOKAHEAD_BANDS before it, and for the first of them
after HALTED at once (R267). The Board has consumed its epoch's marker (R216). -/
def State.mayList (s : State) : Bool :=
  match s.listFrame with
  | some f => decide (s.brd.nextSeq < max (s.brd.rookSeq + f.plan.lookBands) (s.brd.freshSeq + f.plan.lookBands)) && epochLe f.epoch (s.epochAt 9)
  | none => false

/-- Set the Board's STATE and BAND (R267, R269): IDLE while every band within the lookahead has its lists. -/
def State.boardShow (s : State) : State :=
  if s.get F.BRD_STATUS_STATE = 0 then s
  else if s.mayList then (s.put F.BRD_STATUS_STATE 2).put F.BRD_STATUS_BAND ((s.listFrame.map (·.listed)).getD 0)
  else (s.put F.BRD_STATUS_STATE 1).put F.BRD_STATUS_BAND s.brd.lastB

/-- A new band of a frame, not yet listed. -/
def State.newBand (s : State) (f : BrdFrame) : Band :=
  let rows := min f.plan.bandRows ((modeAt f.mode).rows - f.listed * f.plan.bandRows)
  { seq := s.brd.nextSeq, epoch := f.epoch, frame := f.frame, b := f.listed, row0 := f.row0 + f.listed * f.plan.bandRows, rows := rows }

/-- Append a band and advance its frame. -/
def State.addBand (s : State) (bd : Band) : State :=
  { s with brd := { s.brd with
      bands := s.brd.bands ++ [bd], nextSeq := s.brd.nextSeq + 1,
      frames := s.brd.frames.map (fun f => if f.frame = bd.frame then { f with listed := f.listed + 1 } else f) } }

/-- BRD_LIST_BAND (R260, R267): the lists of the next band within the lookahead. -/
def State.listBand (s : State) : State :=
  if s.get F.BRD_STATUS_STATE = 0 ∨ s.mayList = false then s
  else match s.listFrame with
    | none => s
    | some f =>
      let b0 := s.newBand f
      let sq := s.bandLists f b0.row0 b0.rows
      let trunc := sq.filter (fun q => decide (256 < q.full))
      let peak := sq.foldl (fun a q => max a q.full) 0
      let culled := sq.foldl (fun a q => a + q.culled) 0
      let nOver := sq.countP (fun q => decide (32 < q.ents.length))
      let s0 := s.addBand { b0 with listed := true, squares := sq }
      let s1 : State := { s0 with brd := { s0.brd with lastB := b0.b } }
      let s2 := (((s1.count Reg.BRD_SNAP_LISTS sq.length).count Reg.BRD_SNAP_CULLED culled).count Reg.BRD_SNAP_TRUNCATED
        trunc.length).countMax Reg.BRD_SNAP_ENTRY_PEAK peak
      let s3 := match trunc with
        | [] => s2
        | q :: _ => s2.eventOnce 0x0931 0 0 q.sx q.sy
      (s3.onReport f.epoch (fun r => { r with trunc := r.trunc + trunc.length, peak := max r.peak peak, culled := r.culled + culled,
                                              overflow := r.overflow + nOver })).boardShow

/-- R260: a band whose lists are not ready at bank release takes step 4 and the Board goes on to the next. -/
def State.listLate (s : State) : State :=
  match s.listFrame with
  | none => s
  | some f =>
    let b0 := s.newBand f
    (((s.addBand { b0 with held := true }).count Reg.BRD_SNAP_LIST_LATE 1).eventOnce 0x0932 0 0 0 b0.b).boardShow

/-! ### Bands in flight -/

/-- The frame a band belongs to. -/
def State.frameOf (s : State) (bd : Band) : Option BrdFrame := s.brd.frames.find? (fun f => f.frame == bd.frame)

/-- The entries of a band's frame. -/
def State.entriesOf (s : State) (bd : Band) : List Entry := ((s.frameOf bd).map (·.entries)).getD []

/-- Change the band with a sequence number. -/
def State.onBand (s : State) (seq : Nat) (f : Band → Band) : State :=
  { s with brd := { s.brd with bands := s.brd.bands.map (fun b => if b.seq = seq then f b else b) } }

/-- The band with a sequence number. -/
def State.bandAt (s : State) (seq : Nat) : Option Band := s.brd.bands.find? (fun b => b.seq == seq)

/-- The final step of a band: the highest of the three choices (R171), 4 where it is held for another reason (R161, R199, R260). -/
def Band.step (bd : Band) : Nat := if bd.held then 4 else max bd.fitStep (max bd.kilnStep bd.paceStep)

/-- A band's work is over: it leaves the pipeline, and a frame with no band left to come goes too. -/
def State.dropBand (s : State) (seq : Nat) : State :=
  let bands := s.brd.bands.filter (fun b => b.seq != seq)
  let frames := s.brd.frames.filter (fun f =>
    decide (f.listed < bandCount (modeAt f.mode) f.plan) || bands.any (fun b => b.frame == f.frame))
  { s with brd := { s.brd with bands := bands, frames := frames } }

/-- F(b) of a band (R229). -/
def State.furrowDeadline (s : State) (bd : Band) : Rat :=
  match s.frameOf bd with
  | some f => s.lineAt bd.frame f.mode (bd.b * f.plan.bandRows)
  | none => s.lineAt bd.frame s.out.mode (bd.row0 - s.out.row0)

/-- Start of scan-out of a band's last row (R236). -/
def State.lastRowAt (s : State) (bd : Band) : Rat :=
  match s.frameOf bd with
  | some f => s.lineAt bd.frame f.mode (bd.b * f.plan.bandRows + bd.rows - 1)
  | none => s.lineAt bd.frame s.out.mode (bd.row0 + bd.rows - 1 - s.out.row0)

/-! ### Band faults and substitutes (R264, R266) -/

/-- A layer is late in one band for a reason found there (R266): the reason of the latch instant stays, a substitute that was not placed
makes the applied policy OMIT (R264), and a band counts once however many of its parts are lost. -/
def State.bandLate (s : State) (epoch layer band reason applied : Nat) : State :=
  -- counts of an epoch that the Board has already latched stand with that epoch (R81, R273; log entry 174)
  let count (s : State) (reg v : Nat) (add : Bool) : State :=
    if s.epochAt 9 = epoch then (if add then s.count reg v else s.countSet reg v)
    else s.onEpoch epoch (fun x => { x with
      snap := sparseSet (fun _ => 0) x.snap reg (if add then sparseGet (fun _ => 0) x.snap reg + v else v) })
  let old := ((s.brd.late.find? (fun q => q.1 == epoch)).map (·.2)).getD []
  let fr := s.brd.frames.find? (fun f => f.epoch == epoch)
  let base := (fr.bind (fun f => f.shows[layer]?)).getD { index := layer, id := 0, kind := 0, shown := true }
  let was := old.find? (fun x => x.index == layer)
  let now : LayerShow := match was with
    | some x =>
      if x.reason = 1 ∨ x.reason = 2 ∨ x.reason = 5 then { x with applied := if applied = 1 then 1 else x.applied }
      else if x.hits.contains band then { x with applied := applied }
      else { x with bands := x.bands + 1, hits := band :: x.hits, applied := applied }
    | none => { base with reason := reason, applied := applied, bands := 1, hits := [band] }
  let list := (old.filter (fun x => x.index != layer)) ++ [now]
  let s1 : State := { s with brd := { s.brd with late := (epoch, list) :: s.brd.late.filter (fun q => q.1 != epoch) } }
  let s2 := count s1 (Reg.BRD_SNAP_LAYER_LATE + 4 * layer) (now.applied * 2 ^ 28 + now.reason * 2 ^ 24 + min now.bands 0xFFFFFF) false
  let s3 := if was.isNone then count s2 Reg.BRD_SNAP_LATE_LAYERS 1 true else s2
  if old.isEmpty then s3.event 0x0930 0 layer band else s3

/-- A Board reset or fatal freeze (R267): the Board is HALTED, and BAND reads the last band listed (R269). -/
def State.boardHalt (s : State) : State := (s.put F.BRD_STATUS_STATE 0).put F.BRD_STATUS_BAND s.brd.lastB

/-- The Board at a marker it has consumed: a marker may make a band listable; a HALTED Board is released (R267): bands whose scan-out has
begun are held, and the next bands lie within the lookahead at once (log entry 46). -/
def State.boardRelease (s : State) : State :=
  if s.get F.BRD_STATUS_STATE ≠ 0 then s.boardShow
  else if s.imageOn = false ∨ s.out.sched = false then s
  else
    let past (f : BrdFrame) : Nat :=
      (List.range (bandCount (modeAt f.mode) f.plan)).countP (fun b =>
        decide (s.lineAt f.frame f.mode (b * f.plan.bandRows) ≤ (s.now : Rat)))
    let s1 := s.brd.frames.foldl (fun s f =>
      let n := max f.listed (past f)
      let held := n - f.listed
      let s1 : State := { s with
        brd := { s.brd with frames := s.brd.frames.map (fun (x : BrdFrame) => if x.frame = f.frame then { x with listed := n } else x) },
        out := { s.out with held := (upFrom f.listed held).map (fun b => (f.frame, b)) ++ s.out.held } }
      s1.onReport f.epoch (fun r => { r with steps := modAt r.steps 4 (· + held), order := List.replicate held 4 ++ r.order })) s
    let s2 : State := { s1 with brd := { s1.brd with
      rookSeq := s1.brd.nextSeq - s1.brd.bands.countP (fun b => !b.started),
      freshSeq := s1.brd.nextSeq,
      frames := s1.brd.frames.filter (fun (f : BrdFrame) => decide (f.listed < bandCount (modeAt f.mode) f.plan) ||
        s1.brd.bands.any (fun b => b.frame == f.frame)) } }
    (s2.put F.BRD_STATUS_STATE 1).boardShow

/-! ### Meanings -/

/-- REGISTER (R254). -/
def execRegister (t c : Nat) (s : State) : Out := .next (s.whenHost t (fun s => s.ctxRegister (c % 4096)))

/-- ACTIVATE (R254, R276). -/
def execActivate (t c : Nat) (s : State) : Out := .next (s.whenHost t (fun s => s.ctxActivate (c % 4096)))

/-- DEACTIVATE (R254). -/
def execDeactivate (t c : Nat) (s : State) : Out := .next (s.whenHost t (fun s => s.ctxDeactivate (c % 4096)))

/-- UNREGISTER (R254). -/
def execUnregister (t c : Nat) (s : State) : Out := .next (s.whenHost t (fun s => s.ctxUnregister (c % 4096)))

/-- SOURCE_FRAME_ARRIVAL (R261). -/
def execSourceFrameArrival (t : Nat) (s : State) : Out := .next (s.whenOn t State.sourceArrival)

end Sys2Proof.Machine
end

