-- ==== Sys2Proof/Machine/Pace.lean ====
section
/-!
DEFINITION. The pace predictor (R229 to R234): the Rook's rate, the cost of squares and bands, and the step chosen for the
next band.
-/

namespace Sys2Proof.Machine

/-- The throttle is active (R497). -/
def State.throttled (s : State) : Bool := s.flag F.THM_STATUS_THROTTLE || s.flag F.THM_STATUS_STACK_THROTTLE

/-- The share of its work that a throttled unit completes (R498). -/
def State.duty (s : State) : Rat := if s.throttled then (s.get F.THM_STATUS_DUTY : Rat) / 16 else 1

/-- Note a band's end for the governor (R499): its slack in ticks, none for one that is not completed, and whether the pace predictor
took step 2 or higher. Only the last 1 ms counts. -/
def State.noteSlack (s : State) (bd : Band) (slack : Option Int) : State :=
  { s with thm := { s.thm with
      slacks := (s.now, slack, decide (2 ≤ bd.paceStep)) :: s.thm.slacks.filter (fun q => decide (s.now < q.1 + tickMs)) } }

/-- The slack of a band that is complete at stamp `now` with deadline F(b): negative once it is late (R235, R499). -/
def slackOf (deadline : Rat) (now : Nat) : Int :=
  let x := (deadline - (now : Rat)).floor
  if deadline ≤ (now : Rat) then min (-1) x else x

/-- Lowest of a list of rates. -/
def lowest (l : List Nat) : Nat := l.foldl min (l.headD 0)

/-! ### Files (R241) -/

/-- State of file n: 0 IDLE, 1 BUSY, 2 HALTED, 3 WAIT. -/
def State.fileSt (s : State) (n : Nat) : Nat := bitsOf (s.get F.ROK_STATUS_F_STATE) (2 * n + 1) (2 * n)

/-- Set the state of file n. -/
def State.setFile (s : State) (n st : Nat) : State :=
  s.put F.ROK_STATUS_F_STATE (withBits (s.get F.ROK_STATUS_F_STATE) (2 * n + 1) (2 * n) st)

/-- Files that are not HALTED. -/
def State.liveFiles (s : State) : List Nat := (List.range 16).filter (fun n => s.fileSt n != 2)

/-- Lanes that the predictor counts (R232, R239). -/
def State.lanes (s : State) : Nat := 64 * s.liveFiles.length

/-- P of R230 before any throttle, slots per second per lane. -/
def State.rokRateMeasured (s : State) : Nat := if s.rok.rates.length < 4 then 1250000000 else lowest s.rok.rates

/-- P of R230. -/
def State.rokRate (s : State) : Rat := (s.rokRateMeasured : Rat) * s.duty

/-! ### Costs (R231) -/

/-- First row of the part of a square that a band computes. -/
def partRow (bd : Band) (sy : Nat) : Nat := max (64 * sy) bd.row0

/-- Rows of the part of a square that a band computes. -/
def partRows (bd : Band) (sy : Nat) : Nat := min (64 * sy + 64) (bd.row0 + bd.rows) - partRow bd sy

/-- The entries of a square's list with their depths (R231). -/
def squareKey (es : List Entry) (q : SquareList) : List (Nat × Nat × Nat) :=
  q.ents.map (fun i => ((es[i]?).map (fun e => (e.layer, e.plane, e.z))).getD (0, 0, 0))

/-- The overflow factor of a square (R227). -/
def SquareList.factor (q : SquareList) : Nat := if 32 < q.ents.length then 2 else 1

/-- R231: the estimate of one square, in slots. -/
def State.squareEst (s : State) (bd : Band) (es : List Entry) (q : SquareList) : Rat :=
  match s.rok.costs.find? (fun c => c.sx == q.sx && c.row0 == partRow bd q.sy && c.key == squareKey es q) with
  | some c => (c.m : Rat) / 4 * (1 + (s.get F.ROK_PACE_MARGIN : Rat) / 64)
  | none => ((384 * partRows bd q.sy * q.ents.length * q.factor : Nat) : Rat)

/-- k_s of R231. -/
def stepFactor (st : Nat) : Rat := if st = 2 then 1 / 2 else if st = 3 then 1 / 4 else if 4 ≤ st then 0 else 1

/-- W(b, s) of R231. -/
def State.bandWork (s : State) (bd : Band) (st : Nat) : Rat :=
  let es := s.entriesOf bd
  stepFactor st * (bd.squares.map (s.squareEst bd es)).foldl (· + ·) 0

/-- Ticks that work takes on the lanes in use, none with no lane. -/
def State.workTicks (s : State) (w : Rat) : Option Rat :=
  if s.lanes = 0 then none else some (w / ((s.lanes : Rat) * s.rokRate) * (tickS : Rat))

/-! ### The step (R232) -/

/-- R232: the lowest allowed step that ends before F(b) less the guard. -/
def State.paceStep (s : State) (bd : Band) (d : Rat) : Nat :=
  let limit := s.furrowDeadline bd - (s.get F.ROK_PACE_GUARD_NS : Rat) * (tickNs : Rat)
  let ok (st : Nat) : Bool := match s.workTicks (s.bandWork bd st) with
    | some t => decide (d + t ≤ limit)
    | none => false
  if ok 0 then 0
  else if s.settingAt bd.epoch F.ROK_CTRL_NO_BILINEAR = 0 ∧ ok 2 = true then 2
  else if s.settingAt bd.epoch F.ROK_CTRL_NO_COARSE = 0 ∧ ok 3 = true then 3
  else 4

/-- One band period of a band: its rows in line times (log entry 48). -/
def State.bandPeriod (s : State) (bd : Band) : Rat :=
  match s.frameOf bd with
  | some f => (f.plan.bandRows : Rat) * s.out.period / ((modeAt f.mode).vtotal : Rat)
  | none => 0

/-- Predict the first band that is listed, not released and not predicted (R232); with no band started before it, its start
is one band period before F(b) (log entry 48). While the RRG streams nothing the Board holds it (R199). -/
def State.paceNext (s : State) : State :=
  match s.brd.bands.find? (fun b => !b.released) with
  | none => s
  | some bd =>
    if bd.paced ∨ bd.listed = false then s
    else
      let d := s.rok.nextAt.getD (s.furrowDeadline bd - s.bandPeriod bd)
      let held := !bd.streamed && !s.rrgStreams
      let st := if held then 0 else s.paceStep bd d
      s.onBand bd.seq (fun b => { b with d := d, paceStep := st, paced := true, held := held })

/-! ### What the Rook shows (R244) -/

/-- The band in progress. -/
def State.runningBand (s : State) : Option Band := s.brd.bands.find? (fun b => b.started)

/-- Show a band in ROK_BAND (R244). -/
def State.rokShow (s : State) (bd : Band) : State := (s.put F.ROK_BAND_BAND bd.b).put F.ROK_BAND_STEP bd.step

/-- While the Rook has no band in progress ROK_BAND shows the next one, with the step it has by now (R244). -/
def State.rokRefresh (s : State) : State :=
  match s.runningBand, s.brd.bands.head? with
  | none, some bd => s.rokShow bd
  | _, _ => s

end Sys2Proof.Machine
end

