-- ==== Sys2Proof/Machine/Silt.lean ====
section
/-!
DEFINITION. Silt (R159 to R180): banks and granules, the fit step, carry, the flat fetch with the drawing of meters, and
the granules its faults retire.
-/

namespace Sys2Proof.Machine

/-! ### Banks (R159 to R161) -/

/-- Bank k. -/
def State.bank (s : State) (k : Nat) : SiltBank := s.slt.banks.getD k {}

/-- Change bank k. -/
def State.onBank (s : State) (k : Nat) (f : SiltBank → SiltBank) : State :=
  { s with slt := { s.slt with banks := modAt s.slt.banks k f } }

/-- State of bank k (R161). -/
def State.bankSt (s : State) (k : Nat) : Nat := if k = 0 then s.get F.SLT_BANK_A_STATE else s.get F.SLT_BANK_B_STATE

/-- Set the state of bank k. -/
def State.setBank (s : State) (k st : Nat) : State := if k = 0 then s.put F.SLT_BANK_A_STATE st else s.put F.SLT_BANK_B_STATE st

/-- Granules a bank may use under a plan: BANK_GRANULES less the bank's retired granules (R170). -/
def State.usable (s : State) (k : Nat) (plan : Plan) : Nat := plan.bankGr - (s.bank k).retired.length

/-- The n-th granule a bank allocates under a plan: the granules in order, without the retired ones (R159). -/
def SiltBank.granule (b : SiltBank) (n : Nat) : Nat :=
  ((List.range (n + 1 + b.retired.length)).filter (fun g => !b.retired.contains g)).getD n 0

/-- A bank with nothing in it. -/
def SiltBank.cleared (b : SiltBank) : SiltBank := { b with held := false, tiles := [], used := 0, freed := [], carryOut := false }

/-- The bank's band is over: R172 retires its granules, and the bank is FREE (R161). -/
def State.freeBank (s : State) (k : Nat) : State :=
  let b := s.bank k
  let s1 := if s.flag F.SLT_CTRL_RETIRE_EN then
      b.toRetire.foldl (fun s g =>
        let r := (s.bank k).retired
        if r.contains g then s
        else if 32 ≤ r.length then s.event 0x0632 0 k g
        else (s.onBank k (fun b => { b with retired := b.retired ++ [g] })).event 0x0631 0 k g) s
    else s
  let n := (s1.bank k).retired.length
  let s2 := if k = 0 then s1.put F.SLT_BANK_A_RETIRED n else s1.put F.SLT_BANK_B_RETIRED n
  (s2.onBank k (fun b => { b.cleared with toRetire := [] })).setBank k 0

/-- READING ends when the band is complete and no carry out of the bank is in progress (R161). -/
def State.endReading (s : State) (k : Nat) : State :=
  if s.bankSt k = 3 ∧ (s.bank k).carryOut = false then s.freeBank k else s

/-- The carry out of bank k is over: with its band ended, READING ends (R161). -/
def State.carryOver (s : State) (k : Nat) : State :=
  let s1 := s.onBank k (fun b => { b with carryOut := false })
  if s1.brd.bands.any (fun b => b.bank == k && b.started) then s1 else s1.endReading k

/-! ### Strata maps (R134, R170) -/

/-- Address and length of stratum σ of the access unit at `a` (R109). -/
def State.stratumAt (s : State) (a σ : Nat) : Nat × Nat :=
  let q := (s.auAt a).index.getD σ (0, 0)
  (a + q.1, q.2)

/-- What the map part of a stratum of a scene content shows (R134), none where the stratum is empty or that part is poisoned, lies
beyond the stratum or fails MAP_CRC (R125; log entry 144). -/
def State.stratumMap (s : State) (a σ : Nat) : Option MapView :=
  let q := s.stratumAt a σ
  let au := s.auAt a
  let n := min q.2 (mapEnd au σ (s.read q.1 16))
  if q.2 = 0 ∨ s.readPoison q.1 n then none
  else match mapView au σ q.2 (s.read q.1 n) with
    | .ok v => some v
    | .error _ => none

/-- Occupied tiles of a plane in a stratum (R164 n_t). -/
def State.occupiedTiles (s : State) (a σ plane : Nat) : Nat :=
  match s.stratumMap a σ with
  | some v => v.ents.countP (fun e => e.plane == plane)
  | none => 0

/-- The scene content of a band's layer. -/
def State.sceneOf (s : State) (bd : Band) (layer : Nat) : Option (Nat × Nat) :=
  match (s.frameOf bd).bind (fun f => f.shows[layer]?) with
  | some x => (match x.content with
    | .scene a t => some (a, t)
    | _ => none)
  | none => none

/-- The layer is shown from its base tier alone (R262). -/
def State.baseOnly (s : State) (bd : Band) (layer : Nat) : Bool :=
  (((s.frameOf bd).bind (fun f => f.shows[layer]?)).map (·.baseOnly)).getD false

/-! ### The band's need (R162, R164, R165, R170) -/

/-- The cubic filter is used at a step in an epoch (R220). -/
def State.cubicAt (s : State) (epoch step : Nat) : Bool := s.settingAt epoch F.ROK_CTRL_FILTER == 0 && decide (step < 2)

/-- Tiles of a scene layer have no refine tier in a band at a step: it is dropped (R233), shown from its base tier (R262), or absent
(R106). -/
def State.baseTier (s : State) (bd : Band) (layer step : Nat) : Bool :=
  decide (1 ≤ step) || s.baseOnly bd layer || (match s.sceneOf bd layer with
    | some (a, _) => !(s.auAt a).refine
    | none => false)

/-- The level an entry counts at in a band at a step: raised to 1 for scene tiles without their refine tier, never coarser than its cap
(R133, R162, R164). -/
def State.levelIn (s : State) (bd : Band) (e : Entry) (step : Nat) : Nat :=
  min e.cap (max e.g (b2n (e.scene && s.baseTier bd e.layer step)))

/-- Strata that a band's windows reach on an entry at a step (R170). -/
def State.entryStrata (s : State) (bd : Band) (k : Nat) (e : Entry) (step : Nat) : List Nat :=
  bd.strataOf s.panel (s.coefs.getD {}) k e (s.cubicAt bd.epoch step) (s.levelIn bd e step)

/-- The scene entries of a band that its lists hold, with their places. -/
def State.sceneEnts (s : State) (bd : Band) : List (Entry × Nat) :=
  (s.entriesOf bd).zipIdx.filter (fun q => q.1.scene && !(bd.squaresOf q.2).isEmpty)

/-- The flat entries of a band that its lists hold. -/
def State.flatEnts (s : State) (bd : Band) : List (Entry × Nat) :=
  (s.entriesOf bd).zipIdx.filter (fun q => !q.1.scene && !(bd.squaresOf q.2).isEmpty)

/-- Scene granules of a band at a step (R170). -/
def State.sceneNeed (s : State) (bd : Band) (step : Nat) : Nat :=
  ((s.sceneEnts bd).flatMap (fun q =>
    match s.sceneOf bd q.1.layer with
    | some (a, _) => (s.entryStrata bd q.2 q.1 step).map (fun σ =>
        granulesOf (s.occupiedTiles a σ q.1.plane) q.1.sr (s.levelIn bd q.1 step))
    | none => [])).foldl (· + ·) 0

/-- Fetch tiles of a band: (entry, strip, column) (R165). -/
def State.flatTiles (s : State) (bd : Band) : List (Nat × Nat × Nat) :=
  (s.flatEnts bd).flatMap (fun q =>
    (bd.fetchTiles s.panel (s.coefs.getD {}) q.2 q.1 (min q.1.g q.1.cap)).map (fun t => (q.2, t.1, t.2)))

/-- The raw working set exceeds the declaration for some scene layer of the band (R127, R166). -/
def State.overDeclared (s : State) (bd : Band) (bandRows : Nat) : Bool :=
  let layers := ((s.sceneEnts bd).map (fun q => q.1.layer)).eraseDups
  layers.any (fun l =>
    match s.sceneOf bd l with
    | some (a, _) =>
      let raw := ((s.sceneEnts bd).filter (fun q => q.1.layer == l)).flatMap (fun q =>
        (bd.rawStrata s.panel (s.coefs.getD {}) q.2 q.1).map (fun σ => s.occupiedTiles a σ q.1.plane * 512 * q.1.sr))
      decide ((s.auAt a).worst.getD (worstIx bandRows) 0 < raw.foldl (· + ·) 0)
    | none => false)

/-- R170: the fit step and the need at it. -/
def State.fitStep (s : State) (bd : Band) (k : Nat) (plan : Plan) (flat : Nat) : Nat × Nat × Bool :=
  let decl := s.overDeclared bd plan.bandRows
  let need (st : Nat) : Nat := s.sceneNeed bd st + flat
  let fits (st : Nat) : Bool := decide (need st ≤ s.usable k plan)
  if !decl && fits 0 then (0, need 0, decl)
  else if fits 1 then (1, need 1, decl)
  else if fits 2 then (2, need 2, decl)
  else (4, need 2, decl)

/-- The flat fetch fits its time (R170): bytes / 160 GB/s is at most D − S − 1 µs. -/
def fetchFits (tiles : Nat) (d : Rat) (sAt : Nat) : Bool :=
  decide (((tiles * 4096 : Nat) : Rat) / 160 * 256 ≤ d - (sAt : Rat) - (tickUs : Rat))

/-! ### Carry (R163) -/

/-- A bank holds plane-stratum (layer, plane, σ) of a scene layer complete, at a level and from a tier. -/
def SiltBank.hasStratum (b : SiltBank) (layer plane σ level nt : Nat) (base : Bool) : Bool :=
  let ts := b.tiles.filter (fun t => t.layer == layer && t.plane == plane && t.row == σ)
  decide (0 < nt) && ts.length == nt && ts.all (fun t => t.level == level && t.base == base)

/-- Insert a number in rising order. -/
def insertRising (n : Nat) : List Nat → List Nat
  | [] => [n]
  | x :: xs => if n ≤ x then n :: x :: xs else x :: insertRising n xs

/-- Numbers in rising order: a window from the top downward. -/
def rising (l : List Nat) : List Nat := l.foldl (fun a n => insertRising n a) []

/-- Plane-strata and strips that the previous band's bank can give to a band: of each plane and flat layer those from the top of its
window downward, as many as the plan allows (R163). Rows that a late policy replaced or lost there are not held. -/
def State.carrySet (s : State) (bd : Band) (step : Nat) (plan : Plan) (tiles : List (Nat × Nat × Nat)) : List (Nat × Nat × Nat) :=
  let prev := s.bank (1 - bd.bank)
  let faults := ((s.bandAt prev.band).map (·.faults)).getD []
  let lost := ((s.bandAt prev.band).map (·.lost)).getD []
  if !s.liveFlag F.SLT_CTRL_CARRY_EN || bd.b == 0 || prev.held || s.bankSt (1 - bd.bank) != 3 then []
  else
    let scene := (s.sceneEnts bd).flatMap (fun q =>
      match s.sceneOf bd q.1.layer with
      | some (a, _) =>
        let ok := (rising (s.entryStrata bd q.2 q.1 step)).filter (fun σ =>
          !faults.contains (q.1.layer, σ) && prev.hasStratum q.1.layer q.1.plane σ (min q.1.g q.1.cap) (s.occupiedTiles a σ q.1.plane) (s.baseTier bd q.1.layer step))
        (ok.take (plan.carryRows / q.1.sr)).map (fun σ => (q.1.layer, q.1.plane, σ))
      | none => [])
    let flat := (s.flatEnts bd).flatMap (fun q =>
      let mine := tiles.filter (fun t => t.1 == q.2)
      let ok := (rising (mine.map (fun t => t.2.1)).eraseDups).filter (fun r => (mine.filter (fun t => t.2.1 == r)).all (fun t =>
        prev.tiles.any (fun x => x.layer == q.1.layer && x.plane == 255 && x.row == r && x.col == t.2.2 && x.level == min q.1.g q.1.cap)))
      if lost.contains q.1.layer then [] else (ok.take (plan.carryRows / 8)).map (fun r => (q.1.layer, 255, r)))
    scene ++ flat

/-! ### Release (R161, R170) -/

/-- Argument word 0 of the band codes (R242). -/
def bandArg (bd : Band) : Nat := bd.b % 65536 + bd.step * 65536

/-- End a wait for a band's bank (R237): its time is counted, and the first of an epoch is logged. -/
def State.endWait (s : State) (bd : Band) : State :=
  match s.rok.waitAt with
  | none => s
  | some a =>
    let s1 : State := { s with rok := { s.rok with waitAt := none } }
    if s.now ≤ a then s1 else (s1.count Reg.ROK_SNAP_SILT_WAIT_NS ((s.now - a) / tickNs)).eventOnce 0x0813 0 0 (bandArg bd) bd.frame

/-- The bank of the band that the Rook waits for is READY: the wait is over (R237). -/
def State.waitOver (s : State) (bd : Band) : State :=
  match s.brd.bands.find? (fun b => !b.started) with
  | some b => if b.seq = bd.seq then s.endWait bd else s
  | none => s

/-- A band at step 4: its bank is READY, HELD at once (R161). -/
def State.holdBand (s : State) (bd : Band) : State :=
  (((s.onBank bd.bank (fun b => { b with held := true, tiles := [], used := 0, freed := [] })).setBank bd.bank 2).onBand bd.seq (fun b =>
    { b with strata := [], carry := [], fetch := [] })).waitOver bd

/-- FILLING ends when Kiln band, flat fetch and carry are all complete (R161). -/
def State.bankReady (s : State) (seq : Nat) : State :=
  match s.bandAt seq with
  | none => s
  | some bd =>
    if bd.released = true ∧ bd.kilnDone = true ∧ bd.flatDone = true ∧ bd.carryDone = true ∧ s.bankSt bd.bank = 1 then (s.setBank bd.bank 2).waitOver bd
    else s

/-- Strata of a band that the Kiln must decode: reached by some listed plane, and not held in carry rows by every plane that has tiles in
them (R130, R170). -/
def State.decodeList (s : State) (bd : Band) (step : Nat) (carry : List (Nat × Nat × Nat)) : List (Nat × Nat) :=
  let need := (s.sceneEnts bd).flatMap (fun q => (s.entryStrata bd q.2 q.1 step).map (fun σ => (q.1.layer, q.1.plane, σ)))
  ((need.map (fun x => (x.1, x.2.2))).eraseDups).filter (fun x =>
    match s.sceneOf bd x.1 with
    | some (a, _) =>
      let ps := need.filter (fun y => y.1 == x.1 && y.2.2 == x.2)
      decide (0 < (s.stratumAt a x.2).2) &&
      !(ps.any carry.contains && ps.all (fun y => carry.contains y || s.occupiedTiles a x.2 y.2.1 == 0))
    | none => false)

/-- Show the plan in force in the SLT registers (R169, R175, R176). -/
def State.planShow (s : State) (p : Plan) : State :=
  let r (s : State) (f : Fld) (v : Nat) : State := s.put f v
  r (r (r (r (r (r (r s F.SLT_PLAN0_MODE p.mode) F.SLT_PLAN0_BAND_ROWS p.bandRows) F.SLT_PLAN0_LOOKAHEAD_BANDS p.lookBands)
    F.SLT_PLAN0_CARRY_ROWS p.carryRows) F.SLT_PLAN1_BANK_GRANULES p.bankGr) F.SLT_PLAN1_SCENE_GRANULES p.sceneGr)
    F.SLT_PLAN2_FLAT_GRANULES p.flatGr

/-- Release a listed band for filling in bank k (R161, R170). A band whose raw working set exceeds a declaration is logged once, with the
band and 0 as arguments, however many access units are concerned (R127; DESIGN CHOICE, log entry 145). -/
def State.releaseBand (s : State) (bd0 : Band) (k : Nat) (plan : Plan) : State :=
  let bd := { bd0 with bank := k }
  let tiles := s.flatTiles bd
  let fs := s.fitStep bd k plan tiles.length
  let fit := if fetchFits tiles.length bd.d s.now then fs.1 else 4
  let step := max fit bd.paceStep
  let carry := if step = 4 then [] else s.carrySet bd step plan tiles
  let strata := if step = 4 then [] else s.decodeList bd step carry
  let carryUse := carry.filter (fun c => c.2.1 == 255 || !strata.contains (c.1, c.2.2))
  let fetch := if step = 4 then [] else tiles.filter (fun t =>
    !carryUse.any (fun c => c.2.1 == 255 && c.2.2 == t.2.1 && some c.1 == ((s.entriesOf bd)[t.1]?).map (·.layer)))
  let s1 := (((((s.count Reg.SLT_SNAP_STEP1 (b2n (fit == 1))).count Reg.SLT_SNAP_STEP2 (b2n (fit == 2))).count Reg.SLT_SNAP_HELD
    (b2n (fit == 4))).count Reg.SLT_SNAP_DECL (b2n fs.2.2)).countMax Reg.SLT_SNAP_PEAK fs.2.1)
  let s2 := if 1 ≤ fit then s1.eventOnce 0x0620 0 0 bd.b fit else s1
  let s2d := if fs.2.2 then s2.event 0x0555 0 bd.b 0 else s2
  let s3 := s2d.onBand bd.seq (fun b => { b with
    bank := k, released := true, s := s.now, fitStep := fit, strata := strata.map (fun q => { layer := q.1, stratum := q.2 }),
    carry := carryUse, fetch := fetch, kilnDone := strata.isEmpty, admitted := strata.isEmpty, flatDone := fetch.isEmpty,
    carryDone := carryUse.isEmpty })
  let s4 := (s3.onBank k (fun b => { b.cleared with carryOut := b.carryOut, band := bd.seq, limit := s.usable k plan })).setBank k 1
  let s5 := if carryUse.isEmpty then s4 else s4.onBank (1 - k) (fun b => { b with carryOut := true })
  if step = 4 then s5.holdBand { bd with strata := [] } else s5.bankReady bd.seq

/-- BANK_RELEASE (R161, R170): the next band takes the bank the alternation gives it, once Silt has consumed the marker of its epoch
(R22). A band that the Board holds, without its lists (R260) or its registry (R199), takes step 4. -/
def State.bankRelease (s : State) : State :=
  let k := s.get F.SLT_BANK_NEXT
  let other := s.bankSt (1 - k)
  if s.bankSt k ≠ 0 ∨ ¬ (other = 0 ∨ other = 3) then s
  else
    let late := match s.listFrame with
      | some f => epochLe f.epoch (s.epochAt 6)
      | none => false
    let sl := if s.brd.bands.any (fun b => !b.released) || !late then s else s.listLate
    let s0 := sl.paceNext
    match s0.brd.bands.find? (fun b => !b.released) with
    | none => s0
    | some bd =>
      match s0.frameOf bd with
      | none => s0
      | some f =>
        if epochLe bd.epoch (s.epochAt 6) = false then s0
        else
        let s1 := (s0.planShow f.plan).put F.SLT_BANK_NEXT (1 - k)
        if bd.held = false then s1.releaseBand bd k f.plan
        else
          let start (b : Band) : Band := { b with bank := k, released := true, s := s.now, admitted := true }
          let s2 := s1.onBand bd.seq (fun b => { start b with kilnDone := true, flatDone := true, carryDone := true })
          ((s2.onBank k (fun b => { b with band := bd.seq })).setBank k 1).holdBand { bd with bank := k }

/-! ### Carry copy (R163) -/

/-- The tiles of a bank that a carry list names; of a flat layer's strips those that `need` tells (R165). -/
def SiltBank.carried (b : SiltBank) (need : SiltTile → Bool) (c : List (Nat × Nat × Nat)) : List SiltTile :=
  b.tiles.filter (fun t => c.contains (t.layer, t.plane, t.row) && (t.plane != 255 || need t))

/-- A tile that takes whole granules of its own (R162): a scene tile at level 0, or a fetch tile. -/
def SiltTile.whole (t : SiltTile) : Bool := t.plane == 255 || (t.level == 0 && !t.half)

/-- Samples of a packed block: 4,096 × (SR / 8) / 4^g bytes, a HALF tile at level 1 (R162). -/
def SiltTile.blockSamples (t : SiltTile) (sr : Nat) : Nat := 512 * (sr / 8) / 4 ^ max t.level 1

/-- A bank's next place for `n` granules: one given back where one is enough, else the next in order; none beyond those it may allocate
(R159). -/
def SiltBank.alloc (b : SiltBank) (n : Nat) : Option (Nat × SiltBank) :=
  match b.freed with
  | g :: r => if n = 1 then some (g, { b with freed := r })
    else if b.used + n ≤ b.limit then some (b.used, { b with used := b.used + n }) else none
  | [] => if b.used + n ≤ b.limit then some (b.used, { b with used := b.used + n }) else none

/-- Store the tiles of one plane-stratum, or fetch tiles, in a bank (R162): whole tiles take their own granules, the blocks of the others
are packed in tile order. -/
def storeTiles (b : SiltBank) (ts : List SiltTile) (sr : Nat) : SiltBank :=
  let b1 := (ts.filter SiltTile.whole).foldl (fun b t =>
    match b.alloc (max 1 (sr / 8)) with
    | some q => { q.2 with tiles := q.2.tiles ++ [{ t with gran := q.1, goff := 0 }] }
    | none => b) b
  let parts := ts.filter (fun t => !t.whole)
  if parts.isEmpty then b1
  else match b1.alloc (ceilDiv ((parts.map (fun t => t.blockSamples sr)).foldl (· + ·) 0) 512) with
    | some q =>
      { q.2 with tiles := q.2.tiles ++ (parts.foldl (fun (a : List SiltTile × Nat) t =>
        (a.1 ++ [{ t with gran := q.1, goff := a.2 }], a.2 + t.blockSamples sr)) ([], 0)).1 }
    | none => b1

/-- Where sample n of a tile lies: its granule, in allocation order, and its place there (R162): a whole tile has 8 of its rows in each
granule. -/
def SiltTile.place (t : SiltTile) (n : Nat) : Nat × Nat :=
  if t.whole then (t.gran + n / (8 * t.w), n % (8 * t.w)) else (t.gran + (t.goff + n) / 512, (t.goff + n) % 512)

/-- CARRY_COPY_COMPLETE (R163): the carried plane-strata and strips are in the new bank; a copy at or after D is late. -/
def State.carryComplete (s : State) : State :=
  match s.brd.bands.find? (fun b => b.released && !b.carryDone) with
  | none => s
  | some bd =>
    let prev := s.bank (1 - bd.bank)
    let srOf (l p : Nat) : Nat := if p = 255 then 8 else (((s.entriesOf bd).find? (fun e => e.layer == l && e.scene)).map (·.sr)).getD 8
    let tiles := (s.flatTiles bd).map (fun q => (((s.entriesOf bd)[q.1]?).map (·.layer), q.2))
    let need (t : SiltTile) : Bool := tiles.contains (some t.layer, t.row, t.col)
    let kept := bd.carry.filter (fun c => !(c.2.1 == 255 && bd.lost.contains c.1))
    let copy (b : SiltBank) : SiltBank := kept.foldl (fun b c => storeTiles b (prev.carried need [c]) (srOf c.1 c.2.1)) b
    let s1 := s.onBank bd.bank copy
    let late := decide (bd.d ≤ (s.now : Rat)) && !bd.late
    let s2 := (s1.onBand bd.seq (fun b => { b with carryDone := true, late := b.late || late })).count Reg.SLT_SNAP_CARRIED bd.carry.length
    let s3 := if late then (s2.event 0x0510 0 bd.b bd.seq).count Reg.KLN_SNAP_LATE 1 else s2
    (s3.carryOver (1 - bd.bank)).bankReady bd.seq

/-! ### Flat fetch (R165, R172) -/

/-- The colour of a meter sample (R251; log entry 37): bars of equal width in the order of the channels, the level read at
the sample's centre along the bar, zones by MID and HIGH, outside a bar's lit part transparent. -/
def meterSample (b : List Nat) (levels : List Int) (g i j : Nat) : List Nat :=
  let n := max (b.getD 0x58 1) 1
  let w : Rat := (lW b : Rat)
  let h : Rat := (lH b : Rat)
  let x : Rat := ((2 ^ g : Nat) : Rat) * ((i : Rat) + 1 / 2)
  let y : Rat := ((2 ^ g : Nat) : Rat) * ((j : Rat) + 1 / 2)
  let vert := b.getD 0x59 0 == 0
  let across := if vert then x / w else y / h
  let along := if vert then (h - y) / h else x / w
  let bar := (across * (n : Rat)).floor.toNat
  let floorDb : Rat := (b.getD 0x5A 20 : Rat)
  let db := along * floorDb - floorDb
  let level : Rat := ((levels.getD bar (-1000000) : Int) : Rat) / 128
  if n ≤ bar ∨ along < 0 ∨ 1 < along ∨ level < db then [0, 0, 0, 0]
  else
    let z := if db < -(b.getD 0x5B 0 : Rat) then 0 else if db < -(b.getD 0x5C 0 : Rat) then 1 else 2
    let c (k : Nat) : Rat := (b.getD (0x70 + 4 * z + k) 0 : Rat) / 255
    [toF16 (c 0 * c 3), toF16 (c 1 * c 3), toF16 (c 2 * c 3), toF16 (c 3)]

/-- The samples of fetch tile (strip, column) of a flat content at level g, as 64-bit words; outside the layer transparent. -/
def State.fetchSamples (s : State) (b : List Nat) (c : Content) (g r x : Nat) : List Nat :=
  (List.range 512).map (fun n =>
    let i := 64 * x + n % 64
    let j := 8 * r + n / 64
    if levelDim (lW b) g ≤ i ∨ levelDim (lH b) g ≤ j then 0
    else match c with
      | .pyramid a p _ w h => s.readLE (sampleAddr a p w h g i j) 8
      | .meter lv => leNat ((meterSample b lv g i j).flatMap (leBytes 2))
      | _ => 0)

/-- The bytes of fetch tile (strip, column) in memory: row spans. -/
def fetchSpans (b : List Nat) (c : Content) (g r x : Nat) : List (Nat × Nat) :=
  match c with
  | .pyramid a p _ w h =>
    (upFrom (8 * r) 8).filterMap (fun j =>
      let n := min 64 (levelDim (lW b) g - 64 * x)
      if j < levelDim (lH b) g ∧ 0 < n then some (sampleAddr a p w h g (64 * x) j, 8 * n) else none)
  | _ => []

/-! ### Silt faults (R172) -/

/-- R172: uncorrectable words met by a read: (tile place, sample) of a bank; counted, logged once a band, to be retired. -/
def State.siltEcc (s : State) (bd : Band) (corr : Nat) (bad : List (Nat × Nat)) : State :=
  let bk := s.bank bd.bank
  let gr (q : Nat × Nat) : Nat :=
    match bk.tiles[q.1]? with
    | some t => bk.granule (t.place q.2).1
    | none => 0
  let real := bad.filter (fun q => decide (q.1 < bk.tiles.length))
  let s1 := (s.count Reg.SLT_SNAP_ECC_CORR corr).count Reg.SLT_SNAP_ECC_UNCORR real.length
  let s2 := s1.onBank bd.bank (fun b => { b with toRetire := (b.toRetire ++ real.map gr).eraseDups })
  match real with
  | [] => s2
  | q :: _ => if bd.eccLogged then s2 else (s2.event 0x0630 0 bd.bank (gr q)).onBand bd.seq (fun b => { b with eccLogged := true })

/-! ### Meanings -/

/-- BANK_RELEASE (R161, R170). -/
def execBankRelease (t : Nat) (s : State) : Out := .next (s.whenOn t (fun s => s.bankRelease.rokRefresh))

/-- CARRY_COPY_COMPLETE (R163). -/
def execCarryCopyComplete (t : Nat) (s : State) : Out := .next (s.whenOn t State.carryComplete)

end Sys2Proof.Machine
end

