-- ==== Sys2Proof/Machine/Kiln.lean ====
section
/-!
DEFINITION. The Kiln's conversion of samples (R132), grain levels (R133), engines, predicted rates and times (R134, R135, R149), and
reports of decoding (R126).
-/

namespace Sys2Proof.Machine

/-! ### Conversion (R132) and levels (R133) -/

/-- The settings R132 uses for an encoding: HLG peak and gamma, REF_WHITE, the nine coefficients. -/
structure KilnCsc where
  peak : Nat
  gamma : Nat
  white : Nat
  m : List Int
deriving DecidableEq, Repr

/-- The settings in force at the Kiln for COLOUR value e. -/
def State.kilnCsc (s : State) (e : Nat) : KilnCsc :=
  ⟨s.live F.KLN_HLG_PEAK, s.live F.KLN_HLG_GAMMA, s.live F.KLN_REF_WHITE_REF_WHITE,
   (List.range 9).map (fun k => signed 32 (s.live (F.KLN_CSC_COEF.nth2 (e - 1) k)))⟩

/-- fp16 with saturation at ±65,504 (R132). -/
def satF16 (x : Rat) : Nat := toF16 (clampR (-65504) 65504 x)

/-- A 64-bit Silt word of four fp16 patterns. -/
def packF16 (c : List Nat) : Nat := leNat (c.flatMap (leBytes 2))

/-- R132: one 10-bit sample of COLOUR value e as a 64-bit fp16 word. -/
def convertSample (k : KilnCsc) (e : Nat) (r g b a : Nat) : Nat :=
  let q1023 : Rat := 1023
  if a = 0 then 0
  else if e = 0 then packF16 ([r, g, b, a].map (fun (x : Nat) => toF16 ((x : Rat) / q1023)))
  else
    let light := transferLight e k.peak k.gamma ([r, g, b].map (fun x => ((min x a : Nat) : Rat) / (a : Rat)))
    let lin : List Rat := light.map (fun (v : Rat) => v / (if e = 1 then 1 else (k.white : Rat)))
    let alpha : Rat := (a : Rat) / q1023
    let row (i : Nat) : Rat :=
      ((List.range 3).map (fun j => ((k.m.getD (3 * i + j) 0 : Int) : Rat) / 65536 * lin.getD j 0)).foldl (· + ·) 0
    packF16 [satF16 (row 0 * alpha), satF16 (row 1 * alpha), satF16 (row 2 * alpha), toF16 alpha]

/-- The converted samples of a decoded tile: at full or base resolution (R131). -/
def convertTile (k : KilnCsc) (e : Nat) (t : KssTile) : List Nat :=
  let c (i : Nat) : List Int := t.vals.getD i []
  (List.range (c 3).length).map (fun n => convertSample k e ((c 0).getD n 0).toNat ((c 1).getD n 0).toNat ((c 2).getD n 0).toNat
    ((c 3).getD n 0).toNat)

/-- A component of a 64-bit Silt word. -/
def wordF16 (w i : Nat) : Rat := ofF16 (bitsOf w (16 * i + 15) (16 * i))

/-- R133: the mean of the block (i, j) of 2^g × 2^g samples of a w × h tile; samples outside count as 0. -/
def blockMean (d : List Nat) (w h g i j : Nat) : Nat :=
  let q := 2 ^ g
  let pts := (List.range q).flatMap (fun y => (List.range q).map (fun x => (i * q + x, j * q + y)))
  let comp (c : Nat) : Rat :=
    (pts.map (fun p => if p.1 < w ∧ p.2 < h then wordF16 (d.getD (p.2 * w + p.1) 0) c else 0)).foldl (· + ·) 0 / ((q * q : Nat) : Rat)
  packF16 ((List.range 4).map (fun c => toF16 (comp c)))

/-- R133: level g of a tile: its width, height and samples, from samples of level `from_`. -/
def formLevel (d : List Nat) (w h from_ g : Nat) : Nat × Nat × List Nat :=
  if g ≤ from_ then (w, h, d)
  else
    let n := g - from_
    let lw := ceilDiv w (2 ^ n)
    let lh := ceilDiv h (2 ^ n)
    (lw, lh, (List.range (lw * lh)).map (fun p => blockMean d w h n (p % lw) (p / lw)))

/-- The Silt tile of a decoded KSS tile for an entry whose named level, after its cap, is `lv` (R131, R133). -/
def siltTile (k : KilnCsc) (e layer row lv : Nat) (t : KssTile) : SiltTile :=
  let d := convertTile k e t
  let bw := (t.w + 1) / 2
  let bh := (t.h + 1) / 2
  let q := if t.half then formLevel d bw bh 1 lv else formLevel d t.w t.h 0 lv
  { layer := layer, plane := t.plane, row := row, col := t.tile, level := lv, half := t.half && lv == 0, w := q.1, h := q.2.1, data := q.2.2
    base := t.half }

/-! ### Engines (R149, R150) -/

/-- Engine e. -/
def State.engine (s : State) (e : Nat) : Engine := s.kln.eng.getD e {}

/-- Change engine e. -/
def State.onEngine (s : State) (e : Nat) (f : Engine → Engine) : State := { s with kln := { s.kln with eng := modAt s.kln.eng e f } }

/-- State of engine e (R150): 0 IDLE, 1 BAND, 2 HOST, 3 CHAIN_WAIT, 4 HALTED, 5 DUMP. -/
def State.engSt (s : State) (e : Nat) : Nat := if e = 0 then s.get F.KLN_STATUS_K0_STATE else s.get F.KLN_STATUS_K1_STATE

/-- Set the state of engine e. -/
def State.setEng (s : State) (e st : Nat) : State :=
  if e = 0 then s.put F.KLN_STATUS_K0_STATE st else s.put F.KLN_STATUS_K1_STATE st

/-- Engine e is enabled by the settings in force (R152). -/
def State.engOn (s : State) (e : Nat) : Bool := if e = 0 then s.liveFlag F.KLN_CTRL_K0_EN else s.liveFlag F.KLN_CTRL_K1_EN && !s.leftOff 15

/-- The measured rate of engine e in MB/s before any throttle (R135). -/
def State.engRateMeasured (s : State) (e : Nat) : Nat := let r := (s.engine e).rates; if r.length < 4 then 96000 else lowest r

/-- The predicted rate of engine e in MB/s (R135). -/
def State.engRate (s : State) (e : Nat) : Rat := (s.engRateMeasured e : Rat) * s.duty

/-- Engines that take band jobs: not HALTED and not in DUMP. One that is enabled and HALTED counts as not enabled in R134 (DESIGN CHOICE,
log entry 146). -/
def State.bandEngines (s : State) : List Nat := [0, 1].filter (fun e => decide (s.engSt e < 4))

/-- Ticks that `n` bytes take at a rate in MB/s. -/
def bytesTicks (n : Nat) (r : Rat) : Rat := (n : Rat) * 1000 * 256 / r

/-- R134: predicted decode time, in ticks, of strata with these costs. -/
def State.decodeTime (s : State) (costs : List Nat) : Option Rat :=
  let c := costs.foldl (· + ·) 0
  let top := costs.foldl max 0
  match s.bandEngines with
  | [] => none
  | [e] => some (bytesTicks c (s.engRate e))
  | _ => some (bytesTicks (c + top) (2 * min (s.engRate 0) (s.engRate 1)))

/-! ### Reports of decoding (R126, R149) -/

/-- Argument word 1 of a KSS event (R126). -/
def kssArg1 (f : KssFault) : Nat := f.reason * 2 ^ 24 + f.plane % 64 * 2 ^ 16 + f.tile % 128

/-- Log the event and count the checks of a decoded stratum (R126). -/
def State.kssReport (s : State) (e : Nat) (au : KssAu) (σ : Nat) (o : KssOut) : State :=
  let s1 := match o.event with
    | some f => s.event f.code e (au.stream * 65536 + σ % 65536) (kssArg1 f)
    | none => s
  ((((s1.count Reg.KLN_SNAP_CHECK_MISMATCH o.mismatches).count Reg.KLN_SNAP_TILE_FAULTS o.tileFaults).count Reg.KLN_PREMUL_CLAMPS
    o.clamps).count Reg.KLN_SNAP_BASE_FAULTS (b2n o.baseFault))

/-- Reconstructed bytes of tiles (R149). -/
def reconBytes (ts : List KssTile) : Nat :=
  (ts.map (fun t => 8 * (((t.w + 1) / 2) * ((t.h + 1) / 2)) + (if t.half then 0 else 8 * t.w * t.h))).foldl (· + ·) 0

end Sys2Proof.Machine
end

