-- ==== Sys2Proof/Machine/Subst.lean ====
section
/-!
DEFINITION. Late policies within a band (R264): the substitutes for rows lost to a base fault or a fetch fault, and the end of a band's
flat fetch (R165, R172).
-/

namespace Sys2Proof.Machine

/-! ### Substitutes (R264) -/

/-- The layer's descriptor in a band's frame. -/
def State.descOf (s : State) (bd : Band) (layer : Nat) : List Nat := ((s.frameOf bd).bind (fun f => f.descs[layer]?)).getD []

/-- The content that a layer of a band's frame last showed before that frame (R262, R263). -/
def State.heldOf (s : State) (bd : Band) (layer : Nat) : Option Content :=
  let b := s.descOf bd layer
  let old : List (Nat × Nat × Content) := ((s.frameOf bd).map (·.prev)).getD []
  (old.find? (fun q => q.1 == lId b && q.2.1 == lKind b)).map (fun q => q.2.2)

/-- Granules that a stratum's planes take in the band, with or without the refine tier (R162). -/
def State.stratumGranules (s : State) (bd : Band) (layer σ a : Nat) (base : Bool) : Nat :=
  ((s.sceneEnts bd).map (fun q =>
    if q.1.layer = layer then granulesOf (s.occupiedTiles a σ q.1.plane) q.1.sr (min q.1.cap (max q.1.g (b2n base))) else 0)).foldl (· + ·) 0

/-- The Silt tiles of a decoded stratum for the planes that a band lists on a layer (R131, R133). -/
def State.siltTiles (s : State) (bd : Band) (layer σ colour : Nat) (ts : List KssTile) : List (Nat × List SiltTile) :=
  let k := s.kilnCsc colour
  let step := bd.step
  (s.sceneEnts bd).filterMap (fun q =>
    if q.1.layer = layer ∧ (s.entryStrata bd q.2 q.1 step).contains σ = true then
      some (q.1.sr, (ts.filter (fun t => t.plane == q.1.plane)).map (siltTile k colour layer σ (min q.1.g q.1.cap)))
    else none)

/-- Store the tiles of each plane in a band's bank. -/
def State.storeAll (s : State) (bank : Nat) (l : List (Nat × List SiltTile)) : State :=
  s.onBank bank (fun b => l.foldl (fun b q => storeTiles b q.2 q.1) b)

/-- HOLD for a stratum: the same stratum of the held content from its base tier, decoded on engine `e`, when it decodes and its granules
fit those freed. Answers whether it is placed; its decoding is reported like any other (R126). -/
def State.substHold (s : State) (e : Nat) (bd : Band) (layer σ freed : Nat) : Bool × State :=
  match s.heldOf bd layer with
  | some (.scene a t) =>
    let q := s.stratumAt a σ
    let au := s.auAt a
    let b := s.read q.1 q.2
    let n := stratumReads au (s.tablesAt t) σ q.2 b false none
    let s0 := s.noteRead (2 + e) q.1 n
    if freed < s.stratumGranules bd layer σ a true then (false, s)
    else if q.2 = 0 then (true, s)
    else if s.readPoison q.1 n then (false, s0)
    else
      let o := decodeStratum au (s.tablesAt t) σ b false none
      let s1 := s0.kssReport e au σ o
      if o.baseFault then (false, s1) else (true, s1.storeAll bd.bank (s.siltTiles bd layer σ au.colour o.tiles))
  | _ => (false, s)

/-- The fetch tiles of a layer's flat entry in a band, with the entry's level (R165). -/
def State.layerTiles (s : State) (bd : Band) (layer : Nat) : List (Nat × Nat × Nat) :=
  ((s.flatEnts bd).filter (fun q => q.1.layer == layer && !q.1.still)).flatMap (fun q =>
    let g := min q.1.g q.1.cap
    (bd.fetchTiles s.panel (s.coefs.getD {}) q.2 q.1 g).map (fun t => (g, t.1, t.2)))

/-- A fetch tile of a flat content (R165). -/
def State.fetchTile (s : State) (layer : Nat) (b : List Nat) (c : Content) (g r x : Nat) : SiltTile :=
  { layer := layer, plane := 255, row := r, col := x, level := g, half := false, w := 64, h := 8, data := s.fetchSamples b c g r x }

/-- A content has this level, at the size of a layer. -/
def Content.hasLevel (c : Content) (w h g : Nat) : Bool :=
  match c with
  | .pyramid _ _ l w' h' => decide (g < l) && w == w' && h == h'
  | .meter _ => decide (g < 6)
  | _ => false

/-- HOLD for the rows of a flat layer: the same fetch tiles of the held content, which take the granules freed (DEDUCED, log entry 47). -/
def State.substFlat (s : State) (bd : Band) (layer : Nat) (tiles : List (Nat × Nat × Nat)) : Bool × State :=
  let b := s.descOf bd layer
  match s.heldOf bd layer with
  | some c =>
    let spans := tiles.flatMap (fun t => fetchSpans b c t.1 t.2.1 t.2.2)
    if tiles.all (fun t => c.hasLevel (lW b) (lH b) t.1) = false then (false, s)
    else if spans.all (fun q => !s.readPoison q.1 q.2) then
      (true, (s.noteReads 4 spans).onBank bd.bank (fun k => storeTiles k (tiles.map (fun t => s.fetchTile layer b c t.1 t.2.1 t.2.2)) 8))
    else (false, s.noteReads 4 spans)
  | none => (false, s)

/-- Insert the place of an entry into a square's list by depth; at equal depth a lower layer index is in front (R253). -/
def placeInList (es : List Entry) (n : Nat) (e : Entry) (l : List Nat) : List Nat :=
  let nearer := l.takeWhile (fun i => match es[i]? with
    | some x => decide (e.zr < x.zr) || (x.zr == e.zr && decide (x.layer ≤ e.layer))
    | none => true)
  nearer ++ n :: l.drop nearer.length

/-- A square's list with one more entry of the frame, listed like any other (R253, R256 to R258): it stands at its depth unless an occluder
hides it, what it occludes is left out, and the 256 frontmost stay. -/
def SquareList.add (q : SquareList) (p : PanelDesc) (c : RegSet) (cull : Bool) (es : List Entry) (n : Nat) (e : Entry) : SquareList :=
  let rect : PanelRect := ⟨384 * q.sx, 64 * q.sy, 384 * q.sx + 383, 64 * q.sy + 63⟩
  let hides (x : Entry) : Bool := cull && x.occludes && x.covers p c rect
  let l := placeInList es n e q.ents
  let front := l.takeWhile (· != n)
  if e.reaches p c rect = false ∨ front.any (fun i => (es[i]?).any hides) = true then q
  else if hides e then { q with ents := (front ++ [n]).take 256, full := front.length + 1, culled := q.culled + (q.full - front.length) }
  else { q with ents := l.take 256, full := q.full + 1 }

/-- The counts of a band's squares after one entry more was listed in them (R258, R265). -/
def State.relisted (s : State) (bd : Band) (old new : List SquareList) : State :=
  let both := old.zip new
  let trunc := both.filter (fun q => decide (q.1.full ≤ 256 ∧ 256 < q.2.full))
  let peak := new.foldl (fun a q => max a q.full) 0
  let culled := both.foldl (fun a q => a + (q.2.culled - q.1.culled)) 0
  let spilled := both.countP (fun q => decide (q.1.ents.length ≤ 32 ∧ 32 < q.2.ents.length))
  let s1 := ((s.count Reg.BRD_SNAP_CULLED culled).count Reg.BRD_SNAP_TRUNCATED trunc.length).countMax Reg.BRD_SNAP_ENTRY_PEAK peak
  let s2 := match trunc with
    | [] => s1
    | q :: _ => s1.eventOnce 0x0931 0 0 q.2.sx q.2.sy
  s2.onReport bd.epoch (fun r => { r with
    trunc := r.trunc + trunc.length, peak := max r.peak peak, culled := r.culled + culled, overflow := r.overflow + spilled })

/-- FALLBACK: the still's strips for layer rows `lo` to below `hi`, as a flat entry with those rows, when its fetch tiles fit the freed
granules and its read meets no fault (R264, R253). -/
def State.substStill (s : State) (bd : Band) (layer lo hi freed : Nat) : Bool × State :=
  match s.frameOf bd with
  | none => (false, s)
  | some f =>
    let b := s.descOf bd layer
    let c := fallbackOf b
    let e0 := s.flatEntry (signed 8 (s.settingAt bd.epoch F.ROK_LOD_LOD_BIAS)) b layer (b.getD 0x51 1) true
    let e : Entry := { e0 with only := some (lo, hi) }
    let n := f.entries.length
    let es := f.entries ++ [e]
    let p := s.panel
    let k := s.coefs.getD {}
    let cull := s.settingAt bd.epoch F.BRD_CTRL_CULL_EN == 1
    let squares := bd.squares.map (fun q => q.add p k cull es n e)
    let bd1 : Band := { bd with squares := squares }
    let g := min e.g e.cap
    let tiles := bd1.fetchTiles p k n e g
    let spans := tiles.flatMap (fun t => fetchSpans b c g t.1 t.2)
    let s0 := s.noteReads 4 spans
    if freed < tiles.length then (false, s)
    else if spans.any (fun q => s.readPoison q.1 q.2) then (false, s0)
    else
      let s1 : State := { s0 with brd := { s0.brd with frames := s0.brd.frames.map (fun (x : BrdFrame) =>
        if x.frame = f.frame then { x with entries := es } else x) } }
      (true, (((s1.onBand bd.seq (fun x => { x with squares := squares })).relisted bd bd.squares squares).storeAll bd.bank
        [(8, tiles.map (fun t => s.fetchTile layer b c g t.1 t.2))]))

/-- Rows of a layer lost in a band take its policy there (R264): `try` places a substitute under the policy; `held` is what APPLIED says of
a HOLD; `intime`: the substitute's decode or fetch completes before D. Held content delays the retirement of its epoch (R84). -/
def State.bandPolicy (s : State) (bd : Band) (layer reason held : Nat) (intime : Bool) (try_ : Nat → Bool × State) : State :=
  let p := lPolicy (s.descOf bd layer)
  let en := s.settingAt bd.epoch F.BRD_CTRL_SUBST_EN == 1
  let r := if !en || !intime || p == 1 || decide (bd.d ≤ (s.now : Rat)) then (false, s) else try_ p
  if r.1 then
    let s1 := (r.2.bandLate bd.epoch layer bd.b reason (if p = 0 then held else 2)).count Reg.BRD_SNAP_SUBST 1
    if p = 0 then
      s1.onEpoch bd.epoch (fun x => { x with heldContent := x.heldContent ++ ((s.heldOf bd layer).map s.contentBuffers).getD [] })
    else s1
  else
    let s1 := r.2.bandLate bd.epoch layer bd.b reason 1
    if p ≠ 1 ∧ en = true then (s1.count Reg.BRD_SNAP_SUBST_FAILED 1).eventOnce 0x0933 0 0 layer bd.b else s1

/-- A stratum of a band that cannot be used, found on engine `e`: its rows take the policy (R125, R264). -/
def State.lostStratum (s : State) (e : Nat) (bd : Band) (layer σ : Nat) (intime : Bool) : State :=
  let a := ((s.sceneOf bd layer).map (·.1)).getD 0
  let sr := (s.auAt a).rows
  let freed := s.stratumGranules bd layer σ a (s.baseTier bd layer bd.step)
  let s1 := s.onBand bd.seq (fun b => { b with faults := b.faults ++ [(layer, σ)] })
  s1.bandPolicy bd layer 3 3 intime (fun p => if p = 0 then s1.substHold e bd layer σ freed else s1.substStill bd layer (σ * sr) ((σ + 1) * sr) freed)

/-- Whether a substitute completes before D where no command says it: a free value (log entry 147). -/
def State.freeInTime (s : State) : Bool × State :=
  let q := s.free 26
  (q.1 % 2 == 1, q.2)

/-! ### Flat fetch (R165, R172) -/

/-- A bank gives back the fetch tiles that `p` tells. -/
def SiltBank.giveBack (b : SiltBank) (p : SiltTile → Bool) : SiltBank :=
  { b with tiles := b.tiles.filter (fun t => !p t), freed := b.freed ++ (b.tiles.filter p).map (·.gran) }

/-- R172, R264: a flat fetch met an uncorrectable error: the layer's rows in the band, carried strips included, take its policy. -/
def State.fetchFault (s : State) (bd : Band) (layer : Nat) : State :=
  let tiles := s.layerTiles bd layer
  let s1 := (s.event 0x0621 0 layer bd.b).onBand bd.seq (fun b => { b with lost := layer :: b.lost })
  let s2 := (s1.onBank bd.bank (fun k => k.giveBack (fun t => t.layer == layer && t.plane == 255))).freeInTime
  s2.2.bandPolicy bd layer 4 0 s2.1 (fun p =>
    if p = 0 then s2.2.substFlat bd layer tiles else s2.2.substStill bd layer 0 (lH (s.descOf bd layer)) tiles.length)

/-- What a fetch of a band is about (R165): the layer of its entry, the level, the layer's descriptor and its content. -/
structure FetchInfo where
  layer : Nat
  level : Nat
  desc : List Nat
  content : Content
deriving DecidableEq, Repr

/-- The layer, level, descriptor and content of a fetch (entry, strip, column) of a band. -/
def State.fetchInfo (s : State) (bd : Band) (t : Nat × Nat × Nat) : FetchInfo :=
  let e := (s.entriesOf bd)[t.1]?
  let l := (e.map (·.layer)).getD 0
  let f := s.frameOf bd
  ⟨l, (e.map (fun e => min e.g e.cap)).getD 0, (f.bind (fun f => f.descs[l]?)).getD [], ((f.bind (fun f => f.shows[l]?)).map (·.content)).getD .none⟩

/-- The poisoned row span that a fetch meets first, if any (R172). -/
def State.fetchPoison (s : State) (bd : Band) (t : Nat × Nat × Nat) : Option (Nat × Nat) :=
  let q := s.fetchInfo bd t
  (fetchSpans q.desc q.content q.level t.2.1 t.2.2).find? (fun x => s.readPoison x.1 x.2)

/-- The tile that a fetch of a band brings (R165). -/
def State.fetchedTile (s : State) (bd : Band) (t : Nat × Nat × Nat) : SiltTile :=
  let q := s.fetchInfo bd t
  s.fetchTile q.layer q.desc q.content q.level t.2.1 t.2.2

/-- FLAT_FETCH_COMPLETE (R165, R172): the fetch tiles of the band being filled are in its bank, but for those of a layer of which a
fetch met an uncorrectable error. -/
def State.flatComplete (s : State) : State :=
  match s.brd.bands.find? (fun b => b.released && !b.flatDone) with
  | none => s
  | some bd =>
    let badLayers := ((bd.fetch.filter (fun t => (s.fetchPoison bd t).isSome)).map (fun t => (s.fetchInfo bd t).layer)).eraseDups
    let good := bd.fetch.filter (fun t => !badLayers.contains (s.fetchInfo bd t).layer)
    let s1 := (s.onBank bd.bank (fun b => storeTiles b (good.map (s.fetchedTile bd)) 8)).count Reg.SLT_SNAP_FETCH_BYTES bd.fetch.length
    let s2 := s1.noteReads 4 (bd.fetch.flatMap (fun t =>
      let q := s.fetchInfo bd t
      fetchSpans q.desc q.content q.level t.2.1 t.2.2))
    let s3 := badLayers.foldl (fun s l => s.fetchFault ((s.bandAt bd.seq).getD bd) l) s2
    (s3.onBand bd.seq (fun b => { b with flatDone := true })).bankReady bd.seq

/-! ### Meanings -/

/-- FLAT_FETCH_COMPLETE (R165, R172). -/
def execFlatFetchComplete (t : Nat) (s : State) : Out := .next (s.whenOn t State.flatComplete)

end Sys2Proof.Machine
end

