-- ==== Sys2Proof/Machine/KilnJobs.lean ====
section
/-!
DEFINITION. The Kiln's host jobs (R139 to R148), the firmware's ring (R130), chain rings (R146, R147, R157) and the engine states that
jobs bring about (R150).
-/

namespace Sys2Proof.Machine

/-! ### Job descriptors (R139) -/

/-- OP. -/
def KilnJob.op (j : KilnJob) : Nat := j.bytes.getD 8 0
/-- USE_INDEX. -/
def KilnJob.useIndex (j : KilnJob) : Bool := bitAt (j.bytes.getD 9 0) 0
/-- CODES_OUT. -/
def KilnJob.codesOut (j : KilnJob) : Bool := bitAt (j.bytes.getD 9 0) 1
/-- SRC_LEN. -/
def KilnJob.srcLen (j : KilnJob) : Nat := fieldLE j.bytes 0x0C 4
/-- SRC_ADDR. -/
def KilnJob.src (j : KilnJob) : Nat := fieldLE j.bytes 0x10 8
/-- CHAIN. -/
def KilnJob.chain (j : KilnJob) : Nat := fieldLE j.bytes 0x24 2
/-- INDEX_ADDR. -/
def KilnJob.index (j : KilnJob) : Nat := fieldLE j.bytes 0x28 8

/-- R139, R151: the fields are well formed. -/
def kilnFormatOk (b : List Nat) : Bool :=
  let op := b.getD 8 0
  let fl := b.getD 9 0
  let chain := fieldLE b 0x24 2
  decide (1 ≤ op ∧ op ≤ 3) && decide (fl < 4) && (!bitAt fl 1 || op == 3) &&
  (if op = 1 then decide (b.getD 10 0 < 4) else b.getD 10 0 == 0) && b.getD 11 0 == 0 && decide (1 ≤ fieldLE b 0x0C 4) &&
  fieldLE b 0x18 8 % 64 == 0 && decide (16384 ≤ fieldLE b 0x20 4) && fieldLE b 0x20 4 % 64 == 0 &&
  decide (chain < 16 ∨ chain = 0xFFFF) && fieldLE b 0x26 2 == 0 && fieldLE b 0x35 3 == 0 &&
  (op != 3 || (decide (1 ≤ fieldLE b 0x32 2) && decide (b.getD 0x34 0 < 64 ∨ b.getD 0x34 0 = 0xFF)))

/-- Units of a loam stream: exact for an encode, the least number for a stream that is decoded (log entry 51). -/
def indexEntries (b : List Nat) : Nat := if b.getD 8 0 = 1 then ceilDiv (fieldLE b 0x0C 4) 4096 else ceilDiv (fieldLE b 0x0C 4) 4112

/-- Index entries that a LOAM_DECODE reads from its `k`-th on, its source consumed up to `done` (R144, R145); at most `n` more. -/
def State.indexReads (s : State) (index src len : Nat) : Nat → Nat → Nat → Nat
  | 0, _, _ => 0
  | n + 1, k, done =>
    let pos := s.readLE (index + 8 * k) 4
    if len ≤ done then 0
    else if len ≤ pos ∨ (0 < k ∧ pos < done) then 1
    else
      let size := match loamHead (s.read (src + pos) 8) with
        | .ok h => h.size
        | _ => 8
      1 + s.indexReads index src len n (k + 1) (pos + size)

/-- Byte ranges that a job reads: its source, the index of a LOAM_DECODE, and of a KSS_DECODE the access unit to its end and the
table-set record (R139). -/
def State.jobSources (s : State) (b : List Nat) : List (Nat × Nat) :=
  let src := fieldLE b 0x10 8
  let len := fieldLE b 0x0C 4
  let index := fieldLE b 0x28 8
  let tables := fieldLE b 0x38 8
  (src, len) ::
  (if b.getD 8 0 = 2 ∧ bitAt (b.getD 9 0) 0 = true then
    [(index, 8 * max (indexEntries b) (s.indexReads index src len (len / 8 + 1) 0 0))] else []) ++
  (if b.getD 8 0 = 3 then
    (src, max (auDescLen (s.read src 64)) (s.readLE (src + 0x30) 4)) ::
    (if tables ≠ 0 then [(tables, 20 + 12 * s.readLE (tables + 5) 1)] else []) else [])

/-- Byte ranges that a job writes: the first buffer and the index. -/
def jobTargets (b : List Nat) : List (Nat × Nat) :=
  (fieldLE b 0x18 8, fieldLE b 0x20 4) ::
  (if b.getD 8 0 = 1 ∧ bitAt (b.getD 9 0) 0 = true then [(fieldLE b 0x28 8, 8 * indexEntries b)] else [])

/-- A write to this range is guarded (R87). -/
def State.guarded (s : State) (q : Nat × Nat) : Bool := (s.guardedPage q.1 q.2).isSome

/-- The buffers that stand in a job's chain ring, from TAIL to HEAD (R146). -/
def State.chainBuffers (s : State) (b : List Nat) : List (Nat × Nat) :=
  let n := fieldLE b 0x24 2
  let size := s.get (F.KLN_CHAIN_SIZE_ENTRIES.nth n)
  let tail := s.get (F.KLN_CHAIN_TAIL_TAIL.nth n)
  let count := (s.get (F.KLN_CHAIN_HEAD_HEAD.nth n) + size - tail) % size
  if 16 ≤ n ∨ size = 0 then []
  else (List.range count).map (fun k =>
    let a := s.get (F.KLN_CHAIN_BASE_BASE.nth n) * 16 + 16 * ((tail + k) % size)
    (s.readLE a 8, s.readLE (a + 8) 4))

/-- The access unit of a KSS_DECODE: 0, or the code of the check it fails (R111, R140; log entry 52). -/
def State.jobAuCode (s : State) (b : List Nat) : Nat :=
  let a := fieldLE b 0x10 8
  let h := s.read a 64
  if s.readPoison a 64 then 0x0527
  else if auHeaderCode h ≠ 0 then auHeaderCode h
  else if s.readPoison a (auDescLen h) then 0x0527
  else if auDescCode (s.auBytes a) ≠ 0 then auDescCode (s.auBytes a)
  else
    let c := s.tablesetCode (fieldLE b 0x38 8) (s.auAt a).tableset
    if c = 0x0412 then 0x0527 else c

/-- The code a job descriptor is refused with (R139), 0 for none: what stands in its chain ring at that time refuses it whole; a buffer
that comes later ends the job when it is taken (log entry 148). -/
def State.jobCode (s : State) (b : List Nat) : Nat :=
  if !kilnFormatOk b then 0x0520
  else if (s.jobSources b ++ jobTargets b ++ s.chainBuffers b).any (fun q => s.protectedHit q.1 q.2) then 0x0522
  else if (jobTargets b ++ s.chainBuffers b).any s.guarded then 0x0521
  else if b.getD 8 0 = 3 then s.jobAuCode b
  else 0

/-! ### Completion (R148) -/

/-- The completion body of a job (R148). -/
def jobBody (j : KilnJob) (code e : Nat) : List Nat :=
  leBytes 2 code ++ leBytes 2 j.links ++ leBytes 2 j.firstLink ++ [e, 0] ++ leBytes 4 j.inPos ++ leBytes 4 j.outPos ++ leBytes 4 j.units ++
  leBytes 4 j.marked

/-- Engine e records the bytes used in the chain entry in use (R146). -/
def State.recordUsed (s : State) (e : Nat) (j : KilnJob) : State :=
  match j.curLink with
  | some k => s.store (2 + e) (s.get (F.KLN_CHAIN_BASE_BASE.nth j.chain) * 16 + 16 * k + 12) (leBytes 4 j.bufUsed)
  | none => s

/-- The ring number that stands for the firmware's internal ring (R130). -/
abbrev fwRing : Nat := 64

/-- An engine without a job, IDLE or in DUMP, takes the next job of the firmware's ring (R130, R150). A firmware job that is ready goes
before those of the work rings (DESIGN CHOICE, log entry 149). -/
def State.takeFw (s : State) (e : Nat) : State :=
  match s.kln.fw with
  | [] => s
  | j :: js =>
    if (s.engine e).job.isSome = true ∨ ¬ (s.engSt e = 0 ∨ s.engSt e = 5) then s
    else
      let s1 : State := { s with kln := { s.kln with fw := js } }
      let s2 := s1.onEngine e (fun g => { g with job := some j })
      if s.engSt e = 0 then s2.setEng e 2 else s2

/-- A job of the firmware's ring: its OP, source and destination. -/
def fwJob (op src len dst dlen : Nat) : KilnJob :=
  { ring := fwRing, slot := 0, num := 0, bufAddr := dst, bufLen := dlen
    bytes := List.replicate 8 0 ++ [op, 0, 0, 0] ++ leBytes 4 len ++ leBytes 8 src ++ leBytes 8 dst ++ leBytes 4 dlen ++ leBytes 2 0xFFFF ++
      List.replicate 26 0 }

/-- Engine e runs a job of the firmware's ring with this OP. -/
def State.runsFw (s : State) (op e : Nat) : Bool :=
  match (s.engine e).job with
  | some j => j.ring == fwRing && j.op == op
  | none => false

/-- A job as it was before it started. -/
def KilnJob.anew (j : KilnJob) : KilnJob :=
  { ring := j.ring, slot := j.slot, num := j.num, bytes := j.bytes, bufAddr := fieldLE j.bytes 0x18 8, bufLen := fieldLE j.bytes 0x20 4 }

/-- Append a job to the firmware's ring: an engine that may takes it. -/
def State.pushFw (s : State) (j : KilnJob) : State :=
  let s1 : State := { s with kln := { s.kln with fw := s.kln.fw ++ [j] } }
  (s1.takeFw 0).takeFw 1

/-- End the job of engine e with a code (R148, R150): the completion is handed to its ring; the firmware's ring has none. -/
def State.endJob (s : State) (e code : Nat) : State :=
  match (s.engine e).job with
  | none => s
  | some j =>
    let s1 := (s.recordUsed e j).onEngine e (fun g => { g with job := none })
    let s2 := if s1.engSt e = 2 ∨ s1.engSt e = 3 then s1.setEng e 0 else s1
    let s3 := if code = 0x0528 then s2 else s2.count Reg.KLN_SNAP_HOST_JOBS 1
    if j.ring = fwRing then s3.takeFw e else (s3.endDesc j.ring j.num code (jobBody j code e)).takeFw e

/-- The jobs of the firmware's ring with this OP are over, those that no engine has taken among them. -/
def State.endFw (s : State) (op : Nat) : State :=
  let s1 : State := { s with kln := { s.kln with fw := s.kln.fw.filter (fun j => j.op != op) } }
  [0, 1].foldl (fun s e => if s.runsFw op e then s.endJob e 0 else s) s1

/-- The job of engine e stops with a code: nothing is left to do but its completion. -/
def State.markJob (s : State) (e code : Nat) : State :=
  s.onEngine e (fun g => { g with job := g.job.map (fun j => { j with code := code, spent := true }) })

/-- A job stops with a code: its completion follows (R148). -/
def State.stopJob (s : State) (e code : Nat) : State :=
  (s.event code e ((((s.engine e).job).map (·.ring)).getD 0) ((((s.engine e).job).map (·.slot)).getD 0)).markJob e code

/-- Change the job of engine e. -/
def State.onJob (s : State) (e : Nat) (f : KilnJob → KilnJob) : State := s.onEngine e (fun g => { g with job := g.job.map f })

/-! ### Destinations (R146, R147) -/

/-- What came of asking for room. -/
inductive Room where
  | ok | wait | stop
deriving DecidableEq, Repr

/-- The stratum that a KSS_DECODE job is at, or resumes at. -/
def KilnJob.stratum (j : KilnJob) : Nat := fieldLE j.bytes 0x30 2 + j.strata

/-- Where a job that ends for want of a buffer resumes: a loam job at its next unit, a KSS_DECODE job at the stratum it was in, as an
offset in its access unit (R147; log entry 143). -/
def State.resumeAt (s : State) (j : KilnJob) : Nat := if j.op = 3 then ((s.auAt j.src).index.getD j.stratum (0, 0)).1 else j.inPos

/-- Take the next chain entry for engine e's job (R146, R147). -/
def State.takeLink (s : State) (e : Nat) (j : KilnJob) : Room × State :=
  let n := j.chain
  if 16 ≤ n then (.stop, (s.stopJob e 0x0523).onJob e (fun x => { x with inPos := s.resumeAt j }))
  else
    let size := s.get (F.KLN_CHAIN_SIZE_ENTRIES.nth n)
    let tail := s.get (F.KLN_CHAIN_TAIL_TAIL.nth n)
    if tail = s.get (F.KLN_CHAIN_HEAD_HEAD.nth n) ∨ size = 0 then
      let s1 := s.onJob e (fun j => { j with waitAt := some (j.waitAt.getD s.now) })
      (.wait, if s1.engSt e = 2 then s1.setEng e 3 else s1)
    else
      let at_ := s.get (F.KLN_CHAIN_BASE_BASE.nth n) * 16 + 16 * tail
      let addr := s.readLE at_ 8
      let len := s.readLE (at_ + 8) 4
      let s1 := (s.put (F.KLN_CHAIN_TAIL_TAIL.nth n) ((tail + 1) % size)).noteRead (2 + e) at_ 16
      if addr % 64 ≠ 0 ∨ len % 64 ≠ 0 ∨ len < 16384 then (.stop, (s1.store (2 + e) (at_ + 12) (leBytes 4 0)).stopJob e 0x0524)
      else if s1.protectedHit addr len then (.stop, (s1.store (2 + e) (at_ + 12) (leBytes 4 0)).stopJob e 0x0522)
      else if s1.guarded (addr, len) then (.stop, (s1.store (2 + e) (at_ + 12) (leBytes 4 0)).stopJob e 0x0521)
      else
        let s2 := s1.onJob e (fun j => { j with
          bufAddr := addr, bufLen := len, bufUsed := 0, links := j.links + 1, firstLink := if j.links = 0 then tail else j.firstLink,
          curLink := some tail, waitAt := none, gotHead := false })
        (.ok, if s2.engSt e = 3 then s2.setEng e 2 else s2)

/-- Make sure that `n` bytes fit the current buffer of engine e's job (R146). -/
def State.makeRoom (s : State) (e n : Nat) : Room × State :=
  match (s.engine e).job with
  | none => (.stop, s)
  | some j => if j.bufUsed + n ≤ j.bufLen then (.ok, s) else (s.recordUsed e j).takeLink e j

/-- Write bytes at the place reached in the current buffer; `n` is the room they take. -/
def State.putOut (s : State) (e n : Nat) (bs : List Nat) : State :=
  match (s.engine e).job with
  | none => s
  | some j => (s.store (2 + e) (j.bufAddr + j.bufUsed) bs).onJob e (fun j => { j with bufUsed := j.bufUsed + n, outPos := j.outPos + n })

/-! ### Loam (R143 to R145) -/

/-- LOAM_UNIT_ENCODED (R143, R144): the next unit of engine e's job. The link number of its index entry is taken modulo 256 (DESIGN
CHOICE, log entry 172). -/
def State.encodeUnit (s : State) (e : Nat) : State :=
  match (s.engine e).job with
  | none => s
  | some j =>
    if s.engSt e ≠ 2 ∨ j.op ≠ 1 ∨ j.spent = true then s
    else
      let n := min 4096 (j.srcLen - j.inPos)
      if j.ring = fwRing then s
      else if s.readPoison (j.src + j.inPos) n then (s.noteRead (2 + e) (j.src + j.inPos) n).stopJob e 0x0527
      else
        let orig := s.read (j.src + j.inPos) n
        let elem := j.bytes.getD 10 0
        let u := loamUnit (if n % 2 ^ elem = 0 then elem else 0) orig
        match s.makeRoom e u.1.length with
        | (.ok, s0) =>
          let j1 := ((s0.engine e).job).getD j
          let s1 := s0.noteRead (2 + e) (j.src + j.inPos) n
          let s2 := if j.useIndex then s1.store (2 + e) (j.index + 8 * j.units) (leBytes 4 j1.bufUsed ++ [0, 0, 0, j1.links % 256]) else s1
          (s2.putOut e u.1.length u.1).onJob e (fun q => { q with
            inPos := q.inPos + n, units := q.units + 1, marked := q.marked + b2n u.2, spent := decide (q.srcLen ≤ q.inPos + n) })
        | (_, s1) => s1

/-- Bytes of the unit at the start of `b` that the decoder reads: its header, and the rest where the header passes. -/
def unitReads (b : List Nat) : Nat :=
  match loamHead b with
  | .ok h => min h.size b.length
  | _ => min 8 b.length

/-- A unit is condemned (R145): its place is passed over, one event names the first such unit, and a mismatch of HEADER_CRC or DATA_CRC
is counted (R158). BAD counts the unit whose header ends a job without USE_INDEX as well, and OUT_BYTES the places passed over (DESIGN
CHOICE, log entry 172). -/
def State.condemn (s : State) (e code pos place : Nat) : State :=
  match (s.engine e).job with
  | none => s
  | some j =>
    let s1 := if j.code = 0 then s.event code e (j.units + j.marked) pos else s
    (s1.count Reg.KLN_SNAP_CHECK_MISMATCH (b2n (code == 0x0525))).onJob e (fun q => { q with
      code := if q.code = 0 then code else q.code, marked := q.marked + 1, bufUsed := q.bufUsed + place, outPos := q.outPos + place })

/-- LOAM_UNIT_DECODED (R145): the next unit of engine e's job. An index entry at or beyond SRC_LEN, or below the source already consumed,
ends the job without a code, and the padding after DATA_CRC is not checked (DESIGN CHOICE, log entry 172). -/
def State.decodeUnit (s : State) (e : Nat) : State :=
  match (s.engine e).job with
  | none => s
  | some j =>
    if s.engSt e ≠ 2 ∨ j.op ≠ 2 ∨ j.spent = true ∨ j.ring = fwRing then s
    else
      let k := j.units + j.marked
      let pos := if j.useIndex then s.readLE (j.index + 8 * k) 4 else j.inPos
      if j.srcLen ≤ pos ∨ (j.useIndex = true ∧ 0 < k ∧ pos < j.inPos) then s.onJob e (fun q => { q with spent := true })
      else
        let n := min 4112 (j.srcLen - pos)
        let b := s.read (j.src + pos) n
        let index := if j.useIndex then [(j.index + 8 * k, 8)] else []
        let read (s : State) : State := s.noteReads (2 + e) (index ++ [(j.src + pos, unitReads b)])
        if s.readPoison (j.src + pos) (unitReads b) then (read s).stopJob e 0x0527
        else
          let last (h : LoamHdr) : Bool := decide (j.srcLen ≤ pos + h.size)
          let head := match loamHead b with
            | .ok h => if h.orig < 4096 ∧ last h = false then LoamHead.malformed else .ok h
            | x => x
          let next (s : State) (p : Nat) : State := s.onJob e (fun q => { q with inPos := p, spent := decide (q.srcLen ≤ p) })
          match head with
          | .ok h =>
            match s.makeRoom e h.orig with
            | (.ok, s1) =>
              (match (if h.size ≤ n then loamBody h b else .malformed) with
              | .ok o => next (((read s1).putOut e h.orig o).onJob e (fun q => { q with units := q.units + 1 })) (pos + h.size)
              | .malformed => next ((read s1).condemn e 0x0526 pos h.orig) (pos + h.size)
              | .check => next ((read s1).condemn e 0x0525 pos h.orig) (pos + h.size))
            | (_, s1) => s1
          | x =>
            let code := if x = .check then 0x0525 else 0x0526
            if j.useIndex then
              match s.makeRoom e 4096 with
              | (.ok, s1) => ((read s1).condemn e code pos 4096).onJob e (fun q => { q with inPos := pos + 8 })
              | (_, s1) => s1
            else ((read s).condemn e code pos 0).onJob e (fun q => { q with inPos := pos, spent := true })

/-! ### KSS_DECODE (R140) -/

/-- Samples of a tile record: w × h words, a base-only tile replicated. -/
def recordWords (k : KilnCsc) (e : Nat) (codes : Bool) (t : KssTile) : List Nat :=
  let word (n : Nat) : Nat :=
    let c (i : Nat) : Nat := ((t.vals.getD i []).getD n 0).toNat
    if codes then packF16 [c 0, c 1, c 2, c 3] else convertSample k e (c 0) (c 1) (c 2) (c 3)
  (List.range (t.w * t.h)).map (fun n => word (if t.half then (n / t.w / 2) * ((t.w + 1) / 2) + (n % t.w) / 2 else n))

/-- A tile record (R140). -/
def tileRecord (k : KilnCsc) (e : Nat) (codes : Bool) (σ : Nat) (t : KssTile) : List Nat :=
  leBytes 2 σ ++ [t.plane, t.tile, t.w, t.h, b2n t.half + 2 * b2n codes] ++ List.replicate 9 0 ++ (recordWords k e codes t).flatMap (leBytes 8)

/-- The present stratum of engine e's KSS_DECODE job is finished: `n` source bytes more are consumed. -/
def State.kssNext (s : State) (e n : Nat) : State :=
  s.onJob e (fun j => { j with
    open_ := false, recs := [], strata := j.strata + 1, inPos := j.inPos + n, spent := decide (fieldLE j.bytes 0x32 2 ≤ j.strata + 1) })

/-- Decode the present stratum of engine e's KSS_DECODE job (R140): the tiles of the plane named, or of all; its records wait to be
written once its checks have passed. A stratum named beyond those of the access unit is passed over like an empty one, and an access unit
longer than SRC_LEN is read to its own AU_LENGTH (DESIGN CHOICE, log entry 172). -/
def State.kssOpen (s : State) (e : Nat) (j : KilnJob) : State :=
  let au := s.auAt j.src
  let σ := j.stratum
  let q := s.stratumAt j.src σ
  let b := s.read q.1 q.2
  let p := j.bytes.getD 0x34 0
  let only := if p = 0xFF then none else some p
  let tables := s.tablesAt (fieldLE j.bytes 0x38 8)
  let n := stratumReads au tables σ q.2 b true only
  let s0 := s.noteRead (2 + e) q.1 n
  if q.2 = 0 then s.kssNext e 0
  else if s.readPoison q.1 n then s0.stopJob e 0x0527
  else
    let o := decodeStratum au tables σ b true only
    let s1 := s0.kssReport e au σ o
    if o.baseFault then (s1.onJob e (fun x => { x with marked := x.marked + 1 })).kssNext e q.2
    else s1.onJob e (fun x => { x with open_ := true, recs := o.tiles.map (tileRecord (s.kilnCsc au.colour) au.colour x.codesOut σ) })

/-- Write records of engine e's job, at most `n`, as far as its buffers reach (R146). -/
def State.writeRecs (s : State) (e : Nat) : Nat → State
  | 0 => s
  | n + 1 =>
    match ((s.engine e).job).bind (fun j => j.recs.head?) with
    | none => s
    | some r =>
      match s.makeRoom e r.length with
      | (.ok, s1) => ((s1.putOut e r.length r).onJob e (fun q => { q with recs := q.recs.tail, units := q.units + 1 })).writeRecs e n
      | (_, s1) => s1

/-- Records that wait on engine e. -/
def State.recsLeft (s : State) (e : Nat) : Nat := (((s.engine e).job).map (fun j => j.recs.length)).getD 0

/-- STRATUM_DECODED on an engine in HOST (R140): the present stratum of its KSS_DECODE job is decoded, if it is not yet, and its records
are written. -/
def State.kssStratum (s : State) (e : Nat) : State :=
  match (s.engine e).job with
  | none => s
  | some j =>
    if s.engSt e ≠ 2 ∨ j.op ≠ 3 ∨ j.spent = true then s
    else
      let s1 := if j.open_ then s else s.kssOpen e j
      let s2 := s1.writeRecs e (s1.recsLeft e)
      match (s2.engine e).job with
      | some k => if k.open_ = true ∧ k.recs.isEmpty = true ∧ k.spent = false then s2.kssNext e (s.stratumAt j.src j.stratum).2 else s2
      | none => s2

/-- A host job on engine e is suspended at a tile boundary (R130): whether a KSS_DECODE job has its present stratum decoded by then, and
how many of its records it has written, are free values (log entry 143). -/
def State.suspendJob (s : State) (e : Nat) : State :=
  match (s.engine e).job with
  | none => s
  | some j =>
    if s.engSt e ≠ 2 ∨ j.op ≠ 3 ∨ j.spent = true then s
    else
      let q := s.free 27
      let s1 := if j.open_ = true ∨ q.1 % 2 = 0 then q.2 else q.2.kssOpen e j
      let r := s1.free 28
      let s2 := r.2.writeRecs e (r.1 % (s1.recsLeft e + 1))
      match (s2.engine e).job with
      | some k => if k.open_ = true ∧ k.recs.isEmpty = true ∧ k.spent = false then s2.kssNext e (s.stratumAt j.src j.stratum).2 else s2
      | none => s2

/-! ### Starting and ending jobs (R130, R148, R150) -/

/-- The first ring whose next KILN_JOB descriptor has this OP. -/
def State.jobReady (s : State) (w op : Nat) : Option Desc :=
  match s.nextDesc w 4 with
  | some d => if d.bytes.getD 8 0 = op ∨ (op = 1 ∧ ¬ (1 ≤ d.bytes.getD 8 0 ∧ d.bytes.getD 8 0 ≤ 3)) then some d else none
  | none => none

/-- LOAM_ENCODE, LOAM_DECODE, KSS_DECODE (R139): check the descriptor, refuse it, or start it on an IDLE engine. A reserved OP
is refused with the first of the three; a job refused reports ENGINE 0 (DESIGN CHOICE, log entry 172). -/
def State.jobStart (s : State) (w op : Nat) : State :=
  match s.jobReady w op with
  | none => s
  | some d =>
    let code := s.jobCode d.bytes
    let j : KilnJob := { ring := w, slot := d.slot, num := d.num, bytes := d.bytes, bufAddr := fieldLE d.bytes 0x18 8, bufLen := fieldLE d.bytes 0x20 4 }
    let free := [0, 1].find? (fun e => decide (s.engSt e = 0))
    let s1 := if d.bytes.getD 8 0 = 3 ∧ (code = 0 ∨ s.jobAuCode d.bytes = code) then
        s.noteReads (2 + free.getD 0) (s.auReads (fieldLE d.bytes 0x10 8) (fieldLE d.bytes 0x38 8))
      else s
    if code ≠ 0 then (s1.eventOnce code w 0 w d.slot).endDesc w d.num code (jobBody j code 0)
    else
      match free with
      | none => s
      | some e => ((s1.startDesc w d.num).onEngine e (fun g => { g with job := some j })).setEng e 2

/-- HOST_JOB_END (R148): a job with nothing left to do on engine e completes. -/
def State.hostJobEnd (s : State) (e : Nat) : State :=
  match (s.engine e).job with
  | some j => if j.spent = true ∧ j.ring ≠ fwRing then s.endJob e j.code else s
  | none => s

/-- The instant at which a wait that began at `a` expires. -/
def State.chainEnd (s : State) (a : Nat) : Nat := a + s.get F.KLN_ADMIT_CHAIN_WAIT_US * tickUs

/-- CHAIN_WAIT_US has elapsed for a job that waits since `a`. -/
def State.chainExpired (s : State) (a : Nat) : Bool := decide (s.chainEnd a ≤ s.now)

/-- End a job whose chain stayed empty (R147), at the instant `t` of its expiry (R150). -/
def State.chainEmpty (s : State) (e t : Nat) : State :=
  match (s.engine e).job with
  | none => s
  | some j =>
    (((s.eventAt t 0x0523 e j.ring j.slot).markJob e 0x0523).onJob e (fun x => { x with inPos := s.resumeAt j })).endJob e 0x0523

/-- CHAIN_HEAD_WRITE (R147, R150, R157): jobs that wait on the ring take the new buffer, or note it while suspended. -/
def State.chainHead (s : State) (n v : Nat) : State :=
  let s1 := s.put (F.KLN_CHAIN_HEAD_HEAD.nth n) v
  let one (s : State) (e : Nat) : State :=
    match (s.engine e).job with
    | some j =>
      if j.waitAt.isSome = true ∧ j.chain = n ∧ v ≠ s.get (F.KLN_CHAIN_TAIL_TAIL.nth n) ∧ s.chainExpired (j.waitAt.getD 0) = false then
        if s.engSt e = 3 then (s.takeLink e j).2
        else s.onJob e (fun q => { q with gotHead := true })
      else s
    | none => s
  one (one s1 0) 1

/-- CHAIN_WAIT_EXPIRY (R147, R150). -/
def State.chainExpiry (s : State) (e : Nat) : State :=
  match (s.engine e).job with
  | some j => if s.engSt e = 3 ∧ s.chainExpired (j.waitAt.getD s.now) = true then s.chainEmpty e (s.chainEnd (j.waitAt.getD s.now)) else s
  | none => s

/-- HOST_JOB_RESUME (R150): engine e has no band job waiting. -/
def State.resumeHost (s : State) (e : Nat) : State :=
  if s.engSt e ≠ 1 then s
  else match (s.engine e).job with
    | none => (s.setEng e 0).takeFw e
    | some j =>
      match j.waitAt with
      | none => s.setEng e 2
      | some a =>
        if j.gotHead then ((s.setEng e 2).takeLink e j).2
        else if s.chainExpired a then (((s.chainEmpty e (s.chainEnd a)).setEng e 0).takeFw e)
        else s.setEng e 3

/-! ### Meanings -/

/-- LOAM_ENCODE (R139). -/
def execLoamEncode (t w : Nat) (s : State) : Out := .next (s.whenOn t (fun s => s.jobStart w 1))

/-- LOAM_DECODE (R139). -/
def execLoamDecode (t w : Nat) (s : State) : Out := .next (s.whenOn t (fun s => s.jobStart w 2))

/-- KSS_DECODE (R140). -/
def execKssDecode (t w : Nat) (s : State) : Out := .next (s.whenOn t (fun s => s.jobStart w 3))

/-- LOAM_UNIT_ENCODED (R143). -/
def execLoamUnitEncoded (t e : Nat) (s : State) : Out := .next (s.whenOn t (fun s => s.encodeUnit (e % 2)))

/-- LOAM_UNIT_DECODED (R145). -/
def execLoamUnitDecoded (t e : Nat) (s : State) : Out := .next (s.whenOn t (fun s => s.decodeUnit (e % 2)))

/-- HOST_JOB_END (R148). -/
def execHostJobEnd (t e : Nat) (s : State) : Out := .next (s.whenOn t (fun s => s.hostJobEnd (e % 2)))

/-- CHAIN_HEAD_WRITE (R147). -/
def execChainHeadWrite (t n v : Nat) (s : State) : Out := .next (s.whenHost t (fun s => s.chainHead (n % 16) v))

/-- CHAIN_WAIT_EXPIRY (R147). -/
def execChainWaitExpiry (t e : Nat) (s : State) : Out := .next (s.whenOn t (fun s => s.chainExpiry (e % 2)))

end Sys2Proof.Machine
end

