-- ==== Sys2Proof/Machine/KilnBands.lean ====
section
/-!
DEFINITION. The Kiln's band jobs (R130, R134 to R138): admission, strata, completion, and engines that halt and are released (R150).
-/

namespace Sys2Proof.Machine

/-! ### Admission (R136) -/

/-- R134: cost of a band's stratum: 2,048 where its map fails. -/
def State.bandCost (s : State) (bd : Band) (q : JobStratum) (refine : Bool) : Nat :=
  match s.sceneOf bd q.layer with
  | some (a, _) => (match s.stratumMap a q.stratum with
    | some v => stratumCost v (refine && !s.baseOnly bd q.layer && (s.auAt a).refine)
    | none => 2048)
  | none => 2048

/-- T_avail of R136, in ticks. -/
def State.timeAvail (s : State) (bd : Band) : Rat :=
  (bd.d - (bd.s : Rat)) * (1 - (s.live F.KLN_ADMIT_HOST_RESERVE : Rat) / 64) - (tickUs : Rat)

/-- Insert a stratum behind those of at least its cost (R130: decreasing cost). -/
def insertStratum (q : JobStratum) : List JobStratum → List JobStratum
  | [] => [q]
  | x :: xs => if q.cost ≤ x.cost then x :: insertStratum q xs else q :: x :: xs

/-- The next stratum of a band that no engine has started. -/
def Band.nextStratum (bd : Band) : Option Nat := bd.strata.findIdx? (fun q => !q.started)

/-- Engine e, if it may, takes the next stratum of the band being decoded (R130); a running host job is suspended. -/
def State.takeStratum (s : State) (e : Nat) : State :=
  if 3 < s.engSt e ∨ (s.engine e).cur.isSome then s
  else
    match s.brd.bands.find? (fun b => b.admitted && !b.kilnDone) with
    | none => s
    | some bd =>
      match bd.nextStratum with
      | none => s
      | some i =>
        let s0 := s.suspendJob e
        let s1 := s0.onBand bd.seq (fun b => { b with strata := modAt b.strata i (fun q => { q with started := true }) })
        let s2 := s1.onEngine e (fun g => { g with cur := some (bd.seq, i), since := if g.bytes = 0 then s.now else g.since })
        s2.setEng e 1

/-- Mark a band decided and, with no stratum to decode, done; such a band is no completed band job of KLN_SNAP_BANDS (DESIGN CHOICE, log
entry 172). -/
def State.admitBand (s : State) (bd : Band) (step : Nat) (strata : List JobStratum) : State :=
  let s1 := s.onBand bd.seq (fun b => { b with admitted := true, kilnStep := step, strata := strata, kilnDone := strata.isEmpty })
  ((s1.takeStratum 0).takeStratum 1).bankReady bd.seq

/-- Log KLN_ADMIT_SHORT (R151), once per epoch for the lowest engine that takes band jobs. -/
def State.admitShort (s : State) (bd : Band) : State :=
  let e := (s.bandEngines).headD 0
  s.eventOnce 0x0511 e e bd.b 0

/-- KILN_ADMISSION (R136), once the Kiln has consumed the marker of the band's epoch (R22). -/
def State.kilnAdmission (s : State) : State :=
  match s.brd.bands.find? (fun b => b.released && !b.admitted) with
  | none => s
  | some bd =>
    if epochLe bd.epoch (s.epochAt 5) = false then s
    else
    let avail := s.timeAvail bd
    let costs (refine : Bool) : List Nat := bd.strata.map (fun q => s.bandCost bd q refine)
    let fits (refine : Bool) : Bool := match s.decodeTime (costs refine) with
      | some t => decide (t ≤ avail)
      | none => false
    let full := decide (bd.fitStep = 0) && fits true
    let job (refine : Bool) : List JobStratum :=
      (bd.strata.map (fun q => { q with cost := s.bandCost bd q refine })).foldl (fun a q => insertStratum q a) []
    let refine := decide (bd.paceStep = 0)
    if full then (s.count Reg.KLN_SNAP_REFINE_DROPPED (b2n (!refine))).admitBand bd 0 (job refine)
    else if fits false then
      let s1 := if bd.fitStep = 0 then s.admitShort bd else s
      (s1.count Reg.KLN_SNAP_REFINE_DROPPED 1).admitBand bd (if bd.fitStep = 0 then 1 else 0) (job false)
    else
      let s1 := ((s.admitShort bd).count Reg.KLN_SNAP_HELD 1).onBand bd.seq (fun b => { b with
        admitted := true, kilnStep := 4, kilnDone := true, flatDone := true, carryDone := true })
      (s1.carryOver (1 - bd.bank)).holdBand bd

/-! ### Strata (R131, R140) -/

/-- The stratum of a band is done: its engine takes the next. -/
def State.stratumEnd (s : State) (e seq i bytes : Nat) : State :=
  let s1 := s.onBand seq (fun b => { b with strata := modAt b.strata i (fun q => { q with done := true }) })
  let s2 := s1.onEngine e (fun g => { g with cur := none, bytes := g.bytes + bytes, until_ := s.now })
  let s3 := s2.takeStratum e
  if (s3.engine e).cur.isNone = true ∧ s3.brd.bands.any (fun b => b.admitted && !b.kilnDone) = false then s3.resumeHost e else s3

/-- STRATUM_DECODED (R131) of a band: engine e finishes its stratum; `intime` is R264's condition on a substitute. For a band that is held
or gone by now nothing is stored. -/
def State.bandStratum (s : State) (e seq i : Nat) (intime : Bool) : State :=
  match s.bandAt seq with
  | none => s.stratumEnd e seq i 0
  | some bd =>
    let js := bd.strata.getD i { layer := 0, stratum := 0 }
    match s.sceneOf bd js.layer with
    | none => s.stratumEnd e seq i 0
    | some (a, t) =>
      let q := s.stratumAt a js.stratum
      let au := s.auAt a
      let refine := decide (bd.step = 0) && !s.baseOnly bd js.layer
      let b := s.read q.1 q.2
      let n := stratumReads au (s.tablesAt t) js.stratum q.2 b refine none
      let bad := s.readPoison q.1 n
      if bd.kilnDone then s.stratumEnd e seq i 0
      else
      let s := s.noteRead (2 + e) q.1 n
      if bad then
        let s1 := s.event 0x0527 e (au.stream * 65536 + js.stratum % 65536) 0
        ((s1.count Reg.KLN_SNAP_BASE_FAULTS 1).lostStratum e bd js.layer js.stratum intime).stratumEnd e seq i 0
      else
        let o := decodeStratum au (s.tablesAt t) js.stratum b refine none
        let s1 := s.kssReport e au js.stratum o
        if o.baseFault then (s1.lostStratum e bd js.layer js.stratum intime).stratumEnd e seq i 0
        else (s1.storeAll bd.bank (s.siltTiles bd js.layer js.stratum au.colour o.tiles)).stratumEnd e seq i (reconBytes o.tiles)

/-- STRATUM_DECODED: of the band that engine e decodes (R131), else of its KSS_DECODE job (R140). -/
def State.stratumDecoded (s : State) (e : Nat) (intime : Bool) : State :=
  match (s.engine e).cur with
  | some (seq, i) => s.bandStratum e seq i intime
  | none => s.kssStratum e

/-- Measure engine e's rate over the band job it decoded (R135). -/
def State.measureEngine (s : State) (e : Nat) : State :=
  let g := s.engine e
  if g.bytes = 0 then s
  else
    let dt := max 1 (g.until_ - g.since)
    s.onEngine e (fun x => { x with rates := (g.bytes * 1000 * 256 / dt :: x.rates).take 4, bytes := 0 })

/-! ### Band completion and resets (R137, R138, R150) -/

/-- KILN_BAND_COMPLETE (R137): every stratum of the band is done. -/
def State.kilnBandComplete (s : State) : State :=
  match s.brd.bands.find? (fun b => b.admitted && !b.kilnDone && b.strata.all (·.done)) with
  | none => s
  | some bd =>
    let late := decide (bd.d ≤ (s.now : Rat)) && !bd.late
    let s1 := (s.onBand bd.seq (fun b => { b with kilnDone := true, late := b.late || late })).count Reg.KLN_SNAP_BANDS 1
    let s2 := if late then (s1.event 0x0510 0 bd.b bd.seq).count Reg.KLN_SNAP_LATE 1 else s1
    let s3 := ((s2.measureEngine 0).measureEngine 1).bankReady bd.seq
    (s3.resumeHost 0).resumeHost 1

/-- The job of a halted engine ends with KLN_JOB_ABORTED (R150). The firmware submits a job of its own again at once, as a new job at its
ring's end (DESIGN CHOICE, log entry 149). -/
def State.abortJob (s : State) (e : Nat) : State :=
  match (s.engine e).job with
  | none => s
  | some j =>
    let s1 := (s.stopJob e 0x0528).endJob e 0x0528
    if j.ring = fwRing then { s1 with kln := { s1.kln with fw := s1.kln.fw ++ [j.anew] } } else s1

/-- An engine halts (R138, R150): its started stratum is a base fault of its band, and its job is aborted. At a reset that stratum is
counted and the engine's rate restarts; one that is disabled at an epoch or frozen loses its stratum alike (DESIGN CHOICE, log entry
150). -/
def State.engineStop (s : State) (e : Nat) (reset : Bool) : State :=
  let s1 := match (s.engine e).cur with
    | some (seq, i) =>
      (match s.bandAt seq with
      | some bd =>
        let js := bd.strata.getD i { layer := 0, stratum := 0 }
        let q := ((s.count Reg.KLN_SNAP_RESET_STRATA (b2n reset)).count Reg.KLN_SNAP_BASE_FAULTS 1).freeInTime
        (q.2.lostStratum e bd js.layer js.stratum q.1).onBand seq (fun b =>
          { b with strata := modAt b.strata i (fun x => { x with done := true }) })
      | none => s)
    | none => s
  let s2 := s1.onEngine e (fun g => { g with cur := none, rates := if reset then [] else g.rates, bytes := 0 })
  (s2.setEng e 4).abortJob e

/-- One engine halts: the other takes over the strata that have not been started, and the firmware's job (R138). -/
def State.engineHalt (s : State) (e : Nat) (reset : Bool) : State := ((s.engineStop e reset).takeStratum (1 - e)).takeFw (1 - e)

/-- An engine leaves HALTED at the next marker consumed, when it is enabled and released (R150); it takes what waits. -/
def State.engineRelease (s : State) (e : Nat) : State :=
  if s.engSt e = 4 ∧ s.engOn e = true then ((s.setEng e 0).takeStratum e).takeFw e else s

/-- The Kiln's engines at a marker it consumes (R150): those not enabled halt, those enabled are released. -/
def State.enginesAtMarker (s : State) : State :=
  [0, 1].foldl (fun s e => if s.engOn e = false ∧ s.engSt e < 4 then s.engineHalt e false else s.engineRelease e) s

/-! ### Meanings -/

/-- KILN_ADMISSION (R136). -/
def execKilnAdmission (t : Nat) (s : State) : Out := .next (s.whenOn t (fun s => s.kilnAdmission.rokRefresh))

/-- STRATUM_DECODED (R131). -/
def execStratumDecoded (t e : Nat) (intime : Bool) (s : State) : Out := .next (s.whenOn t (fun s => s.stratumDecoded (e % 2) intime))

/-- KILN_BAND_COMPLETE (R137). -/
def execKilnBandComplete (t : Nat) (s : State) : Out := .next (s.whenOn t State.kilnBandComplete)

end Sys2Proof.Machine
end

