-- ==== Sys2Proof/Machine/Rook.lean ====
section
/-!
DEFINITION. The Rook (R214 to R249): taps, filters, compositing, the output stage, and the bands, squares and files. Slots are
counted in quarters.
-/

namespace Sys2Proof.Machine

/-! ### Taps (R221) -/

/-- A Silt word with where it lies: tile place in the bank and sample. -/
structure Tap where
  tile : Nat
  sample : Nat
  word : Nat
deriving DecidableEq, Repr

/-- The tile of (layer, plane, row, column) in a bank. -/
def findTile (ts : List SiltTile) (layer plane row col : Nat) : Option (Nat × SiltTile) :=
  (ts.zipIdx.find? (fun q => q.1.layer == layer && q.1.plane == plane && q.1.row == row && q.1.col == col)).map (fun q => (q.2, q.1))

/-- The Silt sample under tap (i, j) of an entry at its level present, none where the tap reads (0, 0, 0, 0) (R221). -/
def siltTap (ts : List SiltTile) (e : Entry) (i j : Int) : Option Tap :=
  let g := min e.g e.cap
  let q := 2 ^ g
  let x0 := e.x0 / q
  let x1 := x0 + levelDim (e.x1 - e.x0) g
  let y0 := e.rows.1 / q
  let y1 := y0 + levelDim (e.rows.2 - e.rows.1) g
  if i < x0 ∨ (x1 : Int) ≤ i ∨ j < y0 ∨ (y1 : Int) ≤ j then none
  else
    let x := i.toNat
    let y := j.toNat
    let tw := if e.scene then max 1 (64 / q) else 64
    let th := if e.scene then max 1 (e.sr / q) else 8
    let col := if e.scene then (x - x0) / tw else x / 64
    let row := y / th
    match findTile ts e.layer e.plane row col with
    | none => none
    | some (k, t) =>
      let lx := if e.scene then (x - x0) % tw else x % 64
      let ly := y % th
      let px := if t.half then lx / 2 else lx
      let py := if t.half then ly / 2 else ly
      if t.w ≤ px ∨ t.h ≤ py then none else some ⟨k, py * t.w + px, t.data.getD (py * t.w + px) 0⟩

/-! ### Filters (R220) -/

/-- The cubic kernel at distance `d` with fraction f in 2^-16 (R220). -/
def cubicWeight (f : Nat) (d : Rat) : Rat :=
  let b : Rat := (f : Rat) / 65536
  let c : Rat := (1 - b) / 2
  let a := absR d
  if a < 1 then ((12 - 9 * b - 6 * c) * a * a * a + (-18 + 12 * b + 6 * c) * a * a + (6 - 2 * b)) / 6
  else if a < 2 then ((-b - 6 * c) * a * a * a + (6 * b + 30 * c) * a * a + (-12 * b - 48 * c) * a + (8 * b + 24 * c)) / 6
  else 0

/-- Weights of the taps of one axis at position p: (index, weight). -/
def axisTaps (cubic : Bool) (f : Nat) (p : Rat) : List (Int × Rat) :=
  let b := p.floor
  if cubic then [-1, 0, 1, 2].map (fun (k : Int) => (b + k, cubicWeight f (p - ((b + k : Int) : Rat))))
  else
    let r : Rat := p - (b : Rat)
    [(b, 1 - r), (b + 1, r)]

/-- One filtered layer-sample: a miss, a value that is not finite (R238), or four fp32 components. -/
inductive LayerSample where
  | miss | nonfinite | val (c : List Rat)
deriving DecidableEq, Repr

/-- R220, R221: the layer-sample of an entry at level position (px, py); `bad` are words that read transparent (R172). -/
def layerSample (ts : List SiltTile) (bad : List (Nat × Nat)) (e : Entry) (cubic : Bool) (px py : Rat) : LayerSample :=
  let f := if e.cap < e.g then 65536 else e.f
  let xs := axisTaps cubic f px
  let ys := axisTaps cubic f py
  let taps := ys.flatMap (fun y => xs.map (fun x => (x.2 * y.2, siltTap ts e x.1 y.1)))
  let words := taps.map (fun q => (q.1, match q.2 with
    | some t => if bad.contains (t.tile, t.sample) then 0 else t.word
    | none => 0))
  if taps.all (fun q => q.2.isNone) then .miss
  else if words.any (fun q => [0, 1, 2, 3].any (fun c => !finF16 (bitsOf q.2 (16 * c + 15) (16 * c)))) then .nonfinite
  else
    let c := [0, 1, 2, 3].map (fun c => (words.map (fun q => q.1 * ofF16 (bitsOf q.2 (16 * c + 15) (16 * c)))).foldl (· + ·) 0)
    if c.any (fun v => !finF32 (toF32 v)) then .nonfinite else .val (c.map rndF32)

/-! ### Compositing (R218, R222, R226, R238) -/

/-- What compositing one subpixel gives. -/
structure RayComp where
  acc : List Rat := [0, 0, 0, 0]
  stop : Bool := false
  /-- Slots in quarters as run, and as counted at step 0 (R231). -/
  slots : Nat := 0
  norm : Nat := 0
  capped : Nat := 0
  nonfinite : Nat := 0
deriving DecidableEq, Repr

/-- An fp32 operation's result is finite. -/
def okF32 (x : Rat) : Bool := finF32 (toF32 x)

/-- The level position of an entry for a ray, none where an intermediate value is not finite (R218, R238). -/
def rayPos (e : Entry) (x y : Nat) (tt tp : Rat) : Option (Rat × Rat) :=
  let X := (x : Rat) + rndF32 (e.zr * tt)
  let Y := (y : Rat) + rndF32 (e.zr * tp)
  let a (i : Nat) : Rat := ofF32 (e.aff.getD i 0)
  let row (i : Nat) : Bool :=
    okF32 (a i * rndF32 X) && okF32 (a (i + 1) * rndF32 Y) && okF32 (rndF32 (a i * rndF32 X) + rndF32 (a (i + 1) * rndF32 Y)) &&
    okF32 (rndF32 (rndF32 (a i * rndF32 X) + rndF32 (a (i + 1) * rndF32 Y)) + a (i + 2))
  if okF32 tt && okF32 tp && okF32 (e.zr * tt) && okF32 (e.zr * tp) && okF32 X && okF32 Y && row 0 && row 3 then
    let p := layerPos e.zr e.aff x y tt tp
    let g := min e.g e.cap
    some (atLevel p.1 g, atLevel p.2 g)
  else none

/-- Composite one entry under what is accumulated (R222); `o` is the overflow factor. -/
def compEntry (ts : List SiltTile) (bad : List (Nat × Nat)) (cubic : Bool) (o x y : Nat) (ray : Rat × Rat) (c : RayComp) (e : Entry) : RayComp :=
  if c.stop then c
  else
    let cap := c.capped + b2n (decide (e.cap < e.g))
    match rayPos e x y ray.1 ray.2 with
    | none =>
      let cost := o * (if cubic then 4 else 2)
      { c with slots := c.slots + cost, norm := c.norm + 4 * o, capped := cap, nonfinite := c.nonfinite + 1 }
    | some p =>
      match layerSample ts bad e cubic p.1 p.2 with
      | .miss => { c with slots := c.slots + o, norm := c.norm + o, capped := cap }
      | .nonfinite =>
        let cost := o * (if cubic then 4 else 2)
        { c with slots := c.slots + cost, norm := c.norm + 4 * o, capped := cap, nonfinite := c.nonfinite + 1 }
      | .val s =>
        let k : Rat := 1 - c.acc.getD 3 0
        let al := ofF32 e.alpha
        let acc := (c.acc.zip s).map (fun q => rndF32 (q.1 + k * (al * q.2)))
        let stop := decide (1 - 1 / 1024 ≤ acc.getD 3 0)
        let cost := o * (if cubic then 4 else 2)
        { c with acc := acc, stop := stop, slots := c.slots + cost, norm := c.norm + 4 * o, capped := cap }

/-! ### Output stage (R223 to R225) -/

/-- rgb of R222 from what was accumulated. -/
def State.rgbOf (s : State) (c : RayComp) : List Ext :=
  if c.stop then (c.acc.take 3).map Ext.fin
  else
    let k : Rat := 1 - c.acc.getD 3 0
    let bg := [s.live F.ROK_BG0_R, s.live F.ROK_BG0_G, s.live F.ROK_BG1_B]
    ((c.acc.take 3).zip bg).map (fun q => (Ext.fin q.1).add ((extF16 q.2).scale k))

/-- The mean of two colours (R233, step 3). -/
def meanRgb (a b : List Ext) : List Ext := (a.zip b).map (fun q => (q.1.add q.2).scale (1 / 2))

/-- A node of the panel LUT (R248). -/
def State.lutNode (s : State) (c i : Nat) : Nat := s.live (F.ROK_LUT_VALUE.nth2 c i)

/-- The 4 × 4 matrix of R225. -/
def ditherMatrix : List (List Nat) := [[0, 8, 2, 10], [12, 4, 14, 6], [3, 11, 1, 9], [15, 7, 13, 5]]

/-- The threshold t of R225 for mode, frame and position. -/
def ditherAt (mode frame x y : Nat) : Rat :=
  if mode = 0 then 1 / 2
  else
    let ab : Nat × Nat := if mode = 1 then (0, 0) else [(0, 0), (2, 2), (0, 2), (2, 0)].getD (frame % 4) (0, 0)
    let e := (ditherMatrix.getD ((y + ab.2) % 4) []).getD ((x + ab.1) % 4) 0
    ((e : Rat) + 1 / 2) / 16

/-- A patch's demura values (R378). -/
structure Demura where
  gain : Nat := 0x4000
  offset : Int := 0
  deltas : List Nat := []
deriving DecidableEq, Repr

/-- Bytes of a demura half (R379). -/
def PanelDesc.demuraHalf (p : PanelDesc) : Nat := alignUp (52 * p.patchW * p.patchH) 4096

/-- Address of patch k's entry in the published half (R379). -/
def State.demuraAddr (s : State) (k : Nat) : Nat := s.regionBase 4 + s.get F.PNL_STATUS_DMR_HALF * s.panel.demuraHalf + 52 * k

/-- The demura bytes that the RRG streams for patch k in an epoch: none before a map is published, while DEMURA_EN is 0 and at an
uncorrectable error (R380). -/
def State.demuraBytes (s : State) (epoch k : Nat) : Option (List Nat) :=
  let a := s.demuraAddr k
  if s.settingAt epoch F.ROK_CTRL_DEMURA_EN = 0 ∨ s.pnl.dmrOn = false ∨ s.readPoison a 52 = true then none else some (s.read a 52)

/-- What the RRG streams for patch k of a band: its entry, then its demura values (R26, R380). -/
def State.streamOf (s : State) (epoch k : Nat) : Nat × Nat × Option (List Nat) := (k, s.liveEntry (k + 1) k, s.demuraBytes epoch k)

/-- The entry streamed to the Rook for patch k of a band (R26). -/
def Band.entry (bd : Band) (k : Nat) : RegEntry := unpackEntry (((bd.rays.find? (fun q => q.1 == k)).map (fun q => q.2.1)).getD 0)

/-- The demura values streamed for patch k of a band: identity where none came (R380). -/
def Band.demura (bd : Band) (k : Nat) : Demura :=
  match (bd.rays.find? (fun q => q.1 == k)).bind (fun q => q.2.2) with
  | some b => ⟨fieldLE b 0 2, signed 16 (fieldLE b 2 2), b.drop 4⟩
  | none => {}

/-- d_sub of subpixel (i, j) of a patch (R378). -/
def Demura.delta (d : Demura) (i j : Nat) : Int :=
  let n := 24 * j + i
  signed 4 (d.deltas.getD (n / 2) 0 / (if n % 2 = 0 then 1 else 16))

/-- R223: the panel code of a subpixel from its patch's demura values and its rgb. -/
def State.panelCode (s : State) (d : Demura) (frame x y : Nat) (rgb : List Ext) : Nat :=
  let ch := x % 3
  let m (i : Nat) : Rat := ((signed 32 (s.live (F.ROK_OUT_MATRIX_COEF.nth (4 * ch + i))) : Int) : Rat) / 65536
  let p := (List.range 3).foldl (fun (a : Ext) i => a.add ((rgb.getD i .nan).scale (m i))) (Ext.fin (m 3))
  let h := toF16 p.unit % 32768
  let i := h / 16
  let l : Rat := if 960 ≤ i then (s.lutNode ch 960 : Rat)
    else (s.lutNode ch i : Rat) + ((h % 16 : Nat) : Rat) / 16 * ((s.lutNode ch (i + 1) : Rat) - (s.lutNode ch i : Rat))
  let bits := s.panel.codeBits
  let c0 : Rat := l / ((2 ^ (16 - bits) : Nat) : Rat)
  let c1 : Rat := if s.live F.ROK_CTRL_DEMURA_EN = 1 then
      c0 * (d.gain : Rat) / 16384 + (d.offset : Rat) / 16 + (d.delta (x % 24) (y % 4) : Rat) * (s.live F.ROK_DEMURA_STEP : Rat) / 16
    else c0
  let c := (c1 + ditherAt (s.live F.ROK_CTRL_DITHER) frame x y).floor
  (max 0 (min c (((2 ^ bits : Nat) : Int) - 1))).toNat

/-! ### Squares (R215, R218, R227, R233) -/

/-- Composite the subpixel (x, y) of a band under a square's list. -/
def State.compAt (s : State) (bd : Band) (es : List Entry) (bad : List (Nat × Nat)) (q : SquareList) (x y : Nat) : RayComp :=
  let c := s.coefs.getD {}
  let ray := rayOf s.panel c (bd.entry (s.panel.patchAt x y)) x y
  let ts := (s.bank bd.bank).tiles
  (q.ents.filterMap (fun i => es[i]?)).foldl (compEntry ts bad (s.cubicAt bd.epoch bd.step) q.factor x y ray) {}

/-- The rgb of a column at step 3: an odd column takes the mean of its neighbours (R233). -/
def State.rgbAt (s : State) (bd : Band) (es : List Entry) (bad : List (Nat × Nat)) (q : SquareList) (x y : Nat) : List Ext :=
  if bd.step = 3 ∧ x % 2 = 1 then
    let here := s.rgbOf (s.compAt bd es bad q (x - 1) y)
    if s.panel.cols ≤ x + 1 then here
    else
      let q2 := if (x + 1) / 384 = q.sx then q else ((bd.squares.find? (fun r => r.sx == (x + 1) / 384 && r.sy == q.sy)).getD q)
      meanRgb here (s.rgbOf (s.compAt bd es bad q2 (x + 1) y))
  else s.rgbOf (s.compAt bd es bad q x y)

/-- Columns of a square. -/
def State.squareCols (s : State) (q : SquareList) : List Nat := between (384 * q.sx) (min (384 * q.sx + 384) s.panel.cols)

/-- Rows of a square in a band. -/
def squareRows (bd : Band) (q : SquareList) : List Nat := upFrom (partRow bd q.sy) (partRows bd q.sy)

/-- The composited subpixels of a square: all columns, or the even ones at step 3. -/
def State.squareComps (s : State) (bd : Band) (es : List Entry) (bad : List (Nat × Nat)) (q : SquareList) : List (Nat × Nat × RayComp) :=
  let cols := if bd.step = 3 then (s.squareCols q).filter (fun x => x % 2 == 0) else s.squareCols q
  (squareRows bd q).flatMap (fun y => cols.map (fun x => (x, y, s.compAt bd es bad q x y)))

/-- Append a run to a panel row of the Furrow. -/
def addRun (seq frame band row x : Nat) (codes : List Nat) : List FurrowRow → List FurrowRow
  | [] => [⟨seq, frame, band, row, [(x, codes)]⟩]
  | r :: rs => if r.seq = seq ∧ r.row = row then { r with runs := r.runs ++ [(x, codes)] } :: rs else r :: addRun seq frame band row x codes rs

/-- Write a square's codes into the Furrow (R225). -/
def State.writeSquare (s : State) (bd : Band) (es : List Entry) (bad : List (Nat × Nat)) (q : SquareList) : State :=
  let rows := squareRows bd q
  let out := rows.foldl (fun l y =>
    addRun bd.seq bd.frame bd.b y (384 * q.sx) ((s.squareCols q).map (fun x => s.panelCode (bd.demura (s.panel.patchAt x y)) bd.frame x y (s.rgbAt bd es bad q x y))) l) s.out.rows
  { s with out := { s.out with rows := out } }

/-- Count the slots, early stops, capped and non-finite layer-samples of a square, and record M (R226, R231, R238). -/
def State.squareCounts (s : State) (bd : Band) (es : List Entry) (q : SquareList) (cs : List (Nat × Nat × RayComp)) : State :=
  let sum (f : RayComp → Nat) : Nat := (cs.map (fun c => f c.2.2)).foldl (· + ·) 0
  let slots := sum (·.slots)
  let m := sum (·.norm) * (if bd.step = 3 then 2 else 1)
  let cost : SquareCost := ⟨q.sx, partRow bd q.sy, squareKey es q, m⟩
  let s1 := ((((s.count Reg.ROK_SNAP_SLOTS slots).count Reg.ROK_SNAP_EARLY_STOP (sum (fun c => b2n c.stop))).count Reg.ROK_SNAP_CAPPED
    (sum (·.capped))).count Reg.ROK_SNAP_NONFINITE (sum (·.nonfinite))).count Reg.ROK_SNAP_OVERFLOW (q.factor - 1)
  let s2 : State := { s1 with rok := { s1.rok with
    costs := cost :: s1.rok.costs.filter (fun c => !(c.sx == cost.sx && c.row0 == cost.row0)) } }
  let s3 := s2.onBand bd.seq (fun b => { b with slots := b.slots + slots })
  match cs.find? (fun c => decide (0 < c.2.2.nonfinite)) with
  | some c => s3.eventOnce 0x0820 0 0 c.1 c.2.1
  | none => s3

/-! ### Dealing (R215) and readiness (R235) -/

/-- The first tile group whose rectangle a square's part meets. -/
def squareGroup (p : PanelDesc) (bd : Band) (q : SquareList) : Nat :=
  p.groups.findIdx (fun g => decide (0 < g.w) && decide (3 * g.x0 < 384 * q.sx + 384) && decide (384 * q.sx < 3 * (g.x0 + g.w)) &&
    decide (g.y0 < partRow bd q.sy + partRows bd q.sy) && decide (partRow bd q.sy < g.y0 + g.h))

/-- The places of a band's squares in the order they are dealt: TG0's first (R215). -/
def dealOrder (p : PanelDesc) (bd : Band) : List Nat :=
  let gs := bd.squares.zipIdx.map (fun q => (squareGroup p bd q.1, q.2))
  (List.range 9).flatMap (fun g => (gs.filter (fun q => q.1 == g)).map (·.2))

/-- The next square of a band that no file holds and none has completed. -/
def Band.nextSquare (bd : Band) (p : PanelDesc) : Option Nat :=
  (dealOrder p bd).find? (fun k => !bd.busy.any (fun q => q.2 == k) && !bd.doneSq.any (fun q => q.1 == k))

/-- File n takes the next square; without one it is IDLE, or WAIT while the Rook waits for a bank (R241). -/
def State.dealFile (s : State) (n : Nat) : State :=
  if s.fileSt n = 2 then s
  else match s.runningBand with
    | none => s.setFile n (if s.rok.waitAt.isSome then 3 else 0)
    | some bd =>
      if bd.busy.any (fun q => q.1 == n) then s.setFile n 1
      else match bd.nextSquare s.panel with
        | some k => (s.onBand bd.seq (fun b => { b with busy := b.busy ++ [(n, k)] })).setFile n 1
        | none => s.setFile n 0

/-- Every file takes a square (R215). -/
def State.dealAll (s : State) : State := (List.range 16).foldl State.dealFile s

/-- Group g's part of a band meets a square. -/
def groupMeets (r : GroupRect) (bd : Band) (q : SquareList) : Bool :=
  decide (0 < r.w) && decide (3 * r.x0 < 384 * q.sx + 384) && decide (384 * q.sx < 3 * (r.x0 + r.w)) &&
  decide (r.y0 < partRow bd q.sy + partRows bd q.sy) && decide (partRow bd q.sy < r.y0 + r.h)

/-- R235: groups whose squares of the band are all complete have their rows ready now. -/
def State.groupsReady (s : State) (seq : Nat) : State :=
  match s.bandAt seq with
  | none => s
  | some bd =>
    let sq := bd.squares.zipIdx
    let new := (s.panel.groups.zipIdx).filter (fun g =>
      let mine := sq.filter (fun q => groupMeets g.1 bd q.1)
      !mine.isEmpty && mine.all (fun q => bd.doneSq.any (fun d => d.1 == q.2)) &&
      !s.out.ready.any (fun r => r.seq == seq && r.group == g.2))
    { s with out := { s.out with ready := s.out.ready ++ new.map (fun g => ⟨seq, bd.frame, bd.b, g.2, s.now⟩) } }

/-! ### Starting, skipping and ending bands -/

/-- Count a band at its final step, by cause, and log ROK_PACE_STEP (R234). A band that is held without its lists or its registry, or by a
Silt reset, is none of the predictor's. -/
def State.stepCounts (s : State) (bd : Band) : State :=
  let s1 := s.countStep bd.epoch bd.step
  let s2 := (s1.count Reg.ROK_SNAP_STEP2 (b2n (bd.step == 2))).count Reg.ROK_SNAP_STEP3 (b2n (bd.step == 3))
  let s3 := s2.count Reg.ROK_SNAP_PACE_HELD (b2n (bd.paceStep == 4 && !bd.held))
  if max bd.fitStep bd.kilnStep < bd.paceStep ∧ bd.held = false then s3.eventOnce 0x0812 0 0 (bandArg bd) bd.frame else s3

/-- The Rook has started or passed over a band: the lookahead moves on (R267), and the next band's start is predicted (R232). -/
def State.passBand (s : State) (nextAt : Option Rat) : State :=
  let s1 : State := { s with brd := { s.brd with rookSeq := s.brd.rookSeq + 1 }, rok := { s.rok with nextAt := nextAt } }
  s1.boardShow.paceNext

/-- The bank of a released band is READY with that band. -/
def State.ownsReady (s : State) (bd : Band) : Bool := bd.released && s.bankSt bd.bank == 2 && (s.bank bd.bank).band == bd.seq

/-- A band that a Silt reset holds, its bank gone (R161). -/
def State.bankLost (s : State) (bd : Band) : Bool :=
  bd.released && bd.held && (s.bankSt bd.bank == 0 || s.bankSt bd.bank == 4 || (s.bank bd.bank).band != bd.seq)

/-- The Rook is ready for the next band: its files wait while that bank is not READY (R237, R241). -/
def State.rokReady (s : State) : State :=
  match s.brd.bands.find? (fun b => !b.started) with
  | none => s.dealAll
  | some bd =>
    let s1 := s.rokShow bd
    if s.ownsReady bd = true ∨ s.bankLost bd = true then s1.dealAll
    else
      let s2 : State := { s1 with rok := { s1.rok with waitAt := some (s1.rok.waitAt.getD s.now) } }
      s2.liveFiles.foldl (fun s n => s.setFile n 3) s2

/-- With files that run and no band in progress, the Rook is ready as soon as the next band stands in order (R237). -/
def State.rokCheck (s : State) : State :=
  if s.runningBand.isSome = true ∨ s.liveFiles.isEmpty = true ∨ s.brd.bands.isEmpty = true then s else s.rokReady

/-- In a direct-scan mode the link has yet to read a row of the Furrow buffer that band `seq` takes (R326). In panel-memory mode the band
starts, and what its buffer's rows have not sent is cut (R374). -/
def State.bufferDue (s : State) (seq : Nat) : Bool :=
  s.out.rows.any (fun r => decide (r.seq + 2 ≤ seq) &&
    ((decide (s.frameNo < r.frame) && !panelMemory s.out.nmode) ||
      (r.frame == s.frameNo && !panelMemory s.out.mode && decide (s.out.row0 + s.out.line ≤ r.row))))

/-- The next band in order, when the Rook has none in progress. -/
def State.nextBand (s : State) : Option Band := if s.runningBand.isSome then none else s.brd.bands.head?

/-- A band with nothing to compute: held, not streamed while the RRG streams no entries (R161, R199), or of an epoch before the marker that
the Rook took while every file was HALTED, which dropped what stood before it (R94, R216). -/
def State.bandHeld (s : State) (bd : Band) : Bool :=
  (s.bank bd.bank).held || bd.held || (!bd.streamed && !s.rrgStreams) || epochBefore bd.epoch (s.epochAt 8)

/-- ROK_BAND_START (R232): the bank of the next band enters READING, once its Furrow buffer is free (R326). -/
def State.rokBandStart (s : State) : State :=
  match s.nextBand with
  | none => s
  | some bd =>
    if s.ownsReady bd = false ∨ bd.held = true ∨ (s.bank bd.bank).held = true ∨ bd.streamed = false ∨ s.liveFiles.isEmpty = true ∨
        s.bufferDue bd.seq = true ∨ bd.epoch ≠ s.epochAt 8 then s
    else
      let s1 := (s.endWait bd).onBand bd.seq (fun b => { b with started := true, startAt := s.now })
      let s2 := ((s1.setBank bd.bank 3).stepCounts bd).rokShow bd
      let old (q : Nat) : Bool := decide (bd.seq < q + 2)
      let s3 : State := { s2 with out := { s2.out with rows := s2.out.rows.filter (fun (r : FurrowRow) => old r.seq),
                                                       ready := s2.out.ready.filter (fun (r : GroupReady) => old r.seq) } }
      let d := (s.now : Rat) + (s3.workTicks (s3.bandWork bd bd.step)).getD 0
      (s3.dealAll).passBand (some d)


/-- HELD_BAND_SKIP (R161): the Rook passes over a READY, HELD band, or one that a Silt reset holds, once it has taken the marker of the
band's epoch (R216). -/
def State.heldSkip (s : State) : State :=
  match s.nextBand with
  | none => s
  | some bd =>
    if epochLe bd.epoch (s.epochAt 8) = false ∨ (s.bankLost bd = false ∧ (s.ownsReady bd = false ∨ s.bandHeld bd = false)) then s
    else
      let s1 := (s.endWait bd).stepCounts (if bd.step = 4 then bd else { bd with held := true })
      let s2 := (if s.ownsReady bd then s1.freeBank bd.bank else s1).dropBand bd.seq
      let s3 : State := { s2.noteSlack bd none with out := { s2.out with held := (bd.frame, bd.b) :: s2.out.held } }
      (s3.passBand (some (s.now : Rat))).rokReady

/-- Serve a panel LUT parity error (R240): (channel, node, both copies failed). -/
def State.lutFault (s : State) (q : Nat × Nat × Bool) : State :=
  let c := q.1 % 3
  let i := min q.2.1 960
  let a := s.lutNode c (i - 1)
  let b := s.lutNode c (i + 1)
  let v := if i = 0 then s.lutNode c 1 else if i = 960 then s.lutNode c 959
    else if (a + b) % 2 = 0 then (a + b) / 2 else (Config.openRound 240 ((a + b : Nat) : Int) 2).toNat % 65536
  let s1 := (s.event 0x0823 0 c i).count Reg.ROK_SNAP_LUT_PARITY 1
  if q.2.2 then { s1 with cmt := { s1.cmt with inForce := s1.cmt.inForce.put (F.ROK_LUT_VALUE.nth2 c i) v } } else s1

/-- ROK_SQUARE_COMPLETE (R215): file n ends its square. `corr`, `bad`: Silt words corrected and uncorrectable (R172); `luts`:
LUT parity errors met (R240). -/
def State.squareComplete (s : State) (n corr : Nat) (bad : List (Nat × Nat)) (luts : List (Nat × Nat × Bool)) : State :=
  match s.runningBand with
  | none => s
  | some bd =>
    match bd.busy.find? (fun q => q.1 == n) with
    | none => s
    | some (_, k) =>
      match bd.squares[k]? with
      | none => s
      | some q =>
        let es := s.entriesOf bd
        let s1 := (luts.foldl State.lutFault s).siltEcc bd corr bad
        let s2 := (s1.writeSquare bd es bad q).squareCounts bd es q (s1.squareComps bd es bad q)
        let s3 := s2.onBand bd.seq (fun b => { b with busy := b.busy.filter (fun x => x.1 != n), doneSq := b.doneSq ++ [(k, s.now)] })
        (s3.groupsReady bd.seq).dealFile n

/-- The band's rows leave the Rook: late when complete at or after F(b) (R235). -/
def State.bandLateness (s : State) (bd : Band) : State :=
  if s.furrowDeadline bd ≤ (s.now : Rat) then
    ((s.event 0x0810 0 (bandArg bd) bd.frame).count Reg.ROK_SNAP_LATE 1).onReport bd.epoch (fun r => { r with late := r.late + 1 })
  else s

/-- ROK_BAND_COMPLETE (R230, R235): every square of the band in progress is complete. -/
def State.rokBandComplete (s : State) : State :=
  match s.runningBand with
  | none => s
  | some bd =>
    if bd.doneSq.length < bd.squares.length then s
    else
      let dt := max 1 (s.now - bd.startAt)
      let rate := bd.slots * tickS / (4 * dt * max 1 s.lanes)
      let s1 : State := { s with rok := { s.rok with rates := (rate :: s.rok.rates).take 4 } }
      let s2 := ((s1.bandLateness bd).count Reg.ROK_SNAP_BANDS 1).noteSlack bd (some (slackOf (s.furrowDeadline bd) s.now))
      let s3 := s2.dropBand bd.seq
      (s3.endReading bd.bank).rokReady

/-- Abandon a band (R236): its partial results are discarded and its bank is free; a wait for it is over (R237). -/
def State.abandon (s : State) (bd : Band) : State :=
  let s1 := (((s.endWait bd).event 0x0811 0 (bandArg bd) bd.frame).count Reg.ROK_SNAP_ABANDONED 1).onReport bd.epoch (fun r =>
    { r with abandoned := r.abandoned + 1 }) |>.noteSlack bd (some (-1))
  let s2 := if bd.started then s1 else s1.stepCounts bd
  let s3 := s2.dropBand bd.seq
  let s4 := if bd.released = false ∨ (s.bank bd.bank).band ≠ bd.seq ∨ s.bankSt bd.bank = 4 then s3
    else if bd.started then s3.endReading bd.bank
    else (if bd.carryDone then s3 else s3.carryOver (1 - bd.bank)).freeBank bd.bank
  if bd.started then s4.rokReady else (s4.passBand (some (s.now : Rat))).rokReady

/-- ROK_BAND_ABANDON (R236): scan-out of the band's last row begins with squares incomplete. -/
def State.rokBandAbandon (s : State) : State :=
  match (match s.runningBand with | some b => some b | none => s.brd.bands.head?) with
  | none => s
  | some bd =>
    if epochLe bd.epoch (s.epochAt 8) = false ∨ (s.now : Rat) < s.lastRowAt bd ∨ (bd.started = true ∧ bd.doneSq.length = bd.squares.length) ∨
        (bd.started = false ∧ (s.bankLost bd = true ∨ (s.ownsReady bd = true ∧ s.bandHeld bd = true))) then s
    else s.abandon bd

/-! ### Files (R239, R241) -/

/-- File n halts and the squares it held go back to the queue (R239). -/
def State.fileHalt (s : State) (n : Nat) : State :=
  let s1 : State := { s with brd := { s.brd with bands := s.brd.bands.map (fun (b : Band) =>
    { b with busy := b.busy.filter (fun x => x.1 != n) }) } }
  (s1.setFile n 2).dealAll

/-- Change file n. -/
def State.onFile (s : State) (n : Nat) (f : RookFile → RookFile) : State := { s with rok := { s.rok with files := modAt s.rok.files n f } }

/-- FILE_PARITY_FAULT (R239). -/
def State.fileFault (s : State) (n : Nat) : State :=
  if s.fileSt n = 2 then s
  else
    let fs := s.now :: ((s.rok.files.getD n {}).faults.filter (fun a => decide (s.now < a + 60 * tickS)))
    let s1 := ((s.event 0x0821 n 0 0).count Reg.ROK_SNAP_FILE_FAULTS 1).onFile n (fun f => { f with faults := fs })
    let s2 := if 4 ≤ fs.length then (s1.event 0x0822 n 0 0).onFile n (fun f => { f with retired := true }) else s1
    s2.fileHalt n

/-- The files at a marker the Rook consumes (R239, R241); `held`: the Rook is held by a reset. -/
def State.filesAtMarker (s : State) (held : Bool) : State :=
  ((List.range 16).foldl (fun s n =>
    let en := bitAt (s.live F.ROK_CTRL_FILE_EN) n && !(decide (8 ≤ n) && s.leftOff 19)
    if en = false then
      let s1 := s.onFile n (fun f => { f with retired := false, faults := if f.retired then [] else f.faults })
      if s.fileSt n = 2 then s1 else s1.fileHalt n
    else if s.fileSt n = 2 ∧ held = false ∧ (s.rok.files.getD n {}).retired = false then (s.setFile n 0).dealFile n
    else s) s).rokCheck

/-- A Rook reset or fatal freeze (R241): every file halts, the band in progress is handled as abandoned, P restarts. -/
def State.rookHalt (s : State) : State :=
  let s1 := match s.runningBand with
    | some bd => s.abandon bd
    | none => s
  let s1w := match s1.brd.bands.head? with
    | some bd => s1.endWait bd
    | none => s1
  let s2 := (List.range 16).foldl (fun s n => s.setFile n 2) s1w
  { s2 with rok := { s2.rok with rates := [], waitAt := none } }

/-! ### Silt resets (R161) -/

/-- A band already counted in its report is held instead: it counts at step 4 (R161, R234; log entry 151). -/
def State.recountHeld (s : State) (epoch : Nat) : State :=
  s.onReport epoch (fun r => match r.order with
    | st :: rest => { r with steps := modAt (modAt r.steps st (· - 1)) 4 (· + 1), order := 4 :: rest }
    | [] => r)

/-- A Silt reset or fatal freeze (R161): both banks are HALTED and empty, and every band in either is held. The Rook leaves the band it
reads and goes on to the next. Granules found bad are retired when the bank is FREE again (R172). -/
def State.siltHalt (s : State) : State :=
  let s1 := (((s.onBank 0 SiltBank.cleared).onBank 1 SiltBank.cleared).setBank 0 4).setBank 1 4
  let hold (b : Band) : Band :=
    if b.released && !b.started then
      { b with held := true, admitted := true, kilnDone := true, flatDone := true, carryDone := true, strata := [], carry := [], fetch := [] }
    else b
  let s2 : State := { s1 with brd := { s1.brd with bands := s1.brd.bands.map hold } }
  match s2.runningBand with
  | none => s2.rokCheck
  | some bd =>
    let s3 := (s2.recountHeld bd.epoch).dropBand bd.seq
    ({ s3 with out := { s3.out with held := (bd.frame, bd.b) :: s3.out.held } } : State).rokReady

/-- Silt is released at the next marker it consumes (R161); until the first full image is in force its banks stay HALTED. -/
def State.siltRelease (s : State) : State :=
  let one (s : State) (k : Nat) : State := if s.bankSt k = 4 ∧ s.imageOn = true then s.freeBank k else s
  one (one s 0) 1

/-! ### Streaming (R26, R200, R380) -/

/-- The demura entries of these patches are read; the first that reads uncorrectable is logged, once per epoch (R380). -/
def State.demuraEcc (s : State) (epoch : Nat) (ks : List Nat) : State :=
  if s.settingAt epoch F.ROK_CTRL_DEMURA_EN = 1 ∧ s.pnl.dmrOn = true then
    match ks.find? (fun k => s.readPoison (s.demuraAddr k) 52) with
    | some k => (s.noteReads 5 (ks.map (fun k => (s.demuraAddr k, 52)))).eventOnce 0x0E25 0 0 k 0
    | none => s.noteReads 5 (ks.map (fun k => (s.demuraAddr k, 52)))
  else s

/-- REGISTRY_STREAM_BAND (R26): the entries and demura values of the next band not streamed go to the Rook, from the registry of the
band's epoch (R22, R195). -/
def State.streamBand (s : State) : State :=
  match s.brd.bands.find? (fun b => b.listed && !b.streamed) with
  | none => s
  | some bd =>
    if s.rrgStreams = false ∨ epochLe bd.epoch (s.epochAt 7) = false then s
    else
      let ks := s.panel.patchesOf bd.row0 bd.rows
      (((s.noteReads 5 (s.liveSpans ks)).liveEcc ks).demuraEcc bd.epoch ks).onBand bd.seq (fun b => { b with streamed := true, rays := ks.map (s.streamOf bd.epoch) })

/-! ### Meanings -/

/-- BRD_LIST_BAND (R256, R267): the Rook, if it stands ready, waits for the band listed (R237). -/
def execBrdListBand (t : Nat) (s : State) : Out := .next (s.whenOn t (fun s => s.listBand.rokCheck))

/-- REGISTRY_STREAM_BAND (R26). -/
def execRegistryStreamBand (t : Nat) (s : State) : Out := .next (s.whenOn t State.streamBand)

/-- HELD_BAND_SKIP (R161). -/
def execHeldBandSkip (t : Nat) (s : State) : Out := .next (s.whenOn t State.heldSkip)

/-- ROK_BAND_COMPLETE (R230). -/
def execRokBandComplete (t : Nat) (s : State) : Out := .next (s.whenOn t State.rokBandComplete)

/-- ROK_BAND_ABANDON (R236). -/
def execRokBandAbandon (t : Nat) (s : State) : Out := .next (s.whenOn t State.rokBandAbandon)

/-- FILE_PARITY_FAULT (R239). -/
def execFileParityFault (t n : Nat) (s : State) : Out := .next (s.whenOn t (fun s => s.fileFault (n % 16)))

end Sys2Proof.Machine
end

