-- ==== Sys2Proof/Machine/Raster.lean ====
section
/-!
DEFINITION. The raster and genlock (R306 to R320): the reference, its loss and return, the aligned instants, re-locks and
discontinuities, frame starts, and the TE input's model (R323, R325).
-/

namespace Sys2Proof.Machine

/-! ### The reference (R311 to R315) -/

/-- T_ref of R312 in ticks. -/
def Genlock.tref (g : Genlock) : Rat := ((tickS * g.rateDen : Nat) : Rat) / (g.rateNum : Rat)

/-- T_ref × TOLERANCE_PPM / 10^6 in ticks. -/
def Genlock.tol (g : Genlock) : Rat := g.tref * (g.tolPpm : Rat) / 1000000

/-- The lock window W of R312 in ticks. -/
def Genlock.win (g : Genlock) : Rat := 2000 * (tickNs : Rat) + g.tol

/-- SOURCE 0 and 3 take SYNC_IN edges. -/
def Genlock.sync (g : Genlock) : Bool := g.source == 0 || g.source == 3

/-- The raster's lock state (R319): 0 ACQUIRE, 1 LOCKED, 2 SLEWING, 3 FLYWHEEL. -/
def State.lock (s : State) : Nat := s.get F.OUT_LOCK_STATE

/-- Mean of a list of intervals. -/
def meanR (l : List Rat) : Rat := if l.isEmpty then 0 else l.foldl (· + ·) 0 / (l.length : Rat)

/-- The measured reference period (R312): of the last 8 accepted intervals, T_ref while there is none and for a PTP source. -/
def State.refPeriod (s : State) (g : Genlock) : Rat :=
  if g.sync ∧ s.out.ints ≠ [] then meanR (s.out.ints.take 8) else g.tref

/-- PHASE_NS in force, in ticks (R332). -/
def State.phaseT (s : State) : Rat := ((signed 32 (s.live F.OUT_PHASE_PHASE_NS) * (tickNs : Int) : Int) : Rat)

/-- Aligned instants as one of them and their step, in stamps (R311). -/
structure Grid where
  base : Rat
  step : Rat
deriving DecidableEq, Repr

/-- The instants t_j of R311 for a mode, with an offset: full time less the steps made so far gives the stamp. -/
def State.ptpGrid (s : State) (g : Genlock) (mode : Nat) (d : Rat) : Grid :=
  ⟨s.phaseT + d - (s.off : Rat), g.tref / (modeK g mode : Rat)⟩

/-- The aligned instants in use (R311, R314, R319). -/
def State.grid (s : State) (g : Genlock) (mode : Nat) : Grid :=
  match s.out.lastEdge with
  | some a =>
    if g.source = 0 ∨ (g.source = 3 ∧ s.lock ≠ 3) then ⟨(a : Rat) + s.phaseT, s.refPeriod g / (modeK g mode : Rat)⟩
    else s.ptpGrid g mode (if g.source = 3 then s.out.delta else 0)
  | none => s.ptpGrid g mode 0

/-- The first aligned instant at or after x. -/
def Grid.from (q : Grid) (x : Rat) : Rat := q.base + (((x - q.base) / q.step).ceil : Rat) * q.step

/-- e at x: the nearest aligned instant less x, in (−step / 2, step / 2] (R316). -/
def Grid.err (q : Grid) (x : Rat) : Rat := q.base + (((x - q.base) / q.step + 1 / 2).floor : Rat) * q.step - x

/-- δ of R311: the edge's offset from the nearest t_j, both without PHASE_NS. -/
def State.deltaAt (s : State) (g : Genlock) (edge : Nat) : Rat :=
  -(Grid.err ⟨-(s.off : Rat), g.tref⟩ (edge : Rat))

/-- Discipline by the domain that SOURCE names, or by either with CASTLING (R315, R442). -/
def State.refDisciplined (s : State) (g : Genlock) : Bool :=
  let st := s.get F.TIM_STATUS_TB_STATE
  (st == 1 || st == 2) && (g.castling == 1 || s.get F.TIM_STATUS_SOURCE + 1 == g.source)

/-! ### Re-locks (R317, R318) -/

/-- A tick count in ns, rounded to nearest. -/
def nsOf (x : Rat) : Int := roundR (x / (tickNs : Rat))

/-- A signed number as a 32-bit argument word. -/
def argS (v : Int) : Nat := unsigned 32 (satSigned 32 v)

/-- While an extension is in progress or the raster does not run, the tolerance is TOLERANCE_NS, and no deadline bounds the slack (R328). -/
def State.fullTolerance (s : State) : State :=
  let top := s.get F.MEM_POLICY1_TOLERANCE_NS
  (s.put F.OUT_MEM_TOL_TOL_NS top).setTolerance (max top 400)

/-- R318: the next frame start moves to the first aligned instant at or after the end of the frame in progress. One extended blanking
serves a re-lock and a mode change on the same boundary (R310). Where the frame's last line has begun already, the extension has the memory's
tolerance from now on (R328). -/
def State.discontinuity (s : State) (q : Grid) : State :=
  let stop := s.out.extFrom.getD (if s.out.running then s.out.start + s.out.period else s.out.next)
  let s1 : State := { s with out := { s.out with next := q.from stop, extFrom := some stop } }
  if s.out.running ∧ (modeAt s.out.mode).vtotal ≤ s.out.line then s1.fullTolerance else s1

/-- An extended blanking ends with the next frame start: it is logged with its extension and counted once (R310, R318; log entry 155). -/
def State.extensionEnd (s : State) : State :=
  match s.out.extFrom with
  | none => s
  | some stop =>
    let ext := nsOf (s.out.next - stop)
    ((s.event 0x0C14 0 (argS ext) 0).count Reg.OUT_SNAP_DISCONT 1).count Reg.OUT_SNAP_DISCONT_US (ext / 1000).toNat

/-- R311: at a lock the device records δ of the edges. -/
def State.noteDelta (s : State) (g : Genlock) : State :=
  match s.out.lastEdge with
  | some a => if g.sync then { s with out := { s.out with delta := s.deltaAt g a } } else s
  | none => s

/-- OUT_REF_PERIOD shows the measured reference period (R312, R334). -/
def State.showRef (s : State) (g : Genlock) : State := s.put F.OUT_REF_PERIOD_PERIOD (roundR (s.refPeriod g / 16)).toNat

/-- R317: re-lock against the aligned instants now in use; the raster starts where it does not run yet (R319). -/
def State.relock (s : State) (g : Genlock) : State :=
  if s.out.sched = false then
    let s1 := s.put F.OUT_LOCK_STATE 1
    ({ s1 with out := { s1.out with sched := true, next := (s1.grid g s.out.nmode).from (s.now : Rat) } } : State).noteDelta g
  else
    let q := (s.put F.OUT_LOCK_STATE 1).grid g s.out.nmode
    let e := q.err s.out.next
    let s1 := (s.event 0x0C11 0 0 (argS (nsOf e))).count Reg.OUT_SNAP_RELOCKS 1
    if absR e < g.win then (s1.put F.OUT_LOCK_STATE 1).noteDelta g
    else if g.relock = 0 ∧ absR e ≤ ((g.slewWindow * tickNs : Nat) : Rat) then s1.put F.OUT_LOCK_STATE 2
    else ((s1.discontinuity q).put F.OUT_LOCK_STATE 1).noteDelta g

/-- PHASE_NS changes (R317, R319). -/
def State.phaseRelock (s : State) : State :=
  match s.out.gen with
  | some g => if s.lock = 0 then s else s.relock g
  | none => s

/-- Loss is declared (R314, R315, R319). -/
def State.refLost (s : State) : State :=
  let s1 := (s.put F.OUT_LOCK_STATE 3).event 0x0C10 0 0 0
  { s1 with out := { s1.out with offRun := 0, offLast := none, offLogged := false } }

/-- A GENLOCK record replaces the one in force: a measurement of another signal or rate is let go. -/
def State.newGen (s : State) (g : Genlock) : State :=
  let keep := match s.out.gen with
    | some o => decide (o.sync = g.sync ∧ o.rateNum = g.rateNum ∧ o.rateDen = g.rateDen ∧ o.polarity = g.polarity)
    | none => true
  { s with out := { s.out with
    gen := some g, ints := if keep then s.out.ints else [], lastEdge := if keep then s.out.lastEdge else none, cand := [],
    offRun := 0, offLast := none } }

/-- A GENLOCK record comes into force (R317), a record equal to the one before too. In ACQUIRE it is met as the discipline that it names, where
that is there (R315, R319); else, without the named discipline, the raster flywheels at once. -/
def State.setGenlock (s : State) (g : Genlock) : State :=
  let s2 := (s.newGen g).put F.OUT_LOCK_CAND 0
  if s2.lock = 0 then (if !g.sync && s2.refDisciplined g then s2.relock g else s2)
  else
    let s3 := s2.relock g
    if (if g.sync then s3.out.lastEdge.isNone else !s3.refDisciplined g) then s3.refLost else s3

/-- Discipline of the time base came or went, or the time base stepped (R315, R317, R319, R440). -/
def State.timeBaseMoved (s : State) (stepped : Bool) : State :=
  match s.out.gen with
  | none => s
  | some g =>
    if g.sync then
      if stepped ∧ g.source = 3 ∧ s.lock = 3 then s.relock g else s
    else
      let ok := s.refDisciplined g
      if s.lock = 0 then (if ok then s.relock g else s)
      else if s.lock = 3 then (if ok then s.relock g else s)
      else if !ok then s.refLost
      else if stepped then s.relock g
      else s

/-! ### SYNC_IN edges (R312, R313) -/

/-- An interval lies within T_ref × (1 ± TOLERANCE_PPM / 10^6). -/
def Genlock.inTol (g : Genlock) (i : Rat) : Bool := decide (absR (i - g.tref) ≤ g.tol)

/-- R314: intervals that agree with one another, out of tolerance, three in a row, while the reference is lost. -/
def State.offRate (s : State) (g : Genlock) (t : Nat) : State :=
  if s.lock ≠ 3 then s
  else match s.out.offLast with
    | none => { s with out := { s.out with offLast := some (t, 0) } }
    | some (a, i0) =>
      let i := t - a
      let out := !g.inTol (i : Rat)
      let agree := decide (absR ((i : Rat) - (i0 : Rat)) < g.win)
      let run := if !out then 0 else if agree ∧ 0 < s.out.offRun then s.out.offRun + 1 else 1
      let s1 : State := { s with out := { s.out with offRun := run, offLast := some (t, i) } }
      if 3 ≤ run ∧ s1.out.offLogged = false then
        let s2 := s1.event 0x0C13 0 0 0
        { s2 with out := { s2.out with offLogged := true } }
      else s1

/-- The sequence that an edge leaves, latest first (R313). -/
def extendCand (g : Genlock) (t : Nat) : List Nat → List Nat
  | [] => [t]
  | [a] => if g.inTol (((t - a : Nat) : Rat)) then [t, a] else [t]
  | a :: b :: r =>
    let i : Rat := ((t - a : Nat) : Rat)
    let j : Rat := ((a - b : Nat) : Rat)
    if g.inTol i ∧ absR (i - j) < g.win then t :: a :: b :: r else [t]

/-- Show the open sequence. -/
def State.setCand (s : State) (c : List Nat) : State :=
  { s with out := { s.out with cand := c } }.put F.OUT_LOCK_CAND (min c.length 2)

/-- An edge is accepted (R312, R313): the interval enters the measurement, and in LOCKED an open sequence closes. -/
def State.acceptEdge (s : State) (g : Genlock) (a t : Nat) : State :=
  let i : Rat := ((t - a : Nat) : Rat)
  let n := max 1 (roundR (i / g.tref)).toNat
  let s1 : State := { s with out := { s.out with lastEdge := some t, ints := (i / (n : Rat) :: s.out.ints).take 8 } }
  if s.lock = 1 ∧ s.out.cand ≠ [] then
    (((s1.showRef g).count Reg.OUT_SNAP_GLITCHES s.out.cand.length).eventOnce 0x0C12 0 0 s.out.cand.length 0).setCand []
  else s1.showRef g

/-- A sequence of three edges is a new reference (R313, R317). -/
def State.newReference (s : State) (g : Genlock) (c : List Nat) (t : Nat) : State :=
  let i1 : Rat := ((t - c.getD 1 0 : Nat) : Rat)
  let i2 : Rat := ((c.getD 1 0 - c.getD 2 0 : Nat) : Rat)
  let s1 : State := { s with out := { s.out with lastEdge := some t, ints := [i1, i2] } }
  ((s1.showRef g).setCand []).relock g

/-- SYNC_IN_EDGE (R312, R313): an edge of the active polarity. -/
def State.syncEdge (s : State) (t : Nat) : State :=
  match s.out.gen with
  | none => s
  | some g =>
    if !g.sync then s
    else
      let hit : Bool := match s.out.lastEdge with
        | none => false
        | some a =>
          let p := s.refPeriod g
          let n := max 1 (roundR (((t - a : Nat) : Rat) / p)).toNat
          let due : Rat := (a : Rat) + (n : Rat) * p
          decide (due - g.win ≤ (t : Rat) ∧ (t : Rat) < due + g.win)
      if (s.lock = 1 ∨ s.lock = 2) ∧ hit = true then s.acceptEdge g (s.out.lastEdge.getD 0) t
      else
        let c := extendCand g t s.out.cand
        if 3 ≤ c.length then s.newReference g c t else (s.setCand c).offRate g t

/-- REFERENCE_LOSS (R314): no edge accepted in [a, a + 2 × T_ref + W). -/
def State.referenceLoss (s : State) : State :=
  match s.out.gen with
  | none => s
  | some g =>
    let due := match s.out.lastEdge with
      | some a => decide ((a : Rat) + 2 * g.tref + g.win ≤ (s.now : Rat))
      | none => true
    if g.sync ∧ (s.lock = 1 ∨ s.lock = 2) ∧ due = true then s.refLost else s

/-- ACQUIRE_TIMEOUT (R319): 2 s after the first full image came into force, without a reference, the raster starts free. -/
def State.acquireTimeout (s : State) : State :=
  match s.out.gen with
  | none => s
  | some g =>
    if s.lock = 0 ∧ s.out.sched = false ∧ s.sho.firstAt + 2 * tickS ≤ s.now then
      { s with out := { s.out with sched := true, next := (s.ptpGrid g s.out.nmode 0).from (s.now : Rat) } }
    else s

/-! ### Frame starts (R306, R307, R316, R320, R330) -/

/-- The plan of a mode under the running structure. -/
def State.planFor (s : State) (mode : Nat) : Option Plan := s.sho.run.bind (fun im => planOf im.plans mode)

/-- Insert a value into an ascending list. -/
def insertR (x : Rat) : List Rat → List Rat
  | [] => [x]
  | y :: ys => if x ≤ y then x :: y :: ys else y :: insertR x ys

/-- The median of the measurements (R330): the mean of the two middle ones of an even count (log entry 49). -/
def medianR (l : List Rat) : Rat :=
  let q := l.foldl (fun a x => insertR x a) []
  let n := q.length
  if n = 0 then 0 else if n % 2 = 1 then q.getD (n / 2) 0 else (q.getD (n / 2 - 1) 0 + q.getD (n / 2) 0) / 2

/-- R330: at an epoch, the light latency in force moves when the new median differs by HYST_US or more; before 16 measurements exist it is
the median of those that do. -/
def State.lightInForce (s : State) : State :=
  if s.out.lights.isEmpty then s
  else
    let us := (medianR (s.out.lights.take 16) / 1000).ceil.toNat
    let old := s.get F.OUT_LIGHT_NS_LATENCY
    let new := 1000 * us
    let diff := if old ≤ new then new - old else old - new
    if s.out.lights.length < 16 ∨ 1000 * s.get F.OUT_LIGHT_HYST_US ≤ diff then s.put F.OUT_LIGHT_NS_LATENCY new else s

/-- The epoch that was sealed for a frame. -/
def State.epochOfFrame (s : State) (f : Nat) : Option Epoch := s.cmt.epochs.find? (fun e => e.frame == f)

/-- The period of the frame that starts and the lock state it leaves (R316, R319): (period, e, state). -/
def State.framePlan (s : State) (g : Genlock) : Rat × Rat × Nat :=
  let m := modeAt s.out.nmode
  let fp := framePeriod m
  let T : Rat := (fp.1 : Rat) / (fp.2 : Rat)
  let q := s.grid g s.out.nmode
  let tm := q.step
  let e := q.err (s.out.next + tm)
  let st := if s.lock = 2 ∧ absR e < g.win then 1 else s.lock
  let k := T / 1000
  let corr : Rat := if st = 2 then clampR (-k) k e else if st = 3 ∧ g.source = 0 then 0 else clampR (-k) k (e / 4)
  (clampR (T - k) (T + k) (tm + corr), e, st)

/-- A frame starts held while a recovery is under way (R592). -/
def State.holdFrame (s : State) : State := { s with dmp := { s.dmp with heldFrames := s.dmp.heldFrames + 1 } }

/-- A frame whose sealed epoch the recovery does not show (R96, R592): what its layers would have shown was never composed (R262). -/
def State.holdShown (s : State) (e : Epoch) : State :=
  let s0 := s.holdFrame.event 0x0423 0 e.num 0
  let s1 : State := match s0.brd.before.find? (fun q => q.1 == e.num) with
    | some q => { s0 with brd := { s0.brd with last := q.2 } }
    | none => s0
  { s1 with cmt := { s1.cmt with epochs := s1.cmt.epochs.map (fun x => if x.num = e.num then { x with notShown := true } else x) } }

/-- FRAME_START (R306, R307, R316): the frame whose scheduled start has come begins. -/
def State.frameBegin (s : State) (g : Genlock) : State :=
  let f := s.frameNo + 1
  let r := s.framePlan g
  let ep := s.epochOfFrame f
  let m := modeAt s.out.nmode
  let start := s.out.next
  let s0 := s.extensionEnd
  let s1 : State := { s0 with out := { s0.out with
    running := true, start := start, period := r.1, next := start + r.1, mode := s.out.nmode, row0 := s.out.nrow0, line := 0,
    epoch := if s.cmt.stopped then 0 else (ep.map (·.num)).getD 0, extFrom := none,
    held := s.out.held.filter (fun q => decide (f ≤ q.1)),
    prevStart := s.out.start, prevMode := s.out.mode, prevRow0 := s.out.row0 } }
  let s1l := if s.lock = 2 ∧ r.2.2 = 1 then s1.noteDelta g else s1
  let s2 := ((((s1l.put F.CMT_FRAME_FRAME f).put F.OUT_LOCK_STATE r.2.2).putS F.OUT_PHASE_ERR_E_NS (nsOf r.2.1)).showRef g).put
    F.OUT_LINE_PERIOD_PERIOD (roundR (r.1 / (m.vtotal : Rat))).toNat
  let s3 := match s2.planFor s.out.nmode with
    | some p => (s2.put F.CMT_LATCH_LOOKAHEAD_ROWS p.lookahead).put F.CMT_LATCH_LATCH_LINE (latchLine m p)
    | none => s2
  let lost := r.2.2 == 0 || r.2.2 == 3
  let s4 := (s3.count Reg.OUT_SNAP_FLYWHEEL_FRAMES (b2n lost)).count Reg.OUT_SNAP_SLEW_FRAMES (b2n (r.2.2 == 2))
  let s5 := if r.2.2 = 1 then s4.countMax Reg.OUT_SNAP_PHASE_MAX (nsOf r.2.1).natAbs else s4
  match ep with
  | some e =>
    if s.cmt.stopped then (s5.holdShown e).onReport e.num (fun c => { c with flags := if lost then c.flags + 32 else c.flags })
    else ((s5.lightInForce).put F.SYS_STATUS_FIRST_LIGHT 1).onReport e.num (fun c => { c with
      flags := if lost then c.flags + 32 else c.flags, mode := s.out.nmode, light := s5.lightInForce.get F.OUT_LIGHT_NS_LATENCY })
  | none => if s.cmt.stopped then s5.holdFrame else s5

/-- A frame start is due. -/
def State.frameDue (s : State) : Bool := s.out.sched && decide (s.out.next ≤ (s.now : Rat)) && s.out.gen.isSome

/-- A mode of another frame period comes with the next frame (R310): the change is a discontinuity, against the aligned instants of the
GENLOCK record and of the PHASE_NS that come into force with it. -/
def State.modeAhead (s : State) (mode row0 : Nat) : State :=
  let a := modeAt s.out.nmode
  let b := modeAt mode
  let same := decide (a.num * b.den = b.num * a.den)
  let s1 : State := { s with out := { s.out with nmode := mode, nrow0 := row0 } }
  match s.out.gen with
  | some g0 =>
    let g := ((s.sho.run.map (fun im => im.genlock))).getD g0
    let q := (if g = g0 then s1 else s1.newGen g).grid g mode
    let phase : Int := (signed 32 (s.sealed F.OUT_PHASE_PHASE_NS) - signed 32 (s.live F.OUT_PHASE_PHASE_NS)) * (tickNs : Int)
    if same then s1 else s1.discontinuity { q with base := q.base + (phase : Rat) }
  | none => s1

/-! ### TE (R323 to R325) -/

/-- P_TE in ticks (R323): the mean of the last 8 intervals. -/
def State.pTe (s : State) : Rat := meanR ((s.out.teInts.take 8).map (fun (x : Nat) => (x : Rat)))

/-- TE_EDGE (R323, R325). -/
def State.teEdge (s : State) (t : Nat) : State :=
  let lost := s.flag F.OUT_LOCK_TE_LOST
  match s.out.lastTe with
  | none => { s with out := { s.out with lastTe := some t, teGood := 0 } }
  | some a =>
    let i := t - a
    let p := s.pTe
    let near := decide (absR ((i : Rat) - p) ≤ p / 100)
    let good := if near then s.out.teGood + 1 else 0
    let s1 : State := { s with out := { s.out with lastTe := some t, teInts := (i :: s.out.teInts).take 8, teGood := good } }
    let s2 := s1.put F.OUT_TE_PERIOD_P_TE (roundR (s1.pTe / 16)).toNat
    if lost = true ∧ 1 ≤ good then s2.put F.OUT_LOCK_TE_LOST 0 else s2

/-- TE_TIMEOUT (R325): no edge for 3 × P_TE. While TE_EN is 0, TE is not used. -/
def State.teTimeout (s : State) : State :=
  match s.out.lastTe with
  | none => s
  | some a =>
    if s.flag F.OUT_TE_TE_EN = true ∧ s.out.teInts ≠ [] ∧ s.flag F.OUT_LOCK_TE_LOST = false ∧
        (a : Rat) + 3 * s.pTe ≤ (s.now : Rat) then
      let s1 := (s.put F.OUT_LOCK_TE_LOST 1).event 0x0C20 0 0 0
      { s1 with out := { s1.out with teGood := 0 } }
    else s

/-- When the panel scan passes a row at or after x (R323). -/
def State.scanPass (s : State) (row : Nat) (x : Rat) : Option Rat :=
  match s.out.lastTe with
  | none => none
  | some a =>
    let p := s.pTe
    if p ≤ 0 then none
    else
      let d := (row : Rat) / ((max 1 s.panel.height : Nat) : Rat) * p * (s.get F.OUT_TE_ACTIVE : Rat) / 256
      let base := (a : Rat) + d
      some (base + ((((x - base) / p).ceil : Int) : Rat) * p)

/-- Where the panel scan stands at x, in rows, none outside the scanning share of P_TE (R323). -/
def State.scanRow (s : State) (x : Rat) : Option Rat :=
  match s.out.lastTe with
  | none => none
  | some a =>
    let p := s.pTe
    if p ≤ 0 then none
    else
      let u := (x - (a : Rat)) / p
      let v := (u - ((u.floor : Int) : Rat)) * 256 / (s.get F.OUT_TE_ACTIVE : Rat)
      if 1 < v then none else some (v * (s.panel.height : Rat))

/-! ### Meanings -/

/-- REFERENCE_LOSS (R314). -/
def execReferenceLoss (t : Nat) (s : State) : Out := .next (s.whenOn t State.referenceLoss)

/-- ACQUIRE_TIMEOUT (R319). -/
def execAcquireTimeout (t : Nat) (s : State) : Out := .next (s.whenOn t State.acquireTimeout)

/-- TE_TIMEOUT (R325). -/
def execTeTimeout (t : Nat) (s : State) : Out := .next (s.whenOn t State.teTimeout)

end Sys2Proof.Machine
end

