-- ==== Sys2Proof/Machine/Segments.lean ====
section
/-!
DEFINITION. Segments and DC balance (R368 to R372): segment numbers, the entries of PNL_SEGMENTS, the counters of DC_BALANCE,
polarity, the per-frame sweep, and the codes of Furrow rows.
-/

namespace Sys2Proof.Machine

/-! ### Groups and segments -/

/-- Group g's rectangle. -/
def PanelDesc.rect (p : PanelDesc) (g : Nat) : GroupRect := p.groups.getD g ⟨0, 0, 0, 0⟩

/-- Groups that are not empty (R47). -/
def PanelDesc.live (p : PanelDesc) : List Nat := (List.range 8).filter p.hasGroup

/-- Segments in one row of a group (R371). -/
def GroupRect.segs (r : GroupRect) : Nat := ceilDiv r.w 64

/-- Number of the first segment of a group (R371). -/
def PanelDesc.segBase (p : PanelDesc) (g : Nat) : Nat := ((p.groups.take g).map (fun r => r.segs * r.h)).foldl (· + ·) 0

/-- Segment number of place j in a row of a group (R371). -/
def PanelDesc.segNum (p : PanelDesc) (g row j : Nat) : Nat := p.segBase g + (row - (p.rect g).y0) * (p.rect g).segs + j

/-- Pixels of segment j of a group's row: first column in pixels, width. -/
def GroupRect.segSpan (r : GroupRect) (j : Nat) : Nat × Nat := (r.x0 + 64 * j, min 64 (r.w - 64 * j))

/-- Address of segment k's entry for state st (R371), none without the region. -/
def State.segAddr (s : State) (st k : Nat) : Option Nat := (s.region 0x0140).map (fun r => r.base + 16 * k + 8 * st)

/-- Stored polarity of a segment, 1 negative (R369, R371). -/
def State.segPol (s : State) (st k : Nat) : Nat :=
  match s.segAddr st k with
  | some a => s.byte (a + 4) % 2
  | none => b2n (sparseGet (fun _ => true) s.pnl.pols k)

/-- A segment's entry as it is used (R372, R381): SIG and VALID; an uncorrectable entry reads as VALID clear. -/
def State.segEntry (s : State) (st k : Nat) : Nat × Bool :=
  match s.segAddr st k with
  | some a => if s.readPoison a 8 then (0, false) else (s.readLE a 4, bitAt (s.byte (a + 4)) 1)
  | none => (0, false)

/-- Write a segment's entry (R371). -/
def State.setSeg (s : State) (st k sig pol : Nat) (valid : Bool) : State :=
  match s.segAddr st k with
  | some a => s.store 9 a (leBytes 4 sig ++ [pol + 2 * b2n valid, 0, 0, 0])
  | none => { s with pnl := { s.pnl with pols := sparseSet (fun _ => true) s.pnl.pols k (pol == 1) } }

/-- Clear VALID of a segment and keep its stored polarity (R374). -/
def State.clearSeg (s : State) (st k : Nat) : State := s.setSeg st k (s.segEntry st k).1 (s.segPol st k) false

/-- Every segment of the panel. -/
def PanelDesc.allSegs (p : PanelDesc) : List Nat := List.range (p.segBase 8)

/-- Clear VALID of every segment in both states (R375). -/
def State.clearAllSegs (s : State) : State :=
  if (s.region 0x0140).isNone then s
  else s.panel.allSegs.foldl (fun s k => (s.clearSeg 0 k).clearSeg 1 k) s

/-- PNL reads a segment's entry, and logs PNL_SEG_ECC where it reads uncorrectable (R381). -/
def State.segEcc (s : State) (st k : Nat) : State :=
  match s.segAddr st k with
  | some a =>
    let s1 := s.noteRead 9 a 8
    if s.readPoison a 8 then (s1.count Reg.PNL_SNAP_ECC 1).eventOnce 0x0E13 0 0 k st else s1
  | none => s

/-! ### DC counters (R368) -/

/-- Nibble index of a pixel. -/
def PanelDesc.dcIndex (p : PanelDesc) (x y : Nat) : Nat := y * p.width + x

/-- The counter of pixel (x, y). -/
def State.dcAt (s : State) (x y : Nat) : Int :=
  let i := s.panel.dcIndex x y
  signed 4 (s.byte (s.regionBase 3 + i / 2) / (if i % 2 = 0 then 1 else 16))

/-- Write a counter. -/
def State.setDc (s : State) (x y : Nat) (v : Int) : State :=
  let i := s.panel.dcIndex x y
  let a := s.regionBase 3 + i / 2
  let b := s.byte a
  let n := unsigned 4 (satSigned 4 v)
  s.write a [if i % 2 = 0 then b / 16 * 16 + n else b % 16 + n * 16]

/-- Σ of R369 over pixels [x, x + w) of a row. -/
def State.dcSum (s : State) (x w y : Nat) : Int := (upFrom x w).foldl (fun a p => a + s.dcAt p y) 0

/-- POL of a packet over segments j0 … of a group's row (R369): 1 negative. -/
def State.polOf (s : State) (st g row j0 n : Nat) : Nat :=
  let r := s.panel.rect g
  let x := (r.segSpan j0).1
  let σ := s.dcSum x (min (64 * n) (r.x0 + r.w - x)) row
  if 0 < σ then 1 else if σ < 0 then 0 else 1 - s.segPol st (s.panel.segNum g row j0)

/-- PNL clears a byte range of device memory to 0; the blocks it replaces whole lose their poison (R403). -/
def State.zeroRange (s : State) (a n : Nat) : State :=
  let s1 : State := { s with mem := s.mem.filter (fun (c : Host.Cell) => decide (c.1 < a) || decide (a + n ≤ c.1)) }
  ((s1.cleanBlocks ((a + 63) / 64) ((a + n) / 64 - (a + 63) / 64)).mergeWords (a / 64) (blockCount a n)).noteWrite 9 a n

/-! ### The sweep (R368, R370, R381) -/

/-- The rows of a group. -/
def GroupRect.rows (r : GroupRect) : List Nat := upFrom r.y0 r.h

/-- Every segment place of the panel: (group, row, place). -/
def PanelDesc.segPlaces (p : PanelDesc) : List (Nat × Nat × Nat) :=
  p.live.flatMap (fun g => (p.rect g).rows.flatMap (fun y => (List.range (p.rect g).segs).map (fun j => (g, y, j))))

/-- Segments are kept: the image gives PNL a DC_BALANCE region. -/
def State.balanced (s : State) : Bool := (s.region 3).isSome

/-- The bytes of a segment's counters: first address and length. -/
def State.dcSpan (s : State) (g row j : Nat) : Nat × Nat :=
  let sp := (s.panel.rect g).segSpan j
  let i := s.panel.dcIndex sp.1 row
  (s.regionBase 3 + i / 2, (i + sp.2 - 1) / 2 - i / 2 + 1)

/-- The 64-byte words of the counters that read uncorrectable (R381). -/
def State.badWords (s : State) : List Nat :=
  match s.region 3 with
  | none => []
  | some r => (upFrom (r.base / 64) (ceilDiv (ceilDiv (s.panel.width * s.panel.height) 2) 64)).filter s.blockPoison

/-- An uncorrectable word (R381): its counters become 0, and their segments are marked for balance. -/
def State.sweepWord (s : State) (w : Nat) : State :=
  let ks := (s.panel.segPlaces.filter (fun q =>
    let d := s.dcSpan q.1 q.2.1 q.2.2
    decide (d.1 / 64 ≤ w) && decide (w ≤ (d.1 + d.2 - 1) / 64))).map (fun q => s.panel.segNum q.1 q.2.1 q.2.2)
  let e := (s.count Reg.PNL_SNAP_ECC 1).eventOnce 0x0E12 0 0 (ks.headD 0) 0
  let z := e.zeroRange (64 * w) 64
  { z with pnl := { z.pnl with balMarks := ks.flatMap (fun k => [(0, k), (1, k)]) ++ z.pnl.balMarks.filter (fun m => !ks.contains m.2) } }

/-- Sweep one segment by `n` frames: every pixel moves with its polarity in the state shown (R368, R370), but for those of the words that this
sweep has set to 0 (R381). -/
def State.sweepSeg (s : State) (n : Nat) (bad : List Nat) (q : Nat × Nat × Nat) : State :=
  let g := q.1
  let y := q.2.1
  let sp := (s.panel.rect g).segSpan q.2.2
  let k := s.panel.segNum g y q.2.2
  let step : Int := if s.segPol (s.get F.PNL_STATUS_SHOWN) k = 1 then -(n : Int) else n
  let word (x : Nat) : Nat := (s.regionBase 3 + s.panel.dcIndex x y / 2) / 64
  (upFrom sp.1 sp.2).foldl (fun s x => if bad.contains (word x) then s else s.setDc x y (s.dcAt x y + step)) s

/-- The counters move at the end of a frame, or by `n` frames in a catch-up sweep (R368, R370, R381): all of them are read and written. -/
def State.sweep (s : State) (n : Nat) : State :=
  if s.balanced then
    let bad := s.badWords
    let a := s.regionBase 3
    let len := ceilDiv (s.panel.width * s.panel.height) 2
    ((s.panel.segPlaces.foldl (fun s q => s.sweepSeg n bad q) (bad.foldl State.sweepWord (s.noteRead 9 a len))).noteWrite 9 a len)
  else s

/-- The largest |c| of a segment, and whether a counter stands at −8 or +7. -/
def State.segLimit (s : State) (g row j : Nat) : Nat × Bool :=
  let sp := (s.panel.rect g).segSpan j
  (upFrom sp.1 sp.2).foldl (fun a x =>
    let c := s.dcAt x row
    (max a.1 c.natAbs, a.2 || c == -8 || c == 7)) (0, false)

/-- R370: after the sweep, count saturated segments, and in panel-memory mode mark those at BAL_LIMIT. -/
def State.sweepMark (s : State) : State :=
  if s.balanced = false then s
  else
    let lim := s.live F.PNL_CTRL_BAL_LIMIT
    s.panel.segPlaces.foldl (fun s q =>
      let k := s.panel.segNum q.1 q.2.1 q.2.2
      let c := s.segLimit q.1 q.2.1 q.2.2
      let s1 := if c.2 then (s.count Reg.PNL_SNAP_SAT 1).eventOnce 0x0E10 0 0 k 0 else s
      if panelMemory s.out.mode = true ∧ lim ≤ c.1 then
        { s1 with pnl := { s1.pnl with balMarks := (0, k) :: (1, k) :: s1.pnl.balMarks.filter (fun m => m.2 != k) } }
      else s1) s

/-! ### Furrow rows (R326) -/

/-- The row of a frame in the Furrow. -/
def State.furrowRow (s : State) (frame row : Nat) : Option FurrowRow :=
  s.out.rows.find? (fun r => r.frame == frame && r.row == row)

/-- The code of a subpixel column. -/
def FurrowRow.code (r : FurrowRow) (x : Nat) : Nat :=
  match r.runs.find? (fun q => decide (q.1 ≤ x) && decide (x < q.1 + q.2.length)) with
  | some q => q.2.getD (x - q.1) 0
  | none => 0

/-- Codes of subpixel columns [x, x + n). -/
def FurrowRow.codes (r : FurrowRow) (x n : Nat) : List Nat := (upFrom x n).map r.code

/-- R345: codes packed into bytes, code k in bits [CB k + CB − 1 : CB k]. -/
def packCodes (cb : Nat) (cs : List Nat) : List Nat :=
  leBytes (ceilDiv (cb * cs.length) 8) (cs.foldr (fun c a => c % 2 ^ cb + 2 ^ cb * a) 0)

/-- The codes packed in a LINE payload, as they are after SPAN_X and SPAN_N. -/
def lineCodes (flags : Nat) (payload : List Nat) : List Nat := if bitAt flags 2 then payload.drop 4 else payload

/-- SIG of segment j of a group's row in the Furrow (R371). -/
def State.segSig (s : State) (r : FurrowRow) (g j : Nat) : Nat :=
  let sp := (s.panel.rect g).segSpan j
  crc32c (packCodes s.panel.codeBits (r.codes (3 * sp.1) (3 * sp.2)))

/-! ### States composed and marks -/

/-- Two stored states are in use in the frame that is shown (R375). -/
def State.twoNow (s : State) : Bool := s.twoStates s.out.epoch s.out.mode

/-- The stored state that a frame targets (R375). -/
def State.targetState (s : State) (frame : Nat) : Nat := if s.twoNow then frame % 2 else 0

/-- PNL's state (R381). -/
def State.pnlSt (s : State) : Nat := s.get F.PNL_STATUS_STATE

/-- Mark a row changed for the next composed frame (R361). -/
def State.markRow (s : State) (g row : Nat) : State :=
  { s with pnl := { s.pnl with rowMarks := (g, row) :: s.pnl.rowMarks.filter (fun m => m != (g, row)) } }

/-! ### Discharge triggers (R377) -/

/-- State of group n of the link (R354): 0 OFF, 1 DETECT, 2 PATTERN, 3 LOCK, 4 EXCHANGE, 5 ACTIVE, 6 DISCHARGE. -/
def State.tlkSt (s : State) (n : Nat) : Nat := s.get (F.TLK_GROUP_STATUS_STATE.nth n)

/-- Change group n. -/
def State.onGroup (s : State) (n : Nat) (f : TlkGroup → TlkGroup) : State :=
  { s with tlk := { s.tlk with groups := modAt s.tlk.groups n f } }

/-- Group n enters a state. -/
def State.setGroup (s : State) (n st : Nat) : State :=
  (s.onGroup n (fun g => { g with since := s.now })).put (F.TLK_GROUP_STATUS_STATE.nth n) st

/-- A discharge trigger (R377): POWER_OFF, an orderly thermal trip, or the brown-out warning, which sends ALL_BLACK alone. The ACTIVE groups
go to DISCHARGE (R354). -/
def State.discharge (s : State) (brown : Bool) : State :=
  let st := s.pnlSt
  if st = 0 ∨ st = 4 then s
  else
    let s1 := s.put F.PNL_STATUS_STATE 4
    let s2 := s1.panel.live.foldl (fun s g => if s.tlkSt g = 5 then s.setGroup g 6 else s) s1
    { s2 with pnl := { s2.pnl with
        phase := 0
        phaseDue := some 1
        brown := brown
        updates := []
        select := none
        sweepOff := s2.pnl.sweepOff || st == 3 } }

end Sys2Proof.Machine
end

