-- ==== Sys2Proof/Machine/Wire.lean ====
section
/-!
DEFINITION. What leaves the balls (R339 to R343): packets, 132-bit blocks, the lanes' scramblers, block rows, and the rows that a group sends.
-/

namespace Sys2Proof.Machine

/-! ### Packets (R341, R343) -/

/-- The bytes of a packet as sent (R343); a die-edge underrun inverts its CRC (R350). -/
def Packet.bytes (p : Packet) : List Nat :=
  let h6 := [p.typ % 16 + 16 * (p.alive % 16), p.flags] ++ leBytes 2 p.row ++ leBytes 2 p.payload.length
  let b := h6 ++ leBytes 2 (crc16 h6) ++ p.payload
  let c := crc32 b
  b ++ leBytes 4 (if p.badCrc then 0xFFFFFFFF - c else c)

/-- Block rows a packet takes (R341). -/
def Packet.blockRows (p : Packet) : Nat := ceilDiv (12 + p.payload.length) 96

/-- Ticks of a block row, 4.125 ns (R339). -/
def rowTicks : Nat := 1056

/-- The instant a packet's last block row has left. -/
def Packet.leftAt (p : Packet) : Rat := p.at_ + ((p.blockRows * rowTicks : Nat) : Rat)

/-! ### Blocks (R339, R340, R342) -/

/-- A block's 132 bits in order of transmission (R339): 0110 for data or 1001 for control, then the payload, byte 0 first and each
byte from its least significant bit. -/
def Block.bits (b : Block) : List Bool := [b.control, !b.control, !b.control, b.control] ++ b.payload.flatMap (byteBits true)

/-- One step of a lane's scrambler over a payload bit (R340). -/
def scramStep (s : Nat) : Nat := (s * 2 + b2n (bitAt s 22 != bitAt s 17)) % 2 ^ 23

/-- A scrambler after `n` payload bits. -/
def scramRun : Nat → Nat → Nat
  | 0, s => s
  | n + 1, s => scramRun n (scramStep s)

/-- A lane's scrambler at a LINE_MARK or TRAIN block (R340). -/
def scramReset (l : Nat) : Nat := 0x400000 + l * 256

/-- `n` payload bits of `b`, least significant first, each XORed with s[22] (R340). -/
def scramBits : Nat → Nat → Nat → Nat
  | 0, _, _ => 0
  | n + 1, s, b => b2n (bitAt b 0 != bitAt s 22) + 2 * scramBits n (scramStep s) (b / 2)

/-- Payload bytes as they leave a lane whose scrambler stands at `s`. -/
def scramBytes : Nat → List Nat → List Nat
  | _, [] => []
  | s, b :: bs => scramBits 8 s b :: scramBytes (scramRun 8 s) bs

/-- A control block (R342): KIND, LANE, LINE, FRAME, FLAGS, reserved, CHECK. -/
def controlBlock (kind group lane line frame flags : Nat) : List Nat :=
  let b := [kind, 16 * group + lane] ++ leBytes 2 line ++ leBytes 4 frame ++ [flags, 0, 0, 0, 0, 0]
  b ++ leBytes 2 (crc16 b)

/-! ### Block rows (R341) -/

/-- A control row: the same block on all six lanes but for LANE. -/
def controlRow (kind group line frame flags : Nat) : List Block :=
  (List.range 6).map (fun i => ⟨true, controlBlock kind group i line frame flags⟩)

/-- An IDLE row, the filler of every block row that carries no packet (R342). -/
def idleRow (group : Nat) : List Block := controlRow 1 group 0 0 0

/-- A data row: chunk i of 96 bytes on lane i, scrambled. -/
def dataRow (lanes bytes : List Nat) : List Block :=
  (List.range 6).map (fun i => ⟨false, scramBytes (lanes.getD i 0) (slice bytes (16 * i) 16)⟩)

/-- `n` data rows of a byte stream, filled with 0x00, on lanes whose scramblers stand at `lanes`. -/
def dataRows : Nat → List Nat → List Nat → List (List Block)
  | 0, _, _ => []
  | n + 1, lanes, bytes => dataRow lanes bytes :: dataRows n (lanes.map (scramRun 128)) (bytes.drop 96)

/-- What a group sends over and over in PATTERN and LOCK (R354): a TRAIN row and 31 rows of scrambled zeros. -/
def patternRows (group : Nat) : List (List Block) :=
  controlRow 3 group 0 0x4A4A4A4A 0 :: dataRows 31 ((List.range 6).map (fun i => scramReset (6 * group + i))) []

/-! ### A group's rows -/

/-- Group n beside its registers. -/
def State.tlkGroup (s : State) (n : Nat) : TlkGroup := s.tlk.groups.getD n {}

/-- The scramblers of group n's lanes. -/
def State.lanesOf (s : State) (n : Nat) : List Nat := slice s.tlk.scram (6 * n) 6

/-- The scramblers of group n's lanes, `k` data rows after a LINE_MARK or TRAIN row (R340). -/
def State.scramAfter (s : State) (n k : Nat) : State :=
  { s with tlk := { s.tlk with scram := s.tlk.scram.zipIdx.map (fun q => if q.2 / 6 = n then scramRun (128 * k) (scramReset q.2) else q.1) } }

/-- Group n sends these rows from an instant on; the last row goes on as the filler (R342). -/
def State.sendRows (s : State) (n : Nat) (x : Rat) (rows : List (List Block)) : State :=
  s.onGroup n (fun g => { g with wire := rows, wireAt := x })

/-- Group n enters PATTERN (R354): its pattern begins with a TRAIN row. -/
def State.toPattern (s : State) (n : Nat) : State :=
  ((s.setGroup n 2).sendRows n (s.now : Rat) (patternRows n)).onGroup n (fun g => { g with patternAt := s.now })

/-- The pattern ends: IDLE rows follow, and the scramblers stand where its data rows left them. A row in progress is sent whole (log
entry 157). -/
def State.endPattern (s : State) (n : Nat) : State :=
  let rows := ceilDiv (s.now - (s.tlkGroup n).patternAt) rowTicks
  let s1 := s.sendRows n (s.now : Rat) [idleRow n]
  if rows = 0 then s1 else s1.scramAfter n ((rows - 1) % 32)

/-- Send packets one after another, each with its group's next ALIVE (R347), in the group's next block rows (R341, R342). -/
def State.sendPackets (s : State) : List Packet → State
  | [] => s
  | p :: ps =>
    let g := s.tlkGroup p.group
    let q : Packet := { p with
      alive := g.alive
      at_ := g.rowAt }
    let rows := dataRows q.blockRows (s.lanesOf p.group) q.bytes
    let s1 := s.onGroup p.group (fun g => { g with
      alive := (g.alive + 1) % 16
      rowAt := q.leftAt
      wire := g.wire ++ rows })
    let s2 : State := { s1 with tlk := { s1.tlk with
      sent := s1.tlk.sent ++ [q]
      scram := s1.tlk.scram.zipIdx.map (fun l => if l.2 / 6 = p.group then scramRun (128 * q.blockRows) l.1 else l.1) } }
    s2.sendPackets ps

/-- A LINE_MARK row leaves on a group at an instant, its packets in the block rows after it (R342, R349). -/
def State.sendMark (s : State) (line frame flags : Nat) (x : Rat) (n : Nat) : State :=
  ((s.sendRows n x [controlRow 2 n line frame flags]).onGroup n (fun g => { g with rowAt := x + (rowTicks : Rat) })).scramAfter n 0

/-- The rest of a group's time until its next row is IDLE rows (R342). -/
def State.sendIdle (s : State) (n : Nat) : State := s.onGroup n (fun g => { g with wire := g.wire ++ [idleRow n] })

/-- XOR the bytes [o, o + n) of the stream that follows a group's first row with 0xFF: the scrambler passes an inversion (R340, R350). -/
def invertBytes (o n : Nat) (wire : List (List Block)) : List (List Block) :=
  wire.zipIdx.map (fun r => r.1.zipIdx.map (fun b =>
    if r.2 = 0 ∨ b.1.control = true then b.1
    else { b.1 with payload := b.1.payload.zipIdx.map (fun y =>
      let a := 96 * (r.2 - 1) + 16 * b.2 + y.2
      if o ≤ a ∧ a < o + n then 255 - y.1 else y.1) }))

/-- The first block-row boundary at or after an instant (R349): rows run on one grid from the first line's mark on. -/
def rowBoundary (grid x : Rat) : Rat := grid + (((x - grid) / (rowTicks : Rat)).ceil : Int) * (rowTicks : Rat)

end Sys2Proof.Machine
end

