-- ==== Sys2Proof/Machine/Link.lean ====
section
/-!
DEFINITION. The Tureifa Link (R337 to R367): packets, lines and marks, bring-up and retraining of the groups, the backchannel
messages, and pad read-back.
-/

namespace Sys2Proof.Machine

/-! ### Groups (R354) -/

/-- Group n enters DETECT (R354): the board table's FFE taps and backchannel CTLE are applied (R357). Its backchannel receiver has lost what
lock it had (log entry 157). -/
def State.toDetect (s : State) (n : Nat) : State :=
  let s1 := s.onGroup n (fun g => { g with
    detectLogged := false
    mismatchAt := none
    ffe := slice s.nvs.page (0x080 + 18 * n) 18
    ctle := s.nvs.page.getD (0x140 + n) 0 % 16
    wire := [] })
  ((s1.put (F.TLK_GROUP_STATUS_BC_LOCK.nth n) 0).laneLost n).setGroup n 1

/-- R354, R357: with a full image in force and a valid board table, groups that are not empty enter DETECT; without the table they stay
OFF. -/
def State.detectGroups (s : State) (ns : List Nat) : State :=
  if s.pageValid then ns.foldl State.toDetect s else s.event 0x0D15 0 0 0

/-- The first full image comes into force (R354). -/
def State.linkStart (s : State) : State := s.detectGroups (s.panel.live.filter (fun n => s.tlkSt n == 0))

/-- A TLK reset (R354). -/
def State.linkReset (s : State) : State :=
  (List.range 8).foldl (fun s n => if 1 ≤ s.tlkSt n ∧ s.tlkSt n ≤ 5 then s.toDetect n else s) s

/-- TERMINATION_SENSED: lanes of `mask` are sensed (R354). -/
def State.terminationSensed (s : State) (n mask : Nat) : State :=
  let s1 := s.put (F.TLK_GROUP_STATUS_LANE_DETECT.nth n) mask
  if s.tlkSt n = 1 ∧ mask % 64 = 0x3F then s1.toPattern n else s1

/-- DETECT_TIMEOUT (R354). -/
def State.detectTimeout (s : State) (n : Nat) : State :=
  let g := s.tlkGroup n
  if s.tlkSt n = 1 ∧ g.since + 10 * tickMs ≤ s.now ∧ g.detectLogged = false then
    (s.event 0x0D10 0 n 0).onGroup n (fun g => { g with detectLogged := true })
  else s

/-- DETECT_RETRY (R354). -/
def State.detectRetry (s : State) (n : Nat) : State :=
  if s.tlkSt n = 1 ∧ (s.tlkGroup n).since + 100 * tickMs ≤ s.now then s.setGroup n 1 else s

/-- BACKCHANNEL_SYMBOL_LOCK (R354, R357). -/
def State.symbolLock (s : State) (n : Nat) : State :=
  let s1 := (s.put (F.TLK_GROUP_STATUS_BC_LOCK.nth n) 1).laneLock n
  if s.tlkSt n = 2 then s1.setGroup n 3 else s1

/-- PATTERN_TIMEOUT (R354): 5 ms without symbol lock. -/
def State.patternTimeout (s : State) (n : Nat) : State :=
  if s.tlkSt n = 2 ∧ s.flag (F.TLK_GROUP_STATUS_BC_LOCK.nth n) = false ∧ (s.tlkGroup n).since + 5 * tickMs ≤ s.now then
    (s.event 0x0D11 0 n 0).toPattern n
  else s

/-- LOCK_TIMEOUT (R354). -/
def State.lockTimeout (s : State) (n : Nat) : State :=
  if s.tlkSt n = 3 ∧ (s.tlkGroup n).since + 10 * tickMs ≤ s.now then (s.event 0x0D11 0 n 0).toPattern n else s

/-- EXCHANGE_TIMEOUT (R354): without CAPS for 10 ms back to PATTERN; after a mismatch a retry every 1 s. -/
def State.exchangeTimeout (s : State) (n : Nat) : State :=
  let g := s.tlkGroup n
  if s.tlkSt n ≠ 4 then s
  else match g.mismatchAt with
    | some a => if a + tickS ≤ s.now then (s.onGroup n (fun g => { g with mismatchAt := none })).setGroup n 4 else s
    | none => if g.since + 10 * tickMs ≤ s.now then s.toPattern n else s

/-- A group retrains (R356): it leaves ACTIVE for PATTERN. -/
def State.retrain (s : State) (n : Nat) : State :=
  if s.tlkSt n = 5 then ((s.event 0x0D14 0 n 0).count Reg.TLK_SNAP_RETRAINS 1).toPattern n else s

/-- RETRAIN: a write of 1 to a group's bit (R356, R363). -/
def State.retrainMask (s : State) (mask : Nat) : State :=
  (List.range 8).foldl (fun s n => if bitAt mask n then s.retrain n else s) s

/-- BACKCHANNEL_TIMEOUT (R360): 10 ms without a valid message. -/
def State.bcTimeout (s : State) (n : Nat) : State :=
  let g := s.tlkGroup n
  if 4 ≤ s.tlkSt n ∧ s.flag (F.TLK_GROUP_STATUS_BC_LOST.nth n) = false ∧ (max g.lastMsg g.exchangeAt) + 10 * tickMs ≤ s.now then
    (s.put (F.TLK_GROUP_STATUS_BC_LOST.nth n) 1).event 0x0D20 0 n 0
  else s

/-- DISCHARGE_TIMEOUT (R354): 2 s after the last phase sent. -/
def State.dischargeTimeout (s : State) (n : Nat) : State :=
  if s.tlkSt n = 6 ∧ s.pnl.phase ≠ 0 ∧ s.pnl.phaseAt + 2 * tickS ≤ s.now then s.setGroup n 0 else s

/-! ### CONFIG and CAPS (R355) -/

/-- The CONFIG payload of group n (R355). -/
def State.configPayload (s : State) (n : Nat) : List Nat :=
  let p := s.panel
  let r := p.rect n
  [n, p.codeBits] ++ leBytes 2 r.w ++ leBytes 2 r.h ++ slice s.nvs.page (0x110 + 6 * n) 6 ++
    leBytes 2 (s.get F.TLK_HOLD_HOLD_LIMIT_MS) ++ [p.scan] ++ List.replicate 9 0

/-- CONFIG (R354, R355): every 100 µs in EXCHANGE, framed by IDLE rows, and not while a mismatch waits for its retry. -/
def State.sendConfig (s : State) (n : Nat) : State :=
  let g := s.tlkGroup n
  let due : Bool := match g.configAt with
    | some a => decide (a + 100 * tickUs ≤ s.now) || decide (a < g.exchangeAt)
    | none => true
  if s.tlkSt n = 4 ∧ g.mismatchAt = none ∧ due = true then
    let s1 : State := { s with tlk := { s.tlk with sent := s.tlk.sent.filter (fun (p : Packet) => p.group != n) } }
    let s2 := (s1.sendRows n (s.now : Rat) [idleRow n]).onGroup n (fun g => { g with
      configAt := some s.now
      rowAt := ((s.now + rowTicks : Nat) : Rat) })
    (s2.sendPackets [{ group := n, typ := 7, payload := s.configPayload n }]).sendIdle n
  else s

/-- CAPS matches (R355). -/
def State.capsMatch (s : State) (n : Nat) (b : List Nat) : Bool :=
  let p := s.panel
  let r := p.rect n
  let bit := if p.codeBits = 10 then 0 else 1
  b.getD 8 0 == n && fieldLE b 10 2 == r.w && fieldLE b 12 2 == r.h && bitAt (b.getD 9 0) bit && bitAt (b.getD 14 0) 0 &&
    (p.scan != 1 || bitAt (b.getD 14 0) 1) && decide (fieldLE b 16 4 ≤ 0xFFFFFF)

/-- A group becomes ACTIVE; after a retrain in panel-memory mode all its rows are changed (R356). -/
def State.groupActive (s : State) (n : Nat) : State :=
  let s1 := s.setGroup n 5
  if panelMemory s.out.mode then
    let rows := (s.panel.rect n).rows.map (fun y => (n, y))
    { s1 with pnl := { s1.pnl with rowMarks := rows ++ s1.pnl.rowMarks.filter (fun m => m.1 != n) } }
  else s1

/-- A CAPS message (R355, R359). -/
def State.caps (s : State) (n : Nat) (b : List Nat) : State :=
  if s.tlkSt n ≠ 4 then s
  else if s.capsMatch n b then
    let id := fieldLE b 0 8
    let g := s.tlkGroup n
    let s1 := if g.tileId.isSome ∧ g.tileId ≠ some id then s.event 0x0D13 0 n 0 else s
    let s2 := (((s1.put (F.TLK_TILE_ID_TILE_ID.nth n) id).put (F.TLK_TILE_INFO_CODE_BITS.nth n) (b.getD 9 0)).put
      (F.TLK_TILE_INFO_MEMORY.nth n) (b.getD 14 0)).put (F.TLK_TILE_INFO_D_PANEL_US.nth n) (fieldLE b 16 4)
    (s2.onGroup n (fun g => { g with tileId := some id, mismatchAt := none })).groupActive n
  else if (s.tlkGroup n).mismatchAt.isSome then s
  else (s.event 0x0D12 0 n 0).onGroup n (fun g => { g with mismatchAt := some s.now })

/-! ### Backchannel messages (R358 to R360) -/

/-- A message read as TYPE, LEN, payload and CRC (R358): its type and payload where the CRC passes. -/
def bcParse (b : List Nat) : Option (Nat × List Nat) :=
  let n := b.getD 1 0
  if b.length = n + 4 ∧ crc16 (b.take (n + 2)) = fieldLE b (n + 2) 2 then some (b.getD 0 0, slice b 2 n) else none

/-- A message that fails its CRC (R358). -/
def State.bcFail (s : State) (n : Nat) : State := (s.count Reg.TLK_SNAP_BC_CHECK 1).eventOnce 0x0D21 n 0 n 0

/-- A valid message arrives (R360). -/
def State.bcSeen (s : State) (n : Nat) : State :=
  (s.onGroup n (fun g => { g with lastMsg := s.now })).put (F.TLK_GROUP_STATUS_BC_LOST.nth n) 0

/-- A LOCK message (R354, R359). -/
def State.lockMsg (s : State) (n : Nat) (b : List Nat) : State :=
  let s1 := s.put (F.TLK_GROUP_STATUS_LANE_LOCK.nth n) (b.getD 1 0)
  if s.tlkSt n = 3 ∧ b.getD 0 0 % 64 = 0x3F ∧ b.getD 1 0 % 64 = 0x3F then
    (((s1.endPattern n).onGroup n (fun g => { g with alive := 0, exchangeAt := s.now, mismatchAt := none, configAt := none })).onZone n (fun z => { z with
      since := some s.now })).setGroup n 4
  else s1

/-- Increase of a running count that wraps at 2^k (R359). -/
def wrapRise (k new old : Nat) : Nat := (new + 2 ^ k - old % 2 ^ k) % 2 ^ k

/-- A STATUS message (R356, R359, R360). One that comes in while its group is not yet in EXCHANGE is a STATUS message too. -/
def State.statusMsg (s : State) (n : Nat) (b : List Nat) : State :=
  let now5 := [fieldLE b 10 2, fieldLE b 12 2, fieldLE b 14 2, b.getD 16 0, b.getD 17 0]
  let old := (s.tlkGroup n).errs
  let up (i k : Nat) : Nat := match old with
    | some o => wrapRise k (now5.getD i 0) (o.getD i 0)
    | none => 0
  let lanes := b.getD 2 0 % 64
  let s1 := (((s.zoneReport n (fieldLE b 0 2)).put (F.TLK_GROUP_STATUS_LANE_LOCK.nth n) lanes).put
    (F.TLK_GROUP_STATUS_HOLDING.nth n) (b.getD 3 0 % 2)).onGroup n (fun g =>
      { g with errs := some now5, phase := b.getD 20 0, disDone := bitAt (b.getD 3 0) 1 })
  let s2 := (List.range 6).foldl (fun s i =>
    let l := 6 * n + i
    s.put ([F.TLK_TILE_FOM_FOM0, F.TLK_TILE_FOM_FOM1, F.TLK_TILE_FOM_FOM2, F.TLK_TILE_FOM_FOM3].getD (l % 4) F.TLK_TILE_FOM_FOM0 |>.nth (l / 4))
      (b.getD (4 + i) 0)) s1
  let s3 := ((s2.count Reg.TLK_SNAP_TILE_CRC (up 2 16)).count Reg.TLK_SNAP_TILE_HCRC (up 0 16 + up 1 16)).count
    Reg.TLK_SNAP_ALIVE (up 3 8 + up 4 8)
  let lim := s.get F.TLK_CTRL_RETRAIN_CRC
  if s.tlkSt n = 5 ∧ (lanes ≠ 0x3F ∨ (lim ≠ 0 ∧ lim < up 2 16)) then s3.retrain n
  else if s.tlkSt n = 6 ∧ bitAt (b.getD 3 0) 1 = true then s3.setGroup n 0
  else s3

/-- A backchannel message of the expected type (R358, R359): others are discarded, and counted as such (R367). -/
def State.bcMessage (s : State) (n typ len : Nat) (b : List Nat) (f : State → List Nat → State) : State :=
  match bcParse b with
  | none => s.bcFail n
  | some (ty, p) => if ty = typ ∧ p.length = len then f (s.bcSeen n) p else s.count Reg.TLK_SNAP_BC_CHECK 1

/-! ### Lines (R346, R349 to R352) -/

/-- The picture is held without composing (R352). -/
def State.holdAll (s : State) : Bool := s.pnlSt == 3 || s.cmt.stopped || s.sho.switching

/-- Groups that take line marks. -/
def State.markGroups (s : State) : List Nat := s.panel.live.filter (fun n => s.tlkSt n == 5 || s.tlkSt n == 6)

/-- A full time in the form of R265: nanoseconds, then the low 32 bits of seconds. -/
def presentTime (full : Nat) : List Nat := leBytes 4 (fullNs full) ++ leBytes 4 (fullSec full % 2 ^ 32)

/-- Full time of an instant of the raster. -/
def State.fullR (s : State) (x : Rat) : Nat := (x.floor + s.off).toNat

/-- The FRAME packet (R344, R352). -/
def State.framePacket (s : State) (g : Nat) : Packet :=
  let ep := if s.pnlSt = 2 ∧ s.holdAll = false then s.out.epoch else 0
  { group := g, typ := 4, payload := leBytes 8 s.frameNo ++ leBytes 4 ep ++ [s.out.mode, s.panel.codeBits, s.panel.scan, 0] ++
      presentTime (s.fullR s.out.start) }

/-- Duration of a discharge phase in ms (R384). -/
def State.phaseMs (s : State) (ph : Nat) : Nat :=
  if ph = 1 then s.get F.PNL_DIS_BLACK_MS else if ph = 2 then s.get F.PNL_DIS_GATE_MS else s.get F.PNL_DIS2_VCOM_MS

/-- A DISCHARGE packet (R344). -/
def State.disPacket (s : State) (ph g : Nat) : Packet := { group := g, typ := 5, payload := [ph, 0] ++ leBytes 2 (s.phaseMs ph) }

/-- A LINE over segments [j0, j0 + n) of a row (R345, R369): without SPAN where it covers the whole row. -/
def State.lineFor (s : State) (g row st j0 n bal upd : Nat) (codes : Nat → Nat → List Nat) (sigs : List Nat) : Packet :=
  let p := s.panel
  let r := p.rect g
  let x := (r.segSpan j0).1
  let w := min (64 * n) (r.x0 + r.w - x)
  let whole := decide (r.segs ≤ n)
  let body := packCodes p.codeBits (codes (3 * x) (3 * w))
  let pay := if whole then body else leBytes 2 (3 * (x - r.x0)) ++ leBytes 2 (3 * w) ++ body
  { group := g, typ := 1, flags := s.polOf st g row j0 n + 2 * st + (if whole then 0 else 4), row := row, payload := pay,
    seg0 := p.segNum g row j0, nseg := n, sigs := sigs, balance := bal, upd := upd, code := crc32c body }

/-- Band of a line of the frame in progress, with its first line and its rows (R306). -/
def State.lineBand (s : State) (n : Nat) : Nat × Nat × Nat :=
  let br := max 1 (((s.planFor s.out.mode).map (·.bandRows)).getD 1)
  let b := n / br
  (b, b * br, min br ((modeAt s.out.mode).rows - b * br))

/-- The frame's band is held at step 4 (R351). -/
def State.bandAtHold (s : State) (b : Nat) : Bool :=
  s.out.held.contains (s.frameNo, b) || s.brd.bands.any (fun x => x.frame == s.frameNo && x.b == b && x.step == 4)

/-- The rows [y0, y1) of a group in the band of line n. -/
def State.bandRowsIn (s : State) (n g : Nat) : Nat × Nat :=
  let q := s.lineBand n
  let r := s.panel.rect g
  (max (s.out.row0 + q.2.1) r.y0, min (s.out.row0 + q.2.1 + q.2.2) (r.y0 + r.h))

/-- Line n is the first of its band in a group. -/
def State.bandFirst (s : State) (n g : Nat) : Bool :=
  let y := s.bandRowsIn n g
  decide (y.1 < y.2) && s.out.row0 + n == y.1

/-- At a band's first line in a group it is settled whether the band is held there (R351), be the group ACTIVE or not. -/
def State.noteHold (s : State) (n g : Nat) : State :=
  if s.bandFirst n g then
    let b := (s.lineBand n).1
    s.onGroup g (fun x => { x with holdBand := if s.bandAtHold b then some (s.frameNo, b) else none })
  else s

/-- The group's rows of the band of line n are held by HOLD_BAND (R351). -/
def State.bandHeldIn (s : State) (n g : Nat) : Bool := (s.tlkGroup g).holdBand == some (s.frameNo, (s.lineBand n).1)

/-- HOLD_BAND on a held band's first line in a group (R351). -/
def State.holdBandPackets (s : State) (n g : Nat) : List Packet :=
  let y := s.bandRowsIn n g
  if s.bandFirst n g && s.bandHeldIn n g then [{ group := g, typ := 3, row := y.1, payload := leBytes 2 (y.2 - y.1) ++ [0, 0] }] else []

/-- A row is ready at a stamp before an instant (R235, R350). -/
def State.rowReady (s : State) (g b : Nat) (x : Rat) : Bool :=
  s.out.ready.any (fun r => r.frame == s.frameNo && r.band == b && r.group == g && decide ((r.at_ : Rat) < x))

/-- The row of a group on a line in direct scan: LINE or HOLD_LINE (R350, R327). -/
def State.directRow (s : State) (n : Nat) (x : Rat) (bad : List (Nat × Nat)) (g : Nat) : List Packet × State :=
  let q := s.lineBand n
  let row := s.out.row0 + n
  let r := s.panel.rect g
  if row < r.y0 ∨ r.y0 + r.h ≤ row ∨ s.bandHeldIn n g = true then ([], s)
  else
    let hold : Packet := { group := g, typ := 2, row := row }
    match (if s.rowReady g q.1 x then s.furrowRow s.frameNo row else none) with
    | none => ([hold], s.eventOnce 0x0D32 g 0 g row)
    | some fr =>
      if bad.contains (g, row) then ([hold], (s.count Reg.OUT_SNAP_ECC_UNCORR 1).event 0x0C30 g 0 row)
      else ([{ s.lineFor g row 0 0 r.segs 0 0 fr.codes [] with frame := if s.out.epoch = 0 then 0 else s.frameNo }], s)

/-- Stored state and polarity of the black frame in progress (R376). -/
def State.blackNow (s : State) : Nat × Nat :=
  let k := s.pnl.black - 1
  if s.pnl.blackN = 4 then (k % 2, k / 2) else (0, k)

/-- The row of a group on a line of a black frame: codes 0, sent whole (R376). -/
def State.blackRow (s : State) (n : Nat) (g : Nat) : List Packet :=
  let row := s.out.row0 + n
  let r := s.panel.rect g
  if row < r.y0 ∨ r.y0 + r.h ≤ row then []
  else
    let b := s.blackNow
    let p := s.lineFor g row b.1 0 r.segs 0 0 (fun _ m => List.replicate m 0) []
    [{ p with flags := b.2 + 2 * b.1 }]

/-! ### Updates and TE avoidance (R324, R373) -/

/-- Block rows of line n, which starts at x, from its own mark to the next one's (R346, R349): 232 or 233 in mode 4. -/
def State.lineRows (s : State) (n : Nat) (x : Rat) : Nat :=
  let pipe : Rat := 3200 * (tickNs : Rat)
  let v := (modeAt s.out.mode).vtotal
  let y := if n + 1 < v then x + s.out.period / (v : Rat) else s.out.next
  let q := s.tlk.grid.getD (x + pipe)
  ((rowBoundary q (y + pipe) - rowBoundary q (x + pipe)) / (rowTicks : Rat)).floor.toNat

/-- The fewest block rows of a line: ⌊line period / 4.125 ns⌋. -/
def State.blockRowsOf (s : State) : Nat := (s.out.period / ((modeAt s.out.mode).vtotal : Rat) / (rowTicks : Rat)).floor.toNat

/-- The panel scan meets rows [y0, y1) within GUARD_ROWS during [a, b]: the instant at which it has passed them (R323, R324). -/
def State.teMeets (s : State) (y0 y1 : Nat) (a b : Rat) : Option Rat :=
  match s.out.lastTe with
  | none => none
  | some t =>
    let p := s.pTe
    let h := s.panel.height
    let g := s.get F.OUT_TE_GUARD_ROWS
    if p ≤ 0 then none
    else
      let at' (y : Nat) : Rat := (t : Rat) + (y : Rat) / ((max 1 h : Nat) : Rat) * p * (s.get F.OUT_TE_ACTIVE : Rat) / 256
      let lo := at' (y0 - g)
      let hi := at' (min h (y1 + g))
      let k : Rat := (((a - hi) / p).ceil : Int)
      if lo + k * p ≤ b then some (hi + k * p) else none

/-- Lines that an update takes at its group's full rate. -/
def State.updateLines (s : State) (u : Update) : Nat :=
  let r := s.panel.rect u.group
  let need := (u.left.map (fun q => ceilDiv (16 + ceilDiv (3 * min (64 * q.2.2.1) r.w * s.panel.codeBits) 8) 96)).foldl (· + ·) 0
  ceilDiv need (max 1 (s.blockRowsOf - 1))

/-- Lines that a band takes: those of the group that has most of its updates left to send (R324). -/
def State.bandLines (s : State) (seq : Nat) : Nat :=
  (List.range 8).foldl (fun a g =>
    max a ((s.pnl.updates.filter (fun (u : Update) => u.seq == seq && u.group == g)).foldl (fun a u => a + s.updateLines u) 0)) 0

/-- Note a band under TE avoidance. -/
def State.setTeBand (s : State) (b : TeBand) : State :=
  { s with pnl := { s.pnl with teBands := (b :: s.pnl.teBands.filter (fun x => x.seq != b.seq)).take 4 } }

/-- A band is sent inside the guard, or without TE (R324, R325): counted once. -/
def State.teTear (s : State) (b : TeBand) (row : Nat) : State :=
  if b.torn then s
  else ((s.count Reg.OUT_SNAP_TE_TEARS 1).eventOnce 0x0C21 0 0 row 0).setTeBand { b with torn := true }

/-- A band's send is delayed (R324): counted once. -/
def State.teDelay (s : State) (b : TeBand) : State :=
  if b.delayed then s else (s.count Reg.OUT_SNAP_TE_DELAYED 1).setTeBand { b with delayed := true }

/-- R324, R325: TE avoidance of an update whose first packet is due, over the whole send of its band. The band is delayed by at most one band
period from when its first packet was due, or it tears. -/
def State.teCheck (s : State) (u : Update) : Update × State :=
  let go : Update := { u with checked := true, until_ := none }
  let now : Rat := s.now
  let b := (s.pnl.teBands.find? (fun q => q.seq == u.seq)).getD ⟨u.seq, now, false, false⟩
  if s.flag F.OUT_TE_TE_EN = false ∨ (u.checked = true ∧ u.until_ = none) then (go, s)
  else if s.flag F.OUT_LOCK_TE_LOST = true ∨ b.torn = true then (go, s.teTear b u.row0)
  else if u.checked then (u, s)
  else
    let l := s.out.period / ((modeAt s.out.mode).vtotal : Rat)
    match s.teMeets u.row0 (u.row0 + u.rows) now (now + (s.bandLines u.seq : Rat) * l) with
    | none => (go, s.setTeBand b)
    | some x =>
      let period := ((((s.planFor s.out.mode).map (·.bandRows)).getD u.rows : Nat) : Rat) * l
      if x - b.first ≤ period then ({ u with checked := true, until_ := some x }, s.teDelay b) else (go, s.teTear b u.row0)

/-- Rectangles of two updates of one state overlap (R373). -/
def Update.clash (u v : Update) : Bool :=
  u.state == v.state && decide (u.x0 ≤ v.x1) && decide (v.x0 ≤ u.x1) && decide (u.y0 ≤ v.y1) && decide (v.y0 ≤ u.y1)

/-- Send what fits of one update's packets: packets, what is left, block rows left, and whether the line is full. A row with an uncorrectable
word goes as one HOLD_LINE, which `skip` names while its further runs follow (R327). -/
def State.sendUpdate (s : State) (bad : List (Nat × Nat)) (u : Update) (skip : Option Nat) : List (Nat × Nat × Nat × Nat) → Nat → List Packet × List (Nat × Nat × Nat × Nat) × Nat × Bool × State
  | [], cap => ([], [], cap, false, s)
  | q :: qs, cap =>
    let row := q.1
    match s.furrowRow u.frame row with
    | none => ([], q :: qs, cap, false, s)
    | some fr =>
      let isBad := bad.contains (u.group, row)
      let k0 := s.panel.segNum u.group row q.2.1
      let sigs := (upFrom q.2.1 q.2.2.1).map (s.segSig fr u.group)
      let pk := s.lineFor u.group row u.state q.2.1 q.2.2.1 q.2.2.2 (u.num + 1) fr.codes sigs
      let p : Packet := if isBad then { group := u.group, typ := 2, row := row, upd := u.num + 1 } else { pk with frame := u.frame }
      let clear (s : State) : State := (upFrom k0 q.2.2.1).foldl (fun s k => s.clearSeg u.state k) s
      if skip = some row then (clear s).sendUpdate bad u skip qs cap
      else if cap < p.blockRows then ([], q :: qs, cap, true, s)
      else
        let s1 := if isBad then clear ((s.count Reg.OUT_SNAP_ECC_UNCORR 1).event 0x0C30 u.group 0 row) else s
        let r := s1.sendUpdate bad u (if isBad then some row else none) qs (cap - p.blockRows)
        (p :: r.1, r.2.1, r.2.2.1, r.2.2.2.1, r.2.2.2.2)

/-- Go through a group's updates in the order they were formed (R373): `held` are updates that wait, `full` a full line. -/
def State.sendUpdates (s : State) (bad : List (Nat × Nat)) (g : Nat) : List Update → List Update → Nat → Bool → List Packet × List Update × State
  | [], _, _, _ => ([], [], s)
  | u :: us, held, cap, full =>
    if u.group ≠ g ∨ u.left = [] ∨ full = true then
      let r := s.sendUpdates bad g us held cap full
      (r.1, u :: r.2.1, r.2.2)
    else if held.any (fun v => v.clash u) then
      let r := s.sendUpdates bad g us (u :: held) cap full
      (r.1, u :: r.2.1, r.2.2)
    else
      let c := s.teCheck u
      if c.1.until_.isSome then
        let r := c.2.sendUpdates bad g us (c.1 :: held) cap full
        (r.1, c.1 :: r.2.1, r.2.2)
      else
        let q := c.2.sendUpdate bad c.1 none c.1.left cap
        let r := q.2.2.2.2.sendUpdates bad g us held q.2.2.1 q.2.2.2.1
        (q.1 ++ r.1, { c.1 with left := q.2.1 } :: r.2.1, r.2.2)

/-- The packets of changed rows that a line carries for a group in `cap` block rows (R346, R372). -/
def State.changedRows (s : State) (bad : List (Nat × Nat)) (cap g : Nat) : List Packet × State :=
  let r := s.sendUpdates bad g s.pnl.updates [] cap false
  let old := r.2.2
  (r.1, { old with pnl := { old.pnl with updates := r.2.1 } })

/-! ### LINE_START and LINE_MARK -/

/-- The packets of one group on line n (R346). -/
def State.groupLine (s : State) (n : Nat) (x : Rat) (bad : List (Nat × Nat)) (g : Nat) : List Packet × State :=
  let frame := if n = 0 then [s.framePacket g] else []
  let dis := match s.pnl.phaseDue with
    | some ph => [s.disPacket ph g]
    | none => []
  let rows := decide (n < (modeAt s.out.mode).rows)
  if s.holdAll ∨ s.tlkSt g = 6 ∨ s.pnlSt = 0 ∨ s.pnlSt = 4 then (frame ++ dis, s)
  else if s.pnlSt = 1 then (frame ++ (if rows then s.blackRow n g else []), s)
  else
    let sel := match (if n = 0 then s.pnl.select else none) with
      | some st => [({ group := g, typ := 6, payload := [st, 0, 0, 0] } : Packet)]
      | none => []
    let head := frame ++ (if rows then s.holdBandPackets n g else []) ++ sel
    let body := if panelMemory s.out.mode then s.changedRows bad (s.lineRows n x - 1 - head.length) g
      else if rows then s.directRow n x bad g else ([], s)
    (head ++ body.1, body.2)

/-- Every group's packets on line n. -/
def State.groupLines (s : State) (n : Nat) (x : Rat) (bad : List (Nat × Nat)) : List Nat → List Packet × State
  | [] => ([], s)
  | g :: gs =>
    let a := s.groupLine n x bad g
    let b := a.2.groupLines n x bad gs
    (a.1 ++ b.1, b.2)

/-- The strata a band still has to read, by cost: those left of its job, or, before its bank is released, all it calls for at the step
predicted. -/
def State.readCosts (s : State) (bd : Band) : List Nat :=
  if bd.released then (bd.strata.filter (fun q => !q.done)).map (·.cost)
  else (s.decodeList bd bd.paceStep []).map (fun q => s.bandCost bd { layer := q.1, stratum := q.2 } (decide (bd.paceStep = 0)))

/-- E(b + 1) of R328: the latest of the band's decode, its flat fetch and its registry stream. No rule gives the stream a rate, so the time
it takes is a free value (log entry 53). -/
def State.readEnd (s : State) (bd : Band) : Rat × State :=
  let q := s.free 29
  let decode : Rat := (s.now : Rat) + (s.decodeTime (s.readCosts bd)).getD 0
  let n := if bd.released then bd.fetch.length else (s.flatTiles bd).length
  let fetch : Rat := ((if bd.released then bd.s else s.now : Nat) : Rat) + ((n * 4096 : Nat) : Rat) / 160 * 256
  let rays : Rat := (s.now : Rat) + (if bd.streamed then 0 else (q.1 : Rat))
  (max (max decode fetch) rays, q.2)

/-- R328: the tolerance stated at a band start; 0 while no deadline of the next band is known (log entry 53). -/
def State.stateTolerance (s : State) (b : Nat) : State :=
  let top := s.get F.MEM_POLICY1_TOLERANCE_NS
  let plan := s.planFor s.out.mode
  let last := (plan.map (bandCount (modeAt s.out.mode))).getD 1
  let f := if b + 1 < last then (s.frameNo, b + 1) else (s.frameNo + 1, 0)
  let q : Nat × State := match s.brd.bands.find? (fun x => x.frame == f.1 && x.b == f.2 && x.paced) with
    | some bd =>
      let e := s.readEnd bd
      (((bd.d - e.1) / (tickNs : Rat) - 2000).floor.toNat, e.2)
    | none => (0, s)
  let tol := min top q.1
  (q.2.put F.OUT_MEM_TOL_TOL_NS tol).setTolerance q.1

/-- LINE_START (R346, R350 to R352): the next line of the frame in progress begins; `bad` are rows with an uncorrectable
Furrow word, `corr` words corrected (R327). -/
def State.lineStart (s : State) (corr : Nat) (bad : List (Nat × Nat)) : State :=
  let n := s.out.line
  let v := (modeAt s.out.mode).vtotal
  let x := s.out.start + (n : Rat) * s.out.period / (v : Rat)
  if s.out.running = false ∨ v ≤ n ∨ (s.now : Rat) < x then s
  else
    let q := s.lineBand n
    let rows := (modeAt s.out.mode).rows
    let s0 : State := { s with out := { s.out with line := n + 1 } }
    let s1 := (if n < rows ∧ n = q.2.1 then s0.stateTolerance q.1 else s0).count Reg.OUT_SNAP_ECC_CORR corr
    let s1' := if n + 1 = v ∧ s1.out.extFrom.isSome = true then s1.fullTolerance else s1
    let s1'' := if n < rows ∧ s1'.holdAll = false ∧ s1'.pnlSt = 2 then s1'.panel.live.foldl (fun s g => s.noteHold n g) s1' else s1'
    let r := s1''.groupLines n x bad s1''.markGroups
    let old := r.2
    let line : LinkLine := ⟨n, s.frameNo, x, s.holdAll, r.1⟩
    let due := s.pnl.phaseDue
    let s2 : State := { old with tlk := { old.tlk with lines := old.tlk.lines ++ [line] } }
    match due with
    | none => s2
    | some ph =>
      let s3 := s2.panel.live.foldl (fun s g => if s.tlkSt g = 5 then s.setGroup g 6 else s) s2
      let at' := if ph = 1 then s3.now else s3.pnl.phaseAt
      { s3 with pnl := { s3.pnl with phase := ph, phaseAt := at', phaseDue := none } }

/-- What a packet's leaving does (R367, R372, R385). -/
def State.packetLeft (s : State) (p : Packet) : State :=
  match p.typ with
  | 1 =>
    let st := bitsOf p.flags 1 1
    let pol := p.flags % 2
    let s1 := s.count Reg.TLK_SNAP_LINES 1
    let s2 := ((upFrom p.seg0 p.nseg).zipIdx).foldl (fun s q =>
      match p.sigs[q.2]? with
      | some sig => s.setSeg st q.1 sig pol true
      | none => s.setSeg st q.1 0 pol false) s1
    if p.sigs.isEmpty then s2 else (s2.count Reg.PNL_SNAP_SEGMENTS p.nseg).count Reg.PNL_SNAP_BALANCE p.balance
  | 2 => s.count Reg.TLK_SNAP_HOLD_LINES 1
  | 3 => s.count Reg.TLK_SNAP_HOLD_BANDS 1
  | 6 => s.count Reg.PNL_SNAP_SELECTS 1
  | _ => s

/-- Updates whose last packet has left are in flight no more (R373). -/
def State.settleUpdates (s : State) : State :=
  let waiting (u : Update) : Bool := s.tlk.lines.any (fun l => l.packets.any (fun p => p.upd == u.num + 1))
  { s with pnl := { s.pnl with updates := s.pnl.updates.filter (fun (u : Update) => u.left != [] || waiting u) } }

/-- The instant the mark of a line leaves (R349): the first block-row boundary at or after its start + T_pipe. -/
def State.markAt (s : State) (l : LinkLine) : Rat :=
  let x := l.start + 3200 * (tickNs : Rat)
  rowBoundary (s.tlk.grid.getD x) x

/-- LINE_MARK (R340, R342, R349): the oldest line's mark leaves, its packets after it on the groups that still take marks, and IDLE rows
fill the rest. T_PIPE shows the delay. -/
def State.lineMark (s : State) : State :=
  match s.tlk.lines with
  | [] => s
  | l :: rest =>
    let x := s.markAt l
    if (s.now : Rat) < x then s
    else
      let on := s.markGroups
      let f := l.frame % 2 ^ 32
      let h := b2n l.holdAll
      let s1 : State := { s with tlk := { s.tlk with
        lines := rest
        mark := some (l.line, f, h)
        sent := []
        grid := some x } }
      let s2 := on.foldl (fun s n => s.sendMark l.line f h x n) (s1.put F.TLK_DELAY_T_PIPE (min 0xFFFF ((x - l.start) / 16).floor.toNat))
      let s3 := on.foldl State.sendIdle (s2.sendPackets (l.packets.filter (fun p => on.contains p.group)))
      (s3.tlk.sent.foldl State.packetLeft s3).settleUpdates

/-- A die-edge FIFO of a lane underran (R23, R350): the packet that its group is sending goes out with its CRC inverted. Between packets
there is none, and a further underrun in the same packet is logged and changes it no more. -/
def State.linkFifo (s : State) (lane : Nat) : State :=
  let g := lane / 6
  let hit (p : Packet) : Bool := p.group == g && decide (p.at_ ≤ (s.now : Rat)) && decide ((s.now : Rat) < p.leftAt)
  match s.tlk.sent.find? hit with
  | none => s
  | some p =>
    if p.badCrc then s.event 0x0D33 0 g lane
    else
    let o := 96 * ((p.at_ - (s.tlkGroup g).wireAt) / (rowTicks : Rat)).floor.toNat - 96 + 8 + p.payload.length
    let s0 : State := { s with tlk := { s.tlk with
      sent := modAt s.tlk.sent (s.tlk.sent.findIdx hit) (fun p => { p with badCrc := true }) } }
    let s1 := s0.onGroup g (fun x => { x with wire := invertBytes o 4 x.wire })
    (s1.count Reg.TLK_SNAP_FIFO 1).event 0x0D33 0 g lane

/-! ### Pad read-back (R329, R361) -/

/-- The checks of R361 on a packet that left the balls: HCRC, CRC and ALIVE, with the length and type that they cover. -/
def Packet.checksOk (p : Packet) (raw : List Nat) : Bool :=
  let n := fieldLE raw 4 2
  crc16 (raw.take 6) == fieldLE raw 6 2 && raw.length == n + 12 && crc32 (raw.take (n + 8)) == fieldLE raw (n + 8) 4 &&
    raw.getD 0 0 / 16 == p.alive && raw.getD 0 0 % 16 == p.typ

/-- The comparison of R361: the codes of a LINE that left against the Furrow's signature. -/
def Packet.codesOk (p : Packet) (raw : List Nat) : Bool :=
  p.typ != 1 || crc32c (lineCodes (raw.getD 1 0) (slice raw 8 (fieldLE raw 4 2))) == p.code

/-- Start, mode and first row of a frame: the one in progress, the next, whose rows panel-memory mode may send before it starts, or the one
before, whose last rows are still on their way (R322, R329). -/
def State.frameAt (s : State) (f : Nat) : Option (Rat × Nat × Nat) :=
  if f = s.frameNo then some (s.out.start, s.out.mode, s.out.row0)
  else if f = s.frameNo + 1 then some (s.out.next, s.out.nmode, s.out.nrow0)
  else if f + 1 = s.frameNo then some (s.out.prevStart, s.out.prevMode, s.out.prevRow0)
  else none

/-- A light-latency measurement (R329): a packet with a row of composed frame `f` was seen at the present stamp. A frame gives one from the row
ROW0 + Y_REF, where several groups hold the row or send it in parts the first (DESIGN CHOICE, log entry 156). -/
def State.lightMeasure (s : State) (g row f : Nat) : State :=
  if f ≤ s.out.lightFrame then s
  else match s.frameAt f with
    | none => s
    | some (start, mode, row0) =>
      if row ≠ row0 + min (s.live F.OUT_LIGHT_Y_REF) ((modeAt mode).rows - 1) then s
      else
        let d : Rat := ((s.get (F.TLK_TILE_INFO_D_PANEL_US.nth g) * 1000 : Nat) : Rat)
        match (if panelMemory mode then s.scanPass row (s.now : Rat) else some (s.now : Rat)) with
        | none => s
        | some x =>
          let m := (x - start) / (tickNs : Rat) + d
          { s with out := { s.out with lights := (m :: s.out.lights).take 16, lightFrame := f } }

/-- A mismatch in a group's read-back (R361). -/
def State.rbMismatch (s : State) (g row : Nat) : State := (s.count Reg.TLK_SNAP_READBACK 1).eventOnce 0x0D30 g 0 g row

/-- A control block whose CHECK passes (R342). -/
def checkOk (raw : List Nat) : Bool := raw.length == 16 && crc16 (raw.take 14) == fieldLE raw 14 2

/-- The bytes of a control block that a read-back carries: those after the element 0x109, which stands for its sync header 1001 (R339). -/
def controlBytes (raw : List Nat) : Option (List Nat) := if raw.head? = some 0x109 then some raw.tail else none

/-- READBACK_PACKET (R361): group g's read-back cannot lock, or sees the bytes of a control block or of its next packet that has
left. READBACK_EN at 0 stops the comparison of codes alone. A control block has no row: its event names row 0 (log entry 158). -/
def State.readback (s : State) (g : Nat) (locks : Bool) (raw : List Nat) : State :=
  if locks = false then
    let s1 := if (s.tlkGroup g).rbLost then s else s.event 0x0D31 0 g 0
    s1.onGroup g (fun x => { x with rbLost := true })
  else
    let s0 := s.onGroup g (fun x => { x with rbLost := false })
    let en := s.flag F.TLK_CTRL_READBACK_EN
    match controlBytes raw with
    | some b => if checkOk b then s0 else s0.rbMismatch g 0
    | none =>
      let mine (p : Packet) : Bool := p.group == g && decide (p.leftAt ≤ (s.now : Rat))
      match s.tlk.sent.find? mine with
      | none => s0
      | some p =>
        let s1 : State := { s0 with tlk := { s0.tlk with sent := s0.tlk.sent.eraseIdx (s.tlk.sent.findIdx mine) } }
        let s2 := if p.typ = 1 then s1.lightMeasure g p.row p.frame else s1
        if p.checksOk raw && (!en || p.codesOk raw) then s2
        else
          let s3 := s2.rbMismatch g p.row
          if panelMemory s.out.mode = true ∧ 1 ≤ p.typ ∧ p.typ ≤ 3 then s3.markRow g p.row else s3

/-! ### Meanings -/

/-- LINE_START (R350). -/
def execLineStart (t corr : Nat) (bad : List (Nat × Nat)) (s : State) : Out := .next (s.whenOn t (fun s => s.lineStart corr bad))

/-- LINE_MARK (R349). -/
def execLineMark (t : Nat) (s : State) : Out := .next (s.whenOn t State.lineMark)

/-- TERMINATION_SENSED (R354). -/
def execTerminationSensed (t n mask : Nat) (s : State) : Out := .next (s.whenOn t (fun s => s.terminationSensed (n % 8) mask))

/-- DETECT_TIMEOUT (R354). -/
def execDetectTimeout (t n : Nat) (s : State) : Out := .next (s.whenOn t (fun s => s.detectTimeout (n % 8)))

/-- DETECT_RETRY (R354). -/
def execDetectRetry (t n : Nat) (s : State) : Out := .next (s.whenOn t (fun s => s.detectRetry (n % 8)))

/-- BACKCHANNEL_SYMBOL_LOCK (R354). -/
def execBackchannelSymbolLock (t n : Nat) (s : State) : Out := .next (s.whenOn t (fun s => s.symbolLock (n % 8)))

/-- PATTERN_TIMEOUT (R354). -/
def execPatternTimeout (t n : Nat) (s : State) : Out := .next (s.whenOn t (fun s => s.patternTimeout (n % 8)))

/-- LOCK (R354, R359): `b` is the message from TYPE to its CRC. -/
def execLock (t n : Nat) (b : List Nat) (s : State) : Out :=
  .next (s.whenOn t (fun s => s.bcMessage (n % 8) 3 2 b (fun s p => s.lockMsg (n % 8) p)))

/-- LOCK_TIMEOUT (R354). -/
def execLockTimeout (t n : Nat) (s : State) : Out := .next (s.whenOn t (fun s => s.lockTimeout (n % 8)))

/-- CONFIG (R355). -/
def execConfig (t n : Nat) (s : State) : Out := .next (s.whenOn t (fun s => s.sendConfig (n % 8)))

/-- CAPS (R355, R359). -/
def execCaps (t n : Nat) (b : List Nat) (s : State) : Out :=
  .next (s.whenOn t (fun s => s.bcMessage (n % 8) 2 24 b (fun s p => s.caps (n % 8) p)))

/-- EXCHANGE_TIMEOUT (R354). -/
def execExchangeTimeout (t n : Nat) (s : State) : Out := .next (s.whenOn t (fun s => s.exchangeTimeout (n % 8)))

/-- RETRAIN (R356): the bits written to TLK_CTRL.RETRAIN. -/
def execRetrain (t mask : Nat) (s : State) : Out := .next (s.whenHost t (fun s => s.retrainMask mask))

/-- BACKCHANNEL_TIMEOUT (R360). -/
def execBackchannelTimeout (t n : Nat) (s : State) : Out := .next (s.whenOn t (fun s => s.bcTimeout (n % 8)))

/-- DISCHARGE_TIMEOUT (R354). -/
def execDischargeTimeout (t n : Nat) (s : State) : Out := .next (s.whenOn t (fun s => s.dischargeTimeout (n % 8)))

/-- READBACK_PACKET (R361). -/
def execReadbackPacket (t g : Nat) (locks : Bool) (raw : List Nat) (s : State) : Out :=
  .next (s.whenOn t (fun s => s.readback (g % 8) locks raw))

end Sys2Proof.Machine
end

