-- ==== Sys2Proof/Machine/Panel.lean ====
section
/-!
DEFINITION. The panel drive (R372 to R385): updates, frame starts with SELECT and the black frames, discharge, halts, and demura
maps; and the Rook's band starts and squares with the updates they cut and form.
-/

namespace Sys2Proof.Machine

/-! ### Updates (R372 to R374) -/

/-- Whether a segment of a row is sent, and whether for balance alone (R372). The black frames leave every VALID clear (R376), so while they
are sent every segment is wanted. -/
def State.segWanted (s : State) (st g : Nat) (fr : FurrowRow) (j : Nat) : Bool × Bool :=
  let k := s.panel.segNum g fr.row j
  let e := s.segEntry st k
  let changed := s.pnlSt == 1 || !e.2 || e.1 != s.segSig fr g j || s.pnl.rowMarks.contains (g, fr.row)
  let bal := s.pnl.balMarks.contains (st, k)
  (changed || bal, bal && !changed)

/-- Runs of sent segments of a row as (row, first, count, for balance alone) (R372): `j` is the place looked at. -/
def runsOf (row : Nat) : Nat → List (Bool × Bool) → Option (Nat × Nat × Nat) → List (Nat × Nat × Nat × Nat)
  | _, [], none => []
  | _, [], some (a, n, b) => [(row, a, n, b)]
  | j, (w, bal) :: ws, cur =>
    if w then
      match cur with
      | some (a, n, b) => runsOf row (j + 1) ws (some (a, n + 1, b + b2n bal))
      | none => runsOf row (j + 1) ws (some (j, 1, b2n bal))
    else
      match cur with
      | some (a, n, b) => (row, a, n, b) :: runsOf row (j + 1) ws none
      | none => runsOf row (j + 1) ws none

/-- The packets a row needs (R372): a run at the row's end goes as the whole row where 3W is not a multiple of 8. -/
def State.rowRuns (s : State) (st g : Nat) (fr : FurrowRow) : List (Nat × Nat × Nat × Nat) :=
  let r := s.panel.rect g
  let runs := runsOf fr.row 0 ((List.range r.segs).map (s.segWanted st g fr)) none
  match runs.getLast? with
  | some (_, a, n, _) =>
    if 3 * r.w % 8 ≠ 0 ∧ a + n = r.segs then [(fr.row, 0, r.segs, (runs.map (fun q => q.2.2.2)).foldl (· + ·) 0)] else runs
  | none => runs

/-- UPDATE_FORM (R373): the update of a band and group whose rows are ready. Those of the first composed frame form while the last black
frames are sent (R376). -/
def State.formUpdate (s : State) (q : GroupReady) : State :=
  match s.brd.frames.find? (fun f => f.frame == q.frame) with
  | none => s
  | some f =>
    if panelMemory f.mode = false ∨ (s.pnlSt ≠ 1 ∧ s.pnlSt ≠ 2) then s
    else
      let r := s.panel.rect q.group
      let st := if s.twoStates f.epoch f.mode then q.frame % 2 else 0
      let row0 := f.row0 + q.band * f.plan.bandRows
      let n := min f.plan.bandRows ((modeAt f.mode).rows - q.band * f.plan.bandRows)
      let rows := (upFrom row0 n).filter (fun y => decide (r.y0 ≤ y) && decide (y < r.y0 + r.h))
      let frs := rows.filterMap (s.furrowRow q.frame)
      let s1 := frs.foldl (fun s fr => (List.range r.segs).foldl (fun s j => s.segEcc st (s.panel.segNum q.group fr.row j)) s) s
      let left := frs.flatMap (s1.rowRuns st q.group)
      if left.isEmpty then s1
      else
        let xs (e : Nat × Nat × Nat × Nat) : Nat := 3 * (r.segSpan e.2.1).1
        let xe (e : Nat × Nat × Nat × Nat) : Nat := min (xs e + 192 * e.2.2.1) (3 * (r.x0 + r.w)) - 1
        let ks := left.flatMap (fun e => (upFrom (s1.panel.segNum q.group e.1 e.2.1) e.2.2.1))
        let xmin := (left.map xs).foldl min (xs (left.headD (0, 0, 0, 0)))
        let ymin := (left.headD (0, 0, 0, 0)).1
        let u : Update :=
          { num := s1.pnl.nextUpd, seq := q.seq, frame := q.frame, row0 := row0, rows := n, group := q.group, state := st,
            x0 := xmin, x1 := (left.map xe).foldl max 0, y0 := ymin, y1 := (left.map (·.1)).foldl max 0, left := left }
        { s1 with pnl := { s1.pnl with
          updates := s1.pnl.updates ++ [u], nextUpd := s1.pnl.nextUpd + 1,
          rowMarks := s1.pnl.rowMarks.filter (fun m => !(m.1 == q.group && rows.contains m.2)),
          balMarks := s1.pnl.balMarks.filter (fun m => !(m.1 == st && ks.contains m.2)) } }

/-- Form the updates of the groups that became ready since `old`. -/
def State.formUpdates (s : State) (old : List GroupReady) : State :=
  (s.out.ready.filter (fun q => !old.contains q)).foldl State.formUpdate s

/-- Cut the unsent packets of updates (R374). -/
def State.cutUpdates (s : State) (cut : Update → Bool) : State :=
  let segs := (s.pnl.updates.filter cut).flatMap (fun u => u.left.flatMap (fun e =>
    (upFrom (s.panel.segNum u.group e.1 e.2.1) e.2.2.1).map (fun k => (u.state, k))))
  let s1 := segs.foldl (fun s q => s.clearSeg q.1 q.2) s
  let s2 : State := { s1 with pnl := { s1.pnl with updates := s1.pnl.updates.map (fun (u : Update) => if cut u then { u with left := [] } else u) } }
  let s3 := s2.settleUpdates
  if segs.isEmpty then s3 else (s3.count Reg.PNL_SNAP_CUT segs.length).eventOnce 0x0E11 0 0 segs.length 0

/-- ROK_BAND_START with UPDATE_CUT (R232, R374): band b + 2 takes the Furrow buffer of band b. -/
def State.bandStart (s : State) : State :=
  let q := s.brd.rookSeq
  let s1 := s.rokBandStart
  match s1.runningBand with
  | some bd => if s1.brd.rookSeq = q then s1 else s1.cutUpdates (fun u => decide (u.seq + 2 ≤ bd.seq))
  | none => s1

/-- ROK_SQUARE_COMPLETE with UPDATE_FORM (R215, R235, R373). -/
def State.squareDone (s : State) (n corr : Nat) (bad : List (Nat × Nat)) (luts : List (Nat × Nat × Bool)) : State :=
  (s.squareComplete n corr bad luts).formUpdates s.out.ready

/-- TE_DELAYED_SEND (R324): updates whose delay is over may send. -/
def State.teDelayed (s : State) : State :=
  { s with pnl := { s.pnl with updates := s.pnl.updates.map (fun (u : Update) =>
      match u.until_ with
      | some x => if x ≤ (s.now : Rat) then { u with until_ := none } else u
      | none => u) } }

/-! ### Frame starts (R368, R375, R376) -/

/-- The conditions of R376; after an orderly trip no further frame is composed (R501). -/
def State.firstLight (s : State) : Bool :=
  !s.flag F.THM_STATUS_ORDERLY && s.imageOn && s.out.running && s.panel.live.all (fun g => s.tlkSt g == 5) && s.allBuilt

/-- Every DC counter is 0 (R368). -/
def State.zeroCounters (s : State) : State :=
  match s.region 3 with
  | some r => s.zeroRange r.base ((s.panel.width * s.panel.height + 1) / 2)
  | none => s

/-- BLACKING begins (R368, R376): every counter is 0. The tiles, which have just come up, show state 0 (DESIGN CHOICE, log entry 175). -/
def State.blackStart (s : State) : State :=
  let s1 := s.zeroCounters.put F.PNL_STATUS_SHOWN 0
  let n := if s.twoNow then 4 else 2
  { (s1.put F.PNL_STATUS_STATE 1) with pnl := { s1.pnl with black := 1, blackN := n, updates := [], rowMarks := [], balMarks := [] } }

/-- What the black frames leave (R376): every counter 0, every stored polarity negative, every VALID clear, in rows that they did not carry and
in a state that they did not write too. -/
def State.blackEnd (s : State) : State :=
  s.panel.allSegs.foldl (fun s k => [0, 1].foldl (fun s st => s.setSeg st k (s.segEntry st k).1 1 false) s) s.zeroCounters

/-- SELECT (R375): generator GEN is on or off for this frame's target presentation time, under the settings of its epoch. -/
def State.selectState (s : State) : State :=
  if s.twoNow then
    let target := ((s.brd.frames.find? (fun f => f.frame == s.frameNo)).map (·.target)).getD (s.fullR s.out.start)
    let want := if blinkWith (s.settingAt s.out.epoch) (s.settingAt s.out.epoch F.PNL_CTRL_GEN) target then 0 else 1
    if want = s.get F.PNL_STATUS_SHOWN then { s with pnl := { s.pnl with select := none } }
    else
      let s1 := s.put F.PNL_STATUS_SHOWN want
      { s1 with pnl := { s1.pnl with select := some want } }
  else { s with pnl := { s.pnl with select := none } }

/-- What the panel drive does at a frame start (R375, R376, R381). No black frame is sent while the picture is held (R352). -/
def State.panelFrame (s : State) : State :=
  match s.pnlSt with
  | 0 => if s.firstLight then s.blackStart else s
  | 1 =>
    if s.holdAll then s
    else if s.pnl.black < s.pnl.blackN then { s with pnl := { s.pnl with black := s.pnl.black + 1 } }
    else (s.blackEnd.put F.PNL_STATUS_STATE 2).selectState
  | 2 => s.selectState
  | _ => s

/-- FRAME_START: the counters of the frame that ends move, the next frame begins, and the panel drive acts (R306, R368). -/
def State.frameStart (s : State) : State :=
  match s.out.gen with
  | none => s
  | some g =>
    if s.frameDue = false then s
    else
      let sweep := s.out.running && !s.pnl.sweepOff && (s.pnlSt == 1 || s.pnlSt == 2 || s.pnlSt == 4)
      let s0 := if sweep then s.sweep 1 else s
      let s1 : State := { s0 with pnl := { s0.pnl with sweepDue := sweep } }
      (s1.frameBegin g).panelFrame

/-- DC_SWEEP_COMPLETE (R370). -/
def State.sweepComplete (s : State) : State :=
  if s.pnl.sweepDue then
    let s1 : State := { s with pnl := { s.pnl with sweepDue := false } }
    s1.sweepMark
  else s

/-- The panel drive halts (R381): a reset, a fatal freeze or a full-image switch. What was not sent is sent anew later. -/
def State.panelHalt (s : State) : State :=
  if s.pnlSt = 2 then
    let s1 := s.cutUpdates (fun _ => true)
    let from_ := if s.pnl.sweepOff then s.pnl.heldFrom else s1.frameNo
    { (s1.put F.PNL_STATUS_STATE 3) with pnl := { s1.pnl with
        heldFrom := from_
        sweepOff := false
        select := none } }
  else s

/-- A PNL reset or a fatal freeze stops the sweep in BLACKING and DISCHARGING too, which it does not end (R370, R377). -/
def State.panelStop (s : State) : State :=
  if (s.pnlSt = 1 ∨ s.pnlSt = 4) ∧ s.pnl.sweepOff = false then
    { s with pnl := { s.pnl with sweepOff := true, heldFrom := s.frameNo } }
  else s.panelHalt

/-- Release, at the next marker (R370, R381): one catch-up sweep, then RUNNING from HALTED. -/
def State.panelRelease (s : State) : State :=
  let swept := s.sweep (s.frameNo - s.pnl.heldFrom)
  if s.pnlSt = 3 then swept.put F.PNL_STATUS_STATE 2
  else if s.pnl.sweepOff then { swept with pnl := { swept.pnl with sweepOff := false } }
  else s

/-! ### Discharge (R377) -/

/-- POWER_ON (R377): in OFF, the groups restart at DETECT, unless ORDERLY is asserted (R501). -/
def State.powerOn (s : State) : State :=
  if s.pnlSt = 0 ∧ s.imageOn = true ∧ s.flag F.THM_STATUS_ORDERLY = false then s.detectGroups s.panel.live else s

/-- The next phase is issued, or the sequence ends (R377, R381); on a brown-out no phase follows ALL_BLACK. -/
def State.nextPhase (s : State) : State :=
  if s.pnl.phase < 3 ∧ s.pnl.brown = false then
    { s with pnl := { s.pnl with phaseDue := some (s.pnl.phase + 1), phaseAt := s.now } }
  else s.put F.PNL_STATUS_STATE 0

/-- Every group's STATUS reports the phase in progress done. -/
def State.phaseDone (s : State) : Bool :=
  s.pnlSt == 4 && s.pnl.phase != 0 && s.pnl.phaseDue.isNone && s.panel.live.all (fun g => decide (s.pnl.phase ≤ (s.tlkGroup g).phase))

/-- DISCHARGE_PHASE_TIMEOUT (R377): DURATION_MS + 10 ms after the phase was sent. -/
def State.phaseTimeout (s : State) : State :=
  if s.pnlSt = 4 ∧ s.pnl.phase ≠ 0 ∧ s.pnl.phaseDue = none ∧ s.pnl.phaseAt + (s.phaseMs s.pnl.phase + 10) * tickMs ≤ s.now then
    s.nextPhase
  else s

/-- A STATUS message, with what it lets the discharge do (R360, R377). -/
def State.statusAll (s : State) (n : Nat) (b : List Nat) : State :=
  let s1 := s.statusMsg n b
  if s1.phaseDone then s1.nextPhase else s1

/-! ### Demura maps (R378, R379) -/

/-- A demura load is refused: DONE, BUSY, CODE and the vector (R379, R384). -/
def State.dmrRefuse (s : State) (code : Nat) : State :=
  let s1 := ((s.put F.PNL_DMR_STATUS_CODE code).put F.PNL_DMR_STATUS_BUSY 0).put F.PNL_DMR_STATUS_DONE 1
  let s2 : State := { s1 with pnl := { s1.pnl with dmr := .idle, dmrFile := [], dmrOut := [] } }
  (s2.event code 0 0 0).raise 4

/-- DEMURA_LOAD (R379): the file is copied behind the two halves. -/
def State.dmrLoad (s : State) : State :=
  if s.flag F.PNL_DMR_STATUS_BUSY then s.event 0x0E24 0 0 0
  else if s.sho.run.isNone then s.dmrRefuse 0x0E20
  else
    let n := s.get F.PNL_DMR_LEN_LEN
    let t := s.panel.demuraHalf
    match s.region 4 with
    | none => s.dmrRefuse 0x0E20
    | some r =>
      if r.size < 2 * t + n then s.dmrRefuse 0x0E20
      else
        let b := s.read (s.get F.PNL_DMR_ADDR_ADDR * 4096) n
        let s1 := ((s.noteRead 15 (s.get F.PNL_DMR_ADDR_ADDR * 4096) n).store 15 (r.base + 2 * t) b).put F.PNL_DMR_STATUS_BUSY 1
        { s1 with pnl := { s1.pnl with dmr := .check, dmrFile := b } }

/-- The header, padding, trailer and length rules of R378 and R38. -/
def dmrFormatOk (b : List Nat) : Bool :=
  let n := fieldLE b 0x0C 4
  decide (128 ≤ b.length) && slice b 0 4 == [0x44, 0x4D, 0x52, 0x41] && b.getD 4 0 == 1 && decide (b.getD 5 0 ≤ 3) &&
    slice b 6 2 == [0, 0] && decide (1 ≤ n) && decide (n ≤ 1073741824) && (slice b 0x60 28).all (· == 0) &&
    crc32c (b.take 0x7C) == fieldLE b 0x7C 4 && b.length == 128 + alignUp n 16 + 196 &&
    (slice b (128 + n) (alignUp n 16 - n)).all (· == 0) && slice b (128 + alignUp n 16 + 97) 3 == [0, 0, 0]

/-- The half that is not in use (R379). -/
def State.dmrSpare (s : State) : Nat := if s.pnl.dmrOn then 1 - s.get F.PNL_STATUS_DMR_HALF else 0

/-- DEMURA_CHECKED (R379): the security module's answers are the signature's result, the tag's result and the plaintext. -/
def State.dmrChecked (s : State) (sigOk tagOk : Bool) (plain : List Nat) : State :=
  let b := s.pnl.dmrFile
  let n := fieldLE b 0x0C 4
  let want := 52 * s.panel.patchW * s.panel.patchH
  if s.pnl.dmr ≠ .check then s
  else if !dmrFormatOk b then s.dmrRefuse 0x0E20
  else if fieldLE b 8 2 ≠ s.panel.patchW ∨ fieldLE b 0x0A 2 ≠ s.panel.patchH ∨ slice b 0x10 48 ≠ slice s.nvs.page 0x20 48 then
    s.dmrRefuse 0x0E23
  else if !s.secOk then s.dmrRefuse 0x0E26
  else if !sigOk ∨ !s.panelSigner (slice b (128 + alignUp n 16) 97) then s.dmrRefuse 0x0E21
  else if !tagOk ∨ (s.otpValue (2 + b.getD 5 0)).isNone then s.dmrRefuse 0x0E22
  else match loamAll 4 (n + 1) (slice plain 0 n) with
    | none => s.dmrRefuse 0x0E22
    | some o =>
      if o.length ≠ want then s.dmrRefuse 0x0E20
      else
        let t := s.panel.demuraHalf
        let b := s.regionBase 4
        let j := fwJob 2 (b + 2 * t + 128) n (b + s.dmrSpare * t) t
        ({ s with pnl := { s.pnl with dmr := .decode, dmrOut := o } } : State).pushFw j

/-- The map is published (R379, R380). -/
def State.dmrPublish (s : State) : State :=
  let h := s.dmrSpare
  let s1 := (s.put F.PNL_STATUS_DMR_HALF h).put F.PNL_DMR_STATUS_VALID 1
  { s1 with pnl := { s1.pnl with dmrOn := true, dmrPend := false, dmrEpoch := 0 } }

/-- DEMURA_DECODED (R379): the engine that runs the load's job of the firmware's ring has decoded it; the map stands in the half not in
use. Before any epoch is sealed it is published at once. -/
def State.dmrDecoded (s : State) : State :=
  if s.pnl.dmr ≠ .decode ∨ [0, 1].any (s.runsFw 2) = false then s
  else
    let s0 := s.endFw 2
    let port := if s.runsFw 2 0 then 2 else 3
    let src := (s.regionBase 4 + 2 * s.panel.demuraHalf + 128, fieldLE s.pnl.dmrFile 0x0C 4)
    let s1 := (s0.noteRead port src.1 src.2).store port (s.regionBase 4 + s.dmrSpare * s.panel.demuraHalf) s.pnl.dmrOut
    let s2 := (s1.put F.PNL_DMR_STATUS_BUSY 0).put F.PNL_DMR_STATUS_DONE 1
    let s3 : State := { s2 with pnl := { s2.pnl with dmr := .idle, dmrFile := [], dmrOut := [], dmrPend := true, dmrEpoch := 0, dmrAt := s.now } }
    let s4 := s3.raise 4
    if s4.cmt.last = 0 then s4.dmrPublish else s4

/-- At a seal, a map decoded before the latch instant goes with that epoch (R195, R379). -/
def State.dmrAtLatch (s : State) (epoch : Nat) : State :=
  if s.pnl.dmrPend = true ∧ s.pnl.dmrEpoch = 0 ∧ s.pnl.dmrAt < s.now then { s with pnl := { s.pnl with dmrEpoch := epoch } } else s

/-- At that epoch's marker the map comes into use. -/
def State.dmrAtMarker (s : State) (epoch : Nat) : State :=
  if s.pnl.dmrPend = true ∧ s.pnl.dmrEpoch = epoch then s.dmrPublish else s

/-! ### Meanings -/

/-- ROK_BAND_START (R232, R374). -/
def execRokBandStart (t : Nat) (s : State) : Out := .next (s.whenOn t State.bandStart)

/-- ROK_SQUARE_COMPLETE (R215, R373). -/
def execRokSquareComplete (t n corr : Nat) (bad : List (Nat × Nat)) (luts : List (Nat × Nat × Bool)) (s : State) : Out :=
  .next (s.whenOn t (fun s => s.squareDone (n % 16) corr bad luts))

/-- FRAME_START (R306). -/
def execFrameStart (t : Nat) (s : State) : Out := .next (s.whenOn t State.frameStart)

/-- TE_DELAYED_SEND (R324). -/
def execTeDelayedSend (t : Nat) (s : State) : Out := .next (s.whenOn t State.teDelayed)

/-- STATUS_MESSAGE (R360). -/
def execStatusMessage (t n : Nat) (b : List Nat) (s : State) : Out :=
  .next (s.whenOn t (fun s => s.bcMessage (n % 8) 1 24 b (fun s p => s.statusAll (n % 8) p)))

/-- DC_SWEEP_COMPLETE (R370). -/
def execDcSweepComplete (t : Nat) (s : State) : Out := .next (s.whenOn t State.sweepComplete)

/-- POWER_ON (R377). -/
def execPowerOn (t : Nat) (s : State) : Out := .next (s.whenHost t State.powerOn)

/-- DISCHARGE_PHASE_TIMEOUT (R377). -/
def execDischargePhaseTimeout (t : Nat) (s : State) : Out := .next (s.whenOn t State.phaseTimeout)

/-- DEMURA_LOAD (R379). -/
def execDemuraLoad (t : Nat) (s : State) : Out := .next (s.whenHost t State.dmrLoad)

/-- DEMURA_CHECKED (R379). -/
def execDemuraChecked (t : Nat) (sigOk tagOk : Bool) (plain : List Nat) (s : State) : Out :=
  .next (s.whenOn t (fun s => s.dmrChecked sigOk tagOk plain))

/-- DEMURA_DECODED (R379). -/
def execDemuraDecoded (t : Nat) (s : State) : Out := .next (s.whenOn t State.dmrDecoded)

end Sys2Proof.Machine
end

