-- ==== Sys2Proof/Machine/Eth.lean ====
section
/-!
DEFINITION. Ethernet ports and frames (R427 to R436): reception, forwarding as a one-step transparent clock, the receive
and transmit rings. Frames are byte lists; header fields are big-endian, as the network standards have them.
-/

namespace Sys2Proof.Machine

/-! ### Frame fields -/

/-- Big-endian field of `n` bytes at `off`. -/
def fieldBE (b : List Nat) (off n : Nat) : Nat := beNat (slice b off n)

/-- The `n` big-endian bytes of a number. -/
def beBytes (n v : Nat) : List Nat := (leBytes n v).reverse

/-- A byte list with the bytes at `off` replaced. -/
def putBytes (b : List Nat) (off : Nat) (v : List Nat) : List Nat := b.take off ++ v ++ b.drop (off + v.length)

/-- Where the EtherType stands after up to two 802.1Q tags (R428). -/
def typeAt (b : List Nat) : Nat :=
  let tag (o : Nat) : Bool := fieldBE b o 2 == 0x8100 || fieldBE b o 2 == 0x88A8
  if tag 12 then (if tag 16 then 20 else 16) else 12

/-- Whether a frame carries a tag (R436). -/
def taggedFrame (b : List Nat) : Bool := typeAt b != 12

/-- Where a PTP message stands in a frame. -/
structure PtpAt where
  /-- Offset of the PTP header. -/
  off : Nat
  /-- Offset of the UDP checksum, none for IEEE 802.3. -/
  sum : Option Nat
  /-- IPv6. -/
  v6 : Bool
  /-- UDP destination port, 319 for IEEE 802.3 too. -/
  port : Nat
  /-- In a form of R433; false for fragments and extension headers. -/
  plain : Bool
deriving DecidableEq, Repr

/-- Skip IPv6 extension headers to UDP: offset of the UDP header. -/
def skipExt (b : List Nat) : Nat → Nat → Nat → Option Nat
  | 0, _, _ => none
  | k + 1, nh, o =>
    if nh = 17 then some o
    else if nh = 0 ∨ nh = 43 ∨ nh = 60 then skipExt b k (b.getD o 0) (o + 8 * (b.getD (o + 1) 0 + 1))
    else if nh = 44 then skipExt b k (b.getD o 0) (o + 8)
    else none

/-- Find a PTP message in a frame (R433, R434). -/
def ptpAt (b : List Nat) : Option PtpAt :=
  let e := typeAt b
  let p := e + 2
  let udp (u : Nat) (v6 plain : Bool) : Option PtpAt :=
    let d := fieldBE b (u + 2) 2
    if d = 319 ∨ d = 320 then some ⟨u + 8, some (u + 6), v6, d, plain⟩ else none
  match fieldBE b e 2 with
  | 0x88F7 => some ⟨p, none, false, 319, true⟩
  | 0x0800 =>
    let u := p + 4 * (b.getD p 0 % 16)
    let frag := fieldBE b (p + 6) 2 % 0x4000
    if b.getD p 0 / 16 ≠ 4 ∨ b.getD p 0 % 16 < 5 ∨ b.getD (p + 9) 0 ≠ 17 ∨ frag % 0x2000 ≠ 0 then none
    else udp u false (frag == 0)
  | 0x86DD =>
    if b.getD (p + 6) 0 = 17 then udp (p + 40) true true
    else match skipExt b 8 (b.getD (p + 6) 0) (p + 40) with
      | some u => udp u true false
      | none => none
  | _ => none

/-- PTP message type (IEEE 1588). -/
def ptpType (b : List Nat) (q : PtpAt) : Nat := b.getD q.off 0 % 16

/-- An event message in a form of R433: types 0 to 3, major version 2. -/
def isEvent (b : List Nat) (q : PtpAt) : Bool :=
  q.plain && q.port == 319 && decide (ptpType b q ≤ 3) && b.getD (q.off + 1) 0 % 16 == 2

/-- An event message in any other form (R434). -/
def isOtherEvent (b : List Nat) (q : PtpAt) : Bool := !isEvent b q && q.port == 319 && decide (ptpType b q ≤ 3)

/-- Whether a frame is a recognised event message. -/
def eventFrame (b : List Nat) : Bool :=
  match ptpAt b with
  | some q => isEvent b q
  | none => false

/-! ### Addresses (R428, R433, R435) -/

/-- Destination MAC of a frame as a number, first byte most significant. -/
def destMac (b : List Nat) : Nat := fieldBE b 0 6

/-- The network's MAC address: the value of TIM_MAC_A or TIM_MAC_B. -/
def State.netMac (s : State) (net : Nat) : Nat := s.get (if net = 0 then F.TIM_MAC_A_MAC else F.TIM_MAC_B_MAC)

/-- The network's IPv4 address. -/
def State.netIp (s : State) (net : Nat) : Nat := s.get (if net = 0 then F.TIM_IPV4_A_ADDR else F.TIM_IPV4_B_ADDR)

/-- IP destination of a frame, 0 for a frame without IP. -/
def destIp (b : List Nat) : Nat :=
  let p := typeAt b + 2
  match fieldBE b (typeAt b) 2 with
  | 0x0800 => fieldBE b (p + 16) 4
  | 0x86DD => fieldBE b (p + 24) 16
  | _ => 0

/-- A frame that R433 keeps at the device: peer-delay addresses. -/
def peerFrame (b : List Nat) : Bool :=
  destMac b == 0x0180C200000E || destIp b == 0xE000006B || destIp b == 0xFF02000000000000000000000000006B

/-- A pause frame (R427): MAC control, opcode 1. -/
def pauseFrame (b : List Nat) : Bool := fieldBE b 12 2 == 0x8808 && fieldBE b 14 2 == 1

/-- Whether a received frame is forwarded (R428, R433). -/
def State.forwards (s : State) (net : Nat) (b : List Nat) : Bool :=
  let d := destMac b
  !(d == s.netMac net || pauseFrame b || d / 16 == 0x0180C200000 || peerFrame b)

/-- Whether a destination matches an entry of TIM_MCAST (R435). -/
def State.mcastHit (s : State) (d : Nat) : Bool :=
  (List.range 16).any (fun n => s.flag (F.TIM_MCAST_VALID.nth n) && s.get (F.TIM_MCAST_MAC.nth n) == d)

/-- State of servo `v` (R439). -/
def State.srvState (s : State) (v : Nat) : Nat := s.get (F.TIM_SRV_STATUS_STATE.nth v)

/-- A PTP message of the servo's domain, addressed to the profile's groups or to the servo's own addresses (R435). -/
def State.servoDomain (s : State) (net : Nat) (b : List Nat) : Bool :=
  match ptpAt b with
  | none => false
  | some q =>
    b.getD (q.off + 4) 0 == s.get (F.TIM_SRV_CFG_DOMAIN.nth net) &&
      (destMac b == 0x011B19000000 || destMac b == s.netMac net || destIp b == 0xE0000181 || (s.netIp net != 0 && destIp b == s.netIp net))

/-- Such a message in the servo's transport and in a form that it reads (R437). -/
def State.servoFrame (s : State) (net : Nat) (b : List Nat) : Bool :=
  match ptpAt b with
  | none => false
  | some q =>
    let l2 := s.flag (F.TIM_SRV_CFG_TRANSPORT.nth net)
    s.servoDomain net b && (l2 || s.netIp net != 0) && q.plain && !q.v6 && (q.sum.isNone == l2) && b.getD (q.off + 1) 0 % 16 == 2

/-- Whether the servo consumes it: it is enabled, and the message is no management or signalling (R437). -/
def State.consumed (s : State) (net : Nat) (b : List Nat) : Bool :=
  match ptpAt b with
  | none => false
  | some q => s.servoFrame net b && s.srvState net != 0 && ptpType b q != 0xC && ptpType b q != 0xD

/-- Whether a frame is for the device (R435). -/
def State.forDevice (s : State) (net : Nat) (b : List Nat) : Bool :=
  let d := destMac b
  d == s.netMac net || d == 0xFFFFFFFFFFFF || s.mcastHit d || s.servoDomain net b

/-! ### Rings (R436) -/

/-- Address of entry `i` of ring `r`. -/
def State.timEntry (s : State) (r i : Nat) : Nat := s.get (F.TIM_RING_BASE_BASE.nth r) * 16 + (if r = 2 then 32 else 16) * i

/-- Write a frame to the receive ring, or drop it. -/
def State.rxDeliver (s : State) (port ti : Nat) (b : List Nat) : State :=
  let n := s.get (F.TIM_RING_SIZE_ENTRIES.nth 0)
  let tail := s.get (F.TIM_RING_TAIL_TAIL.nth 0)
  if n < 2 ∨ s.get (F.TIM_RING_HEAD_HEAD.nth 0) = tail then
    (s.count Reg.TIM_SNAP_RX_DROP 1).eventOnce 0x1113 0 0 port 0
  else
    let a := s.timEntry 0 tail
    let flags := b2n (ptpAt b).isSome + 2 * b2n (taggedFrame b)
    let s1 := ((s.noteRead 12 a 8).store 12 (s.readLE a 8) b).store 12 (a + 8) (leBytes 2 b.length ++ [port, flags] ++ leBytes 4 (s.short ti))
    (s1.put (F.TIM_RING_TAIL_TAIL.nth 0) ((tail + 1) % n)).raise 5

/-- Move the transmit ring's TAIL over completed slots. -/
def advanceTail (n : Nat) : Nat → List Nat → Nat → Nat × List Nat
  | 0, done, tail => (tail, done)
  | k + 1, done, tail =>
    if done.contains tail then advanceTail n k (done.filter (fun x => x != tail)) ((tail + 1) % n) else (tail, done)

/-- Complete a transmit slot (R436): TAIL advances in ring order. -/
def State.txComplete (s : State) (slot : Nat) : State :=
  let n := max 1 (s.get (F.TIM_RING_SIZE_ENTRIES.nth 1))
  let tail := s.get (F.TIM_RING_TAIL_TAIL.nth 1)
  let r := advanceTail n n (slot :: s.tim.txDone) tail
  let s1 : State := { s with tim := { s.tim with txDone := r.2 } }
  if r.1 = tail then s1 else (s1.put (F.TIM_RING_TAIL_TAIL.nth 1) r.1).raise 5

/-- Complete a transmit slot that is not sent: LEN 0 (R436). -/
def State.txRefuse (s : State) (slot : Nat) : State :=
  (s.store 12 (s.timEntry 1 slot + 8) [0, 0]).txComplete slot

/-! ### Egress (R429) -/

/-- Whether a port is up (R427). -/
def State.portUp (s : State) (p : Nat) : Bool := bitAt (s.get F.TIM_STATUS_PORT_UP) p

/-- Change port `p`. -/
def State.onPort (s : State) (p : Nat) (f : EthPort → EthPort) : State :=
  { s with tim := { s.tim with ports := modAt s.tim.ports p f } }

/-- Bytes that wait on an egress port, FCS included. -/
def EthPort.held (x : EthPort) : Nat := x.queue.foldl (fun a f => a + f.bytes.length + 4) 0

/-- Queue a frame on its egress port, or drop it: 512 KiB of buffer, and the port up (R429). -/
def State.egress (s : State) (p : Nat) (f : EthFrame) : State :=
  let x := s.tim.ports.getD p {}
  if s.portUp p = false ∨ 524288 < x.held + f.bytes.length + 4 then
    let s1 := (s.count Reg.TIM_SNAP_FWD_DROP 1).eventOnce 0x1112 p p p 0
    match f.slot with
    | some k => s1.txRefuse k
    | none => s1
  else s.onPort p (fun x => { x with queue := x.queue ++ [f] })

/-- Frames leave by class, then in arrival order (R429). -/
def nextFrame (q : List EthFrame) : Option EthFrame :=
  match q.find? (fun f => f.cls == 1) with
  | some f => some f
  | none =>
    match q.find? (fun f => f.cls == 2) with
    | some f => some f
    | none => q.head?

/-! ### The transparent clock (R432, R434) -/

/-- One's complement sum folded to 16 bits. -/
def fold16 (x : Nat) : Nat :=
  let a := x % 65536 + x / 65536
  a % 65536 + a / 65536

/-- A UDP checksum updated incrementally for a changed 64-bit field. -/
def sumUpdate (c old new : Nat) : Nat :=
  let words (v : Nat) : List Nat := [v % 65536, v / 2 ^ 16 % 65536, v / 2 ^ 32 % 65536, v / 2 ^ 48 % 65536]
  let out := (words old).foldl (fun a w => a + (65535 - w)) (65535 - c)
  65535 - fold16 ((words new).foldl (· + ·) out)

/-- R434: r ticks of residence added to the correctionField of a recognised event message, and the UDP checksum. -/
def correctFrame (b : List Nat) (q : PtpAt) (r : Nat) : List Nat :=
  let old := fieldBE b (q.off + 8) 8
  let new := (old + r * 256) % 2 ^ 64
  let b1 := putBytes b (q.off + 8) (beBytes 8 new)
  match q.sum with
  | none => b1
  | some o =>
    let c := fieldBE b o 2
    if q.v6 then
      let c' := sumUpdate c old new
      putBytes b1 o (beBytes 2 (if c' = 0 then 0xFFFF else c'))
    else if c = 0 then b1
    else putBytes b1 o (beBytes 2 (sumUpdate c old new))

/-- The frame that leaves at egress stamp te, and the snapshot counter it adds to. -/
def clockFrame (f : EthFrame) (te : Nat) : List Nat × Option Nat :=
  match f.ingress, ptpAt f.bytes with
  | some ti, some q =>
    if isEvent f.bytes q then (correctFrame f.bytes q (te - ti), some Reg.TIM_SNAP_TC_CORRECTED)
    else if isOtherEvent f.bytes q then (f.bytes, some Reg.TIM_SNAP_TC_SKIPPED)
    else (f.bytes, none)
  | _, _ => (f.bytes, none)

/-- The FCS of a frame, as its last four bytes. -/
def fcsOf (b : List Nat) : List Nat := leBytes 4 (crc32 b)

/-- ETH_FRAME_TRANSMIT (R429, R432): the frame whose turn it is starts at this stamp. -/
def State.ethSend (s : State) (p : Nat) : State :=
  match nextFrame (s.tim.ports.getD p {}).queue with
  | none => s
  | some f =>
    if s.portUp p = false then s
    else
      let out := clockFrame f s.now
      let s1 := s.onPort p (fun x => { x with queue := x.queue.erase f, last := some (s.now, out.1 ++ fcsOf out.1) })
      let s2 := match out.2 with
        | some c => s1.count c 1
        | none => s1
      let s3 := if f.ingress.isSome then s2.count Reg.TIM_SNAP_FWD 1 else s2
      let s4 := match f.slot with
        | some k => (s3.store 12 (s3.timEntry 1 k + 12) (leBytes 4 (s3.short s3.now))).txComplete k
        | none => s3
      match f.dreq with
      | some d =>
        { s4 with tim := { s4.tim with
          servos := modAt s4.tim.servos d.1 (fun v => { v with sentDreq := some (d.2, s.now) }) } }
      | none => s4

/-- ETH_FRAME_RECEIVE (R428, R433, R435): a frame with FCS whose SFD was stamped ti. -/
def State.ethReceive (s : State) (p ti : Nat) (raw : List Nat) : State :=
  let b := raw.take (raw.length - 4)
  let net := p / 2
  if s.portUp p = false then s
  else if 9216 < raw.length ∨ raw.length < 18 ∨ raw.drop (raw.length - 4) ≠ fcsOf b then s.count Reg.TIM_SNAP_BAD_FCS 1
  else if pauseFrame b then s.count Reg.TIM_SNAP_PAUSE 1
  else
    let s1 := if s.forwards net b then s.egress (Nat.xor p 1) ⟨b, if eventFrame b then 1 else 2, some ti, none, none⟩ else s
    if s1.consumed net b then (if s1.flag F.TIM_CTRL_COPY_PTP then s1.rxDeliver p ti b else s1)
    else if s1.forDevice net b || peerFrame b then s1.rxDeliver p ti b
    else s1

/-- PORT_UP (R427): block lock, and FEC alignment at 25 Gb/s. The receiver lane has locked too (R206). A port that comes up again after it
went down logs TIM_PORT_UP. -/
def State.portLock (s : State) (p : Nat) : State :=
  if s.portUp p = true ∨ s.flag (F.TIM_PORT_CTRL_ENABLE.nth p) = false then s
  else
    let s1 := s.put F.TIM_STATUS_PORT_UP (s.get F.TIM_STATUS_PORT_UP + 2 ^ p)
    (if (s.tim.ports.getD p {}).wasDown then s1.event 0x1111 0 p 0 else s1).laneLock (8 + p)

/-- PORT_DOWN (R427): lock lost, or the port disabled or restarted. Frames that wait on it are dropped (R429). -/
def State.portLost (s : State) (p : Nat) : State :=
  if s.portUp p = false then s
  else
    let s1 := s.put F.TIM_STATUS_PORT_UP (s.get F.TIM_STATUS_PORT_UP - 2 ^ p)
    let s2 := (s1.event 0x1110 0 p 0).laneLost (8 + p)
    let q := (s2.tim.ports.getD p {}).queue
    let s3 := (s2.onPort p (fun x => { x with queue := [], wasDown := true })).count Reg.TIM_SNAP_FWD_DROP q.length
    q.foldl (fun s f => match f.slot with
      | some k => s.txRefuse k
      | none => s) s3

/-- One transmit entry is taken (R436). -/
def State.txTake (s : State) (slot : Nat) : State :=
  let e := s.read (s.timEntry 1 slot) 16
  let len := fieldLE e 8 2
  let port := e.getD 10 0
  let a := fieldLE e 0 8
  let bad := s.readPoison (s.timEntry 1 slot) 16
  let s := s.noteRead 12 (s.timEntry 1 slot) 16
  if len < 60 ∨ 9212 < len ∨ 3 < port ∨ e.getD 11 0 ≠ 0 ∨ memTop < a + len ∨ bad = true then s.txRefuse slot
  else (s.noteRead 12 a len).egress port ⟨s.read a len, 3, none, some slot, none⟩

/-- TX_RING_HEAD_WRITE (R436). -/
def State.txHead (s : State) (v : Nat) : State :=
  let n := s.get (F.TIM_RING_SIZE_ENTRIES.nth 1)
  let old := s.get (F.TIM_RING_HEAD_HEAD.nth 1)
  let s1 := s.put (F.TIM_RING_HEAD_HEAD.nth 1) v
  if n < 2 ∨ n ≤ v % 4096 then s1
  else (slotsTo old (v % 4096) n).foldl State.txTake s1

/-! ### Meanings -/

/-- ETH_FRAME_RECEIVE (R428). -/
def execEthFrameReceive (t p ti : Nat) (raw : List Nat) (s : State) : Out := .next (s.whenOn t (fun s => s.ethReceive (p % 4) ti raw))

/-- ETH_FRAME_TRANSMIT (R432). -/
def execEthFrameTransmit (t p : Nat) (s : State) : Out := .next (s.whenOn t (fun s => s.ethSend (p % 4)))

/-- PORT_UP (R427). -/
def execPortUp (t p : Nat) (s : State) : Out := .next (s.whenOn t (fun s => s.portLock (p % 4)))

/-- PORT_DOWN (R427). -/
def execPortDown (t p : Nat) (s : State) : Out := .next (s.whenOn t (fun s => s.portLost (p % 4)))

/-- TX_RING_HEAD_WRITE (R436). -/
def execTxRingHeadWrite (t v : Nat) (s : State) : Out := .next (s.whenHost t (fun s => s.txHead v))

end Sys2Proof.Machine
end

