-- ==== Sys2Proof/Machine/Tim.lean ====
section
/-!
DEFINITION. Servos (R437 to R439), the time base and castling (R440 to R442), the full-time latch (R444), triggers
(R446 to R449) and captures (R450, R451).
-/

namespace Sys2Proof.Machine

/-! ### The time base (R440 to R442) -/

/-- Servo `v`. -/
def State.srv (s : State) (v : Nat) : Servo := s.tim.servos.getD v {}

/-- Change servo `v`. -/
def State.onSrv (s : State) (v : Nat) (f : Servo → Servo) : State :=
  { s with tim := { s.tim with servos := modAt s.tim.servos v f } }

/-- Ticks as whole ns toward minus infinity. -/
def tickInt (o : Int) : Int := o.fdiv (tickNs : Int)

/-- Show the offsets (R455, R456). -/
def State.showOffsets (s : State) : State :=
  let a := tickInt (s.srv 0).o
  let b := tickInt (s.srv 1).o
  let s1 := (s.putS (F.TIM_SRV_OFFSET_O_NS.nth 0) a).putS (F.TIM_SRV_OFFSET_O_NS.nth 1) b
  s1.putS F.TIM_DOMAIN_DIFF_DIFF_NS (if s.srvState 0 = 3 ∧ s.srvState 1 = 3 then b - a else 0)

/-- State of the time base (R441). -/
def State.tbState (s : State) : Nat := s.get F.TIM_STATUS_TB_STATE

/-- The disciplining or target domain, or the last one (R441, R454). -/
def State.tbSource (s : State) : Nat := s.get F.TIM_STATUS_SOURCE

/-- Whether servo `v` is LOCKED. -/
def State.srvLocked (s : State) (v : Nat) : Bool := s.srvState v == 3

/-- A servo event with its offset in ns (R453). -/
def State.srvEvent (s : State) (code v : Nat) : State := s.event code v v (argS (tickInt (s.srv v).o))

/-- The GENLOCK CASTLING field in force (R50). -/
def State.castling (s : State) : Bool := (s.out.gen.map (·.castling)).getD 0 == 1

/-- |o_Y − o_X| ≤ MAX_US (R441). -/
def State.offsetsNear (s : State) : Bool :=
  decide (((s.srv 0).o - (s.srv 1).o).natAbs ≤ s.get F.TIM_CASTLE_MAX_MAX_US * tickUs)

/-- Count the time spent in HOLDOVER so far, in whole ms (R458). -/
def State.countHoldover (s : State) : State :=
  match s.tim.holdAt with
  | none => s
  | some a =>
    let n := (s.now - a) / tickMs
    let s1 := s.count Reg.TIM_SNAP_HOLDOVER_MS n
    { s1 with tim := { s1.tim with holdAt := some (a + n * tickMs) } }

/-- Enter a state of R441. -/
def State.tbEnter (s : State) (st src : Nat) : State :=
  let s1 := if s.tbState = 3 then s.countHoldover else s
  let s2 : State := { s1 with tim := { s1.tim with holdAt := if st = 3 then some s.now else none } }
  (s2.put F.TIM_STATUS_TB_STATE st).put F.TIM_STATUS_SOURCE src

/-- Step the time base by `d` ticks (R440): offsets against it move the other way. -/
def State.tbStep (s : State) (d : Int) : State :=
  let s1 : State := { s with off := s.off + d }
  let move (v : Servo) : Servo :=
    { v with
      o := v.o - d
      down := v.down.map (· + d)
      meas := v.meas.map (fun (m : Nat × Int) => (m.1, m.2 - d)) }
  let s2 : State := { s1 with tim := { s1.tim with servos := s1.tim.servos.map move, steppedAt := some (s1.full s1.now / (10 * tickMs)), stepLag := s1.tim.stepLag + d } }
  s2.showOffsets

/-- Castle begun toward `y` (R441). -/
def State.castleTo (s : State) (y : Nat) : State := (s.tbEnter 2 y).srvEvent 0x1123 y

/-- Enter HOLDOVER (R441); `far` says that the offset bound failed. -/
def State.holdover (s : State) (far : Bool) : State :=
  let x := s.tbSource
  let s1 := (s.tbEnter 3 x).srvEvent 0x1125 x
  if far then s1.srvEvent 0x1126 (1 - x) else s1

/-- The castle reaches its end: |o_Y| < 100 ns (R441). -/
def State.castleEnd (s : State) : State :=
  let y := s.tbSource
  if s.tbState = 2 ∧ (s.srv y).o.natAbs < 100 * tickNs then
    ((s.tbEnter 1 y).srvEvent 0x1124 y).count Reg.TIM_SNAP_CASTLES 1
  else s

/-- The rows of R441 that a servo's state or offset brings about. The second component says that the time base stepped. -/
def State.tbRules (s : State) : State × Bool :=
  let x := s.tbSource
  let y := 1 - x
  match s.tbState with
  | 0 =>
    let p := s.get F.TIM_CTRL_PREFER
    let pick := if s.srvLocked p then some p else if s.srvLocked (1 - p) then some (1 - p) else none
    match pick with
    | none => (s, false)
    | some v =>
      let s1 : State := { s with tim := { s.tim with freeLeft := some s.now } }
      ((s1.tbEnter 1 v).tbStep (s.srv v).o, true)
  | 1 =>
    let p := s.get F.TIM_CTRL_PREFER
    if s.tim.freeLeft = some s.now ∧ p = y ∧ s.srvLocked y = true ∧ (s.srv y).lockedAt = s.now then
      ((s.tbEnter 1 y).tbStep (s.srv y).o, true)
    else if s.srvLocked x then (s, false)
    else if s.srvLocked y ∧ s.castling ∧ s.offsetsNear then ((s.castleTo y).castleEnd, false)
    else (s.holdover (s.srvLocked y && s.castling && !s.offsetsNear), false)
  | 2 =>
    if s.srvLocked x then (s.castleEnd, false)
    else if s.srvLocked y then ((s.castleTo y).castleEnd, false)
    else (s.holdover false, false)
  | _ =>
    if s.srvLocked x then (s.tbEnter 1 x, false)
    else if s.srvLocked y ∧ s.castling ∧ s.offsetsNear then ((s.castleTo y).castleEnd, false)
    else (s, false)

/-- The latest `n` ticks of a list of durations with values. -/
def lastTicks : Nat → List (Nat × Int) → List (Nat × Int)
  | _, [] => []
  | n, (d, f) :: l => if n = 0 then [] else (min n d, f) :: lastTicks (n - min n d) l

/-- The mean of values over their durations, `z` where there are none. -/
def meanOver (z : Int) (l : List (Nat × Int)) : Int :=
  let n := l.foldl (fun (a : Nat) q => a + q.1) 0
  if n = 0 then z else (l.foldl (fun (a : Int) (q : Nat × Int) => a + (q.1 : Int) * q.2) 0).fdiv (n : Int)

/-- The largest phase term in ppb: SLEW_PPB, and while castling 1,000 (R440). -/
def State.slewMax (s : State) : Nat := if s.tbState = 2 then 1000 else min 1000 (s.get F.TIM_SERVO_SLEW_PPB)

/-- The rate trim in force (R440, R455), within ±200 ppm: its frequency term, and a phase term toward the domain's offset within its bound;
both are otherwise left open by the spec (log entry 66). In HOLDOVER the frequency term is the mean of the last 64 s of discipline and the
phase term 0 (R441); in FREE no domain moves either. -/
def State.setTrim (s : State) : State :=
  let t := s.tim
  let log := if t.freqOn then lastTicks (64 * tickS) ((s.now - t.freqAt, t.freqTerm) :: t.freqLog) else t.freqLog
  let on := s.tbState == 1 || s.tbState == 2
  let f := s.free 66
  let p := f.2.free 67
  let o := (s.srv s.tbSource).o
  let size : Int := (p.1 % (s.slewMax + 1) : Nat)
  let freq : Int := if on then (f.1 % 400001 : Nat) - 200000 else if t.freqOn then meanOver t.freqTerm log else t.freqTerm
  let phase : Int := if on = false ∨ o = 0 then 0 else if o < 0 then -size else size
  let s1 := if on then p.2 else s
  let s2 : State := { s1 with tim := { s1.tim with freqTerm := freq, phaseTerm := phase, freqAt := s.now, freqOn := on, freqLog := log } }
  s2.putS F.TIM_TB_FREQ_PPB (max (-200000) (min 200000 (freq + phase)))

/-- The time base after anything that may move it, and the raster told of it (R315, R442). -/
def State.tbSettle (s : State) : State :=
  let r := s.showOffsets.tbRules
  let s1 := r.1.setTrim
  if s1.tbState = s.tbState ∧ s1.tbSource = s.tbSource ∧ r.2 = false then s1 else s1.timeBaseMoved r.2

/-! ### Servos (R437 to R439) -/

/-- Show a servo's state (R439, R454, R456). -/
def State.setSrv (s : State) (v st : Nat) : State :=
  (s.put (F.TIM_SRV_STATUS_STATE.nth v) st).put (if v = 0 then F.TIM_STATUS_SRV_A else F.TIM_STATUS_SRV_B) (st % 4)

/-- An interval 2^n seconds in ticks. -/
def logTicks (n : Int) : Nat := if 0 ≤ n then tickS * 2 ^ n.toNat else tickS / 2 ^ (-n).toNat

/-- A servo of a state that drops what it measured: for a newly selected master. -/
def Servo.fresh (v : Servo) : Servo :=
  { v with
    lastSync := none, twoStep := none, down := none, delays := [], meas := [], agree := 0, disagree := 0, sentDreq := none }

/-- Show the selected master (R456). -/
def State.showMaster (s : State) (v : Nat) (m : Option Master) : State :=
  match m with
  | none => s
  | some m => ((s.put (F.TIM_SRV_STATUS_STEPS.nth v) m.steps).put (F.TIM_SRV_STATUS_PORT.nth v) m.port).put
      (F.TIM_SRV_GM_GM_ID.nth v) (beNat m.gm)

/-- Lexicographic comparison. -/
def lexLess : List Nat → List Nat → Bool
  | [], [] => false
  | [], _ => true
  | _, [] => false
  | a :: as, b :: bs => decide (a < b) || (a == b && lexLess as bs)

/-- The default data set comparison (R437): the grandmaster's data set, then stepsRemoved, then the sender and the port. -/
def Master.better (a b : Master) : Bool :=
  lexLess (a.key ++ [a.steps] ++ a.ident ++ [a.port]) (b.key ++ [b.steps] ++ b.ident ++ [b.port])

/-- A master qualifies: 2 Announces within 4 intervals (R437). -/
def Master.qualified (m : Master) (now : Nat) : Bool := decide (2 ≤ m.seen.length) && decide (now < m.seen.getD 1 0 + 4 * logTicks m.logInt)

/-- What a master is selected by: its identity, and the port on which its Announces arrive (R437). -/
def Master.name (m : Master) : List Nat := m.ident ++ [m.port]

/-- The best of the masters. -/
def bestMaster : List Master → Option Master
  | [] => none
  | m :: ms => match bestMaster ms with
    | none => some m
    | some b => some (if b.better m then b else m)

/-- The selected master. -/
def Servo.selected (v : Servo) : Option Master := v.sel.bind (fun i => v.masters.find? (fun m => m.name == i))

/-- End of the selected master's Announce window (R439). -/
def State.annEnd (s : State) (v : Nat) : Option Nat :=
  (s.srv v).selected.map (fun m => (s.srv v).lastAnn + s.get (F.TIM_SRV_CFG_ANN_TIMEOUT.nth v) * logTicks m.logInt)

/-- End of the Sync window (R439). -/
def State.syncEnd (s : State) (v : Nat) : Option Nat :=
  (s.srv v).lastSync.map (fun a => a + 4 * logTicks (s.srv v).syncLog)

/-- Back to LISTENING (R439): the selected master is forgotten and must qualify afresh. -/
def State.srvListen (s : State) (v : Nat) : State :=
  let was := s.srvState v
  let s1 := s.onSrv v (fun x => { x.fresh with masters := x.masters.filter (fun m => some m.name != x.sel), sel := none })
  let s2 := s1.setSrv v 1
  if was = 3 then s2.srvEvent 0x1121 v else s2

/-- R439: a window that has closed at stamp `t` has timed out. -/
def State.srvWindows (s : State) (v t : Nat) : State :=
  if s.srvState v ≠ 2 ∧ s.srvState v ≠ 3 then s
  else
    let isPast (e : Option Nat) : Bool := (e.map (fun x => decide (x ≤ t))).getD false
    if isPast (s.annEnd v) || isPast (s.syncEnd v) then s.srvListen v else s

/-- BMCA over the masters known (R437, R439). -/
def State.bmca (s : State) (v t : Nat) : State :=
  let x := s.srv v
  let cand := x.masters.filter (fun m => m.qualified t || some m.name == x.sel)
  match bestMaster cand with
  | none => s
  | some m =>
    let same := x.sel == some m.name
    let s1 := if same then s else s.onSrv v (fun x =>
      { x.fresh with sel := some m.name, lastAnn := m.seen.getD 0 t, nextDreq := t + logTicks (s.getS (F.TIM_SRV_CFG_LOG_DREQ.nth v)) * (Config.delayReqShare (s.fresh + v) % 65536) / 65536 })
    let s2 := s1.showMaster v (some m)
    if s.srvState v = 1 then s2.setSrv v 2
    else if !same ∧ (x.selected.map (·.gm)) ≠ some m.gm then ((s2.setSrv v 2).srvEvent 0x1122 v)
    else s2

/-- The PTP message of type `ty` for servo `v` in a received frame: where it stands (R437, R438). -/
def State.srvMsg (s : State) (v ty : Nat) (b : List Nat) : Option PtpAt :=
  match ptpAt b with
  | some q => if s.servoFrame v b ∧ s.srvState v ≠ 0 ∧ ptpType b q = ty then some q else none
  | none => none

/-- The correctionField in ticks, rounded toward minus infinity. -/
def ptpCorr (b : List Nat) (q : PtpAt) : Int := (signed 64 (fieldBE b (q.off + 8) 8)).fdiv 256

/-- A PTP timestamp in ticks. -/
def ptpTime (b : List Nat) (o : Nat) : Int := ((fieldBE b o 6 * tickS + fieldBE b (o + 6) 4 * tickNs : Nat) : Int)

/-- The identity of a message's sender. -/
def ptpIdent (b : List Nat) (q : PtpAt) : List Nat := slice b (q.off + 20) 10

/-- logMessageInterval of a message. -/
def ptpLog (b : List Nat) (q : PtpAt) : Int := signed 8 (b.getD (q.off + 33) 0)

/-- The master that an Announce describes. -/
def announceOf (b : List Nat) (q : PtpAt) (p ti : Nat) (old : List Nat) : Master :=
  let f (o n : Nat) : Nat := fieldBE b (q.off + o) n
  { ident := ptpIdent b q, port := p, mac := slice b 6 6, ip := slice b (typeAt b + 14) 4
    key := [f 47 1, f 48 1, f 49 1, f 50 2, f 52 1, f 53 8], gm := slice b (q.off + 53) 8
    steps := f 61 2, logInt := ptpLog b q, seen := (ti :: old).take 2 }

/-- ANNOUNCE (R437, R439). -/
def State.announce (s : State) (p ti : Nat) (b : List Nat) : State :=
  let v := p / 2
  match s.srvMsg v 0xB b with
  | none => s
  | some q =>
    if ptpLog b q < -3 ∨ 1 < ptpLog b q ∨ 255 ≤ fieldBE b (q.off + 61) 2 then s
    else
      let s0 := s.srvWindows v ti
      let x := s0.srv v
      let id := ptpIdent b q
      let old := ((x.masters.find? (fun m => m.ident == id && m.port == p)).map (·.seen)).getD []
      let m := announceOf b q p ti old
      let rest := x.masters.filter (fun m => m.ident != id || m.port != p)
      let was := x.selected.map (·.gm)
      let s1 := s0.onSrv v (fun x => { x with masters := m :: rest, lastAnn := if x.sel = some m.name then ti else x.lastAnn })
      let s2 := s1.bmca v ti
      let s3 := if x.sel = some m.name ∧ (s2.srv v).sel = some m.name ∧ was ≠ some m.gm ∧ 2 ≤ s2.srvState v then
          ((s2.onSrv v Servo.fresh).setSrv v 2).srvEvent 0x1122 v
        else s2
      s3.tbSettle

/-- The mean path delay: mean of the last 16 measurements, in ticks (R438). -/
def meanDelay (l : List Int) : Option Int := if l.isEmpty then none else some ((l.foldl (· + ·) 0).fdiv (l.length : Int))

/-- The model's prediction of the offset at stamp `t` (R438; log entry 28). -/
def Servo.predict (x : Servo) (t : Nat) : Option Int :=
  match x.meas with
  | [] => none
  | m :: _ => some (m.2 + (Config.servoRate x.meas * ((t : Int) - (m.1 : Int))).fdiv (2 ^ 32))

/-- A measurement of o at stamp `t` (R438, R439). -/
def State.measure (s : State) (v t : Nat) (o : Int) : State :=
  let x := s.srv v
  let ok : Bool := match x.predict t with
    | none => true
    | some p => decide ((o - p).natAbs ≤ s.get (F.TIM_SRV_LOCK_LOCK_NS.nth v) * tickNs)
  let s1 := s.onSrv v (fun x => { x with
    o := o, meas := ((t, o) :: x.meas).take 16
    agree := if ok then x.agree + 1 else 0
    disagree := if ok then 0 else x.disagree + 1 })
  if s1.srvState v = 2 ∧ 16 ≤ (s1.srv v).agree then
    ((s1.onSrv v (fun x => { x with lockedAt := s.now })).setSrv v 3).srvEvent 0x1120 v
  else if s1.srvState v = 3 ∧ 4 ≤ (s1.srv v).disagree then
    ((s1.onSrv v (fun x => { x with agree := 0, disagree := 0 })).setSrv v 2).srvEvent 0x1121 v
  else s1

/-- A Sync is complete: t1 with its corrections, and t2 (R438). -/
def State.syncDone (s : State) (v ti : Nat) (t1 : Int) : State :=
  let dn : Int := (s.full ti : Int) - t1
  let s1 := s.onSrv v (fun x => { x with down := some dn })
  match meanDelay (s1.srv v).delays with
  | none => s1
  | some d => s1.measure v ti (d - dn)

/-- Whether a message received on port `p` comes from the selected master, on its port (R437). -/
def State.fromSel (s : State) (v p : Nat) (b : List Nat) (q : PtpAt) : Bool :=
  (s.srvState v == 2 || s.srvState v == 3) && (s.srv v).sel == some (ptpIdent b q ++ [p])

/-- SYNC (R438, R439). -/
def State.sync (s : State) (p ti : Nat) (b : List Nat) : State :=
  let v := p / 2
  match s.srvMsg v 0 b with
  | none => s
  | some q =>
    let s0 := s.srvWindows v ti
    if s0.fromSel v p b q = false ∨ ptpLog b q < -7 ∨ 1 < ptpLog b q then s0.tbSettle
    else
      let s1 := s0.onSrv v (fun x => { x with lastSync := some ti, syncLog := ptpLog b q, twoStep := none })
      if bitAt (b.getD (q.off + 6) 0) 1 then
        (s1.onSrv v (fun x => { x with twoStep := some (fieldBE b (q.off + 30) 2, ti, ptpCorr b q) })).tbSettle
      else (s1.syncDone v ti (ptpTime b (q.off + 34) + ptpCorr b q)).tbSettle

/-- FOLLOW_UP (R438): completes the two-step Sync of its sequence number. -/
def State.followUp (s : State) (p ti : Nat) (b : List Nat) : State :=
  let v := p / 2
  match s.srvMsg v 8 b with
  | none => s
  | some q =>
    let s0 := s.srvWindows v ti
    if s0.fromSel v p b q = false then s0.tbSettle
    else match (s0.srv v).twoStep with
      | none => s0.tbSettle
      | some (seq, t2, c) =>
        if seq ≠ fieldBE b (q.off + 30) 2 then s0.tbSettle
        else ((s0.onSrv v (fun x => { x with twoStep := none })).syncDone v t2 (ptpTime b (q.off + 34) + c + ptpCorr b q)).tbSettle

/-- The servo's port identity: the EUI-64 of the network's MAC address, port 1. -/
def State.srvIdent (s : State) (v : Nat) : List Nat :=
  let m := beBytes 6 (s.netMac v)
  m.take 3 ++ [0xFF, 0xFE] ++ m.drop 3 ++ [0, 1]

/-- DELAY_RESP (R438): one delay measurement. -/
def State.delayResp (s : State) (p ti : Nat) (b : List Nat) : State :=
  let v := p / 2
  match s.srvMsg v 9 b with
  | none => s
  | some q =>
    let s0 := s.srvWindows v ti
    if s0.fromSel v p b q = false ∨ slice b (q.off + 44) 10 ≠ s0.srvIdent v then s0.tbSettle
    else match (s0.srv v).sentDreq, (s0.srv v).down with
      | some (seq, t3), some dn =>
        if seq ≠ fieldBE b (q.off + 30) 2 then s0.tbSettle
        else
          let up : Int := ptpTime b (q.off + 34) - ptpCorr b q - (s0.full t3 : Int)
          let s1 := s0.onSrv v (fun x => { x with delays := ((dn + up).fdiv 2 :: x.delays).take 16, sentDreq := none })
          (s1.put (F.TIM_SRV_DELAY_DELAY.nth v) (((meanDelay (s1.srv v).delays).getD 0).toNat % 2 ^ 32)).tbSettle
      | _, _ => s0.tbSettle

/-- The Delay_Req message of servo `v`, with unicastFlag where it is sent so (IEEE 1588; log entry 67). -/
def State.dreqMsg (s : State) (v seq : Nat) : List Nat :=
  [1, 2, 0, 44, s.get (F.TIM_SRV_CFG_DOMAIN.nth v), 0, 4 * s.get (F.TIM_SRV_CFG_UNICAST_DREQ.nth v), 0] ++ List.replicate 8 0 ++ List.replicate 4 0 ++ s.srvIdent v ++
    beBytes 2 seq ++ [1, 0x7F] ++ List.replicate 10 0

/-- The Internet checksum of a header. -/
def ipSum (b : List Nat) : Nat :=
  65535 - fold16 ((List.range (b.length / 2)).foldl (fun a i => a + fieldBE b (2 * i) 2) 0)

/-- The Delay_Req frame, padded to 60 bytes (R437). -/
def State.dreqFrame (s : State) (v seq : Nat) (m : Master) : List Nat :=
  let uni := s.flag (F.TIM_SRV_CFG_UNICAST_DREQ.nth v)
  let msg := s.dreqMsg v seq
  let src := beBytes 6 (s.netMac v)
  if s.flag (F.TIM_SRV_CFG_TRANSPORT.nth v) then
    (if uni then m.mac else beBytes 6 0x011B19000000) ++ src ++ [0x88, 0xF7] ++ msg ++ List.replicate 2 0
  else
    let dst := if uni then m.ip else beBytes 4 0xE0000181
    let h := [0x45, 0] ++ beBytes 2 72 ++ [0, 0, 0, 0, 64, 17]
    let addr := beBytes 4 (s.netIp v) ++ dst
    (if uni then m.mac else beBytes 6 0x01005E000181) ++ src ++ [0x08, 0] ++ h ++ beBytes 2 (ipSum (h ++ [0, 0] ++ addr)) ++ addr ++
      beBytes 2 319 ++ beBytes 2 319 ++ beBytes 2 52 ++ [0, 0] ++ msg

/-- DELAY_REQ_SEND (R437): the interval has elapsed. -/
def State.delayReq (s : State) (v : Nat) : State :=
  let x := s.srv v
  match x.selected with
  | none => s
  | some m =>
    if s.srvState v < 2 ∨ s.now < x.nextDreq ∨ (s.flag (F.TIM_SRV_CFG_TRANSPORT.nth v) = false ∧ s.netIp v = 0) then s
    else
      let s1 := s.onSrv v (fun x => { x with
        dreqSeq := (x.dreqSeq + 1) % 65536, nextDreq := s.now + logTicks (s.getS (F.TIM_SRV_CFG_LOG_DREQ.nth v)) })
      s1.egress m.port ⟨s.dreqFrame v x.dreqSeq m, 1, none, none, some (v, x.dreqSeq)⟩

/-- ANNOUNCE_TIMEOUT (R439). -/
def State.annTimeout (s : State) (v : Nat) : State :=
  if (s.srvState v = 2 ∨ s.srvState v = 3) ∧ ((s.annEnd v).map (fun e => decide (e ≤ s.now))).getD false then (s.srvListen v).tbSettle else s

/-- SYNC_TIMEOUT (R439). -/
def State.syncTimeout (s : State) (v : Nat) : State :=
  if (s.srvState v = 2 ∨ s.srvState v = 3) ∧ ((s.syncEnd v).map (fun e => decide (e ≤ s.now))).getD false then (s.srvListen v).tbSettle else s

/-- SERVO_ENABLE_WRITE (R439). -/
def State.srvEnable (s : State) (v : Nat) (en : Bool) : State :=
  let s1 := s.put (F.TIM_SRV_CFG_ENABLE.nth v) (b2n en)
  if en then (if s1.srvState v = 0 then s1.setSrv v 1 else s1)
  else ((s1.onSrv v (fun x => { x.fresh with masters := [], sel := none })).setSrv v 0).tbSettle

/-- CASTLE (R441): a commanded castle from DISCIPLINED, or from HOLDOVER to the other domain; FORCE skips the offset bound. -/
def State.castleCmd (s : State) (d : Nat) (force : Bool) : State :=
  if (s.tbState = 1 ∨ s.tbState = 3) ∧ d ≠ s.tbSource ∧ s.srvLocked d ∧ s.castling ∧ (s.offsetsNear || force) then
    ((s.castleTo d).castleEnd.setTrim).timeBaseMoved false
  else s

/-- STEP (R441): to a LOCKED domain, from DISCIPLINED, CASTLING or HOLDOVER. -/
def State.stepCmd (s : State) (d : Nat) : State :=
  if s.tbState ≠ 0 ∧ s.srvLocked d then (((s.tbEnter 1 d).tbStep (s.srv d).o).setTrim).timeBaseMoved true else s

/-- REVERT_TIMER (R441). -/
def State.revert (s : State) : State :=
  let p := s.get F.TIM_CTRL_PREFER
  let r := s.get F.TIM_CTRL_REVERT_S
  if s.tbState = 1 ∧ p ≠ s.tbSource ∧ 0 < r ∧ s.srvLocked p ∧ (s.srv p).lockedAt + r * tickS ≤ s.now ∧ s.castling ∧ s.offsetsNear then
    ((s.castleTo p).castleEnd.setTrim).timeBaseMoved false
  else s

/-- The servos when their domain has come up: LISTENING with ENABLE 1 (R439). -/
def State.timStart (s : State) : State :=
  [0, 1].foldl (fun s v => if s.flag (F.TIM_SRV_CFG_ENABLE.nth v) = true ∧ s.srvState v = 0 then s.setSrv v 1 else s) s

/-- A TIM reset (R431). -/
def State.timReset (s : State) : State :=
  let held := s.tim.ports.flatMap (fun x => x.queue.filterMap (·.slot))
  let s1 : State := { s with tim := { s.tim with ports := s.tim.ports.map (fun x => { x with queue := [] }) } }
  let s2 := held.foldl State.txRefuse s1
  let s3 := [0, 1].foldl (fun s v => if s.srvState v = 0 then s
    else (s.onSrv v (fun x => { x.fresh with masters := [], sel := none })).setSrv v 1) s2
  s3.tbSettle

/-! ### The full-time latch (R444) -/

/-- TIME_READ: the read answers the nanoseconds and latches the rest. -/
def State.timeRead (s : State) : State :=
  let f := s.full s.now
  let s1 := (s.put F.TIM_TIME_NS_NS (fullNs f)).put F.TIM_TIME_SEC_LO_SEC (fullSec f % 2 ^ 32)
  let s2 := (s1.put F.TIM_TIME_SEC_HI_SEC (fullSec f / 2 ^ 32)).put F.TIM_TIME_SEC_HI_FRAC (f % tickNs)
  { s2 with hst := { s2.hst with readData := leBytes 4 (fullNs f), readEp := false } }

/-- R445: the full time in ns of a short stamp, from a full-time read `f` in ns that lies within 2^31 ns of it. -/
def extendStamp (stamp f : Nat) : Int :=
  let d : Int := ((stamp : Int) - (f % 2 ^ 32 : Nat)) % (2 ^ 32 : Nat)
  f + (if d < 2 ^ 31 then d else d - 2 ^ 32)

/-! ### Captures (R450, R451) -/

/-- An entry of the capture ring comes after full time `f` and SOURCE `source` (R451). -/
def capAfter (f source : Nat) (c : Nat × Nat × List Nat) : Bool := decide (f < c.1) || (c.1 == f && decide (source < c.2.1))

/-- Write a capture ring entry for full time `f` (ticks), in stamp order and at equal stamps by SOURCE among those unread, or drop it
(R451). -/
def State.capture (s : State) (source flags id f : Nat) : State :=
  let n := s.get (F.TIM_RING_SIZE_ENTRIES.nth 2)
  let head := s.get F.TIM_CAP_HEAD_HEAD
  if n < 2 then s
  else if (head + 1) % n = s.get F.TIM_CAP_TAIL_TAIL then
    (s.count Reg.TIM_SNAP_CAP_DROP 1).eventOnce 0x1133 0 0 source 0
  else
    let e := [source, flags, f % tickNs, 0] ++ leBytes 4 (fullNs f) ++ leBytes 6 (fullSec f) ++ [0, 0] ++ leBytes 4 id ++
      leBytes 4 (s.epochAt 0x11) ++ List.replicate 8 0
    let held := s.tim.caps.take ((head + n - s.get F.TIM_CAP_TAIL_TAIL) % n)
    let later := held.takeWhile (capAfter f source)
    let s1 := ((later.map (fun c => c.2.2) ++ [e]).zipIdx).foldl (fun s q => s.store 12 (s.timEntry 2 ((head + n - q.2) % n)) q.1) s
    ({ s1 with tim := { s1.tim with caps := later ++ (f, source, e) :: held.drop later.length } } : State).put
      F.TIM_CAP_HEAD_HEAD ((head + 1) % n)

/-- Whether an input's captures are enabled (R457): 0 SYNC_IN, 1 PPS_IN, 2 TE, 8 + n GPIOn. -/
def State.capOn (s : State) (src : Nat) : Bool := bitAt (s.get F.TIM_CAP_CTRL_EN) (if src < 8 then src else src - 4)

/-- The active polarity of SYNC_IN is rising (R50). -/
def State.syncRising (s : State) : Bool := (s.out.gen.map (·.polarity)).getD 1 == 1

/-! ### Triggers (R446 to R449) -/

/-- Whether a trigger record keeps R446. -/
def triggerOk (b : List Nat) : Bool :=
  let a := b.getD 0 0
  let per := fieldLE b 0x10 4
  let w := fieldLE b 0x1C 4
  decide (1 ≤ a ∧ a ≤ 5) && (if a ≤ 3 then decide (b.getD 1 0 < 8) else b.getD 1 0 == 0) && decide (b.getD 2 0 < 2) &&
    decide (fieldLE b 4 4 ≠ 0) && decide (fieldLE b 8 4 < 1000000000) && (per == 0 || decide (1000 ≤ per)) &&
    fieldLE b 0x15 3 == 0 && (per != 0 || fieldLE b 0x18 4 == 0) &&
    (if a = 1 then decide (10 ≤ w ∧ w ≤ 1000000000) && (per == 0 || decide (w < per)) else w == 0)

/-- Trigger records of commits that wait or whose epoch has not reached the TIM (R447). -/
def State.arming (s : State) : List (List Nat) :=
  let land := s.cmt.epochs.filter (fun e => !e.reached.contains 0x11)
  (land.flatMap (fun e => e.commits)).flatMap (·.triggers) ++ s.cmt.waiting.flatMap (·.triggers)

/-- The armed IDs after records are applied in order. -/
def armIds (recs : List (List Nat)) (ids : List Nat) : List Nat :=
  recs.foldl (fun l b => if b.getD 0 0 = 5 then l.filter (fun i => i != fieldLE b 4 4) else fieldLE b 4 4 :: l) ids

/-- IDs that records arm. -/
def armedBy (recs : List (List Nat)) : List Nat := (recs.filter (fun b => b.getD 0 0 != 5)).map (fun b => fieldLE b 4 4)

/-- No value stands twice in a list. -/
def distinct : List Nat → Bool
  | [] => true
  | x :: xs => !xs.contains x && distinct xs

/-- R447: the code that refuses a commit's trigger records, 0 for none. -/
def State.triggerCode (s : State) (recs : List (List Nat)) : Nat :=
  let armed := s.tim.triggers.map (·.id)
  let mine := armedBy recs
  if recs.any (fun b => !triggerOk b) || !distinct mine || mine.any (fun i => armed.contains i || (armedBy s.arming).contains i) then 0x1130
  else if 256 < (armIds (s.arming ++ recs) armed).length then 0x1131
  else 0

/-- An action of trigger `id` at a pin at full time `f` (R449): the level `v`, or with none the end of a pulse. Of the actions at one instant
the one with the greatest ID sets the level; the end of a pulse leaves the pin high while another PULSE holds it (log entry 69). -/
def State.setPin (s : State) (p f id : Nat) (v : Option Bool) : State :=
  let a := match s.tim.pinActs.find? (fun q => q.1 == p) with
    | some q => if f < q.2.1 ∨ (f = q.2.1 ∧ id < q.2.2.1) then q.2 else (f, id, v)
    | none => (f, id, v)
  let level := a.2.2.getD (s.tim.pulses.any (fun q => q.1 == p))
  { s with tim := { s.tim with pins := s.tim.pins.set p (some level), pinActs := (p, a) :: s.tim.pinActs.filter (fun q => q.1 != p) } }

/-- A pulse ends at full time `f` (R449). -/
def State.pulseEnd (s : State) (id f : Nat) : State :=
  match s.tim.pulses.find? (fun p => p.2.1 == id) with
  | none => s
  | some p =>
    let s1 : State := { s with tim := { s.tim with pulses := s.tim.pulses.filter (fun q => q.2.1 != id) } }
    s1.setPin p.1 f id none

/-- What a firing at full time `f` does (R449). -/
def State.fire (s : State) (g : Trigger) (f : Nat) (late : Bool) : State :=
  match g.action with
  | 1 =>
    let s1 : State := { s with tim := { s.tim with pulses := (g.pin, g.id, f + g.width * tickNs) :: s.tim.pulses.filter (fun q => q.2.1 != g.id) } }
    s1.setPin g.pin f g.id (some true)
  | 2 => s.setPin g.pin f g.id (some true)
  | 3 => s.setPin g.pin f g.id (some false)
  | _ => (s.capture 0x20 (2 * b2n late) g.id f).raise 5

/-- Whether firing `k` of a trigger exists. -/
def Trigger.has (g : Trigger) (k : Nat) : Bool := if g.period = 0 then k == 0 else g.count == 0 || decide (k < g.count)

/-- Full time of firing `k` in ticks (R446). -/
def Trigger.instant (g : Trigger) (k : Nat) : Nat := (g.at_ + (k * g.period : Nat)).toNat

/-- A trigger record as armed at full time `f` (R446). -/
def triggerOf (b : List Nat) (f : Nat) : Trigger :=
  { id := fieldLE b 4 4, action := b.getD 0 0, pin := b.getD 1 0
    at_ := (nearFull (fieldLE b 12 4) (fieldLE b 8 4) f + b.getD 3 0 : Nat)
    period := if fieldLE b 0x10 4 = 0 then 0 else fieldLE b 0x10 4 * tickNs + b.getD 0x14 0
    count := fieldLE b 0x18 4, width := fieldLE b 0x1C 4, next := 0 }

/-- Firings of a trigger before full time `f`: the late ones (R448). -/
def Trigger.late (g : Trigger) (f : Nat) : Nat :=
  if (f : Int) ≤ g.at_ then 0
  else if g.period = 0 then 1
  else
    let k := ceilDiv ((f : Int) - g.at_).toNat g.period
    if g.count = 0 then k else min k g.count

/-- One record takes effect at the epoch marker (R447, R448). A CANCEL of an ID that is not armed does nothing. -/
def State.armOne (s : State) (b : List Nat) : State :=
  let id := fieldLE b 4 4
  if b.getD 0 0 = 5 then
    if s.tim.triggers.all (fun g => g.id != id) then s
    else
      let s1 : State := { s with tim := { s.tim with triggers := s.tim.triggers.filter (fun g => g.id != id) } }
      s1.pulseEnd id (s.full s.now)
  else
    let f := s.full s.now
    let g := triggerOf b f
    let k := g.late f
    let s1 := if k = 0 then s else (s.count Reg.TIM_SNAP_TRIG_LATE k).eventOnce 0x1132 0 0 id 0
    let s2 := if k ≠ 0 ∧ bitAt (b.getD 2 0) 0 = false then s1.fire g f true else s1
    if g.has k then { s2 with tim := { s2.tim with triggers := s2.tim.triggers ++ [{ g with next := k }] } } else s2

/-- The epoch marker reaches the TIM: records in commit order (R447). -/
def State.armTriggers (s : State) (recs : List (List Nat)) : State := recs.foldl State.armOne s

/-- A firing falls due: PULSE, SET_HIGH, SET_LOW or SLOT of trigger `id` (R449). -/
def State.firing (s : State) (action id : Nat) : State :=
  match s.tim.triggers.find? (fun g => g.id == id && g.action == action) with
  | none => s
  | some g =>
    let f := g.instant g.next
    if s.full s.now < f then s
    else
      let g' : Trigger := { g with next := g.next + 1 }
      let ts := if g'.has g'.next then s.tim.triggers.map (fun (x : Trigger) => if x.id = id then g' else x)
        else s.tim.triggers.filter (fun x => x.id != id)
      let s1 : State := { s with tim := { s.tim with triggers := ts } }
      s1.fire g f false

/-- PULSE_END falls due (R449). -/
def State.pulseDue (s : State) (id : Nat) : State :=
  match s.tim.pulses.find? (fun p => p.2.1 == id) with
  | none => s
  | some p => if s.full s.now < p.2.2 then s else s.pulseEnd id p.2.2

/-- Firings of a trigger that are due at full time `f`. -/
def Trigger.due (g : Trigger) (f : Nat) : Nat := g.late (f + 1) - g.next

/-- The next action that triggers bring about: the instant, the ID, and whether it is the end of a pulse. -/
def State.nextAction (s : State) : Option (Nat × Nat × Bool) :=
  (s.tim.pulses.map (fun p => (p.2.2, p.2.1, true)) ++ s.tim.triggers.map (fun g => (g.instant g.next, g.id, false))).foldl
    (fun (a : Option (Nat × Nat × Bool)) q => match a with
      | none => some q
      | some b => if q.1 < b.1 ∨ (q.1 = b.1 ∧ q.2.1 < b.2.1) then some q else some b) none

/-- At most `n` actions of triggers that are due, by instant and ID. -/
def State.runDue (s : State) : Nat → State
  | 0 => s
  | n + 1 =>
    match s.nextAction with
    | none => s
    | some (f, id, ends) =>
      if s.full s.now < f then s
      else if ends then (s.pulseEnd id f).runDue n
      else match s.tim.triggers.find? (fun g => g.id == id) with
        | some g => (s.firing g.action id).runDue n
        | none => s

/-- Every action of triggers that is due (R452). -/
def State.dueActions (s : State) : State :=
  s.runDue (s.tim.pulses.length + 2 * (s.tim.triggers.map (fun g => g.due (s.full s.now))).foldl (· + ·) 0)

/-- An edge at a stamped input (R450): none within 50 ns of an accepted edge; `take` says what an accepted edge does
besides. What triggers do up to its stamp comes before it (R452). -/
def State.stampEdge (s : State) (src : Nat) (rising : Bool) (take : State → State) : State :=
  let s := s.dueActions
  if s.tim.edges.any (fun (e : Nat × Nat) => e.1 == src && decide (s.now < e.2 + 50 * tickNs)) then
    s.count Reg.TIM_SNAP_CAP_DEAD 1
  else
    let s1 : State := { s with tim := { s.tim with edges := assocSet src s.now s.tim.edges } }
    let s2 := if s1.capOn src then s1.capture src (b2n rising) 0 (s1.full s1.now) else s1
    take s2

/-! ### Meanings -/

/-- ANNOUNCE (R437): the frame, FCS included, received on port `p` at ingress stamp `ti`. -/
def execAnnounce (t p ti : Nat) (raw : List Nat) (s : State) : Out := .next (s.whenOn t (fun s => s.announce (p % 4) ti raw))

/-- SYNC (R438). -/
def execSync (t p ti : Nat) (raw : List Nat) (s : State) : Out := .next (s.whenOn t (fun s => s.sync (p % 4) ti raw))

/-- FOLLOW_UP (R438). -/
def execFollowUp (t p ti : Nat) (raw : List Nat) (s : State) : Out := .next (s.whenOn t (fun s => s.followUp (p % 4) ti raw))

/-- DELAY_RESP (R438). -/
def execDelayResp (t p ti : Nat) (raw : List Nat) (s : State) : Out := .next (s.whenOn t (fun s => s.delayResp (p % 4) ti raw))

/-- DELAY_REQ_SEND (R437). -/
def execDelayReqSend (t v : Nat) (s : State) : Out := .next (s.whenOn t (fun s => s.delayReq (v % 2)))

/-- ANNOUNCE_TIMEOUT (R439). -/
def execAnnounceTimeout (t v : Nat) (s : State) : Out := .next (s.whenOn t (fun s => s.annTimeout (v % 2)))

/-- SYNC_TIMEOUT (R439). -/
def execSyncTimeout (t v : Nat) (s : State) : Out := .next (s.whenOn t (fun s => s.syncTimeout (v % 2)))

/-- SERVO_ENABLE_WRITE (R439). -/
def execServoEnableWrite (t v : Nat) (en : Bool) (s : State) : Out := .next (s.whenHost t (fun s => s.srvEnable (v % 2) en))

/-- CASTLE (R441). -/
def execCastle (t d : Nat) (force : Bool) (s : State) : Out := .next (s.whenHost t (fun s => s.castleCmd (d % 2) force))

/-- STEP (R441). -/
def execStep (t d : Nat) (s : State) : Out := .next (s.whenHost t (fun s => s.stepCmd (d % 2)))

/-- REVERT_TIMER (R441). -/
def execRevertTimer (t : Nat) (s : State) : Out := .next (s.whenOn t State.revert)

/-- TIME_READ (R444). -/
def execTimeRead (t : Nat) (s : State) : Out := .next (s.whenHost t State.timeRead)

/-- PULSE (R449). -/
def execPulse (t id : Nat) (s : State) : Out := .next (s.whenOn t (fun s => s.firing 1 id))

/-- PULSE_END (R449). -/
def execPulseEnd (t id : Nat) (s : State) : Out := .next (s.whenOn t (fun s => s.pulseDue id))

/-- SET_HIGH (R449). -/
def execSetHigh (t id : Nat) (s : State) : Out := .next (s.whenOn t (fun s => s.firing 2 id))

/-- SET_LOW (R449). -/
def execSetLow (t id : Nat) (s : State) : Out := .next (s.whenOn t (fun s => s.firing 3 id))

/-- SLOT (R449). -/
def execSlot (t id : Nat) (s : State) : Out := .next (s.whenOn t (fun s => s.firing 4 id))

/-- CAPTURE_EDGE (R450): PPS_IN (1) or GPIOn (8 + n). -/
def execCaptureEdge (t src : Nat) (rising : Bool) (s : State) : Out :=
  .next (s.whenOn t (fun s => if src = 1 ∨ (8 ≤ src ∧ src < 16) then s.stampEdge src rising id else s))

/-- SYNC_IN_EDGE (R312, R450): an edge of the active polarity. -/
def execSyncInEdge (t : Nat) (s : State) : Out :=
  .next (s.whenOn t (fun s => s.stampEdge 0 s.syncRising (fun s => s.syncEdge s.now)))

/-- TE_EDGE (R323, R450). -/
def execTeEdge (t : Nat) (s : State) : Out := .next (s.whenOn t (fun s => s.stampEdge 2 true (fun s => s.teEdge s.now)))

/-- SYNC_IN_OTHER_POLARITY_EDGE (R311, R450): stamped and captured, no part of genlock. -/
def execSyncInOtherPolarityEdge (t : Nat) (s : State) : Out :=
  .next (s.whenOn t (fun s => s.stampEdge 0 (!s.syncRising) id))

end Sys2Proof.Machine
end

