-- ==== Sys2Proof/Machine/Audio.lean ====
section
/-!
DEFINITION. AES3 audio (16_audio): sample instants and blocks, inputs, the delay store, outputs, the capture and playout
rings, the delay and meter statistics.
-/

namespace Sys2Proof.Machine

/-! ### Instants and blocks (R460, R461) -/

/-- Sample rate of a RATE value in Hz (R459, R476). -/
def rateHz (r : Nat) : Nat := [44100, 48000, 88200, 96000].getD (r % 4) 48000

/-- The rate in force. -/
def State.fs (s : State) : Nat := rateHz s.aud.rate

/-- Index, over all seconds, of the sample instant at or before full time `f` in ticks (R460). -/
def instantAt (fs f : Nat) : Nat := (f / tickS) * fs + (f % tickS) * fs / tickS

/-- Full time of a sample instant in ticks, rounded up. -/
def instantTime (fs i : Nat) : Nat := (i / fs) * tickS + ceilDiv ((i % fs) * tickS) fs

/-- The sample instant nearest full time `f`; halfway goes to the later one. -/
def instantNear (fs : Nat) (f : Int) : Nat := ((2 * f * (fs : Int) + (tickS : Int)).fdiv (2 * (tickS : Int))).toNat

/-- First instant of a block, by its number in ms of full time (R461). -/
def blockFirst (fs k : Nat) : Nat := (k / 1000) * fs + ceilDiv ((k % 1000) * fs) 1000

/-- The full time that audio instants follow: the time base, and after a step the time base as it was, until AUD re-aligns (R460). -/
def State.audFull (s : State) : Nat := ((s.full s.now : Int) - s.tim.stepLag).toNat

/-- A staged AUD field in force for the block in progress (R473); AUD starts with the reset values. -/
def State.audLive (s : State) (f : Fld) : Nat := s.aud.regs.get f

/-- A signed one, in ns. -/
def State.audNs (s : State) (f : Fld) : Int := signed 32 (s.audLive f)

/-! ### Sample words (R466) -/

/-- A sample word: 24-bit audio, V, U, C, PE. -/
def wordOf (x : Int) (v u c pe : Bool) : Nat := unsigned 24 (satSigned 24 x) * 256 + b2n v * 8 + b2n u * 4 + b2n c * 2 + b2n pe

/-- Audio of a sample word. -/
def audioOf (w : Nat) : Int := signed 24 (w / 256)

/-- A sample word with V set. -/
def setV (w : Nat) : Nat := withBits w 3 3 1

/-- The word of a silent sample with V = 1. -/
abbrev silentV : Nat := 8

/-- A sample word scaled by a / b, rounded to nearest (R462, R463). -/
def scaleWord (w a b : Nat) : Nat := unsigned 24 (idivNear (audioOf w * (a : Int)) b) * 256 + w % 256

/-! ### Inputs (R462 to R465) -/

/-- State of input port `p`. -/
def State.aesSt (s : State) (p : Nat) : Nat := bitsOf (s.get F.AUD_STATUS_IN_STATE) (2 * p + 1) (2 * p)

/-- Set it. -/
def State.setAes (s : State) (p st : Nat) : State :=
  s.put F.AUD_STATUS_IN_STATE (withBits (s.get F.AUD_STATUS_IN_STATE) (2 * p + 1) (2 * p) st)

/-- Input port `p`. -/
def State.aes (s : State) (p : Nat) : AesPort := s.aud.ports.getD p {}

/-- Change it. -/
def State.onAes (s : State) (p : Nat) (f : AesPort → AesPort) : State :=
  { s with aud := { s.aud with ports := modAt s.aud.ports p f } }

/-- A port leaves ACQUIRE or LOCKED with a code (R462, R463): a LOCKED port fades over the block in hand. -/
def State.aesDown (s : State) (p code : Nat) : State :=
  let locked := s.aesSt p = 2
  let s1 := (s.setAes p 0).onAes p (fun x => { x with
    good := 0, last := none, cs := none, lastI := none
    fade := if locked then { x.fade with fout := true, next := false } else x.fade })
  let s2 := s1.event code p p s.aud.seq
  if locked ∧ (s.aes p).fade.fout = false then s2.count Reg.AUD_SNAP_FADES 1 else s2

/-- Subframe fields as sent (AES3; log entry 74): audio in bits [23:0], V 24, U 25, C 26, P 27, parity even over all. -/
def parityOk (x : Nat) : Bool := ((List.range 28).countP (bitAt x)) % 2 == 0

/-- The word of a subframe, given the channel's previous word (R463). -/
def subWord (x prev : Nat) : Nat :=
  if parityOk x then wordOf (signed 24 x) (bitAt x 24) (bitAt x 25) (bitAt x 26) false
  else wordOf (audioOf prev) true (bitAt x 25) (bitAt x 26) true

/-- A channel-status block is whole (R465). -/
def State.csBlock (s : State) (c : Nat) (bits : List Bool) : State :=
  let bytes := (List.range 24).map (fun i => (List.range 8).foldl (fun a b => a + b2n (bits.getD (8 * i + b) false) * 2 ^ b) 0)
  if bitAt (bytes.getD 0 0) 0 = true ∧ crcc (bytes.take 23) ≠ bytes.getD 23 0 then
    (s.count Reg.AUD_SNAP_CRCC 1).eventOnce 0x1214 c c c s.aud.seq
  else (List.range 6).foldl (fun s w => s.put (F.AUD_CS_IN_BYTES.nth2 c w) (leNat (slice bytes (4 * w) 4))) s

/-- Collect the C bits of a frame (R465). -/
def State.csBits (s : State) (p : Nat) (z a b : Bool) : State :=
  let x := (if z then some ([], []) else (s.aes p).cs)
  match x with
  | none => s
  | some (la, lb) =>
    let s1 := s.onAes p (fun x => { x with cs := if la.length = 191 then none else some (la ++ [a], lb ++ [b]) })
    if la.length = 191 then (s1.csBlock (2 * p) (la ++ [a])).csBlock (2 * p + 1) (lb ++ [b]) else s1

/-! ### The delay store (R468, R471) -/

/-- Key of the delay store. -/
def storeKey (c i : Nat) : Nat := c * 196608 + i % 196608

/-- The sample of channel `c` at instant `i`, none where nothing was written there since the store last wrapped. -/
def State.stored (s : State) (c i : Nat) : Option Nat :=
  match sparseGet (fun _ => none) s.aud.store (storeKey c i) with
  | some (j, w) => if j = i then some w else none
  | none => none

/-- Write a sample. -/
def State.storePut (s : State) (c i w : Nat) : State :=
  { s with aud := { s.aud with store := sparseSet (fun _ => none) s.aud.store (storeKey c i) (some (i, w)) } }

/-! ### Placing samples (R464) -/

/-- A frame's samples land on their instant (R464). A second sample of an instant, and each instant that none falls on, is a slip; fewer than
three instants lie between the frames of a LOCKED port (R462). One whose block has ended already goes to the delay store alone (R468). -/
def State.place (s : State) (p ti a b : Nat) : State :=
  let i := instantNear s.fs ((s.full ti : Int) + s.audNs (F.AUD_IN_OFFSET_OFFSET_NS.nth p) * (tickNs : Int))
  let x := s.aes p
  let gap := match x.lastI with
    | some l => if i = l then 1 else if l < i ∧ i ≤ l + 3 then i - l - 1 else 0
    | none => 0
  let s1 := s.onAes p (fun x => { x with
    hold := if i < x.first then x.hold else x.hold.filter (fun h => h.1 != i) ++ [(i, a, b)]
    prev := (a, b), lastI := some i, slip := x.slip || decide (gap ≠ 0) })
  let s2 := if i < x.first then (s1.storePut (2 * p) i a).storePut (2 * p + 1) i b else s1
  if gap = 0 then s2 else (s2.count Reg.AUD_SNAP_SLIPS gap).eventOnce 0x1213 p p p s.aud.seq

/-- AES_INPUT_FRAME (R462 to R465): a frame whose first preamble was stamped `ti`; `ok` its preambles valid, `z` the Z preamble. The
rate is measured from one valid frame to the next, over the nearest whole number of periods (log entry 162). -/
def State.aesFrame (s : State) (p ti : Nat) (ok z : Bool) (a b : Nat) : State :=
  let st := s.aesSt p
  let x := s.aes p
  if !ok then (if st = 1 then s.onAes p (fun x => { x with good := 0 }) else s)
  else if st = 0 then (s.setAes p 1).onAes p (fun x => { x with last := some ti, good := 1, cs := none })
  else
    let dt := ti - (x.last.getD ti)
    let n := max 1 (divNear (dt * s.fs) tickS)
    if 3 * tickS ≤ dt * s.fs then s.aesDown p 0x1210
    else if n * tickS * 1000 < dt * s.fs * 999 ∨ dt * s.fs * 1001 < n * tickS * 1000 then s.aesDown p 0x1212
    else
      let s1 := s.onAes p (fun x => { x with last := some ti, good := if n = 1 then x.good + 1 else 1 })
      if st = 1 then
        if 16 ≤ (s1.aes p).good then
          ((s1.setAes p 2).onAes p (fun x => { x with
            fade := if x.fade.fout then { x.fade with next := true } else { part := true, next := true }
            hold := if x.fade.fout then x.hold else [], lastI := none })).event 0x1211 p p s.aud.seq
        else s1
      else
        let bad := b2n (!parityOk a) + b2n (!parityOk b)
        let s2 := if bad = 0 then s1 else s1.count Reg.AUD_SNAP_PARITY bad
        (s2.csBits p z (bitAt a 26) (bitAt b 26)).place p ti (subWord a x.prev.1) (subWord b x.prev.2)

/-- INPUT_FRAME_TIMEOUT (R462): three frame periods without a valid frame. -/
def State.aesTimeout (s : State) (p : Nat) : State :=
  match (s.aes p).last with
  | none => s
  | some a => if s.aesSt p ≠ 0 ∧ a + ceilDiv (3 * tickS) s.fs ≤ s.now then s.aesDown p 0x1210 else s

/-! ### Outputs (R460, R469 to R472) -/

/-- The 10 ms boundary of the time base after a place in 10 ms has been reached. -/
def State.past10ms (s : State) (k : Nat) : Bool := s.full s.now / (10 * tickMs) != k

/-- WCLK_OUT (R459): high in the first half of each frame. -/
def State.wclkOut (s : State) : Bool := let f := s.audFull; decide (2 * ((f % tickS * s.fs) % tickS) < tickS)

/-- Outputs send zero samples with V = 1: after a step of the time base, in the block before a change of rate, after a reset. -/
def State.audMuted (s : State) : Bool :=
  let f := s.full s.now
  s.tim.steppedAt.isSome || decide (0 < s.aud.mute) ||
    (s.live F.AUD_CTRL_RATE != s.aud.rate && (f / tickMs) % 10 == 9)

/-- Byte 23 of a block that says professional use is its CRCC (R472). -/
def sealCs (b : List Nat) : List Nat := if bitAt (b.getD 0 0) 0 then b.take 23 ++ [crcc (b.take 23)] else b

/-- The channel-status block an output begins with a Z preamble (R472). -/
def State.csFor (s : State) (c : Nat) : List Nat :=
  let src := s.audLive (F.AUD_OUT_SRC_SRC.nth c)
  let copy := s.audLive (F.AUD_OUT_SRC_CS_COPY.nth c) == 1 && decide (16 ≤ src)
  sealCs ((List.range 6).flatMap (fun w => leBytes 4 (
    if copy then s.get (F.AUD_CS_IN_BYTES.nth2 (src - 16) w) else s.audLive (F.AUD_CS_OUT_BYTES.nth2 c w))))

/-- What output `c` takes for instant `i` before its C bit: the word, and whether it is an underrun. `bad` lists the channels
whose delay-store read came back poisoned. -/
def State.outWord (s : State) (bad : List Nat) (c i : Nat) : Nat × Bool :=
  let src := s.audLive (F.AUD_OUT_SRC_SRC.nth c)
  if s.audMuted then (silentV, false)
  else if src = 0 then (0, false)
  else
    let k := if src = 1 then 16 + c else src - 16
    if bad.contains c ∨ i < s.aud.nD then (silentV, true)
    else match s.stored k (i - s.aud.nD) with
      | some w => (w, false)
      | none => (silentV, true)

/-- One output at a sample instant. -/
def State.sendOut (s : State) (bad : List Nat) (i c : Nat) : State :=
  let r := s.outWord bad c i
  let blk := s.aud.csSent.getD c []
  let bit := bitAt (blk.getD ((i % 192) / 8) 0) (i % 8)
  let w := withBits (withBits r.1 1 0 0) 1 1 (b2n bit)
  let pk := if bitAt w 3 then 0 else (audioOf w).natAbs
  let s1 : State := { s with aud := { s.aud with outs := s.aud.outs.set c w, outPeak := modAt s.aud.outPeak c (max pk) } }
  let s2 := if r.2 then (s1.count Reg.AUD_SNAP_UNDERRUN 1).eventOnce 0x1220 (c / 2) (c / 2) (c / 2) s.aud.seq else s1
  if r.2 ∧ bad.contains c then s2.event 0x1226 c c s.aud.seq else s2

/-- The sample instant of R460 that stands at the present stamp, within the ±10 ns of an edge at the balls. -/
def State.instantNow (s : State) : Option Nat :=
  let f := s.audFull
  let i := instantNear s.fs (f : Int)
  if f ≤ instantTime s.fs i + 10 * tickNs ∧ instantTime s.fs i ≤ f + 10 * tickNs then some i else none

/-- SAMPLE_INSTANT (R460): every output starts its frame, once for each instant. -/
def State.sampleInstant (s : State) (bad : List Nat) : State :=
  match s.instantNow with
  | none => s
  | some i =>
    if s.aud.sent = some i then s
    else
      let z := i % 192 == 0
      let s1 : State := { s with aud := { s.aud with
        zMark := z, sent := some i, csSent := if z then (List.range 16).map s.csFor else s.aud.csSent } }
      (List.range 16).foldl (fun s c => s.sendOut bad i c) s1

/-! ### Blocks (R463, R467, R469, R474) -/

/-- The words of one input channel over a block: where no sample fell on an instant, the previous one (R464). -/
def fillWords (hold : List (Nat × Nat)) : List Nat → Nat → List Nat
  | [], _ => []
  | i :: is, prev =>
    let w := ((hold.find? (fun h => h.1 == i)).map (·.2)).getD prev
    w :: fillWords hold is w

/-- How many ms after a block of full time its samples have arrived at input `p`, by AUD_IN_OFFSET; negative where they arrive before
(R464; log entry 75). -/
def State.portLag (s : State) (p : Nat) : Int := -((s.audNs (F.AUD_IN_OFFSET_OFFSET_NS.nth p)).fdiv 1000000)

/-- The sample instants of block `k`, by its number in ms of full time (R461). -/
def State.blockInstants (s : State) (k : Nat) : List Nat := upFrom (blockFirst s.fs k) (blockFirst s.fs (k + 1) - blockFirst s.fs k)

/-- The ramps of a block of `n` + 1 samples at sample `q` (R462, R463). -/
def AudFade.ramp (f : AudFade) (n q w : Nat) : Nat :=
  let a := (if f.fin then q else max n 1) * (if f.fout then n - q else max n 1)
  let v := if f.fin || f.fout then scaleWord w a (max n 1 * max n 1) else w
  if f.fout then setV v else v

/-- Channel `c` over a block that ended: its words before any ramp, those it contributes, and whether AUD forced V in it (a fade, silence, a parity
error). Before the first sample of the block in which it locked it is silent; not LOCKED, it contributes silence. -/
def State.inBlock (s : State) (is : List Nat) (c : Nat) : List Nat × List Nat × Bool :=
  let x := s.aes (c / 2)
  let pick (q : Nat × Nat) : Nat := if c % 2 = 0 then q.1 else q.2
  let f := fillWords (x.hold.map (fun h => (h.1, pick h.2))) is (if x.fade.part then silentV else pick x.tail)
  let out := f.zipIdx.map (fun q => x.fade.ramp (is.length - 1) q.2 q.1)
  if s.aesSt (c / 2) = 2 ∨ x.fade.fout = true then (f, out, x.fade.part || x.fade.fout || f.any (fun w => bitAt w 0))
  else (f, is.map (fun _ => silentV), true)

/-- A level in 1/80,000 dB from a peak (R474). -/
def peakLevel (pk : Nat) : Int := max (-18432) (level128 pk) * 625

/-- One statistic: the level falls by at most DECAY, goes to AUD_LEVEL and to the Board (R474, R261). -/
def State.meterStat (s : State) (c pk : Nat) : State :=
  let old := s.aud.levels.getD c (-11520000)
  let l := max (peakLevel pk) (old - 8 * (s.audLive F.AUD_METER_DECAY : Int))
  let s1 : State := { s with aud := { s.aud with levels := s.aud.levels.set c l } }
  let v := idivNear l 625
  let s2 := s1.putS (F.AUD_LEVEL_LEVEL.nth c) v
  { s2 with brd := { s2.brd with meters := ((if c < 16 then c else 112 + c, s.now, v) :: s2.brd.meters).take 4096 } }

/-- Bytes of a slot for a mask (R467). -/
def slotBytes (mask : Nat) : Nat := 64 * ceilDiv (32 + 384 * ((List.range 16).countP (bitAt mask))) 64

/-- CAPTURE_RECORD_WRITE (R467): the block's record goes to the capture ring, or is dropped. -/
def State.captureRecord (s : State) (is : List Nat) (chans : List (List Nat × Bool)) (slip : Bool) : State :=
  let n := s.get F.AUD_RING_SIZE_SLOTS
  let mask := s.audLive F.AUD_IN_MASK_MASK
  let head := s.get F.AUD_RING_HEAD_HEAD
  if s.flag F.AUD_CTRL_CAPTURE_EN = false ∨ n < 2 then s
  else if (head + 1) % n = s.get F.AUD_RING_TAIL_TAIL then
    (s.count Reg.AUD_SNAP_OVERRUN 1).eventOnce 0x1223 0 0 0 s.aud.seq
  else
    let on := (List.range 16).filter (bitAt mask)
    let t := instantTime s.fs (is.headD 0)
    let inv := (List.range 16).foldl (fun a c => a + b2n ((chans.getD c ([], false)).2) * 2 ^ c) 0
    let words := (List.range is.length).flatMap (fun i => on.flatMap (fun c => leBytes 4 ((chans.getD c ([], false)).1.getD i 0)))
    let rec_ := leBytes 4 (fullNs t) ++ leBytes 4 (fullSec t) ++ leBytes 2 is.length ++ leBytes 2 mask ++
      leBytes 4 (s.epochAt 0x12) ++ leBytes 2 inv ++ leBytes 2 (b2n slip) ++ leBytes 4 s.aud.seq ++ List.replicate 8 0 ++ words
    let a := s.get (F.AUD_RING_BASE_BASE.nth 0) * 64 + slotBytes mask * head
    ((s.store 11 a rec_).put F.AUD_RING_HEAD_HEAD ((head + 1) % n)).raise 6

/-- Target of N_D and whether it was clamped (R469). -/
def State.delayTarget (s : State) : Nat × Bool :=
  let sum : Int := (s.get F.OUT_LIGHT_NS_LATENCY : Int) + s.audNs F.AUD_TRIM_TRIM_NS
  let c := max 0 (min 2000000000 sum)
  (((2 * c * (s.fs : Int) + 1000000000) / 2000000000).toNat, sum != c)

/-- Show the delay in force, in ns rounded to nearest (R476). -/
def State.showDelay (s : State) : State := s.put F.AUD_DELAY_D_NS (divNear (s.aud.nD * 1000000000) s.fs)

/-- DELAY_STEP (R469). -/
def State.delayStep (s : State) : State :=
  let g := s.delayTarget
  let s1 := if g.2 then s.eventOnce 0x1224 0 0 0 s.aud.seq else s
  if g.1 = s.aud.nD then s1
  else
    let n := if s.aud.nD < g.1 then s.aud.nD + 1 else s.aud.nD - 1
    let s2 : State := { s1 with aud := { s1.aud with nD := n } }
    (s2.showDelay).count Reg.AUD_SNAP_DELAY_STEPS 1

/-- One input channel of a block that ended: its LOCKED samples go to the delay store (R468), its statistic is formed (R474). -/
def State.inputChannel (s : State) (is : List Nat) (c : Nat) (b : List Nat) : State :=
  let x := s.aes (c / 2)
  let from_ := if x.fade.part then ((x.hold.head?).map (·.1)).getD (is.headD 0 + is.length) else 0
  let s1 := if s.aesSt (c / 2) = 2 ∨ x.fade.fout = true then
      ((is.zip b).filter (fun q => decide (from_ ≤ q.1))).foldl (fun s q => s.storePut c q.1 q.2) s
    else s
  s1.meterStat c ((b.filter (fun w => !bitAt w 3)).foldl (fun a w => max a (audioOf w).natAbs) 0)

/-- The block in hand of input `p` ends with the ms `k` of full time (R463, R464): its words wait for the record of its block, and the next block is in
hand. -/
def State.portBlock (s : State) (k p : Nat) : State :=
  let j : Int := (k : Int) - s.portLag p
  if j < 0 then s
  else
    let is := s.blockInstants j.toNat
    let a := s.inBlock is (2 * p)
    let b := s.inBlock is (2 * p + 1)
    let s1 := (s.inputChannel is (2 * p) a.2.1).inputChannel is (2 * p + 1) b.2.1
    let first := blockFirst s.fs (j.toNat + 1)
    let s2 := s1.onAes p (fun x => { x with
      hold := x.hold.filter (fun h => decide (first ≤ h.1)), slip := false, fade := { fin := x.fade.next }, first := first
      tail := (a.1.getLastD silentV, b.1.getLastD silentV) })
    let blk : AudBlock := ⟨p, j.toNat, a.2.1, b.2.1, a.2.2, b.2.2, (s.aes p).slip⟩
    { s2 with aud := { s2.aud with blocks := s2.aud.blocks ++ [blk] } }

/-- The capture record that falls due with the ms `k` of full time (R467): of the latest block that has ended at every port captured; a port that has
none for it is silent in it. -/
def State.dueRecord (s : State) (k : Nat) : State :=
  let mask := s.audLive F.AUD_IN_MASK_MASK
  let lags := ((List.range 8).filter (fun p => bitAt mask (2 * p) || bitAt mask (2 * p + 1))).map s.portLag
  let lag := (lags.foldl max 0).toNat
  if k < lag then s
  else
    let is := s.blockInstants (k - lag)
    let port (p : Nat) : Option AudBlock := (s.aud.blocks.filter (fun b => b.port == p && b.block == k - lag)).getLast?
    let chan (c : Nat) : List Nat × Bool := match port (c / 2) with
      | some b => if c % 2 = 0 then (b.a, b.invA) else (b.b, b.invB)
      | none => (is.map (fun _ => silentV), true)
    let slip := (List.range 8).any (fun p => ((port p).map (·.slip)).getD false)
    let s1 := s.captureRecord is ((List.range 16).map chan) slip
    { s1 with aud := { s1.aud with blocks := s1.aud.blocks.filter (fun b => decide (k - lag < b.block)) } }

/-- BLOCK_END (R461): the block before the present ms of full time has ended. -/
def State.blockEnd (s : State) : State :=
  let ms := s.full s.now / tickMs
  if ms = 0 ∨ s.aud.lastBlock = some (ms - 1) then s
  else
    let k := ms - 1
    let s3 := ((List.range 8).foldl (fun s p => s.portBlock k p) s).dueRecord k
    let s4 := (List.range 16).foldl (fun s c => s.meterStat (16 + c) (s.aud.outPeak.getD c 0)) s3
    let s5 : State := { s4 with aud := { s4.aud with
      outPeak := List.replicate 16 0, seq := (s4.aud.seq + 1) % 2 ^ 32, lastBlock := some k, mute := s4.aud.mute - 1, regs := s4.cmt.inForce } }
    (s5.delayStep).count Reg.AUD_SNAP_BLOCKS 1

/-! ### Playout (R467, R468, R470) -/

/-- One playout record is taken. -/
def State.playTake (s : State) (slot : Nat) : State :=
  let mask := s.audLive F.AUD_PLAY_SIZE_PLAY_MASK
  let n := max 1 (s.get F.AUD_PLAY_SIZE_SLOTS)
  let a := s.get (F.AUD_RING_BASE_BASE.nth 1) * 64 + slotBytes mask * slot
  let h := s.read a 32
  let cnt := fieldLE h 8 2
  let on := (List.range 16).filter (bitAt mask)
  let s0 := (s.put F.AUD_PLAY_TAIL_TAIL ((slot + 1) % n)).noteRead 11 a 32
  let s1 := if s.readPoison a 32 ∨ fieldLE h 10 2 ≠ mask ∨ cnt = 0 ∨ 96 < cnt then s0 else s0.noteRead 11 (a + 32) (4 * cnt * on.length)
  if s.readPoison a 32 then s1.event 0x1226 0 0 s.aud.seq
  else if fieldLE h 10 2 ≠ mask ∨ cnt = 0 ∨ 96 < cnt then s1.event 0x1222 0 0 0
  else
    let fs := s.fs
    let j0 := instantNear fs (nearFull (fieldLE h 4 4) (fieldLE h 0 4) (s.full s.now))
    let late := decide (instantTime fs (j0 + s.aud.nD) ≤ s.full s.now + 100 * tickUs)
    let s2 := if late then (s1.count Reg.AUD_SNAP_LATE 1).event 0x1221 0 0 0 else s1
    let put (s : State) (q : Nat × Nat) : State :=
      let w := a + 32 + 4 * (q.1 * on.length + (on.idxOf q.2))
      if instantTime fs (j0 + q.1 + s.aud.nD) ≤ s.full s.now ∨ s.readPoison w 4 = true then s
      else s.storePut (16 + q.2) (j0 + q.1) (withBits (s.readLE w 4) 0 0 0)
    let s3 := ((List.range cnt).flatMap (fun i => on.map (fun c => (i, c)))).foldl put s2
    if s.readPoison (a + 32) (4 * cnt * on.length) then s3.event 0x1226 0 0 s.aud.seq else s3

/-- PLAYOUT_RING_HEAD_WRITE (R470). -/
def State.playHead (s : State) (v : Nat) : State :=
  let n := s.get F.AUD_PLAY_SIZE_SLOTS
  let s1 := s.put F.AUD_PLAY_HEAD_HEAD v
  if n < 2 ∨ n ≤ v % 4096 ∨ s.flag F.AUD_CTRL_PLAY_EN = false then s1
  else
    let l := slotsTo (s.get F.AUD_PLAY_TAIL_TAIL) (v % 4096) n
    if l = [] then s1 else (l.foldl State.playTake s1).raise 6

/-! ### Rate, re-alignment, word clock, reset -/

/-- RATE_SWITCH (R461): the first 10 ms boundary after AUD took the marker of an epoch with another RATE. Samples placed at instants
of the old rate are let go. -/
def State.rateSwitch (s : State) : State :=
  let r := s.live F.AUD_CTRL_RATE
  if r = s.aud.rate ∨ s.past10ms s.aud.rateFrom = false then s
  else
    let n := divNear (s.aud.nD * rateHz r) s.fs
    let s1 : State := { s with aud := { s.aud with
      rate := r, nD := n, store := [], sent := none, blocks := []
      ports := s.aud.ports.map (fun x => { x with hold := [], lastI := none, first := 0 }) } }
    s1.showDelay

/-- REALIGN (R460): the 10 ms boundary after a step of the time base. -/
def State.realign (s : State) : State :=
  if s.tim.steppedAt.any s.past10ms then { (s.event 0x1225 0 0 s.aud.seq) with tim := { s.tim with steppedAt := none, stepLag := 0 } } else s

/-- WCLK_IN_EDGE (R461): the stamp less the nearest frame start, in ns. -/
def State.wclkEdge (s : State) : State :=
  let f := s.audFull
  let i := instantNear s.fs (f : Int)
  let d : Int := (f : Int) * (s.fs : Int) - ((i / s.fs * tickS : Nat) : Int) * (s.fs : Int) - (((i % s.fs) * tickS : Nat) : Int)
  s.putS F.AUD_WCLK_ERR_ERR_NS (idivNear d (s.fs * tickNs))

/-- AUD comes up with its domain: no WCLK_IN edge yet (R476). -/
def State.audStart (s : State) : State := s.put F.AUD_WCLK_ERR_ERR_NS 0x80000000

/-- An AUD reset (R473). -/
def State.audReset (s : State) : State :=
  let s1 : State := { s with aud := { s.aud with
    mute := 2, ports := s.aud.ports.map (fun x => { x with good := 0, last := none, hold := [], cs := none, fade := {}, lastI := none }) } }
  s1.put F.AUD_STATUS_IN_STATE 0

/-! ### Meanings -/

/-- SAMPLE_INSTANT (R460). -/
def execSampleInstant (t : Nat) (bad : List Nat) (s : State) : Out := .next (s.whenOn t (fun s => s.sampleInstant bad))

/-- BLOCK_END (R461). -/
def execBlockEnd (t : Nat) (s : State) : Out := .next (s.whenOn t State.blockEnd)

/-- AES_INPUT_FRAME (R462). -/
def execAesInputFrame (t p ti : Nat) (ok z : Bool) (a b : Nat) (s : State) : Out :=
  .next (s.whenOn t (fun s => s.aesFrame (p % 8) ti ok z a b))

/-- INPUT_FRAME_TIMEOUT (R462). -/
def execInputFrameTimeout (t p : Nat) (s : State) : Out := .next (s.whenOn t (fun s => s.aesTimeout (p % 8)))

/-- PLAYOUT_RING_HEAD_WRITE (R470). -/
def execPlayoutRingHeadWrite (t v : Nat) (s : State) : Out := .next (s.whenHost t (fun s => s.playHead v))

/-- RATE_SWITCH (R461). -/
def execRateSwitch (t : Nat) (s : State) : Out := .next (s.whenOn t State.rateSwitch)

/-- REALIGN (R460). -/
def execRealign (t : Nat) (s : State) : Out := .next (s.whenOn t State.realign)

/-- WCLK_IN_EDGE (R461). -/
def execWclkInEdge (t : Nat) (s : State) : Out := .next (s.whenOn t State.wclkEdge)

end Sys2Proof.Machine
end

