-- ==== Sys2Proof/Machine/Check.lean ====
section
/-!
DEFINITION. Check units and alive counters (17_check_units).
-/

namespace Sys2Proof.Machine

/-- The CRC of a check unit (R481, R482). -/
structure CrcPar where
  width : Nat
  poly : Nat
  init : Nat
  refin : Bool
  refout : Bool
  xorout : Nat
deriving DecidableEq, Repr

/-- Presets of R482. -/
def crcPreset (k : Nat) : Option CrcPar :=
  match k with
  | 1 => some ⟨32, 0x04C11DB7, 0xFFFFFFFF, true, true, 0xFFFFFFFF⟩
  | 2 => some ⟨32, 0x1EDC6F41, 0xFFFFFFFF, true, true, 0xFFFFFFFF⟩
  | 3 => some ⟨16, 0x1021, 0xFFFF, false, false, 0⟩
  | 4 => some ⟨64, 0x42F0E1EBA9EA3693, 0, false, false, 0⟩
  | _ => none

/-- CRC parameters of unit `n` under a register file (R481, R482). -/
def chkCrc (rf : RegFile) (n : Nat) : CrcPar :=
  (crcPreset (rf.get (F.CHK_CTRL_PRESET.nth n))).getD
    ⟨rf.get (F.CHK_CTRL_WIDTH.nth n), rf.get (F.CHK_POLY_POLY.nth n), rf.get (F.CHK_INIT_INIT.nth n),
     rf.get (F.CHK_CTRL_REFIN.nth n) == 1, rf.get (F.CHK_CTRL_REFOUT.nth n) == 1, rf.get (F.CHK_XOROUT_XOROUT.nth n)⟩

/-- Indices that a tap kind has (R479). -/
def tapIndices (kind : Nat) : Nat := [0, 64, 512, 2, 8, 1, 32].getD kind 0

/-- Bytes that can be a record of a tap kind (R479): a Tilth entry has 64, a channel-status block 24; without a tap there is none. -/
def tapRecord (kind : Nat) (b : List Nat) : Bool :=
  match kind with
  | 0 => false
  | 2 => b.length == 64
  | 6 => b.length == 24
  | _ => true

/-- R486: unit `n`'s settings under a register file may stand. -/
def chkOk (rf : RegFile) (n : Nat) : Bool :=
  let g (f : Fld) : Nat := rf.get (f.nth n)
  let wa := g F.CHK_ALIVE_WIDTH_A
  let width := g F.CHK_CTRL_WIDTH
  decide (1 ≤ width ∧ width ≤ 64) && decide (g F.CHK_CTRL_MODE < 3) && decide (g F.CHK_CTRL_PRESET < 5) &&
    ((g F.CHK_CTRL_MODE == 0 && g F.CHK_TAP_KIND == 0) || decide (g F.CHK_TAP_INDEX < tapIndices (g F.CHK_TAP_KIND))) &&
    decide (4 ≤ wa ∧ wa ≤ 16 ∧ g F.CHK_ALIVE_LSB + wa ≤ 24 ∧ 1 ≤ g F.CHK_ALIVE_INC ∧ g F.CHK_ALIVE_INC < 2 ^ wa)

/-- The code that refuses a commit whose captured values are `rf` (R486), 0 for none. -/
def chkCode (rf : RegFile) : Nat := if (List.range 16).all (chkOk rf) then 0 else 0x1310

/-- State of unit `n` (R487). -/
def State.chkSt (s : State) (n : Nat) : Nat := s.get (F.CHK_STATUS_STATE.nth n)

/-- Change unit `n`. -/
def State.onChk (s : State) (n : Nat) (f : ChkUnit → ChkUnit) : State := { s with chk := modAt s.chk n f }

/-- Start unit `n` as from OFF under the settings in force (R486, R487). -/
def State.chkBegin (s : State) (n : Nat) : State :=
  let mode := s.live (F.CHK_CTRL_MODE.nth n)
  let st := if mode = 0 then 0 else if s.live (F.CHK_CTRL_ALIVE_EN.nth n) = 1 then 1 else 2
  ((s.put (F.CHK_STATUS_STATE.nth n) st).put (F.CHK_STATUS_ALIVE.nth n) 0).onChk n (fun u => { u with run := none })

/-- A code of R488, once per epoch and unit. -/
def State.chkEvent (s : State) (code n a1 : Nat) : State :=
  s.eventOnce code n n (sat32 (s.counter (Reg.CHK_SNAP_RECORDS + 64 * n))) a1

/-- Count in a snapshot counter of unit `n` (R491). -/
def State.chkCount (s : State) (reg n : Nat) : State := s.count (reg + 64 * n) 1

/-- The alive value of a record (R484). -/
def State.aliveOf (s : State) (n : Nat) (b : List Nat) : Nat :=
  (fieldLE b (s.live (F.CHK_ALIVE_BYTE.nth n)) 3 / 2 ^ s.live (F.CHK_ALIVE_LSB.nth n)) % 2 ^ s.live (F.CHK_ALIVE_WIDTH_A.nth n)

/-- The alive value is judged (R484, R487). -/
def State.judge (s : State) (n : Nat) (b : List Nat) : State :=
  let a := s.aliveOf n b
  let m := 2 ^ s.live (F.CHK_ALIVE_WIDTH_A.nth n)
  let p := s.get (F.CHK_STATUS_ALIVE.nth n)
  let inc := s.live (F.CHK_ALIVE_INC.nth n)
  let d := (a + m - p % m) % m
  let took := s.put (F.CHK_STATUS_ALIVE.nth n) a
  if s.chkSt n = 1 then took.put (F.CHK_STATUS_STATE.nth n) 2
  else if d = inc then took
  else if d = 0 then (s.chkCount Reg.CHK_SNAP_REPEAT n).chkEvent 0x1321 n 0
  else (took.chkCount Reg.CHK_SNAP_SKIP n).chkEvent 0x1322 n ((d + m - inc % m) % m)

/-- Whether a record is too short (R480). -/
def State.chkShort (s : State) (n : Nat) (b : List Nat) : Bool :=
  let c := chkCrc s.cmt.inForce n
  let f := s.live (F.CHK_FIELD_COVER_START.nth n) + s.live (F.CHK_FIELD_CHECK_OFF.nth n) + ceilDiv c.width 8
  let al := s.live (F.CHK_ALIVE_BYTE.nth n) + ceilDiv (s.live (F.CHK_ALIVE_LSB.nth n) + s.live (F.CHK_ALIVE_WIDTH_A.nth n)) 8
  decide (b.length < f) || (s.live (F.CHK_CTRL_ALIVE_EN.nth n) == 1 && decide (b.length < al))

/-- The bytes a CRC covers (R481). -/
def State.covered (s : State) (n : Nat) (b : List Nat) : List Nat :=
  (b.take (b.length - s.live (F.CHK_FIELD_CHECK_OFF.nth n))).drop (s.live (F.CHK_FIELD_COVER_START.nth n))

/-- The check field of a record (R481); `more` stands for its bytes beyond the record's end, where CHECK_OFF leaves it no room. -/
def State.checkField (s : State) (n : Nat) (b more : List Nat) : Nat :=
  let w := (chkCrc s.cmt.inForce n).width
  let f := slice (b ++ more) (b.length - s.live (F.CHK_FIELD_CHECK_OFF.nth n)) (ceilDiv w 8)
  (if s.live (F.CHK_CTRL_CHECK_BE.nth n) = 1 then beNat f else leNat f) % 2 ^ w

/-- CHECK_RECORD (R479 to R485): unit `n` is handed a record of its tap; `busy` says that it has not finished the one
before. -/
def State.checkRecord (s : State) (n : Nat) (b : List Nat) (busy : Bool) : State :=
  if (s.chkSt n ≠ 1 ∧ s.chkSt n ≠ 2) ∨ tapRecord (s.live (F.CHK_TAP_KIND.nth n)) b = false then s
  else if busy then (s.chkCount Reg.CHK_SNAP_OVERRUN n).chkEvent 0x1323 n 0
  else if s.chkShort n b then s.chkCount Reg.CHK_SNAP_SHORT n
  else
    let s1 := s.chkCount Reg.CHK_SNAP_RECORDS n
    let c := chkCrc s.cmt.inForce n
    let en := s.live (F.CHK_CTRL_CHECK_EN.nth n) == 1
    let alive := s.live (F.CHK_CTRL_ALIVE_EN.nth n) == 1
    if s.live (F.CHK_CTRL_MODE.nth n) = 2 then
      let reg := ((s1.chk.getD n {}).run).getD (c.init % 2 ^ c.width)
      let run := crcFeed c.width c.poly c.refin reg (s1.covered n b)
      let s2 := if en then s1.onChk n (fun u => { u with run := some run }) else s1
      if alive then s2.judge n b else s2
    else
      let v := crcOf c.width c.poly c.init c.refin c.refout c.xorout (s1.covered n b)
      let q := if en = true ∧ s.live (F.CHK_FIELD_CHECK_OFF.nth n) < ceilDiv c.width 8 then s1.free 30 else (0, s1)
      let s2 := if en then q.2.put (F.CHK_RESULT_VALUE.nth n) v else q.2
      if en = true ∧ v ≠ s1.checkField n b (leBytes 8 (q.1 % 2 ^ 64)) then (s2.chkCount Reg.CHK_SNAP_MISMATCH n).chkEvent 0x1320 n (v % 2 ^ 32)
      else if alive then s2.judge n b
      else s2

/-- Put a value into the snapshot that an epoch's units have latched (R81). -/
def State.snapPut (s : State) (e reg v : Nat) : State :=
  { s with cmt := { s.cmt with epochs := s.cmt.epochs.map (fun (x : Epoch) =>
      if x.num = e then { x with snap := sparseSet (fun _ => 0) x.snap reg v } else x) } }

/-- The boundary of epoch `e` in RUNNING mode (R483): the final value is latched and the register restarts. -/
def State.runBoundary (s : State) (e n : Nat) : State :=
  if s.live (F.CHK_CTRL_MODE.nth n) ≠ 2 ∨ (s.chkSt n ≠ 1 ∧ s.chkSt n ≠ 2) then s
  else
    let c := chkCrc s.cmt.inForce n
    let v := crcEnd c.width c.refout c.xorout (((s.chk.getD n {}).run).getD (c.init % 2 ^ c.width))
    let a := Reg.CHK_SNAP_RUNNING + 64 * n
    ((s.snapPut e a (v % 2 ^ 32)).snapPut e (a + 4) (v / 2 ^ 32)).onChk n (fun u => { u with run := none })

/-- Units whose tap is a Tilth queue among `qs` (R483): the queue's own marker passes. -/
def State.tilthBoundary (s : State) (e : Nat) (qs : List Nat) : State :=
  (List.range 16).foldl (fun s n =>
    if s.live (F.CHK_TAP_KIND.nth n) = 2 ∧ qs.contains (s.live (F.CHK_TAP_INDEX.nth n)) then s.runBoundary e n else s) s

/-- The other taps' boundary, before the settings of the marker take effect (R483). -/
def State.chkBoundary (s : State) (e : Nat) : State :=
  (List.range 16).foldl (fun s n => if s.live (F.CHK_TAP_KIND.nth n) = 2 then s else s.runBoundary e n) s

/-- Offsets of a unit's settings. -/
def chkRegs (n : Nat) : List Nat :=
  ([0x00, 0x04, 0x08, 0x0C, 0x10, 0x14, 0x18, 0x1C, 0x20, 0x24] : List Nat).map (fun o => Reg.CHK_CTRL + 64 * n + o)

/-- CHK consumes a marker whose settings are in force now, with `old` in force before it (R486, R487). -/
def State.chkMarker (s : State) (old : RegFile) : State :=
  (List.range 16).foldl (fun s n =>
    if s.chkSt n = 3 ∨ (chkRegs n).any (fun o => old.rd o != s.cmt.inForce.rd o) then s.chkBegin n else s) s

/-- A CHK reset or a freeze (R487). -/
def State.chkHalt (s : State) : State := (List.range 16).foldl (fun s n => s.put (F.CHK_STATUS_STATE.nth n) 3) s

/-- CHECK_RECORD (R481). -/
def execCheckRecord (t n : Nat) (b : List Nat) (busy : Bool) (s : State) : Out :=
  .next (s.whenOn t (fun s => s.checkRecord (n % 16) b busy))

end Sys2Proof.Machine
end

