-- ==== Sys2Proof/Machine/Label.lean ====
section
/-!
DEFINITION. The label strip (R386 to R396): label data, updates and blink writes, waveforms, DC counters, and its records.
-/

namespace Sys2Proof.Machine

/-! ### Label data (R390) -/

/-- One record of label data. -/
structure LblRec where
  typ : Nat
  gen : Nat
  c0 : Nat
  c1 : Nat
  s0 : Nat
  n : Nat
  data : List Nat
deriving DecidableEq, Repr

/-- A record's rules (R390): `b` begins at it. -/
def lblRecOk (b : List Nat) : Bool :=
  let typ := b.getD 0 0
  let c0 := b.getD 2 0
  let c1 := b.getD 3 0
  let s0 := fieldLE b 4 2
  let n := fieldLE b 6 2
  let len := fieldLE b 8 2
  decide (12 + len ≤ b.length) && decide (1 ≤ typ) && decide (typ ≤ 3) && (if typ = 3 then decide (b.getD 1 0 ≤ 3) else b.getD 1 0 == 0) &&
    decide (c0 ≤ c1) && decide (c1 ≤ 7) && decide (s0 ≤ 255) && decide (1 ≤ n) && decide (s0 + n ≤ 256) && fieldLE b 10 2 == 0 &&
    (if typ = 2 then c0 == 0 && decide (6 ≤ c1) && (slice b 12 len).all (fun c => decide (0x20 ≤ c) && decide (c ≤ 0x7E))
     else len == (c1 - c0 + 1) * ceilDiv n 8)

/-- The record at the start of a byte list. -/
def lblRecOf (b : List Nat) : LblRec :=
  ⟨b.getD 0 0, b.getD 1 0, b.getD 2 0, b.getD 3 0, fieldLE b 4 2, fieldLE b 6 2, slice b 12 (fieldLE b 8 2)⟩

/-- The records of label data, none where one breaks a rule (R390). `k` bounds their number. -/
def lblRecords : Nat → List Nat → Option (List LblRec)
  | 0, b => if b.isEmpty then some [] else none
  | k + 1, b =>
    if b.isEmpty then some []
    else if lblRecOk b then (lblRecords k (b.drop (alignUp (12 + fieldLE b 8 2) 4))).map (fun r => lblRecOf b :: r)
    else none

/-- Label data keeps every rule (R390). -/
def lblDataOk (b : List Nat) : Bool := (lblRecords b.length b).isSome

/-- Set or clear segment s of a row. -/
def setBit (row s : Nat) (v : Bool) : Nat := withBits row s s (b2n v)

/-- A rectangle's bits written into eight rows: `f` answers the bit of (common, segment), none where it stays. -/
def paint (rows : List Nat) (r : LblRec) (f : Nat → Nat → Option Bool) : List Nat :=
  rows.zipIdx.map (fun q =>
    if r.c0 ≤ q.2 ∧ q.2 ≤ r.c1 then
      (upFrom r.s0 r.n).foldl (fun row s => match f q.2 s with
        | some v => setBit row s v
        | none => row) q.1
    else q.1)

/-- Bit of BITMAP or BLINK data (R390). -/
def LblRec.bit (r : LblRec) (c s : Nat) : Option Bool :=
  let m := s - r.s0
  some (bitAt (r.data.getD ((c - r.c0) * ceilDiv r.n 8 + m / 8) 0) (m % 8))

/-- Bit of TEXT (R390): 6 segments per character, the sixth blank, commons 0 to 6; the font is built in (log entry 26). -/
def LblRec.textBit (r : LblRec) (c s : Nat) : Option Bool :=
  let m := s - r.s0
  match r.data[m / 6]? with
  | none => none
  | some ch => if 6 < c then none else if m % 6 = 5 then some false else some (bitAt (Config.glyph ch c) (m % 6))

/-- Apply one record to the target image or a blink mask. -/
def LblState.apply (l : LblState) (r : LblRec) : LblState :=
  match r.typ with
  | 1 => { l with target := paint l.target r r.bit }
  | 2 => { l with target := paint l.target r r.textBit }
  | _ => { l with masks := modAt l.masks r.gen (fun m => paint m r r.bit) }

/-- Change the label strip. -/
def State.onLbl (s : State) (f : LblState → LblState) : State := { s with lbl := f s.lbl }

/-- LBL's state (R393): 0 OFF, 1 RECOVER, 2 IDLE, 3 WRITING, 4 FLOATED. -/
def State.lblSt (s : State) : Nat := s.get F.LBL_STATUS_STATE

/-- LABEL_APPLY (R390, R393): at its marker the LBL applies a commit's label data. -/
def State.labelApply (s : State) (data : List Nat) : State :=
  if data.isEmpty then s
  else
    let recs := (lblRecords data.length data).getD []
    let s1 := s.onLbl (fun l => { (recs.foldl LblState.apply l) with due := true })
    if s.lblSt = 0 ∨ s.lblSt = 1 ∨ s.lblSt = 4 then s1.onLbl (fun l => { l with landed := l.landed ++ [data] }) else s1

/-! ### Targets and rectangles (R390, R391) -/

/-- The pixel's target: the image bit, OFF while a generator whose mask holds it is off (R391). -/
def LblState.want (l : LblState) (c s : Nat) : Bool :=
  bitAt (l.target.getD c 0) s && ([0, 1, 2, 3].all (fun g => l.gens.getD g true || !bitAt ((l.masks.getD g []).getD c 0) s))

/-- The pixel is in a blink mask. -/
def LblState.blinks (l : LblState) (c s : Nat) : Bool := l.masks.any (fun m => bitAt (m.getD c 0) s)

/-- Every pixel of the strip. -/
def lblPixels : List (Nat × Nat) := (List.range 8).flatMap (fun c => (List.range 256).map (fun s => (c, s)))

/-- Bounding rectangle of a list of pixels. -/
def boundOf (px : List (Nat × Nat)) : Option LblRect :=
  match px with
  | [] => none
  | p :: ps =>
    let b := ps.foldl (fun (b : Nat × Nat × Nat × Nat) q => (min b.1 q.1, max b.2.1 q.1, min b.2.2.1 q.2, max b.2.2.2 q.2)) (p.1, p.1, p.2, p.2)
    some ⟨b.1, b.2.1, b.2.2.1, b.2.2.2 - b.2.2.1 + 1⟩

/-- The rectangle of an update: pixels whose target differs from what is displayed (R390); of a blink write: blink pixels
(R391). -/
def LblState.diff (l : LblState) (blink : Bool) : Option LblRect :=
  boundOf (lblPixels.filter (fun q => (l.want q.1 q.2 != bitAt (l.shown.getD q.1 0) q.2) && (!blink || l.blinks q.1 q.2)))

/-- The rows of targets. -/
def LblState.wantRows (l : LblState) : List Nat :=
  (List.range 8).map (fun c => (List.range 256).foldl (fun a s => setBit a s (l.want c s)) 0)

/-- A rectangle holds a pixel. -/
def LblRect.has (r : LblRect) (c s : Nat) : Bool := decide (r.c0 ≤ c) && decide (c ≤ r.c1) && decide (r.s0 ≤ s) && decide (s < r.s0 + r.n)

/-- The pixels of a rectangle. -/
def LblRect.pixels (r : LblRect) : List (Nat × Nat) := (upFrom r.c0 (r.c1 - r.c0 + 1)).flatMap (fun c => (upFrom r.s0 r.n).map (fun s => (c, s)))

/-! ### Records (R392) -/

/-- A rectangle of an LBL_UIP record. -/
def parseRect (b : List Nat) : LblRect := ⟨b.getD 0 0, b.getD 1 0, fieldLE b 2 2, fieldLE b 4 2⟩

/-- Its bytes. -/
def LblRect.bytes (r : LblRect) : List Nat := [r.c0, r.c1] ++ leBytes 2 r.s0 ++ leBytes 2 r.n ++ [0, 0]

/-- The rectangles of the open LBL_UIP record (R392), none where none is open. -/
def State.openUip (s : State) : Option (Nat × List LblRect) :=
  match s.nvsCurrent 0x0030 0 with
  | none => none
  | some u =>
    let closed := match s.nvsValue 0x0031 0 with
      | some c => decide (u.seq ≤ fieldLE c 0 4)
      | none => false
    if closed then none
    else some (u.seq, (List.range (u.payload.getD 0 0)).map (fun i => parseRect (slice u.payload (4 + 8 * i) 8)))

/-- A write of the LBL waits in the store's queue. -/
def State.lblQueued (s : State) : Bool := s.nvs.queue.any (fun j => j.who == NvsWho.label)

/-- Queue one of the LBL's records (R392); a request that the store refuses is LBL_NV_FAIL (R394). -/
def State.lblRecord (s : State) (typ : Nat) (payload : List Nat) : State :=
  let r := s.nvsWrite .label 1 typ 0 true false payload
  if r.1 = 0 then r.2 else r.2.lblWriteFailed typ r.1

/-- LBL_UIP_WRITE (R392): list the open rectangles with the new ones, up to 4, else their bounding box. -/
def State.uipWrite (s : State) (new : List LblRect) : State :=
  let all := ((s.openUip.map (·.2)).getD []) ++ new
  let list := if 4 < all.length then ((boundOf (all.flatMap (fun r => [(r.c0, r.s0), (r.c1, r.s0 + r.n - 1)]))).map (fun r => [r])).getD [] else all
  s.lblRecord 0x0030 ([list.length, 0, 0, 0] ++ slice (list.flatMap LblRect.bytes) 0 32)

/-- The open record covers these rectangles (R392). -/
def State.uipCovers (s : State) (rs : List LblRect) : Bool :=
  match s.openUip with
  | none => false
  | some u => rs.all (fun r => r.pixels.all (fun q => u.2.any (fun x => x.has q.1 q.2)))

/-- An image's 256 bytes. -/
def imageBytes (rows : List Nat) : List Nat := (slice rows 0 8).flatMap (leBytes 32)

/-- An image from its bytes. -/
def imageOf (b : List Nat) : List Nat := (List.range 8).map (fun c => leNat (slice b (32 * c) 32))

/-- An LBL_CLEAN record of what is displayed (R392), which closes the open LBL_UIP. -/
def State.lblClean (s : State) : State :=
  let seq := ((s.nvsCurrent 0x0030 0).map (·.seq)).getD 0
  let dc := (List.range 256).flatMap (fun k => leBytes 4 (s.get (F.LBL_DC_COUNT.nth k)))
  (s.onLbl (fun l => { l with dirty := false })).lblRecord 0x0031 (leBytes 4 seq ++ [s.get F.LBL_STATUS_BAND, 0, 0, 0] ++
    imageBytes s.lbl.shown ++ s.lbl.masks.flatMap imageBytes ++ dc)

/-- A POWER_OFF write (R377) starts an orderly power-down, at which the LBL writes an LBL_CLEAN record (R392; log entry 163): in IDLE at
once, else on reaching IDLE. -/
def State.powerOffWrite (s : State) : State :=
  let s1 := s.discharge false
  if s.pnlSt = 4 then s1
  else match s.get F.LBL_STATUS_STATE with
    | 2 => s1.lblClean
    | 1 | 3 => s1.onLbl (fun l => { l with cleanDue := true })
    | _ => s1

/-- The LBL reaches IDLE (R393). -/
def State.lblIdle (s : State) : State :=
  let s1 := s.put F.LBL_STATUS_STATE 2
  if s.lbl.cleanDue then (s1.lblClean).onLbl (fun l => { l with cleanDue := false }) else s1

/-- LBL_CLEAN_TIMER (R392): CLEAN_S seconds without a write. -/
def State.cleanTimer (s : State) : State :=
  if s.lblSt = 2 ∧ s.lbl.dirty = true ∧ s.lbl.wroteAt + s.get F.LBL_CLEAN_CLEAN_S * tickS ≤ s.now then s.lblClean else s

/-! ### Bands and waveforms (R387 to R389) -/

/-- T of R388 in 8.8 °C. -/
def State.lblTemp (s : State) : Int := if s.flag F.LBL_CTRL_TEMP_SRC then s.getS F.LBL_TEMP_TEMP else s.getS F.THM_KEEPER_TEMP

/-- Boundary B_i in °C. -/
def State.lblBound (s : State) (i : Nat) : Int :=
  signed 8 (if i < 4 then bitsOf (s.rd Reg.LBL_BANDS0) (8 * i + 7) (8 * i) else bitsOf (s.rd Reg.LBL_BANDS1) (8 * (i - 4) + 7) (8 * (i - 4)))

/-- R388: the band that T gives from the band it gave last, with its hysteresis of 1 °C. -/
def State.lblBand (s : State) : Nat :=
  let t := s.lblTemp
  let up := ((List.range 7).filter (fun i => decide (256 * s.lblBound i ≤ t))).length
  let down := ((List.range 7).filter (fun i => decide (256 * (s.lblBound i - 1) ≤ t))).length
  if s.lbl.band < up then up else if down < s.lbl.band then down else s.lbl.band

/-- T or a boundary may have changed: the band follows (R388). -/
def State.bandTrack (s : State) : State := s.onLbl (fun l => { l with band := s.lblBand })

/-- Phases of a waveform: the records up to one of DURATION 0 (R387). -/
def phasesOf (w : List Nat) : List Nat := w.takeWhile (fun r => bitsOf r 31 16 != 0)

/-- Value of a drive code: +V 1, −V −1, 0 V and float 0 (R386, R387). -/
def driveV (c : Nat) : Int := if c = 1 then 1 else if c = 2 then -1 else 0

/-- DURATION of a phase record. -/
def phaseDur (r : Nat) : Nat := bitsOf r 31 16
/-- SEL_COM of a phase record. -/
def phaseSel (r : Nat) : Nat := bitsOf r 7 6
/-- NONSEL_COM of a phase record. -/
def phaseNon (r : Nat) : Nat := bitsOf r 5 4
/-- SEG_ON of a phase record. -/
def phaseOn (r : Nat) : Nat := bitsOf r 3 2
/-- SEG_OFF of a phase record. -/
def phaseOff (r : Nat) : Nat := bitsOf r 1 0

/-- A drive with +V and −V exchanged (R389). -/
def invDrive (inv : Bool) (c : Nat) : Nat := if inv then (if c = 1 then 2 else if c = 2 then 1 else c) else c

/-- The drive codes of the 264 lines in a phase that writes common `com` of a rectangle (R386, R387): segments outside it float. -/
def phaseDrive (rec com : Nat) (r : LblRect) (rows : List Nat) (inv : Bool) : List Nat :=
  ((List.range 8).map (fun c => invDrive inv (if c = com then phaseSel rec else phaseNon rec))) ++
    ((List.range 256).map (fun k => if r.s0 ≤ k ∧ k < r.s0 + r.n then
      invDrive inv (if bitAt (rows.getD com 0) k then phaseOn rec else phaseOff rec) else 0))

/-- The 528 bits shifted out on LBL_SDO for a frame, the more significant bit of each line's code first (R386). -/
def frameBits (drive : List Nat) : List Bool := drive.flatMap (fun c => [bitAt c 1, bitAt c 0])

/-- R387: the four pairings balance. -/
def waveBalanced (w : List Nat) : Bool :=
  let net (com seg : Nat → Nat) : Int := (phasesOf w).foldl (fun a r => a + (phaseDur r : Int) * (driveV (seg r) - driveV (com r))) 0
  [phaseSel, phaseNon].all (fun com => [phaseOn, phaseOff].all (fun seg => net com seg == 0))

/-- R387: every DURATION is at least the frame time of R386 plus 2 µs. -/
def waveLongEnough (div : Nat) (w : List Nat) : Bool := (phasesOf w).all (fun r => decide (5280 * div + 2000 ≤ phaseDur r * 10000))

/-- DURATION × v_seg of one phase for a segment whose target is `on` (R389). -/
def segDrive (r : Nat) (on inv : Bool) : Int :=
  let v := (phaseDur r : Int) * driveV (if on then phaseOn r else phaseOff r)
  if inv then -v else v

/-- Δ of a rectangle for the normal waveform (R389). -/
def waveDelta (w rows : List Nat) (r : LblRect) : Int :=
  (r.pixels.map (fun q => ((phasesOf w).map (fun p => segDrive p (bitAt (rows.getD q.1 0) q.2) false)).foldl (· + ·) 0)).foldl (· + ·) 0

/-- DC counter of a segment (R389). -/
def State.lblDc (s : State) (k : Nat) : Int := s.getS (F.LBL_DC_COUNT.nth k)

/-- Add to a segment's counter, saturating at ±(2^31 − 1); reaching the end is logged (R394). -/
def State.addDc (s : State) (k : Nat) (d : Int) : State :=
  let top : Int := 0x7FFFFFFF
  let v := s.lblDc k + d
  let w := if v < -top then -top else if top < v then top else v
  let s1 := s.put (F.LBL_DC_COUNT.nth k) (unsigned 32 w)
  if (w = top ∨ w = -top) ∧ s.lblDc k ≠ w then s1.event 0x0F22 0 k 0 else s1

/-- R389: the waveform runs inverted unless |Σ + Δ| ≤ |Σ − Δ|. -/
def State.lblInvert (s : State) (w rows : List Nat) (r : LblRect) : Bool :=
  let σ := (upFrom r.s0 r.n).foldl (fun a k => a + s.lblDc k) 0
  let δ := waveDelta w rows r
  !decide ((σ + δ).natAbs ≤ (σ - δ).natAbs)

/-- LBL_LE at a phase start (R386): the drivers take the frame of the run's phase; with no run every line floats. -/
def State.latchDrive (s : State) : State :=
  s.onLbl (fun l => { l with drive := match l.run with
    | none => List.replicate 264 0
    | some u => phaseDrive (u.wave.getD u.phase 0) u.com u.rect u.rows u.inv })

/-- Level of LBL_HVEN: it follows HV_EN, and is low from a brown-out warning on (R386, R392). -/
def State.lblHven (s : State) : Bool := s.flag F.LBL_CTRL_HV_EN && s.lblSt != 4

/-- Level of LBL_FLT_N, low from a brown-out warning on (R392). -/
def State.lblFltN (s : State) : Bool := s.lblSt != 4

/-- What the 264 lines drive: LBL_FLT_N low floats every one (R386). -/
def State.lblLines (s : State) : List Nat := if s.lblFltN then s.lbl.drive else List.replicate 264 0

/-- Start a run over a rectangle with the WRITE or the CLEAR waveform of the band that T gives now (R388 to R390, R392). -/
def State.startRun (s : State) (r : LblRect) (rows : List Nat) (blink clear : Bool) : State :=
  let band := s.lblBand
  let w := phasesOf (s.lbl.live.getD (2 * band + b2n clear) [])
  ((s.put F.LBL_STATUS_BAND band).onLbl (fun l => { l with
    run := some ⟨r, rows, w, s.lblInvert w rows r, blink, r.c0, 0, s.now, clear⟩
    dirty := true })).latchDrive

/-- An update or a blink write of a rectangle begins (R390, R391). -/
def State.lblRun (s : State) (r : LblRect) (blink : Bool) : State :=
  ((s.startRun r s.lbl.wantRows blink false).put F.LBL_STATUS_STATE 3).onLbl (fun l => { l with
    due := if blink then l.due else false
    blinkDue := false })

/-- The next rectangle of RECOVER is cleared: every segment takes SEG_OFF (R387, R392). With none left no line is driven. -/
def State.clearNext (s : State) : State :=
  match s.lbl.clear with
  | [] => (s.onLbl (fun l => { l with run := none })).latchDrive
  | r :: rs => (s.onLbl (fun l => { l with clear := rs })).startRun r (List.replicate 8 0) false true

/-- Rows that hold a blink pixel, listed whole (R392). -/
def LblState.blinkRows (l : LblState) : List LblRect :=
  ((List.range 8).filter (fun c => (List.range 256).any (fun s => l.blinks c s))).map (fun c => ⟨c, c, 0, 256⟩)

/-- Start an update or blink write once an open LBL_UIP covers it (R392); the record is asked for where none does. None starts while a record
of the LBL's is on its way, or before the retry of one that failed has succeeded (R394). -/
def State.lblStart (s : State) (blink : Bool) : State :=
  if s.lblSt ≠ 2 then s
  else match s.lbl.diff blink with
    | none => s.onLbl (fun l => { l with due := if blink then l.due else false, blinkDue := if blink then false else l.blinkDue })
    | some r =>
      let cover := if blink then s.lbl.blinkRows else [r]
      if s.lblQueued then s
      else if s.lbl.retry = some 0x0031 then s.lblClean
      else if s.lbl.retry = none ∧ s.uipCovers cover = true then s.lblRun r blink
      else s.uipWrite cover

/-- LBL_UPDATE_START (R390). -/
def State.updateStart (s : State) : State := if s.lbl.due then s.lblStart false else s

/-- LBL_BLINK_WRITE_START (R391). -/
def State.blinkStart (s : State) : State := if s.lbl.blinkDue ∧ s.lbl.due = false then s.lblStart true else s

/-- LBL_BLINK_CHANGE (R391): generator g on or off at the present time. -/
def State.blinkChange (s : State) (g : Nat) : State :=
  let on := s.blinkOn g (s.full s.now)
  if s.lbl.gens.getD g true = on then s
  else s.onLbl (fun l => { l with gens := modAt l.gens g (fun _ => on), blinkDue := l.masks.any (fun m => m.any (· != 0)) || l.blinkDue })

/-- RECOVER begins (R392): image, masks and counters from the newest LBL_CLEAN record; rectangles of an open LBL_UIP are to be
cleared, or the whole strip with no LBL_CLEAN record. The first clearing begins. -/
def State.lblRecover (s : State) : State :=
  let open_ := s.openUip
  let s0 := s.put F.LBL_STATUS_STATE 1
  let s1 := if open_.isSome then s0.event 0x0F20 0 ((open_.map (·.1)).getD 0) 0 else s0
  match s.nvsValue 0x0031 0 with
  | none => (s1.onLbl (fun l => { l with clear := [⟨0, 7, 0, 256⟩], masks := List.replicate 4 (List.replicate 8 0) })).clearNext
  | some c =>
    let s2 := (List.range 256).foldl (fun s k => s.put (F.LBL_DC_COUNT.nth k) (fieldLE c (1288 + 4 * k) 4)) s1
    (s2.onLbl (fun l => { l with
      shown := imageOf (slice c 8 256), masks := (List.range 4).map (fun g => imageOf (slice c (264 + 256 * g) 256)),
      clear := (open_.map (·.2)).getD [] })).clearNext

/-- The LBL goes OFF with its lines floated; with ENABLE and HV_EN both 1 it enters RECOVER (R393). -/
def State.lblOff (s : State) : State :=
  let s1 := ((s.onLbl (fun l => { l with run := none, stop := false, clear := [] })).latchDrive).put F.LBL_STATUS_STATE 0
  if s.flag F.LBL_CTRL_ENABLE && s.flag F.LBL_CTRL_HV_EN then s1.lblRecover else s1

/-- A common of a run is written or cleared (R390, R392, R393). -/
def State.commonDone (s : State) (u : LblRun) : State :=
  let s1 := (s.count Reg.LBL_SNAP_COMMONS 1).count Reg.LBL_SNAP_INVERTED (b2n u.inv)
  let row (old : Nat) : Nat := (upFrom u.rect.s0 u.rect.n).foldl (fun a k => setBit a k (bitAt (u.rows.getD u.com 0) k)) old
  let s2 := s1.onLbl (fun l => { l with shown := modAt l.shown u.com row, wroteAt := s.now })
  if s2.lbl.stop then (s2.onLbl (fun l => { l with due := l.due || !u.clear })).lblOff
  else if u.com < u.rect.c1 then
    (s2.onLbl (fun l => { l with run := some { u with com := u.com + 1, phase := 0, at_ := s.now } })).latchDrive
  else if u.clear then s2.clearNext
  else
    let s3 := (s2.onLbl (fun l => { l with run := none })).latchDrive.lblIdle
    s3.count (if u.blink then Reg.LBL_SNAP_BLINKS else Reg.LBL_SNAP_UPDATES) 1

/-- LBL_PHASE_END (R386, R389): the phase in progress has lasted its DURATION; a common without phases ends at once. -/
def State.phaseEnd (s : State) : State :=
  match s.lbl.run with
  | none => s
  | some u =>
    match u.wave[u.phase]? with
    | none => s.commonDone u
    | some r =>
      if s.now < u.at_ + phaseDur r * 10 * tickUs then s
      else
        let s1 := (upFrom u.rect.s0 u.rect.n).foldl (fun s k => s.addDc k (segDrive r (bitAt (u.rows.getD u.com 0) k) u.inv)) s
        if u.phase + 1 < u.wave.length then
          (s1.onLbl (fun l => { l with run := some { u with phase := u.phase + 1, at_ := u.at_ + phaseDur r * 10 * tickUs } })).latchDrive
        else s1.commonDone u

/-! ### Waveform tables (R387, R395) -/

/-- The table that LBL_WAVE_SEL selects. -/
def State.waveIx (s : State) : Nat := 2 * s.get F.LBL_WAVE_SEL_BAND + s.get F.LBL_WAVE_SEL_KIND

/-- LBL_WAVE_DATA_ACCESS (R395): a read or a write of the shadow record; PHASE advances. -/
def State.waveData (s : State) (write : Bool) (v : Nat) : State :=
  let i := s.waveIx
  let p := s.get F.LBL_WAVE_SEL_PHASE
  let s1 := if write then s.onLbl (fun l => { l with shadow := modAt l.shadow i (fun w => modAt w p (fun _ => v % 2 ^ 32)) })
    else { s with hst := { s.hst with readData := leBytes 4 ((s.lbl.shadow.getD i []).getD p 0), readEp := false } }
  (s1.put F.LBL_WAVE_DATA_RECORD ((s1.lbl.shadow.getD i []).getD p 0)).put F.LBL_WAVE_SEL_PHASE (p + 1)

/-- LBL_WAVE_APPLY (R387): the check and apply of the selected shadow waveform is requested. -/
def State.waveApply (s : State) : State := (s.put F.LBL_WAVE_APPLY_APPLY 1).onLbl (fun l => { l with request := some s.waveIx })

/-- LBL_WAVE_INSTALL (R387): between updates the waveform is checked, and becomes live or is refused. -/
def State.waveInstall (s : State) : State :=
  match s.lbl.request with
  | none => s
  | some i =>
    if s.lbl.run.isSome then s
    else
      let w := s.lbl.shadow.getD i []
      let s1 := (s.put F.LBL_WAVE_APPLY_APPLY 0).onLbl (fun l => { l with request := none })
      if !waveBalanced w then s1.event 0x0F11 0 i 0
      else if !waveLongEnough (s.get F.LBL_CTRL_SCK_DIV) w then s1.event 0x0F12 0 i 0
      else s1.onLbl (fun l => { l with live := modAt l.live i (fun _ => w) })

/-! ### Enable, recovery, power loss (R392, R393) -/

/-- LBL_ENABLE_WRITE (R393): ENABLE and HV_EN as written; a common in progress is ended first. -/
def State.lblEnable (s : State) (en hv : Bool) : State :=
  let s1 := (s.put F.LBL_CTRL_ENABLE (b2n en)).put F.LBL_CTRL_HV_EN (b2n hv)
  match s.lblSt with
  | 0 => if en && hv then s1.lblRecover else s1
  | 4 => s1
  | _ =>
    if en && hv then s1
    else if s1.lbl.run.isSome then s1.onLbl (fun l => { l with stop := true })
    else s1.lblOff

/-- LBL_RECOVER_DONE (R392, R393): the rectangles are clear; the target is what is displayed with what landed meanwhile. -/
def State.recoverDone (s : State) : State :=
  if s.lblSt ≠ 1 ∨ s.lbl.run.isSome = true ∨ s.lbl.clear ≠ [] then s
  else
    let landed := s.lbl.landed
    let s2 := s.onLbl (fun l => { l with target := l.shown, landed := [], due := !landed.isEmpty, blinkDue := true })
    let s3 := landed.foldl (fun s d => s.onLbl (fun l => ((lblRecords d.length d).getD []).foldl LblState.apply l)) s2
    s3.lblIdle

/-- The brown-out warning or an orderly trip (R392, R393, R501): the lines float and LBL_HVEN is low. -/
def State.lblFloat (s : State) : State :=
  (s.onLbl (fun l => { l with run := none, stop := false, clear := [], cleanDue := false })).latchDrive.put F.LBL_STATUS_STATE 4

/-- KEEPER_RESET (R393): a FLOATED LBL goes OFF, with ENABLE and HV_EN at their reset values, so that the next enable recovers it (R392, R395;
DEDUCED, log entry 175). -/
def State.keeperReset (s : State) : State :=
  if s.lblSt = 4 then ((s.put F.LBL_CTRL_ENABLE 0).put F.LBL_CTRL_HV_EN 0).put F.LBL_STATUS_STATE 0 else s

/-! ### Meanings -/

/-- POWER_OFF (R377). -/
def execPowerOff (t : Nat) (s : State) : Out := .next (s.whenHost t State.powerOffWrite)

/-- LBL_UPDATE_START (R390). -/
def execLblUpdateStart (t : Nat) (s : State) : Out := .next ((s.tick t).updateStart)

/-- LBL_PHASE_END (R386). -/
def execLblPhaseEnd (t : Nat) (s : State) : Out := .next ((s.tick t).phaseEnd)

/-- LBL_BLINK_CHANGE (R391). -/
def execLblBlinkChange (t g : Nat) (s : State) : Out := .next ((s.tick t).blinkChange (g % 4))

/-- LBL_BLINK_WRITE_START (R391). -/
def execLblBlinkWriteStart (t : Nat) (s : State) : Out := .next ((s.tick t).blinkStart)

/-- LBL_CLEAN_TIMER (R392). -/
def execLblCleanTimer (t : Nat) (s : State) : Out := .next ((s.tick t).cleanTimer)

/-- LBL_WAVE_APPLY (R387). -/
def execLblWaveApply (t : Nat) (s : State) : Out := .next (s.whenBar t State.waveApply)

/-- LBL_WAVE_INSTALL (R387). -/
def execLblWaveInstall (t : Nat) (s : State) : Out := .next ((s.tick t).waveInstall)

/-- LBL_WAVE_DATA_ACCESS (R395). -/
def execLblWaveDataAccess (t : Nat) (write : Bool) (v : Nat) (s : State) : Out := .next (s.whenBar t (fun s => s.waveData write v))

/-- LBL_ENABLE_WRITE (R393). -/
def execLblEnableWrite (t : Nat) (en hv : Bool) (s : State) : Out := .next (s.whenBar t (fun s => s.lblEnable en hv))

/-- LBL_RECOVER_DONE (R393). -/
def execLblRecoverDone (t : Nat) (s : State) : Out := .next ((s.tick t).recoverDone)

/-- KEEPER_RESET (R393). -/
def execKeeperReset (t : Nat) (s : State) : Out := .next ((s.tick t).keeperReset)

end Sys2Proof.Machine
end

