-- ==== Sys2Proof/Machine/Thermal.lean ====
section
/-!
DEFINITION. Temperature, pace and power domains (18_thermal_and_power), with the keeper's power pins and power-up (R522,
R586, R604, R610, R611).
-/

namespace Sys2Proof.Machine

/-! ### Sensors (R492 to R494) -/

/-- Readings are signed 8.8 °C: a temperature in °C. -/
abbrev degC (n : Int) : Int := n * 256

/-- A sensor is faulty (R493): out of range, or its self-check failed. -/
def sensorFaulty (q : Int × Bool) : Bool := !q.2 || decide (q.1 < degC (-40)) || decide (degC 150 < q.1)

/-- Largest reading and where it stands, among those kept. -/
def hottest : List (Nat × Int) → Option (Nat × Int)
  | [] => none
  | x :: xs => match hottest xs with
    | none => some x
    | some y => some (if x.2 < y.2 then y else x)

/-- The die temperature and the hottest sensor (R492, R493). -/
def dieOf (ts : List (Int × Bool)) : Option (Nat × Int) :=
  let ok := (ts.zipIdx.filter (fun q => !sensorFaulty q.1)).map (fun q => (q.2, q.1.1))
  let bad := ts.countP sensorFaulty
  (hottest ok).map (fun q => (q.1, if 4 ≤ bad then q.2 + degC 5 else q.2))

/-- Store one sensor; a change of its FAULT bit is logged (R493). -/
def State.sensor (s : State) (n : Nat) (q : Int × Bool) : State :=
  let f := sensorFaulty q
  let was := s.flag (F.THM_SENSOR_FAULT.nth n)
  let s1 := (s.putS (F.THM_SENSOR_TEMP.nth n) q.1).put (F.THM_SENSOR_FAULT.nth n) (b2n f)
  if f = was then s1 else s1.event 0x1420 0 n (argS q.1)

/-! ### Levels (R495 to R497) -/

/-- A level's next value (R496): asserted at L or more, clear below L − 2 °C, and no change within 10 ms of the last one. -/
def levelNext (on : Bool) (last : Option Nat) (now : Nat) (limit reading : Int) : Bool :=
  let held : Bool := match last with
    | some c => decide (now < c + 10 * tickMs)
    | none => false
  if held then on
  else if on then !decide (reading < limit - degC 2)
  else decide (limit ≤ reading)

/-- Apply a level of place `i` (0 WARN, 1 THROTTLE, 2 STACK_THROTTLE). -/
def State.setLevel (s : State) (i : Nat) (f : Fld) (v : Bool) : State :=
  if s.flag f = v then s
  else
    let s1 := s.put f (b2n v)
    { s1 with thm := { s1.thm with changed := s1.thm.changed.set i (some s.now) } }

/-- Count the time with the throttle active up to now (R511). -/
def State.countHot (s : State) : State :=
  match s.thm.hotSince with
  | none => s
  | some a =>
    let n := (s.now - a) / tickUs
    let s1 := s.count Reg.THM_SNAP_THROTTLE_US n
    { s1 with thm := { s1.thm with hotSince := some (a + n * tickUs) } }

/-- Set the duty (R498); the lowest of the epoch, the duty left behind included, is kept as 16 less it (R511). -/
def State.setDuty (s : State) (d : Nat) : State :=
  (s.put F.THM_STATUS_DUTY d).countMax Reg.THM_SNAP_DUTY_MIN (16 - min d (s.get F.THM_STATUS_DUTY))

/-- The throttle becomes active or clears (R498). -/
def State.throttleEdge (s : State) (was : Bool) (src : Nat) (reading : Int) : State :=
  let is := s.throttled
  if is = was then s
  else
    let s1 : State := { s with thm := { s.thm with periodAt := s.now, reached := is, reachedNext := false } }
    if is then
      let s2 := (s1.setDuty (min (s1.get F.THM_STATUS_DUTY) 15)).event 0x1411 0 src (argS reading)
      { s2 with thm := { s2.thm with hotSince := some s.now } }
    else
      let s2 := (s1.countHot).event 0x1412 0 src (argS reading)
      { s2 with thm := { s2.thm with hotSince := none } }

/-! ### Trips (R501, R502) -/

/-- VCORE_MIN of the plan in force (R49), the boot value with none. -/
def State.vMin (s : State) : Nat := (s.sho.run.map (fun im => im.power.vMin)).getD 800

/-- Ask the regulator for a voltage (R499, R510). -/
def State.askVolts (s : State) (mv : Nat) : State :=
  if mv = s.get F.THM_VCORE_REQ_MV then s
  else
    let s1 := (s.put F.THM_VCORE_REQ_MV mv).countMax Reg.THM_SNAP_V_MAX (max mv (s.get F.THM_VCORE_REQ_MV))
    { s1 with thm := { s1.thm with settling := true, askedAt := s1.now } }

/-- The orderly trip (R501). -/
def State.orderlyTrip (s : State) (src : Nat) (reading : Int) : State :=
  let s1 := (s.put F.THM_STATUS_ORDERLY 1).event 0x1413 0 src (argS reading)
  let s2 : State := { s1 with thm := { s1.thm with tripAt := some s.now, changed := s1.thm.changed.set 3 (some s.now) } }
  ((((s2.discharge false).askVolts s2.vMin).nvsStop).countOperating 3).lblFloat

/-- Windows that keep their registers while the field die is off (R16): SYS but for the image and frame-report registers, LBL,
THM, NVS, SEC and DMP. -/
def keptOffset (o : Nat) : Bool :=
  decide (o < 0x110) || decide (0x200 ≤ o ∧ o < 0x400) || decide (0x380000 ≤ o ∧ o < 0x3C0000) || decide (0x4C0000 ≤ o ∧ o < 0x5C0000)

/-- Every domain switch is open: the field die holds nothing, nor does its memory, which is no longer refreshed. -/
def State.fieldOff (s : State) : State :=
  let z := State.reset
  let s1 : State :=
    { z with
      now := s.now, off := s.off, pending := s.pending, fresh := s.fresh
      regs := s.regs.filter (fun p => keptOffset p.1)
      sys := { z.sys with logPend := s.sys.logPend, logKeep := s.sys.logKeep, logDropRun := s.sys.logDropRun, logArmed := s.sys.logArmed }
      hst := { z.hst with sent := s.hst.sent, hostOut := s.hst.hostOut }
      nvs := s.nvs, sec := s.sec, lbl := s.lbl, fw := s.fw, dmp := s.dmp
      thm := { z.thm with
        tripAt := s.thm.tripAt, volts := s.thm.volts, settling := s.thm.settling, stopped := s.thm.stopped, energyAt := s.now }
      pwr := { s.pwr with running := false, waitGood := none, next := 0, vcorePg := s.pwr.vcorePg } }
  ((((((s1.put F.SYS_STATUS_FIELD_ON 0).put F.SYS_STATUS_MEM_TRAINED 0).put F.SYS_STATUS_IMAGE 0).put F.SYS_STATUS_FIRST_LIGHT 0).put
    F.SYS_STATUS_RECOVERING 0).put F.THM_PD_ON 0).put F.DMP_STATUS_STATE 0

/-- CRITICAL_TRIP (R502). -/
def State.criticalTrip (s : State) : State :=
  let s1 := s.fieldOff
  { s1 with pwr := { s1.pwr with pwrCut := true, bootAt := none, early := false } }

/-- ORDERLY_DOMAINS_OFF (R501): the discharge has ended, or 2 s have passed since the trip. -/
def State.orderlyOff (s : State) : State :=
  match s.thm.tripAt with
  | none => s
  | some a =>
    if s.pnlSt = 0 ∨ a + 2 * tickS ≤ s.now then
      let s1 := s.fieldOff
      { s1 with pwr := { s1.pwr with bootAt := none, early := false } }
    else s

/-! ### Samples (R494) -/

/-- Fast sampling (R494): the die temperature near an armed limit of R495, or any limit asserted. -/
def State.fastNow (s : State) : Bool :=
  let t := s.getS F.THM_STATUS_TEMP
  let w := s.get F.THM_CTRL_WARN_C
  let near (l : Int) : Bool := decide (degC (l - 5) ≤ t ∧ t ≤ degC (l + 5))
  (w != 0 && near w) || near 98 || near 95 || near 112 || near 105 || near 110 || near 120 || s.flag F.THM_STATUS_WARN || s.throttled || s.flag F.THM_STATUS_ORDERLY

/-- The reading that meets an ORDERLY limit, with its sensor (R495, R507). -/
def orderlyHit (die : Option (Nat × Int)) (stack : Option (Nat × Int)) (keeper : Int) : Option (Nat × Int) :=
  let hot (q : Option (Nat × Int)) (l : Int) : Option (Nat × Int) := q.bind (fun x => if degC l ≤ x.2 then some x else none)
  match hot die 112 with
  | some x => some x
  | none =>
    match hot stack 105 with
    | some x => some x
    | none => if degC 110 ≤ keeper then some (0x40, keeper) else none

/-- SENSOR_SAMPLE (R492 to R497): the readings and self-checks of TS00 to TS31, of the keeper and of the stacks. While the
field die is off only the keeper and the stacks are read. -/
def State.sensorSample (s : State) (ts : List (Int × Bool)) (keeper : Int) (stk : List Int) : State :=
  let on := s.fieldOn
  let ts32 := (ts ++ List.replicate 32 (0, false)).take 32
  let s1 := if on then ts32.zipIdx.foldl (fun s q => s.sensor q.2 q.1) s else s
  let s2 := (stk.take 6).zipIdx.foldl (fun s q => s.putS (F.THM_STACK_TEMP.nth q.2) q.1) (s1.putS F.THM_KEEPER_TEMP keeper).bandTrack
  let die := if on then dieOf ts32 else none
  let stack := hottest ((stk.take 6).zipIdx.map (fun q => (0x48 + q.2, q.1)))
  let s3 := match die with
    | some d => (s2.putS F.THM_STATUS_TEMP d.2).countMax Reg.THM_SNAP_PEAK (d.2 + 65536).toNat
    | none => s2
  let ch (i : Nat) : Option Nat := s3.thm.changed.getD i none
  let was := s3.throttled
  let w := s3.get F.THM_CTRL_WARN_C
  let s4 := match die with
    | none => s3
    | some d =>
      let wn := if w = 0 then false else levelNext (s3.flag F.THM_STATUS_WARN) (ch 0) s3.now (degC w) d.2
      let sa := if wn = true ∧ s3.flag F.THM_STATUS_WARN = false then (s3.event 0x1410 0 d.1 (argS d.2)).raise 9 else s3
      let sb := sa.setLevel 0 F.THM_STATUS_WARN wn
      sb.setLevel 1 F.THM_STATUS_THROTTLE (levelNext (s3.flag F.THM_STATUS_THROTTLE) (ch 1) s3.now (degC 98) d.2)
  let s5 := match stack with
    | none => s4
    | some q => s4.setLevel 2 F.THM_STATUS_STACK_THROTTLE
        (if on then levelNext (s4.flag F.THM_STATUS_STACK_THROTTLE) (ch 2) s4.now (degC 95) q.2 else s4.flag F.THM_STATUS_STACK_THROTTLE)
  let hitDie := (die.map (fun d => decide (degC 98 ≤ d.2))).getD false
  let hitStack := (stack.map (fun d => decide (degC 95 ≤ d.2))).getD false
  let hit := hitDie || hitStack
  let inside := decide (s5.now < s5.thm.periodAt + 10 * tickMs)
  let s6 : State := { s5 with thm := { s5.thm with
    reached := s5.thm.reached || (hit && inside), reachedNext := s5.thm.reachedNext || (hit && !inside) } }
  let src := if hitStack ∧ !hitDie then stack else die
  let s7 := s6.throttleEdge was ((src.map (·.1)).getD 0) ((src.map (·.2)).getD 0)
  let s8 := match orderlyHit die stack keeper with
    | some h => if s7.flag F.THM_STATUS_ORDERLY = false ∧ (ch 3).all (fun c => decide (c + 10 * tickMs ≤ s7.now)) then
        s7.orderlyTrip h.1 h.2 else s7
    | none => s7
  let s9 := if on then s8.put F.THM_STATUS_FAST (b2n s8.fastNow) else s8
  if die.isSome then s9.lanesAtTemp else s9

/-- DUTY_PERIOD_END (R498): 10 ms since the last change of the throttle or the last step. -/
def State.dutyEnd (s : State) : State :=
  if s.now < s.thm.periodAt + 10 * tickMs then s
  else
    let d := s.get F.THM_STATUS_DUTY
    let s1 : State := { s with thm := { s.thm with periodAt := s.now, reached := s.thm.reachedNext, reachedNext := false } }
    if s.throttled then (if s.thm.reached then s1.setDuty (max 8 (d - 1)) else s1)
    else s1.setDuty (min 16 (d + 1))

/-! ### The governor (R499, R500) -/

/-- Sum the core's energy up to now at the power last read (R511). -/
def State.countEnergy (s : State) : State :=
  { s with thm := { s.thm with energy := s.thm.energy + s.get F.THM_POWER_CORE_DW * (s.now - s.thm.energyAt), energyAt := s.now } }

/-- τ of the running mode in ticks: the band period. -/
def State.tau (s : State) : Rat :=
  let m := modeAt s.out.mode
  match s.planFor s.out.mode with
  | some p => s.out.period * (p.bandRows : Rat) / (max 1 m.vtotal : Nat)
  | none => 0

/-- Bands that ended in the last 1 ms: s_min, and whether one took step 2 or higher (R499). -/
def State.slackNow (s : State) : Option Int × Bool :=
  let l := s.thm.slacks.filter (fun q => decide (s.now < q.1 + tickMs))
  (match l.filterMap (fun q => q.2.1) with
    | [] => none
    | x :: xs => some (xs.foldl min x), l.any (fun q => q.2.2))

/-- The governor stops making requests (R500). -/
def State.avsFault (s : State) : State :=
  let s1 := s.event 0x1421 0 0 (s.get F.THM_VCORE_REQ_MV)
  { s1 with thm := { s1.thm with settling := false, stopped := true } }

/-- The regulator reports a fault (R500): its answer to READ_VOUT, a 16-bit word, is given with 2^16 added. -/
def voutFault (vout : Nat) : Bool := decide (65536 ≤ vout)

/-- GOVERNOR_RUN (R499): P_core in 0.1 W and READ_VOUT in mV as the regulator answers them, with 2^16 where it reports a fault (R500). -/
def State.governorRun (s : State) (core vout : Nat) : State :=
  if s.flag F.THM_GOV_GOV_EN = false ∨ s.imageOn = false then s
  else
    let s0 := ((s.countEnergy).put F.THM_POWER_CORE_DW core).put F.THM_VCORE_MEAS_MV (vout % 65536)
    match s.sho.run with
    | none => s0
    | some im =>
      let pw := im.power
      let v := s.thm.volts
      let step := s.get F.THM_GOV_STEP_MV
      let other := s.get F.THM_GOV2_OTHER_DW
      let up := v + step
      let sl := s.slackNow
      let lo : Rat := s.tau * (s.get F.THM_GOV_SLACK_LO : Rat) / 64
      let hi : Rat := s.tau * (s.get F.THM_GOV_SLACK_HI : Rat) / 64
      let low : Bool := match sl.1 with
        | some x => decide ((x : Rat) < lo)
        | none => false
      let calm : Bool := match sl.1 with
        | some x => decide (hi < (x : Rat))
        | none => false
      let s1 : State := { s0 with thm := { s0.thm with calm := if calm then s0.thm.calm + 1 else 0 } }
      if voutFault vout = true ∧ s1.thm.stopped = false then s1.avsFault
      else if s1.thm.settling = true ∨ s1.thm.stopped = true ∨ s1.cmt.stopped = true then s1
      else if pw.budget ≤ core + other ∨ s1.flag F.THM_STATUS_ORDERLY = true then s1.askVolts (max (v - step) pw.vMin)
      else if (low || sl.2) ∧ s1.throttled = false then
        if pw.vMax < up then (s1.eventOnce 0x1423 0 0 0 v).count Reg.THM_SNAP_BUDGET_HELD 1
        else if pw.budget * v * v ≤ core * up * up + other * v * v then
          (s1.eventOnce 0x1422 0 0 0 v).count Reg.THM_SNAP_BUDGET_HELD 1
        else s1.askVolts up
      else if 16 ≤ s1.thm.calm then s1.askVolts (max (v - step) pw.vMin)
      else s1

/-- VCORE_SETTLED (R499, R500): the command was acknowledged and the regulator stands at the voltage requested. -/
def State.vcoreSettled (s : State) : State :=
  { s with thm := { s.thm with volts := s.get F.THM_VCORE_REQ_MV, settling := false, stopped := false } }

/-- AVS_TIMEOUT (R500): 1 ms without an acknowledgement. -/
def State.avsTimeout (s : State) : State := if s.thm.settling = true ∧ s.thm.askedAt + tickMs ≤ s.now then s.avsFault else s

/-! ### The sequencer (R503, R504, R586, R610) -/

/-- GAP of domain k in µs, and whether the plan leaves it off (R49, R503). Before an image: 40 µs, and on. -/
def State.domainPlan (s : State) (k : Nat) : Nat × Bool :=
  match s.sho.run with
  | some im => match im.power.domains[k]? with
    | some d => (d.gap, d.leaveOff)
    | none => (40, false)
  | none => (40, false)

/-- Whether domain k is on. -/
def State.domainOn (s : State) (k : Nat) : Bool := bitAt (s.get F.THM_PD_ON) k

/-- VDD_CORE has been requested: 40 ms into the boot or at RAILS_PG, the later; at a RESTART at once (R586, R610). -/
def State.vcoreAsked (s : State) : Bool :=
  s.pwr.railsPg && !s.pwr.testMode && (s.pwr.early || (match s.pwr.bootAt with
    | some b => decide (b + 40 * tickMs ≤ s.now)
    | none => false))

/-- VCORE_POWER_GOOD (R504). -/
def State.vcoreGood (s : State) : State :=
  if s.vcoreAsked = true ∧ s.pwr.pwrCut = false ∧ s.pwr.running = false ∧ s.fieldOn = false then
    { s with pwr := { s.pwr with vcorePg := true, running := true, next := 0, lastStart := s.now, waitGood := none } }
  else { s with pwr := { s.pwr with vcorePg := true } }

/-- The field die is powered (R586): the servos listen, no word clock edge has come, and memory is to be trained. -/
def State.fieldUp (s : State) : State := ((s.put F.SYS_STATUS_FIELD_ON 1).timStart).audStart

/-- DOMAIN_START (R504): domain k, the next one, GAP_k after the start before it. A domain left off is passed over. -/
def State.domainStart (s : State) (k : Nat) : State :=
  let g := s.domainPlan k
  if s.pwr.running = false ∨ k ≠ s.pwr.next ∨ 24 ≤ k ∨ s.pwr.waitGood.isSome = true ∨
      (k ≠ 0 ∧ s.now < s.pwr.lastStart + g.1 * tickUs) then s
  else if g.2 then { s with pwr := { s.pwr with next := k + 1, lastStart := s.now } }
  else
    let s1 := s.put F.THM_PD_ON (s.get F.THM_PD_ON + 2 ^ k)
    { s1 with pwr := { s1.pwr with next := k + 1, lastStart := s.now, waitGood := some (k, s.now) } }

/-- DOMAIN_POWER_GOOD (R504). -/
def State.domainGood (s : State) (k : Nat) : State :=
  match s.pwr.waitGood with
  | some (j, _) =>
    if j ≠ k then s
    else
      let s1 : State := { s with pwr := { s.pwr with waitGood := none } }
      if k = 23 then s1.fieldUp else s1
  | none => s

/-- DOMAIN_TIMEOUT (R504): no power-good within 1 ms. -/
def State.domainTimeout (s : State) (k : Nat) : State :=
  match s.pwr.waitGood with
  | some (j, a) =>
    if j ≠ k ∨ s.now < a + tickMs then s
    else
      let s1 := (s.eventK 0x1430 0 k 0).fieldOff
      { s1 with pwr := { s1.pwr with bootAt := none, early := false } }
  | none => s

/-- RAILS_POWER_GOOD (R610). -/
def State.railsGood (s : State) : State := { s with pwr := { s.pwr with railsPg := true } }

/-- What a falling BROWNOUT_N does (R377, R392, R522). -/
def State.brownoutActs (s : State) : State := ((s.nvsStop).lblFloat).discharge true

/-- BROWNOUT (R522). -/
def State.brownout (s : State) : State :=
  let s1 : State := { s with pwr := { s.pwr with brownout := true } }
  s1.brownoutActs

/-- POWER_GOOD_LOSS (R611): RAILS_PG or VCORE_PG falls; while the field die is powered, the brown-out actions, the domains off
and VDD_CORE off. -/
def State.powerGoodLoss (s : State) (rails : Bool) : State :=
  let s1 : State := { s with pwr :=
    { s.pwr with railsPg := if rails then false else s.pwr.railsPg, vcorePg := if rails then s.pwr.vcorePg else false } }
  if s1.fieldOn then
    let s2 := (s1.brownoutActs.fieldOff).put F.THM_VCORE_REQ_MV 0
    { s2 with pwr := { s2.pwr with bootAt := none, early := false } }
  else s1

/-- The first reading that blocks a RESTART (R501), with its sensor. -/
def State.restartBlock (s : State) : Option (Nat × Int) :=
  let k := s.getS F.THM_KEEPER_TEMP
  let st := (List.range 6).map (fun i => (0x48 + i, s.getS (F.THM_STACK_TEMP.nth i)))
  if degC 108 ≤ k then some (0x40, k) else st.find? (fun q => decide (degC 103 ≤ q.2))

/-- RESTART (R501, R611). -/
def State.restart (s : State) : State :=
  let early : Bool := match s.thm.tripAt with
    | some a => decide (s.now < a + 10 * tickS)
    | none => false
  if early then s.event 0x1432 0 0 0
  else match s.restartBlock with
    | some q => s.event 0x1432 0 q.1 (argS q.2)
    | none =>
      if s.fieldOn ∨ s.pwr.pwrCut = true ∨ s.pwr.railsPg = false ∨ s.pwr.vcorePg = false then s.event 0x1432 0 0 0
      else
        let s1 := ((((s.put F.THM_STATUS_ORDERLY 0).put F.THM_STATUS_THROTTLE 0).put F.THM_STATUS_STACK_THROTTLE 0).put
          F.THM_STATUS_WARN 0).put F.THM_STATUS_DUTY 16
        let s2 := (s1.put F.THM_VCORE_REQ_MV 800).put F.THM_STATUS_FAST 0
        { s2 with
          thm := { s2.thm with tripAt := none, volts := 800, settling := false, stopped := false, changed := List.replicate 4 none }
          nvs := { s2.nvs with stopped := false }
          pwr := { s2.pwr with early := true, running := false, next := 0 } }

/-- What survives the loss of the always-on rail: flash with the two open sectors it shows, the lockable page and OTP (R502, R512). -/
def NvsState.kept (n : NvsState) : NvsState :=
  let z : NvsState := {}
  { z with
    sectors := n.sectors
    recs := n.recs
    open1 := n.open1
    open2 := n.open2
    page := n.page
    otp := n.otp }

/-- ALWAYS_ON_RAIL_LOSS (R502): every volatile state is gone, and PWR_CUT_N is released. -/
def State.railLoss (s : State) : State :=
  let c := s.nvsCut
  { State.reset with now := s.now, off := s.off, pending := s.pending, fresh := c.fresh, nvs := c.nvs.kept }

/-- R531: the bad OTP slots, as 256 × group + slot (log entry 99). -/
def State.badSlots (s : State) : List Nat :=
  (List.range 9).flatMap (fun g => ((s.otpGroup g).zipIdx.filter (fun q => q.1.st == 2)).map (fun q => 256 * g + q.2))

/-- KEEPER_POWER_UP (R531, R586): the keeper leaves reset, its bad OTP slots are logged and the boot sequence starts. -/
def State.keeperUp (s : State) : State :=
  let s1 := s.railLoss
  let s2 : State := { s1 with pwr := { s1.pwr with bootAt := some s.now, testMode := s.pwr.testMode } }
  s2.badSlots.foldl (fun s k => s.event 0x1532 0 k 0) s2

/-! ### Meanings -/

/-- SENSOR_SAMPLE (R494). -/
def execSensorSample (t : Nat) (ts : List (Int × Bool)) (keeper : Int) (stk : List Int) (s : State) : Out :=
  .next ((s.tick t).sensorSample ts keeper stk)

/-- DUTY_PERIOD_END (R498). -/
def execDutyPeriodEnd (t : Nat) (s : State) : Out := .next (s.whenOn t State.dutyEnd)

/-- CRITICAL_TRIP (R502): the comparators act from the start of PD00, which holds the sensing (R503). -/
def execCriticalTrip (t : Nat) (s : State) : Out :=
  .next (if (s.tick t).fieldOn ∨ (s.tick t).domainOn 0 = true then (s.tick t).criticalTrip else s.tick t)

/-- ORDERLY_DOMAINS_OFF (R501). -/
def execOrderlyDomainsOff (t : Nat) (s : State) : Out := .next (s.tick t).orderlyOff

/-- RESTART (R501). -/
def execRestart (t : Nat) (s : State) : Out := .next (s.whenBar t State.restart)

/-- GOVERNOR_RUN (R499). -/
def execGovernorRun (t core vout : Nat) (s : State) : Out :=
  .next (s.whenOn t (fun s => s.governorRun core vout))

/-- VCORE_SETTLED (R499). -/
def execVcoreSettled (t : Nat) (s : State) : Out := .next ((s.tick t).vcoreSettled)

/-- AVS_TIMEOUT (R500). -/
def execAvsTimeout (t : Nat) (s : State) : Out := .next ((s.tick t).avsTimeout)

/-- VCORE_POWER_GOOD (R504). -/
def execVcorePowerGood (t : Nat) (s : State) : Out := .next ((s.tick t).vcoreGood)

/-- DOMAIN_START (R504). -/
def execDomainStart (t k : Nat) (s : State) : Out := .next ((s.tick t).domainStart k)

/-- DOMAIN_POWER_GOOD (R504). -/
def execDomainPowerGood (t k : Nat) (s : State) : Out := .next ((s.tick t).domainGood k)

/-- DOMAIN_TIMEOUT (R504). -/
def execDomainTimeout (t k : Nat) (s : State) : Out := .next ((s.tick t).domainTimeout k)

/-- RAILS_POWER_GOOD (R610). -/
def execRailsPowerGood (t : Nat) (s : State) : Out := .next ((s.tick t).railsGood)

/-- POWER_GOOD_LOSS (R611): `rails` for RAILS_PG, else VCORE_PG. -/
def execPowerGoodLoss (t : Nat) (rails : Bool) (s : State) : Out := .next ((s.tick t).powerGoodLoss rails)

/-- BROWNOUT (R522). -/
def execBrownout (t : Nat) (s : State) : Out := .next ((s.tick t).brownout)

/-- KEEPER_POWER_UP (R586). -/
def execKeeperPowerUp (t : Nat) (s : State) : Out := .next ((s.tick t).keeperUp)

/-- ALWAYS_ON_RAIL_LOSS (R502). -/
def execAlwaysOnRailLoss (t : Nat) (s : State) : Out := .next ((s.tick t).railLoss)

end Sys2Proof.Machine
end

