-- ==== Sys2Proof/Machine/Commit.lean ====
section
/-!
DEFINITION. The commit unit (03_epochs_and_commit): staging and capture, the checks of a commit, sealing, snapshots and
frame reports, retirement, the freeze of the snapshot view and DISCARD.
-/

namespace Sys2Proof.Machine

/-! ### Staging (R70, R73, R103) -/

/-- `old` with the staged fields of the register word at `off` taken from `new`. -/
def stagedMerge (off old new : Nat) : Nat :=
  match rowAt off with
  | none => old
  | some (r, _, _, w) => r.fields.foldl (fun a f =>
      let lo := max f.lo (32 * w) - 32 * w
      let hi := min f.hi (32 * w + 31) - 32 * w
      if f.staged ∧ f.lo ≤ 32 * w + 31 ∧ 32 * w ≤ f.hi then withBits a hi lo (bitsOf new hi lo) else a) old

/-- Whether the register word at `off` has a staged field. -/
def hasStaged (off : Nat) : Bool :=
  match rowAt off with
  | none => false
  | some (r, _, _, w) => r.fields.any (fun f => f.staged && decide (f.lo ≤ 32 * w + 31) && decide (32 * w ≤ f.hi))

/-- Note a write of a staged register (R70). -/
def State.stage (s : State) (off v : Nat) : State :=
  { s with cmt := { s.cmt with writes := (off, s.now, v) :: s.cmt.writes, since := off :: s.cmt.since.filter (fun o => o != off) } }

/-- The last write of each register stamped before `t`; `ws` holds the latest first (R70). -/
def captureOf (t : Nat) : List (Nat × Nat × Nat) → List (Nat × Nat × Nat)
  | [] => []
  | q :: r => if q.2.1 < t then q :: (captureOf t r).filter (fun p => p.1 != q.1) else captureOf t r

/-- A register file with captured writes made. -/
def applyWrites (rf : RegFile) (ws : List (Nat × Nat × Nat)) : RegFile := ws.foldl (fun rf q => rf.wr q.1 q.2.2) rf

/-- R73: a captured value returns to the shadow where its register was not written since the capture stamp. -/
def State.returnWrite (s : State) (q : Nat × Nat × Nat) : State :=
  if s.cmt.since.contains q.1 then s
  else
    let s1 := s.wr q.1 (stagedMerge q.1 (s.rd q.1) q.2.2)
    { s1 with cmt := { s1.cmt with writes := s1.cmt.writes ++ [q] } }

/-- R103: every staged field in the shadow returns to its value in the last sealed epoch. -/
def State.discard (s : State) : State :=
  let offs := (s.regs.map (·.1) ++ s.cmt.sealedRegs.map (·.1)).filter hasStaged
  let s1 := offs.foldl (fun s o => s.wr o (stagedMerge o (s.rd o) (s.cmt.sealedRegs.rd o))) s
  { s1 with cmt := { s1.cmt with writes := [] } }

/-! ### The descriptor (R75) -/

/-- HAS_LAYERS. -/
def Commit.hasLayers (c : Commit) : Bool := bitAt c.flags 0
/-- HAS_OVERLAY. -/
def Commit.hasOverlay (c : Commit) : Bool := bitAt c.flags 1
/-- HAS_LABEL. -/
def Commit.hasLabel (c : Commit) : Bool := bitAt c.flags 2
/-- HAS_TRIGGERS. -/
def Commit.hasTriggers (c : Commit) : Bool := bitAt c.flags 3

/-- Byte ranges that a commit's descriptor names: layer list, overlay, label data, triggers (R84; log entry 84). -/
def Commit.spans (c : Commit) : List (Nat × Nat) :=
  let b := c.bytes
  (if c.hasLayers then [(fieldLE b 0x10 8, 128 * fieldLE b 0x0C 2)] else []) ++
  (if c.hasOverlay then [(fieldLE b 0x18 8, fieldLE b 0x20 4)] else []) ++
  (if c.hasLabel then [(fieldLE b 0x28 8, fieldLE b 0x24 2)] else []) ++
  (if c.hasTriggers then [(fieldLE b 0x30 8, 32 * fieldLE b 0x26 2)] else [])

/-- The format rule of R97. -/
def commitFormatOk (b : List Nat) : Bool :=
  let f := fieldLE b 8 4
  decide (f < 32) && fieldLE b 0x0E 2 == 0 &&
  (!bitAt f 0 || (decide (fieldLE b 0x0C 2 ≤ 1024) && fieldLE b 0x10 8 % 64 == 0)) &&
  (!bitAt f 1 || fieldLE b 0x18 8 % 4096 == 0) &&
  (!bitAt f 3 || decide (fieldLE b 0x26 2 ≤ 256)) &&
  (!bitAt f 4 || decide (fieldLE b 0x38 4 ≤ 999999999))

/-- NOT_BEFORE as a full time (R75), 0 where absent. -/
def State.commitTime (s : State) (c : Commit) : Nat :=
  if bitAt c.flags 4 then nearFull (fieldLE c.bytes 0x3C 4) (fieldLE c.bytes 0x38 4) (s.full c.capture) else 0

/-! ### Counts of CMT_STATUS (R98) -/

/-- Show WAITING, FULL and CHECKING (R98). -/
def State.cmtShow (s : State) : State :=
  let n := s.cmt.waiting.length
  ((s.put F.CMT_STATUS_WAITING (min n 255)).put F.CMT_STATUS_FULL (b2n (decide (256 ≤ n)))).put F.CMT_STATUS_CHECKING
    (b2n s.cmt.checking.isSome)

/-- A commit completion (R76), from offset 0x08. -/
def commitBody (kind code epoch frame stamp layer : Nat) : List Nat :=
  [kind, 0] ++ leBytes 2 code ++ leBytes 4 epoch ++ leBytes 8 frame ++ leBytes 4 stamp ++ leBytes 2 layer ++ [0, 0]

/-! ### Taking a commit (R70, R74) -/

/-- The commit descriptor taken next: the earliest doorbell stamp, at equal stamps the lower ring (R70). -/
def State.nextCommit (s : State) : Option (Nat × Desc) :=
  (List.range 64).foldl (fun best w =>
    match s.nextDesc w 3 with
    | none => best
    | some d =>
      match best with
      | some b => if d.stamp < b.2.stamp then some (w, d) else best
      | none => some (w, d)) none

/-- The commit unit may take a descriptor (R54, R70, R74). -/
def State.mayCommit (s : State) : Bool :=
  s.imageOn && !s.sho.switching && !s.cmt.stopped && s.cmt.checking.isNone && decide (s.cmt.waiting.length < 256)

/-- COMMIT (R70): a commit that a fatal event left unchecked first (R96), else the next descriptor with its capture. -/
def State.takeCommit (s : State) : State :=
  if s.mayCommit = false then s
  else match s.cmt.recheck with
    | c :: r => ({ s with cmt := { s.cmt with checking := some c, recheck := r } } : State).cmtShow
    | [] =>
      match s.nextCommit with
      | none => s
      | some (w, d) =>
        let c : Commit :=
          { ring := w, slot := d.slot, num := d.num, bytes := d.bytes, capture := s.now, flags := fieldLE d.bytes 8 4,
            writes := captureOf s.now s.cmt.writes }
        let s1 := s.startDesc w d.num
        let left := s1.cmt.writes.filter (fun q => decide (s.now ≤ q.2.1))
        ({ s1 with cmt := { s1.cmt with checking := some c, writes := left, since := left.map (·.1) } } : State).cmtShow

/-! ### What a commit is checked against (R72, R309) -/

/-- A checked overlay's changes. -/
def Commit.laid (c : Commit) : Option Overlay :=
  if c.hasOverlay ∧ c.overlayCode = some 0 then some (parseOverlay c.overlay c.plain) else none

/-- A structure with a commit's overlay, where it was built for that image (R58). -/
def Commit.onImage (c : Commit) (im : Image) : Image :=
  match c.laid with
  | some o => if slice c.overlay 0x30 48 = im.digest then o.apply im else im
  | none => im

/-- The structure left by every commit taken (R72). -/
def State.takenImage (s : State) : Option Image := s.sho.run.map (fun im => s.cmt.waiting.foldl (fun im c => c.onImage im) im)

/-- The settings a commit leaves (R72). -/
def State.takenWith (s : State) (c : Commit) : RegFile := applyWrites s.cmt.takenRegs c.writes

/-- A commit's own layer list as it lies in memory. -/
def State.ownLayers (s : State) (c : Commit) : List (List Nat) :=
  (List.range (fieldLE c.bytes 0x0C 2)).map (fun i => s.read (fieldLE c.bytes 0x10 8 + 128 * i) 128)

/-- The list that the commits taken leave (R71). -/
def State.takenLayers (s : State) : List (List Nat) :=
  s.cmt.waiting.foldl (fun ls c => if c.hasLayers then c.layers else ls) s.cmt.layers

/-- The list to be checked (R167). -/
def State.listFor (s : State) (c : Commit) : List (List Nat) := if c.hasLayers then s.ownLayers c else s.takenLayers

/-- A commit captures a write of a register. -/
def Commit.captured (c : Commit) (off : Nat) : Bool := c.writes.any (fun q => q.1 == off)

/-- The Board is asked (R167, R252). -/
def Commit.needsBoard (c : Commit) : Bool :=
  c.hasLayers || c.captured Reg.OUT_MODE || (match c.laid with | some o => !o.plans.isEmpty | none => false)

/-- A poisoned read of what the checks read (R97). -/
def State.commitPoison (s : State) (c : Commit) : Bool := c.spans.any (fun q => s.readPoison q.1 q.2)

/-- The checks before the overlay's: format, NOT_BEFORE and readable data (R74, R97). -/
def State.commitEarly (s : State) (c : Commit) : Nat :=
  if !commitFormatOk c.bytes then 0x0410
  else if s.full c.capture + 60 * tickS < s.commitTime c then 0x0411
  else if s.commitPoison c then 0x0412
  else 0

/-! ### Overlays (R57) -/

/-- The checks of R52 and R57 on an overlay: 0 or the code of the first to fail. BASE_DIGEST stands before the sections
(log entry 85). -/
def State.overlayCheck (s : State) (b : List Nat) (len : Nat) (sigOk tagOk : Bool) (payload : List Nat) : Nat :=
  let c := s.overlayEarly b len
  if c ≠ 0 then c
  else if !sigOk ∨ s.rootSigned b = false then 0x0144
  else if fieldLE b 0x10 4 < s.minSerial 0 then 0x0145
  else if !tagOk ∨ (s.otpValue (2 + b.getD 0x0D 0)).isNone then 0x0146
  else match s.takenImage with
    | none => 0x014D
    | some im =>
      if slice b 0x30 48 ≠ im.digest then 0x014D
      else match shoOverlayCheck b payload im with
        | .error e => e
        | .ok _ => 0

/-- OVERLAY_COPY_START (R57): once no full load is in progress the overlay is copied and checked, with the module's results
on its signature and tag. BUSY reads 1 until the commit's checks end. -/
def State.overlayCopy (s : State) (sigOk tagOk : Bool) (plain : List Nat) : State :=
  match s.cmt.checking with
  | none => s
  | some c =>
    if c.hasOverlay = false ∨ c.overlayCode.isSome = true ∨ s.loadBusy = true ∨ s.commitEarly c ≠ 0 then s
    else
      let len := fieldLE c.bytes 0x20 4
      let b := s.read (fieldLE c.bytes 0x18 8) (min len stagingSize)
      let payload := slice plain 0 (shoPayloadLen b)
      let code := s.overlayCheck b len sigOk tagOk payload
      let s0 := s.noteRead 1 (fieldLE c.bytes 0x18 8) (min len stagingSize)
      let s1 := match s.stagingBase with
        | some a => s0.store 1 a b
        | none => s0
      let c1 : Commit := { c with overlay := b, plain := payload, overlayCode := some code }
      let s2 : State := { s1 with
        sho := { s1.sho with staging := b, overlay := true }
        cmt := { s1.cmt with checking := some c1 } }
      s2.put F.SYS_IMG_STATUS_BUSY 1

/-- The staging area is free again (R57). -/
def State.overlayOver (s : State) : State :=
  if s.sho.overlay then
    ({ s with sho := { s.sho with overlay := false } } : State).put F.SYS_IMG_STATUS_BUSY
      (b2n (decide (1 ≤ stageCode s.sho.stage ∧ stageCode s.sho.stage ≤ 5)))
  else s

/-! ### The checks (R72, R167, R252, R309) -/

/-- R309 for a commit: (code, reason). -/
def State.modeCheck (s : State) (c : Commit) (im : Image) : Nat × Nat :=
  if c.captured Reg.OUT_MODE || c.captured Reg.OUT_PHASE then
    let rf := s.takenWith c
    let mode := rf.get F.OUT_MODE_MODE
    let r := modeReason im mode (rf.get F.OUT_MODE_ROW0) (signed 32 (rf.get F.OUT_PHASE_PHASE_NS))
    if r ≠ 0 then (0x0C40, r) else if modeRateOk im.genlock mode then (0, 0) else (0x0C41, 0)
  else (0, 0)

/-- The Board's check: every layer of the commit's list, then the totals (R167, R252). -/
def State.boardCheck (s : State) (c : Commit) : Nat × Nat :=
  let ls := s.listFor c
  let r := if c.hasLayers then s.layersCode 0 [] ls else (0, 0xFFFF)
  if r.1 ≠ 0 then r
  else
    let rf := s.takenWith c
    match s.takenImage.map c.onImage with
    | none => (0, 0xFFFF)
    | some im =>
      match planOf im.plans (rf.get F.OUT_MODE_MODE) with
      | none => (0, 0xFFFF)
      | some plan => s.totalsCode im.panel plan (signed 8 (rf.get F.ROK_LOD_LOD_BIAS)) (rf.get F.ROK_CTRL_FILTER) ls

/-- Where a commit's checks stand before the Board's: (code, detail), none while the overlay's check is to come. -/
def State.beforeBoard (s : State) (c : Commit) : Option (Nat × Option Nat) :=
  let e := s.commitEarly c
  if e ≠ 0 then some (e, none)
  else
    match (if c.hasOverlay then c.overlayCode else some 0) with
    | none => none
    | some 0 =>
      match s.takenImage.map c.onImage with
      | none => some (0, none)
      | some im =>
        let r := s.modeCheck c im
        some (r.1, if r.2 = 0 then none else some r.2)
    | some k => some (k, none)

/-- BRD_LAYER_CHECK (R252, R267): the Board answers a layer-check request unless it is HALTED. During a switch none is asked: a commit
not complete by then is checked against the new structure (R54). -/
def State.layerCheck (s : State) : State :=
  match s.cmt.checking with
  | none => s
  | some c =>
    if s.sho.switching = false ∧ c.needsBoard = true ∧ c.board.isNone = true ∧ s.beforeBoard c = some (0, none) ∧ s.get F.BRD_STATUS_STATE ≠ 0 then
      let c1 : Commit := { c with board := some (s.boardCheck c) }
      let s1 := if c.hasLayers then s.noteReads 10 (s.layersReads 0 [] (s.listFor c)) else s
      { s1 with cmt := { s1.cmt with checking := some c1 } }
    else s

/-- Trigger records of a commit. -/
def State.ownTriggers (s : State) (c : Commit) : List (List Nat) :=
  if c.hasTriggers then (List.range (fieldLE c.bytes 0x26 2)).map (fun i => s.read (fieldLE c.bytes 0x30 8 + 32 * i) 32) else []

/-- Label data of a commit. -/
def State.ownLabel (s : State) (c : Commit) : List Nat :=
  if c.hasLabel then s.read (fieldLE c.bytes 0x28 8) (fieldLE c.bytes 0x24 2) else []

/-- The domain left off of which a commit enables an instance (R505): K1, files F8 to F15, a check unit. -/
def State.enablesOff (s : State) (c : Commit) (rf : RegFile) : Option Nat :=
  if s.leftOff 15 = true ∧ c.captured Reg.KLN_CTRL = true ∧ rf.get F.KLN_CTRL_K1_EN = 1 then some 15
  else if s.leftOff 19 = true ∧ c.captured Reg.ROK_CTRL = true ∧ 256 ≤ rf.get F.ROK_CTRL_FILE_EN then some 19
  else if s.leftOff 8 = true ∧ (List.range 16).any (fun n => c.captured (Reg.CHK_CTRL + 64 * n) &&
      (rf.get (F.CHK_CTRL_CHECK_EN.nth n) == 1 || rf.get (F.CHK_CTRL_ALIVE_EN.nth n) == 1)) = true then some 8
  else none

/-- The checks after the Board's (R151, R242, R390, R447, R486, R505). -/
def State.lateCode (s : State) (c : Commit) : Nat :=
  let rf := s.takenWith c
  if c.hasLabel ∧ lblDataOk (s.ownLabel c) = false then 0x0F10
  else if s.triggerCode (s.ownTriggers c) ≠ 0 then s.triggerCode (s.ownTriggers c)
  else if chkCode rf ≠ 0 then chkCode rf
  else if (s.enablesOff c rf).isSome then 0x1431
  else if rf.get F.KLN_CTRL_K0_EN = 0 ∧ (rf.get F.KLN_CTRL_K1_EN = 0 ∨ s.leftOff 15 = true) then 0x0512
  else if rf.get F.ROK_CTRL_FILE_EN % (if s.leftOff 19 then 256 else 65536) = 0 then 0x0830
  else 0

/-- The detail that a code of those checks carries in argument word 1: the domain (R73, R507). -/
def State.lateDetail (s : State) (c : Commit) : Option Nat :=
  if s.lateCode c = 0x1431 then s.enablesOff c (s.takenWith c) else none

/-- All checks of a commit: (code, layer, detail), none while one is still to be made. -/
def State.commitCode (s : State) (c : Commit) : Option (Nat × Nat × Option Nat) :=
  match s.beforeBoard c with
  | none => none
  | some (0, _) =>
    match (if c.needsBoard then c.board else some (0, 0xFFFF)) with
    | none => none
    | some (0, _) => some (s.lateCode c, 0xFFFF, s.lateDetail c)
    | some (k, l) => some (k, l, none)
  | some (k, d) => some (k, 0xFFFF, d)

/-- The unit instance of a refusal: of a Sieve code the pipe of the layer's context (R287), of CHK_CONFIG the first check unit that breaks R486
(R488). -/
def State.refuseInst (s : State) (c : Commit) (code layer : Nat) : Nat :=
  if code = 0x1310 then ((List.range 16).find? (fun n => !chkOk (s.takenWith c) n)).getD 0
  else if code / 256 ≠ 0x0A then 0
  else match ((s.listFor c)[layer]?).bind (fun b => s.ctx (lContext b)) with
    | some x => (s.ctxDesc x).getD 2 0
    | none => 0

/-- R73: a commit is refused whole: its captured values return, it is logged once, and REFUSED is formed. -/
def State.commitRefuse (s : State) (c : Commit) (code layer : Nat) (detail : Option Nat) : State :=
  let s1 : State := { s with cmt := { s.cmt with checking := none } }
  let s2 := (c.writes.foldl State.returnWrite s1).overlayOver
  let s3 := s2.event code (s.refuseInst c code layer) (c.ring * 65536 + layer) (detail.getD c.slot)
  (s3.endDesc c.ring c.num code (commitBody 2 code 0 0 (s.short s.now) layer)).cmtShow

/-- R72: a commit completes at this stamp. -/
def State.commitAccept (s : State) (c : Commit) : State :=
  let ls := if c.hasLayers then s.ownLayers c else []
  let nb := s.commitTime c
  let c1 : Commit := { c with
    complete := s.now, completeShort := s.short s.now, layers := ls, label := s.ownLabel c, triggers := s.ownTriggers c
    notBefore := if nb ≤ s.full c.capture then 0 else nb
    names := c.spans ++ ls.flatMap s.layerBuffers }
  let s1 : State := { s with cmt := { s.cmt with
    checking := none, waiting := s.cmt.waiting ++ [c1], takenRegs := s.takenWith c } }
  (((s1.onDesc c.ring c.num (fun d => { d with st := .ended })).settleRing c.ring).overlayOver).cmtShow

/-- What CMT reads from memory for a commit whose checks end with a code: nothing where its format or its time refuses it; an overlay was read
when it was copied (R57, R97). -/
def Commit.reads (c : Commit) (code : Nat) : List (Nat × Nat) :=
  if code = 0x0410 ∨ code = 0x0411 then [] else (if c.overlayCode.isSome then { c with bytes := modAt c.bytes 8 (fun f => f - f / 2 % 2 * 2) } else c).spans

/-- COMMIT_CHECKS_COMPLETE (R72, R73). -/
def State.checksComplete (s : State) : State :=
  match s.cmt.checking with
  | none => s
  | some c =>
    if s.sho.switching ∨ s.cmt.stopped then s
    else match s.commitCode c with
      | none => s
      | some (0, _, _) => (s.noteReads 1 (c.reads 0)).commitAccept c
      | some (k, l, d) => (s.noteReads 1 (c.reads k)).commitRefuse c k l d

/-! ### Sealing (R66, R71, R74, R77, R79) -/

/-- The queue that carries the epoch markers of a unit (R619). -/
def TiltQueue.markerQueue (q : TiltQueue) : Bool :=
  q.prodUnit == 4 && (q.consPort == 31 || (q.consUnit == 16 && q.consPort == 1))

/-- The units that take part in epochs under the running topology. -/
def State.markerUnits (s : State) : List Nat := (s.tlt.queues.filter TiltQueue.markerQueue).map (·.consUnit)

/-- Commits that may land at a latch instant, and those that wait: none completes at or after it, lands before its NOT_BEFORE,
or passes an earlier commit of its ring (R74, R77). -/
def landing (now target : Nat) : List Nat → List Commit → List Commit × List Commit
  | _, [] => ([], [])
  | blocked, c :: r =>
    if !blocked.contains c.ring ∧ c.complete < now ∧ c.notBefore ≤ target then
      let q := landing now target blocked r
      (c :: q.1, q.2)
    else
      let q := landing now target (c.ring :: blocked) r
      (q.1, c :: q.2)

/-- The epoch number after `e` (R66). -/
def nextEpoch (e : Nat) : Nat := if e = 0xFFFFFFFF then 1 else e + 1

/-- Write the SEALED completions of an epoch (R76, R79). -/
def State.sealedCompletions (s : State) (e frame : Nat) (cs : List Commit) : State :=
  cs.foldl (fun s c =>
    if c.silent then s
    else s.postCompletion c.ring c.num (commitBody 1 0 e frame c.completeShort 0xFFFF)) s

/-- Byte ranges of the content that a frame shows under HOLD, as decided at its latch instant (R84, R262). -/
def State.heldRanges (s : State) (frame : Nat) : List (Nat × Nat) :=
  match s.brd.frames.find? (fun f => f.frame == frame) with
  | none => []
  | some f => (f.shows.filter (fun x => x.reason != 0 && (x.applied == 0 || x.applied == 3))).flatMap
      (fun x => s.contentBuffers x.content)

/-- Target presentation time of the next frame: the full time of its predicted start (R69). -/
def State.nextTarget (s : State) : Nat := s.fullR s.out.next

/-- The TOPOLOGY records of a commit's overlay, where it was built for the running image (R42, R58). -/
def Commit.routesOn (c : Commit) (im : Image) : List Route :=
  match c.laid with
  | some o => if slice c.overlay 0x30 48 = im.digest then o.routes else []
  | none => []

/-- A queue keeps an overlay's change of it until the marker of the overlay's epoch enters it (R42). -/
def TiltQueue.toChange (q : TiltQueue) (routes : List Route) (e : Nat) : TiltQueue :=
  match routes.reverse.find? (fun r => r.queue == q.num) with
  | some r => { q with changes := q.changes ++ [(e, r.credits, r.prio)] }
  | none => q

/-- The epoch before `n` (R66). -/
def prevEpoch (n : Nat) : Nat := if n = 1 then 0xFFFFFFFF else n - 1

/-- A unit may take marker `n` from its queues: it has consumed marker `n` itself, or it takes no part in epochs (R22). -/
def State.maySee (s : State) (u n : Nat) : Bool := !s.markerUnits.contains u || epochLe n (s.epochAt u)

/-- Some data that stands before marker `n` in a queue of unit `u` has not been taken (R22). -/
def State.dataBefore (s : State) (u n : Nat) : Bool :=
  s.tlt.queues.any (fun q => q.consUnit == u && !q.markerQueue && q.entries.any (fun e => e.marker == n) &&
    (q.entries.takeWhile (fun e => e.marker != n)).any (fun e => e.marker == 0))

/-- The units take the markers at the front of their data queues that they may take; what taps such a queue meets the boundary there
(R22, R483). -/
def State.settleMarkers (s : State) : State :=
  let r := s.tlt.queues.map (fun q =>
    if q.markerQueue then (q, []) else q.takeMarkers (s.maySee q.consUnit) s.now (q.entries.length + q.owed.length))
  let s1 : State := { s with tlt := { s.tlt with queues := settleQueues s.now (r.map (·.1)) } }
  r.foldl (fun s x => x.2.foldl (fun s e => s.tilthBoundary (prevEpoch e) [x.1.num]) s) s1

/-- Markers of epochs `es` go into the queues that unit `u` produces into, behind what it has placed (R22; log entry 96). -/
def State.passMarkers (s : State) (u : Nat) (es : List Nat) : State :=
  let qs := s.tlt.queues.map (fun q => if q.prodUnit = u ∧ q.markerQueue = false then es.foldl (fun q e => q.issue e s.now) q else q)
  ({ s with tlt := { s.tlt with queues := qs } } : State).settleMarkers

/-- Seal the epoch of the next frame with the commits that land (R66, R71, R77, R79). -/
def State.sealEpoch (s : State) : State :=
  let e := nextEpoch s.cmt.last
  let frame := s.frameNo + 1
  let q := landing s.now s.nextTarget [] s.cmt.waiting
  let regs := q.1.foldl (fun rf c => applyWrites rf c.writes) s.cmt.sealedRegs
  let ls := q.1.foldl (fun (a : List (List Nat) × Nat) c => if c.hasLayers then (c.layers, c.capture) else a)
    (s.cmt.layers, s.cmt.layersAt)
  let run := s.sho.run.map (fun im => q.1.foldl (fun im c => c.onImage im) im)
  let routes := (s.sho.run.map (fun im => q.1.flatMap (fun c => c.routesOn im))).getD []
  let s1 : State := { s with
    cmt := { s.cmt with last := e, waiting := q.2, sealedRegs := regs, layers := ls.1, layersAt := ls.2 }
    sho := { s.sho with run := run } }
  let s2 := if e = 1 ∧ s.cmt.last ≠ 0 then s1.event 0x0420 0 0 0 else s1
  let mode := regs.get F.OUT_MODE_MODE
  let row0 := regs.get F.OUT_MODE_ROW0
  let s3 := if mode = s.out.nmode ∧ row0 = s.out.nrow0 then s2 else s2.modeAhead mode row0
  let s4 := (s3.zonesAtLatch e).dmrAtLatch e
  let target := s4.nextTarget
  let d := match s4.planFor mode with
    | some plan => s4.decideFrame e frame s.now target ls.2 plan mode row0 ls.1
    | none => (s4, [])
  let s5 := d.1
  let s6 := s5.onReport e (fun r => { r with staleZones := s5.staleZones, flags := r.flags + b2n (s5.staleZones != 0) })
  let ep : Epoch :=
    { num := e, frame := frame, target := target, commits := q.1, staged := regs, layers := ls.1
      names := q.1.flatMap (·.names) ++ d.2, heldContent := s6.heldRanges frame }
  let queues := s6.tlt.queues.map (fun k =>
    let k1 := if k.prodUnit = 4 ∨ s6.markerUnits.contains k.prodUnit = true then k.toChange routes e else k
    if k.markerQueue then k1.issue e s.now else k1)
  let s7 : State := { s6 with
    cmt := { s6.cmt with epochs := s6.cmt.epochs ++ [ep] }
    sys := { s6.sys with unitEpoch := sparseSet (fun _ => 0) s6.sys.unitEpoch 4 e }
    tlt := { s6.tlt with queues := settleQueues s.now queues } }
  (((s7.passMarkers 4 [e]).sealedCompletions e frame q.1).put F.CMT_EPOCH_SEALED_EPOCH e).cmtShow

/-! ### Snapshots and frame reports (R81 to R83, R265, R266, R571) -/

/-- Units in which a snapshot register shows its count. -/
def snapUnit (reg : Nat) : Nat :=
  if [Reg.MEM_SNAP_READ, Reg.MEM_SNAP_WRITE, Reg.TRW_SNAP_SAMPLES, Reg.HST_SNAP_INGEST, Reg.HST_SNAP_EXPORT].contains reg then 2 ^ 20
  else if reg = Reg.ROK_SNAP_SLOTS then 2 ^ 22
  else if [Reg.ROK_SNAP_EARLY_STOP, Reg.ROK_SNAP_CAPPED, Reg.BRD_SNAP_CULLED].contains reg then 2 ^ 10
  else if [Reg.MEM_SNAP_PD_US, Reg.MEM_SNAP_SR_US].contains reg then tickUs
  else if reg = Reg.MEM_SNAP_RETRAIN_NS then tickNs
  else 1

/-- What a snapshot register shows of a latched value (R81 and each unit's table); THM_SNAP_DUTY_MIN is kept as 16 less the
duty and THM_SNAP_PEAK with an offset of 65,536, so that both rise. -/
def snapValue (reg v : Nat) : Nat :=
  if reg = Reg.THM_SNAP_DUTY_MIN then 16 - v
  else if reg = Reg.THM_SNAP_PEAK then (if v = 0 then 0 else (2 ^ 32 + v - 65536) % 2 ^ 32)
  else sat32 (v / snapUnit reg)

/-- Whether a BAR0 offset is a snapshot register's. -/
def isSnap (off : Nat) : Bool := (rowAt off).any (fun q => q.1.snap)

/-- Switch every snapshot register to an epoch's latched values (R82). -/
def State.showSnap (s : State) (e : Nat) (snap : Counters) : State :=
  let s1 : State := { s with
    regs := s.regs.filter (fun q => !isSnap q.1)
    cmt := { s.cmt with paceView := s.cmt.heldPace } }
  let s2 := snap.foldl (fun s q => s.wr q.1 (snapValue q.1 q.2)) s1
  (s2.wr Reg.THM_SNAP_DUTY_MIN (snapValue Reg.THM_SNAP_DUTY_MIN (sparseGet (fun _ => 0) snap Reg.THM_SNAP_DUTY_MIN))).put
    F.CMT_SNAP_EPOCH_EPOCH e

/-- One entry of LATE_LIST (R266). -/
def lateEntry (x : LayerShow) : List Nat := leBytes 2 x.id ++ leBytes 2 x.index ++ [x.reason, x.applied] ++ leBytes 2 x.bands

/-- Insert a late layer by index. -/
def insertShow (x : LayerShow) : List LayerShow → List LayerShow
  | [] => [x]
  | y :: ys => if x.index ≤ y.index then x :: y :: ys else y :: insertShow x ys

/-- The frame report of an epoch (R265, R266); of one that was not shown the counts read 0 and FLAGS is filled in. -/
def State.frameReport (s : State) (e : Epoch) : List Nat :=
  let r := (s.brd.reports.find? (fun r => r.epoch == e.num)).getD { epoch := e.num }
  let late := (((s.brd.late.find? (fun q => q.1 == e.num)).map (·.2)).getD []).foldl (fun a x => insertShow x a) []
  let flags := r.flags % 2 + b2n e.notShown * 2 + b2n (!e.incomplete.isEmpty) * 4 + b2n (decide (16 < late.length)) * 8 +
    b2n (r.trunc != 0) * 16 + (r.flags / 32) % 2 * 32
  let head := leBytes 4 e.num ++ leBytes 4 flags ++ leBytes 8 e.frame ++ presentTime e.target
  let body :=
    if e.notShown then head ++ List.replicate 228 0
    else
      head ++
      [r.staleZones, r.mode] ++ leBytes 2 e.layers.length ++ leBytes 2 (min r.peak 65535) ++ leBytes 2 late.length ++
      r.steps.flatMap (leBytes 2) ++ leBytes 2 r.late ++ leBytes 2 r.abandoned ++ leBytes 2 r.trunc ++ leBytes 4 r.overflow ++
      leBytes 4 r.culled ++ leBytes 4 r.light ++ leBytes 4 0 ++ slice ((late.take 16).flatMap lateEntry) 0 128 ++ List.replicate 60 0
  let b := slice body 0 252
  b ++ leBytes 4 (crc32c b)

/-- R571: a frame report goes into the ring, or is dropped and counted. -/
def State.postReport (s : State) (b : List Nat) : State :=
  let n := s.get F.SYS_FR_SIZE_ENTRIES
  if n = 0 then s
  else
    let h := s.get F.SYS_FR_HEAD_HEAD
    let t := s.get F.SYS_FR_TAIL_TAIL
    if (h + 1) % n = t % n then
      let s1 := s.put F.SYS_FR_DROPPED_COUNT (sat32 (s.get F.SYS_FR_DROPPED_COUNT + 1))
      if s1.sys.frDropRun then s1 else ({ s1 with sys := { s1.sys with frDropRun := true } } : State).event 0x0121 0 0 0
    else
      let s1 := (s.store 13 (s.get F.SYS_FR_BASE_BASE * 256 + 256 * h) b).put F.SYS_FR_HEAD_HEAD ((h + 1) % n)
      ({ s1 with sys := { s1.sys with frDropRun := false } } : State).raise 2

/-- Forget the epochs that have been published and have retired. -/
def State.dropEpochs (s : State) : State :=
  { s with cmt := { s.cmt with epochs := s.cmt.epochs.filter (fun x => !(x.published && x.retired)) } }

/-- EPOCH_PUBLISH (R82, R93): the earliest epoch not published, once every unit that takes part has latched it. -/
def State.publish (s : State) : State :=
  match s.cmt.epochs.find? (fun x => !x.published) with
  | none => s
  | some e =>
    if !(s.markerUnits.all e.latched.contains) ∨ e.latched.isEmpty then s
    else
      let stale := (s.brd.reports.find? (fun r => r.epoch == e.num)).any (fun r => r.staleZones != 0)
      let snap := sparseSet (fun _ => 0) e.snap Reg.RRG_SNAP_STALE (b2n stale)
      let s1 := (s.postReport (s.frameReport e)).onEpoch e.num (fun x => { x with published := true })
      let s2 : State := { s1 with
        cmt := { s1.cmt with
          heldEpoch := e.num
          heldSnap := snap
          heldPace := e.pace }
        brd := { s1.brd with
          reports := s1.brd.reports.filter (fun r => r.epoch != e.num), late := s1.brd.late.filter (fun q => q.1 != e.num) } }
      (if s2.flag F.CMT_SNAP_CTRL_FREEZE then s2 else s2.showSnap e.num snap).dropEpochs

/-- The frozen view is released: it moves to the epoch published last (R83). -/
def State.thaw (s : State) : State :=
  let s1 := s.put F.CMT_SNAP_CTRL_FREEZE 0
  if s1.cmt.heldEpoch = 0 then s1 else s1.showSnap s1.cmt.heldEpoch s1.cmt.heldSnap

/-- SNAPSHOT_FREEZE (R83). -/
def State.freeze (s : State) (on : Bool) : State :=
  if on then
    if s.flag F.CMT_SNAP_CTRL_FREEZE then s
    else ({ s with cmt := { s.cmt with freezeAt := s.now } } : State).put F.CMT_SNAP_CTRL_FREEZE 1
  else if s.flag F.CMT_SNAP_CTRL_FREEZE then s.thaw else s

/-- FREEZE_EXPIRY (R83): 250 ms after FREEZE was set. -/
def State.freezeExpiry (s : State) : State :=
  if s.flag F.CMT_SNAP_CTRL_FREEZE = true ∧ s.cmt.freezeAt + 250 * tickMs ≤ s.now then
    (s.thaw.put F.CMT_SNAP_CTRL_EXPIRED 1).event 0x0421 0 0 0
  else s

/-! ### Retirement (R84, R85) -/

/-- Units that read buffers named by an epoch: the Kiln, Silt and the Board, the label strip and TIM (R84). -/
def readers : List Nat := [5, 6, 9, 15, 17]

/-- Units that have consumed the marker after `e` (R84). -/
def State.passedUnits (s : State) (e : Epoch) : Bool :=
  (s.markerUnits.filter readers.contains).all e.latched.contains && !s.markerUnits.isEmpty

/-- A later epoch whose frame is not over shows content of `e`'s buffers under HOLD (R84). -/
def State.heldLater (s : State) (e : Epoch) : Bool :=
  ((s.cmt.epochs.dropWhile (fun x => x.num != e.num)).drop 1).any (fun x =>
    !s.passedUnits x && x.heldContent.any (fun q => e.names.any (fun n => overlaps q.1 q.2 n.1 n.2)))

/-- EPOCH_RETIRE (R84, R85): the earliest epoch that has not retired, once no frame reads its buffers any more. -/
def State.retire (s : State) : State :=
  match s.cmt.epochs.find? (fun x => !x.retired) with
  | none => s
  | some e =>
    if s.passedUnits e = false ∨ s.heldLater e = true then s
    else
      let s1 := (s.onEpoch e.num (fun x => { x with retired := true })).put F.CMT_EPOCH_RETIRED_EPOCH e.num
      (e.commits.foldl (fun s c =>
        if c.silent then s
        else s.postCompletion c.ring c.num (commitBody 3 0 e.num e.frame c.completeShort 0xFFFF)) s1).dropEpochs

/-! ### Meanings -/

/-- OVERLAY_COPY_START (R57): `sigOk`, `tagOk` and `plain` are the security module's results. -/
def execOverlayCopyStart (t : Nat) (sigOk tagOk : Bool) (plain : List Nat) (s : State) : Out :=
  .next (s.whenOn t (fun s => s.overlayCopy sigOk tagOk plain))

/-- COMMIT (R70). -/
def execCommit (t : Nat) (s : State) : Out := .next (s.whenOn t State.takeCommit)

/-- COMMIT_CHECKS_COMPLETE (R72). -/
def execCommitChecksComplete (t : Nat) (s : State) : Out := .next (s.whenOn t State.checksComplete)

/-- BRD_LAYER_CHECK (R252). -/
def execBrdLayerCheck (t : Nat) (s : State) : Out := .next (s.whenOn t State.layerCheck)

/-- EPOCH_PUBLISH (R82). -/
def execEpochPublish (t : Nat) (s : State) : Out := .next (s.whenOn t State.publish)

/-- SNAPSHOT_FREEZE (R83). -/
def execSnapshotFreeze (t : Nat) (on : Bool) (s : State) : Out := .next (s.whenHost t (fun s => s.freeze on))

/-- FREEZE_EXPIRY (R83). -/
def execFreezeExpiry (t : Nat) (s : State) : Out := .next (s.whenOn t State.freezeExpiry)

/-- EPOCH_RETIRE (R84). -/
def execEpochRetire (t : Nat) (s : State) : Out := .next (s.whenOn t State.retire)

/-- DISCARD (R103). -/
def execDiscard (t : Nat) (s : State) : Out := .next (s.whenHost t State.discard)

end Sys2Proof.Machine
end

