-- ==== Sys2Proof/Machine/Read.lean ====
section
/-!
DEFINITION. What a read of a BAR0 register answers (R10, R12, R16, R505, R551), without the effects that some reads have.
-/

namespace Sys2Proof.Machine

/-- A stored word with its write-only and undefined bits 0 (R10, R11). -/
def readable (r : RegRow) (w v : Nat) : Nat :=
  r.fields.foldl (fun a f =>
    let lo := max f.lo (32 * w) - 32 * w
    let hi := min f.hi (32 * w + 31) - 32 * w
    if f.acc ≠ .wo ∧ f.lo ≤ 32 * w + 31 ∧ 32 * w ≤ f.hi then withBits a hi lo (bitsOf v hi lo) else a) 0

/-- Enable bits of an instance in a domain left off, by register offset (R503, R505). -/
def State.offMask (s : State) (off : Nat) : Nat :=
  if off = Reg.KLN_CTRL ∧ s.leftOff 15 = true then 2 ^ F.KLN_CTRL_K1_EN.lo
  else if off = Reg.ROK_CTRL ∧ s.leftOff 19 = true then 0xFF00 * 2 ^ F.ROK_CTRL_FILE_EN.lo
  else if off = Reg.SVE_CTRL ∧ s.leftOff 12 = true then 0xC
  else if (off = Reg.TIM_PORT_CTRL + 32 ∨ off = Reg.TIM_PORT_CTRL + 48) ∧ s.leftOff 6 = true then 1
  else if off = Reg.AUD_CTRL ∧ s.leftOff 7 = true then 3
  else if Reg.CHK_CTRL ≤ off ∧ off < Reg.CHK_CTRL + 1024 ∧ off % 64 = Reg.CHK_CTRL % 64 ∧ s.leftOff 8 = true then
    2 ^ F.CHK_CTRL_CHECK_EN.lo + 2 ^ F.CHK_CTRL_ALIVE_EN.lo
  else 0

/-- `v` with the bits of `m` cleared. -/
def clearBits (v m : Nat) : Nat := Nat.xor v (Nat.land v m)

/-- The word at a BAR0 offset as a read returns it (R10): 0 where no register is defined. The label temperature reads T (R386);
TIM_SHORT is live (R443); SVE_TBL_DATA and LBL_WAVE_DATA read the entry selected; the panel LUT's places past its last node read 0
(R248). -/
def State.peek (s : State) (off : Nat) : Nat :=
  match rowAt off with
  | none => 0
  | some (r, _, j, w) =>
    if r.off = Reg.LBL_TEMP then unsigned 16 s.lblTemp
    else if r.off = Reg.TIM_SHORT then s.short s.now
    else if r.off = Reg.TIM_TIME_NS then fullNs (s.full s.now)
    else if r.off = Reg.ROK_LUT ∧ 960 < j then 0
    else if r.off = Reg.SVE_TBL_DATA then
      let ix := s.get F.SVE_TBL_SEL_INDEX
      let kind := s.get F.SVE_TBL_SEL_KIND
      if ix < (if kind = 0 then 3075 else 896) then
        sveEntry (s.pipe (s.get F.SVE_TBL_SEL_PIPE)).shadow kind (s.get F.SVE_TBL_SEL_TABLE) ix
      else 0
    else if r.off = Reg.LBL_WAVE_DATA then (s.lbl.shadow.getD s.waveIx []).getD (s.get F.LBL_WAVE_SEL_PHASE) 0
    else clearBits (readable r w (s.rd off)) (s.offMask off)

/-- A register of the field die while it is powered down, or of a BAR in D3hot: a read answers all ones and a write is dropped
(R16, R548). -/
def State.unreachable (s : State) (off : Nat) : Bool := !s.fieldOn && !keptOffset off

end Sys2Proof.Machine
end

