-- ==== Sys2Proof/Machine/EventLog.lean ====
section
/-!
DEFINITION. The event log as it is written (R568 to R570), and the trace of the debug window (R580 to R582).
-/

namespace Sys2Proof.Machine

/-! ### Event log -/

/-- An entry as it lies in the log, with sequence number `seq` (R568). -/
def LogEntry.bytes (e : LogEntry) (seq : Nat) : List Nat :=
  let b := leBytes 4 ((e.full / tickNs) % 2 ^ 32) ++ [e.full % tickNs, b2n e.keeper] ++ leBytes 2 e.inst ++ leBytes 4 e.epoch ++
    leBytes 2 e.code ++ [0, 0] ++ leBytes 4 e.arg0 ++ leBytes 4 e.arg1 ++ leBytes 4 seq
  b ++ leBytes 4 (crc32c b)

/-- Entries written and not read (R570). -/
def State.logUnread (s : State) : Nat := (s.get F.SYS_LOG_HEAD_SEQ + 2 ^ 32 - s.get F.SYS_LOG_TAIL_SEQ) % 2 ^ 32

/-- Vector 1 at the threshold, once until TAIL is written (R570; log entry 92). -/
def State.logSignal (s : State) : State :=
  if s.sys.logArmed = true ∧ s.get F.SYS_LOG_CTRL_THRESHOLD ≤ s.logUnread then
    ({ s with sys := { s.sys with logArmed := false } } : State).raise 1
  else s

/-- Keep an entry stamped before a fatal event for the summary (R597). -/
def State.logKept (s : State) (e : LogEntry) (b : List Nat) : State :=
  if s.get F.DMP_STATUS_STATE = 0 ∨ e.stamp < s.dmp.at_ then
    let l := s.dmp.logTail ++ [b]
    { s with dmp := { s.dmp with logTail := l.drop (l.length - 64) } }
  else s

/-- Write an entry at the next place of the EVENT_LOG region (R568). -/
def State.logWrite (s : State) (e : LogEntry) : State :=
  let q := s.get F.SYS_LOG_HEAD_SEQ
  let b := e.bytes q
  let s1 := s.store 13 (s.regionBase 6 + 32 * ((q + 2 ^ 32 - 1) % 2 ^ 32 % 4096)) b
  ((s1.put F.SYS_LOG_HEAD_SEQ ((q + 1) % 2 ^ 32)).logKept e b).logSignal

/-- Drop an entry and count it. -/
def State.logDrop (s : State) : State := s.put F.SYS_LOG_DROPPED_COUNT (sat32 (s.get F.SYS_LOG_DROPPED_COUNT + 1))

/-- The overflow entry that stands before `e` (R570). -/
def overflowEntry (e : LogEntry) (n : Nat) : LogEntry := ⟨e.stamp, false, 1, 0, 0, 0x0120, n % 2 ^ 32, 0, e.full⟩

/-- Put one entry into the log: into the keeper's buffer before an image is in force (R569), else under MODE (R570). -/
def State.logPut (s : State) (e : LogEntry) : State :=
  if s.imageOn = false then
    if s.sys.logKeep.length < 256 then { s with sys := { s.sys with logKeep := s.sys.logKeep ++ [e] } } else s.logDrop
  else if s.flag F.SYS_LOG_CTRL_MODE then s.logWrite e
  else if s.sys.logDropRun = 0 then
    if s.logUnread < 4096 then s.logWrite e
    else ({ s with sys := { s.sys with logDropRun := 1 } } : State).logDrop
  else if s.logUnread < 4095 then
    let s1 := s.logWrite (overflowEntry e s.sys.logDropRun)
    ({ s1 with sys := { s1.sys with logDropRun := 0 } } : State).logWrite e
  else ({ s with sys := { s.sys with logDropRun := s.sys.logDropRun + 1 } } : State).logDrop

/-- EVENT_LOG_WRITE (R569): the earliest event is written 10 µs after its stamp. -/
def State.logNext (s : State) : State :=
  match s.sys.logPend with
  | [] => s
  | e :: r => if e.stamp + 10 * tickUs ≤ s.now then ({ s with sys := { s.sys with logPend := r } } : State).logPut e else s

/-- The image comes into force: the keeper's buffer goes into the region (R569). -/
def State.logFlush (s : State) : State :=
  let l := s.sys.logKeep
  l.foldl State.logPut { s with sys := { s.sys with logKeep := [] } }

/-- LOG_TAIL_WRITE (R570). -/
def State.logTailWrite (s : State) (v : Nat) : State :=
  { (s.put F.SYS_LOG_TAIL_SEQ v) with sys := { s.sys with logArmed := true } }

/-! ### Trace (R580, R581) -/

/-- DEBUG_LOCK of the SETTINGS payload (R538, R581). -/
def State.debugLocked (s : State) : Bool := bitAt (((s.otpValue 7).getD []).getD 0 0) 0

/-- The trace ring obeys R581. -/
def State.traceRingOk (s : State) : Bool :=
  let n := s.get F.DBG_TRACE_SIZE_ENTRIES
  let a := s.get F.DBG_TRACE_BASE_BASE * 32
  decide (2 ≤ n) && decide (a + 32 * n ≤ memTop) && !s.protectedHit a (32 * n)

/-- SYS_RESERVED_WRITE with the register offset and the word (R11). -/
def State.reservedWrite (s : State) (off v : Nat) : State := s.event 0x0103 0 off v

/-- Unread entries of the trace ring. -/
def State.traceUnread (s : State) : Nat :=
  let n := max 1 (s.get F.DBG_TRACE_SIZE_ENTRIES)
  (s.get F.DBG_TRACE_HEAD_HEAD + n - s.get F.DBG_TRACE_TAIL_TAIL % n) % n

/-- STATE of the trace (R582). -/
def State.traceShow (s : State) : State :=
  let full := decide (s.get F.DBG_TRACE_SIZE_ENTRIES ≤ s.traceUnread + 1)
  s.put F.DBG_TRACE_STATUS_STATE (if s.flag F.DBG_TRACE_CTRL_EN = false then 0 else if full then 2 else 1)

/-- DBG_TRACE_ENABLE (R581): `v` is the word written to DBG_TRACE_CTRL. -/
def State.traceCtrl (s : State) (v : Nat) : State :=
  let kind := bitsOf v 26 24
  let kindOk := decide (1 ≤ kind ∧ kind ≤ 6)
  if s.debugLocked then s
  else if bitAt v 31 then
    if kindOk = true ∧ bitsOf v 15 0 < tapIndices kind ∧ s.traceRingOk = true then
      let s1 := (((s.put F.DBG_TRACE_CTRL_EN 1).put F.DBG_TRACE_CTRL_KIND kind).put F.DBG_TRACE_CTRL_DECIMATE (bitsOf v 23 16)).put
        F.DBG_TRACE_CTRL_INDEX (bitsOf v 15 0)
      (if s.flag F.DBG_TRACE_CTRL_EN then s1 else { s1 with dbg := {} }).traceShow
    else s.reservedWrite Reg.DBG_TRACE_CTRL v
  else
    let s1 := ((s.put F.DBG_TRACE_CTRL_EN 0).put F.DBG_TRACE_CTRL_DECIMATE (bitsOf v 23 16)).put F.DBG_TRACE_CTRL_INDEX (bitsOf v 15 0)
    (if kindOk then s1.put F.DBG_TRACE_CTRL_KIND kind else s1.reservedWrite Reg.DBG_TRACE_CTRL v).traceShow

/-- The unit that owns a kind of tap (R479). -/
def tapUnit (kind : Nat) : Nat := [0, 2, 3, 5, 13, 21, 18].getD kind 0

/-- A record that was not traced, or an entry dropped. -/
def State.traceDrop (s : State) : State := s.put F.DBG_TRACE_DROPPED_COUNT (sat32 (s.get F.DBG_TRACE_DROPPED_COUNT + 1))

/-- The records passed over after one that was chosen, traced or not (R580). -/
def State.traceSkip (s : State) : State := { s with dbg := { s.dbg with skip := s.get F.DBG_TRACE_CTRL_DECIMATE } }

/-- DBG_TRACE_RECORD (R580): a record passes a tap. -/
def State.traceRecord (s : State) (kind index : Nat) (b : List Nat) : State :=
  if s.debugLocked = true ∨ s.flag F.DBG_TRACE_CTRL_EN = false ∨ s.get F.DBG_TRACE_CTRL_KIND ≠ kind ∨ s.get F.DBG_TRACE_CTRL_INDEX ≠ index then s
  else if 0 < s.dbg.skip then { s with dbg := { s.dbg with skip := s.dbg.skip - 1 } }
  else if s.dbg.lastAt.any (fun a => decide (s.now < a + 8 * tickNs)) then s.traceDrop.traceSkip
  else if s.get F.DBG_TRACE_SIZE_ENTRIES ≤ s.traceUnread + 1 then s.traceDrop.traceSkip.traceShow
  else
    let h := s.get F.DBG_TRACE_HEAD_HEAD
    let e := leBytes 4 (s.short s.now) ++ [s.frac s.now, kind] ++ leBytes 2 index ++ leBytes 4 (s.epochAt (tapUnit kind)) ++
      leBytes 4 b.length ++ slice b 0 16
    let s1 := (s.store 13 (s.get F.DBG_TRACE_BASE_BASE * 32 + 32 * h) e).put F.DBG_TRACE_HEAD_HEAD
      ((h + 1) % s.get F.DBG_TRACE_SIZE_ENTRIES)
    ({ s1 with dbg := { skip := s.get F.DBG_TRACE_CTRL_DECIMATE, lastAt := some s.now } } : State).traceShow

/-! ### Meanings -/

/-- EVENT_LOG_WRITE (R569). -/
def execEventLogWrite (t : Nat) (s : State) : Out := .next ((s.tick t).logNext)

/-- LOG_TAIL_WRITE (R570). -/
def execLogTailWrite (t v : Nat) (s : State) : Out := .next (s.whenBar t (fun s => s.logTailWrite (v % 2 ^ 32)))

/-- DBG_TRACE_ENABLE (R581). -/
def execDbgTraceEnable (t v : Nat) (s : State) : Out := .next (s.whenHost t (fun s => s.traceCtrl (v % 2 ^ 32)))

/-- DBG_TRACE_RECORD (R580). -/
def execDbgTraceRecord (t kind index : Nat) (b : List Nat) (s : State) : Out :=
  .next (s.whenOn t (fun s => s.traceRecord kind index b))

end Sys2Proof.Machine
end

