-- ==== Sys2Proof/Machine/Markers.lean ====
section
/-!
DEFINITION. Epoch markers at the units (R22, R42, R58, R81, R94), unit resets (R575) and the faults of die-edge FIFOs (R23).
-/

namespace Sys2Proof.Machine

/-- BAR0 offsets of a unit's window (R551). -/
def inWindowOf (u off : Nat) : Bool := decide ((u - 1) * 0x40000 ≤ off ∧ off < u * 0x40000)

/-! ### Unit resets (R575, R94) -/

/-- Units with a bit in SYS_UNIT_RESET (R575). -/
def resettable : List Nat := [5, 6, 7, 8, 9, 10, 11, 12, 13, 14, 15, 17, 18, 19]

/-- What a reset or a freeze stops in a unit, as its own chapter states. -/
def State.haltUnit (s : State) (u : Nat) (reset : Bool) : State :=
  match u with
  | 5 => (s.engineStop 0 reset).engineStop 1 reset
  | 6 => s.siltHalt
  | 7 => s.rrgHalt
  | 8 => s.rookHalt
  | 9 => s.boardHalt
  | 10 => s.sveHalt
  | 11 => s.trwHalt
  | 13 => s.linkReset
  | 14 => s.panelStop
  | 17 => s.timReset
  | 18 => s.audReset
  | 19 => s.chkHalt
  | _ => s

/-- The snapshot of the epoch in force at a unit is flagged INCOMPLETE, logged once (R81, R97). -/
def State.flagIncomplete (s : State) (u : Nat) : State :=
  let e := s.epochAt u
  if e = 0 then s
  else (s.onEpoch e (fun x => { x with incomplete := if x.incomplete.contains u then x.incomplete else u :: x.incomplete })).eventOnce
    0x0422 (64 * e + u) 0 u e

/-- The counters of a unit start anew (R81). -/
def State.clearCounters (s : State) (u : Nat) : State := { s with cnt := s.cnt.filter (fun q => !inWindowOf u q.1) }

/-- The unit that produces into a MEM consumer port (R407), 0 for the keeper bridge. -/
def portUnit (p : Nat) : Nat := [2, 4, 5, 5, 6, 7, 7, 10, 11, 14, 9, 18, 17, 2, 23, 0].getD p 0

/-- A unit's writes that the memory controller has not acknowledged are discarded before its reset is logged (R94, R409): those that wait at a
port are gone, and those that hold a slot keep it and write nothing (R420). -/
def State.dropWrites (s : State) (u : Nat) : State :=
  { s with mc := { s.mc with
      reqs := s.mc.reqs.map (fun (r : MemReq) => if r.write && !r.acked && portUnit r.port == u then { r with void := true } else r)
      held := s.mc.held.filter (fun q => !(q.2.2 && portUnit q.1 == u)) } }

/-- One unit is reset (R575): it stops, its writes are settled (R94), its counts cover only the time from here, and the reset is
logged. A unit whose bit of
SYS_RESET_STATUS already reads 1 is left alone. -/
def State.resetUnit (s : State) (u : Nat) : State :=
  if bitAt (s.get F.SYS_RESET_STATUS_STATUS) u then s
  else
    let s1 := (s.put F.SYS_RESET_STATUS_STATUS (s.get F.SYS_RESET_STATUS_STATUS + 2 ^ u)).clearCounters u
    ((((s1.haltUnit u true).dropWrites u).flagIncomplete u).event 0x0110 0 u 0).raise 0

/-- SYS_UNIT_RESET (R575): `v` is the word written. While the field die is off only the label strip is there to be reset. -/
def State.unitReset (s : State) (v : Nat) : State :=
  (resettable.filter (fun u => bitAt v u && (s.fieldOn || u == 15))).foldl State.resetUnit s

/-- A unit leaves its reset or its halt (R94), as its own chapter states. -/
def State.releaseUnit (s : State) (u : Nat) : State :=
  match u with
  | 5 => s.enginesAtMarker
  | 6 => s.siltRelease
  | 7 => (s.zonesRelease).lanesRelease
  | 8 => s.filesAtMarker false
  | 9 => s.boardRelease
  | 10 => s.sveRelease
  | 11 => s.trwRelease
  | 14 => if s.sho.switching then s else s.panelRelease
  | 19 => (List.range 16).foldl (fun s n => if s.chkSt n = 3 then s.chkBegin n else s) s
  | _ => s

/-- Its bit of SYS_RESET_STATUS clears, and its watchdogs start anew (R575, R589). -/
def State.rejoin (s : State) (u : Nat) : State :=
  let st := s.get F.SYS_RESET_STATUS_STATUS
  let s1 := if bitAt st u then s.put F.SYS_RESET_STATUS_STATUS (st - 2 ^ u) else s
  { s1 with tlt := { s1.tlt with
      queues := s1.tlt.queues.map (fun q => if q.consUnit = u then { q with frontSince := s1.now } else q)
      watched := s1.tlt.watched.filter (fun q => q.1 / 256 != u) } }

/-- The domains that hold a unit; of one with several, that of the instance that is never left off (R503). -/
def unitOff (s : State) (u : Nat) : Bool :=
  (u == 18 && s.leftOff 7) || (u == 19 && s.leftOff 8) || (u == 11 && s.leftOff 13)

/-- UNIT_WRITES_SETTLED (R94): before the first epoch after power-up a unit is released as soon as its writes have settled. -/
def State.writesSettled (s : State) (u : Nat) : State :=
  if s.cmt.last ≠ 0 ∨ unitOff s u = true ∨ s.cmt.stopped = true ∨ (s.fieldOn = false ∧ u ≠ 15) then s
  else (s.releaseUnit u).rejoin u

/-! ### Snapshots (R81) -/

/-- What a unit still has to count when it latches: times that run on, and rates (R511, R150, R230, R451). -/
def State.latchExtras (s : State) (u : Nat) : State :=
  match u with
  | 2 => (List.range 64).foldl State.countStall s
  | 5 => ((s.countSet Reg.KLN_SNAP_RATE_K0 (s.engRate 0).floor.toNat)).countSet Reg.KLN_SNAP_RATE_K1 (s.engRate 1).floor.toNat
  | 8 => s.countSet Reg.ROK_SNAP_RATE (s.rokRate / 1000000).floor.toNat
  | 16 => allRanks.foldl (fun s q =>
      if (s.rank q.1 q.2).st = .awake then s else (s.countSleep q.1 q.2).onRank q.1 q.2 (fun k => { k with sleepAt := s.now })) s
  | 17 => s.countHoldover
  | 20 =>
    let s1 := (s.countHot.countEnergy).countMax Reg.THM_SNAP_DUTY_MIN (16 - s.get F.THM_STATUS_DUTY)
    let s2 := (s1.countMax Reg.THM_SNAP_V_MAX (s1.get F.THM_VCORE_REQ_MV)).countMax Reg.THM_SNAP_PEAK
      (s1.getS F.THM_STATUS_TEMP + 65536).toNat
    let s3 := s2.countSet Reg.THM_SNAP_ENERGY (s2.thm.energy / 2560000000)
    { s3 with thm := { s3.thm with energy := s3.thm.energy % 2560000000 } }
  | _ => s

/-- Add a unit's counters to the values latched. -/
def addCounters (u : Nat) (cnt snap : Counters) : Counters :=
  (cnt.filter (fun q => inWindowOf u q.1)).foldl (fun m q => sparseSet (fun _ => 0) m q.1 q.2) snap

/-- A unit latches its snapshot of every epoch before `n` that it has not latched: what it counted goes to the earliest (R81). -/
def State.latchSnap (s : State) (u n : Nat) : State :=
  match s.cmt.epochs.find? (fun e => e.num != n && epochLe e.num n && !e.latched.contains u) with
  | none => s
  | some e =>
    let s1 := (s.latchExtras u).onEpoch e.num (fun x => x)
    let s2 := s1.onEpoch e.num (fun x => { x with snap := addCounters u s1.cnt x.snap })
    let s3 := (s2.onEpoch e.num (fun x => { x with pace := (u, assocGet u 0 s.tlt.paceLast, s.tlt.untimed) :: x.pace })).clearCounters u
    let s4 : State := { s3 with cmt := { s3.cmt with epochs := s3.cmt.epochs.map (fun x =>
      if x.num != n && epochLe x.num n && !x.latched.contains u then { x with latched := u :: x.latched } else x) } }
    if u = 16 then { s4 with mc := { s4.mc with eccLogged := 0 } } else s4

/-! ### Settings (R22, R58) -/

/-- The registers of a unit's window that an epoch's commits wrote, put in force. -/
def State.applyEpoch (s : State) (u : Nat) (e : Epoch) : State :=
  { s with cmt := { s.cmt with
      inForce := e.commits.foldl (fun rf c => applyWrites rf (c.writes.filter (fun q => inWindowOf u q.1))) s.cmt.inForce } }

/-- The overlays that an epoch's commits carried and that were applied (R58). -/
def State.epochOverlays (s : State) (e : Epoch) : List Overlay :=
  match s.sho.run with
  | none => []
  | some im => e.commits.filterMap (fun c => match c.laid with
      | some o => if slice c.overlay 0x30 48 = im.digest then some o else none
      | none => none)

/-- A record's queue carries epoch markers from the commit unit (R619). -/
def Route.carriesMarkers (r : Route) : Bool := r.prodUnit == 4 && (r.consPort == 31 || (r.consUnit == 16 && r.consPort == 1))

/-- Changed credit counts and priorities of the queues of producers that take no markers (R42, R41; log entry 96); in every other queue
they change as the marker enters (`TiltQueue.changed`). -/
def State.applyRoutes (s : State) (own : Nat → Bool) (e : Epoch) : State :=
  (s.epochOverlays e).foldl (fun s o => o.routes.foldl (fun s r =>
    if own r.prodUnit && !r.carriesMarkers then { s with tlt := { s.tlt with queues := setCredits r.queue r.credits r.prio s.tlt.queues } } else s) s) s

/-- The keeper rewrites its copy of the applied structure at an overlay's epoch (R590). -/
def State.keepApplied (s : State) (e : Epoch) : State :=
  if (s.epochOverlays e).isEmpty then s
  else { s with dmp := { s.dmp with applied := s.sho.run, appliedEpoch := e.num } }

/-- Segments of the panel lose their stored content when a setting that forms them changes (R369, R372). -/
def State.panelSettings (s : State) (old : RegFile) : State :=
  if old.get F.PNL_CTRL_GEN ≠ s.live F.PNL_CTRL_GEN ∨ old.get F.PNL_CTRL_SELECT_EN ≠ s.live F.PNL_CTRL_SELECT_EN then s.clearAllSegs
  else s

/-- A unit takes one epoch's items: settings first, then what the epoch's commits carry for it (R22). -/
def State.takeEpoch (s : State) (u : Nat) (e : Epoch) : State :=
  let old := s.cmt.inForce
  let s0 := s.applyEpoch u e
  let s1 : State := { s0 with sys := { s0.sys with unitEpoch := sparseSet (fun _ => 0) s0.sys.unitEpoch u e.num } }
  match u with
  | 7 => (s1.zonesAtMarker e.num).dmrAtMarker e.num
  | 9 => s1.countLate e.num
  | 12 =>
    match ((s1.epochOverlays e).filterMap (·.genlock)).getLast? with
    | some g => s1.setGenlock g
    | none => if old.get F.OUT_PHASE_PHASE_NS ≠ s1.live F.OUT_PHASE_PHASE_NS then s1.phaseRelock else s1
  | 14 => s1.panelSettings old
  | 15 => e.commits.foldl (fun s c => s.labelApply c.label) s1
  | 16 => (s1.epochOverlays e).foldl (fun s o => match o.memp with | some p => s.setMemPolicy p | none => s) s1
  | 17 => e.commits.foldl (fun s c => s.armTriggers c.triggers) s1
  | 18 => if old.get F.AUD_CTRL_RATE ≠ s1.live F.AUD_CTRL_RATE then
      { s1 with aud := { s1.aud with rateFrom := s1.full s1.now / (10 * tickMs) } } else s1
  | 19 => s1.chkMarker old
  | _ => s1

/-- EPOCH_MARKER_CONSUMED: marker `n` reaches unit `u` (R22, R81, R94). The unit catches up with every epoch up to `n`. -/
def State.markerTaken (s : State) (u n : Nat) (popped : List Nat) : State :=
  let s0 := if u = 19 then s.chkBoundary (s.epochAt 19) else s
  let s1 := (s0.tilthBoundary (s.epochAt u) popped).latchSnap u n
  let due := s1.cmt.epochs.filter (fun e => epochLe e.num n && !e.reached.contains u)
  let s2 := due.foldl (fun s e => s.takeEpoch u e) s1
  let s3 : State := { s2 with
    cmt := { s2.cmt with epochs := s2.cmt.epochs.map (fun x =>
      if epochLe x.num n ∧ x.reached.contains u = false then { x with reached := u :: x.reached } else x) }
    sys := { s2.sys with unitEpoch := sparseSet (fun _ => 0) s2.sys.unitEpoch u n } }
  (((s3.releaseUnit u).rejoin u).passMarkers u (due.map (·.num))).dropEpochs

/-- Whether every instance of a unit is halted, as its STATE shows. -/
def State.unitHalted (s : State) (u : Nat) : Bool :=
  match u with
  | 5 => decide (4 ≤ s.engSt 0) && decide (4 ≤ s.engSt 1)
  | 6 => s.bankSt 0 == 4 && s.bankSt 1 == 4
  | 7 => (List.range 8).all (fun n => s.zoneSt n == 4)
  | 8 => s.liveFiles.isEmpty
  | 9 => s.get F.BRD_STATUS_STATE == 0
  | 10 => s.sve.held
  | 11 => s.trwSt == 3
  | 14 => s.pnlSt == 3
  | 19 => (List.range 16).all (fun n => s.chkSt n == 3)
  | _ => false

/-- Work of epochs before n that unit u has not taken yet: in its queues it stands before marker n (R22). The Board lists, the Kiln
decodes, Silt fills, the RRG streams and the Rook ends every band of those epochs first; the Furrow, the link, the panel drive and the
audio carry every frame before that of epoch n; and no unit leaves data before a marker in a queue of its own. A halted unit drops what stands before the marker (R94), and so does the Board with frames whose bands
it can no longer list (log entry 16). -/
def State.behind (s : State) (u n : Nat) : Bool :=
  let unlisted := s.brd.frames.any (fun f => epochBefore f.epoch n && decide (f.listed < bandCount (modeAt f.mode) f.plan))
  let bands := s.brd.bands.filter (fun b => epochBefore b.epoch n)
  if s.unitHalted u then false
  else s.dataBefore u n || match u with
    | 5 => unlisted || bands.any (fun b => !b.kilnDone)
    | 6 => unlisted || bands.any (fun b => !b.released || !b.flatDone || !b.carryDone)
    | 7 => unlisted || bands.any (fun b => b.listed && !b.streamed)
    | 8 => unlisted || !bands.isEmpty
    | 9 => unlisted
    | 12 | 13 | 14 | 18 => s.cmt.epochs.any (fun e => e.num == n && decide (s.frameNo < e.frame))
    | _ => false

/-- EPOCH_MARKER_CONSUMED (R22): the marker at the front of the unit's marker queue, once the unit has taken everything that stands
before it. Frozen units consume nothing (R591). -/
def State.consume (s : State) (u : Nat) : State :=
  if s.cmt.stopped then s
  else match s.tlt.queues.find? (fun q => q.markerQueue && q.consUnit == u) with
    | none => s
    | some q =>
      match q.entries with
      | [] => s
      | x :: _ =>
        if x.marker = 0 ∨ s.behind u x.marker = true then s
        else
          let s1 := s.onQueue q.num (fun q => q.pop s.now)
          let s2 : State := { s1 with tlt := { s1.tlt with queues := settleQueues s.now s1.tlt.queues } }
          s2.markerTaken u x.marker [q.num]

/-! ### Grants (R19) -/

/-- A consumer port of the memory controller whose head entry waits for a slot takes no further entry (R408). -/
def State.portHeld (s : State) (u p : Nat) : Bool := u == 16 && s.mc.held.any (fun h => h.1 == p)

/-- R19: the consumer port takes its next entry, the credit returns to its producer (R18), and markers behind the entry move up (R22).
A fatal freeze stops grants (R591). -/
def State.tilthGrant (s : State) (u p : Nat) : State :=
  match (if s.cmt.stopped || s.portHeld u p then none else s.grantChoice u p) with
  | none => s
  | some (k, l) =>
    let tp := s.tiltPort u p
    let lv := readyLevels (s.feeding u p)
    let starve := lv.map (fun x => (x, if x = l then 0 else assocGet x 0 tp.starve + 1))
    let tp1 : TiltPort := { tp with last := assocSet l (k + 1) tp.last, starve := starve }
    let s1 := s.onQueue k (fun q => q.pop s.now)
    ({ s1 with tlt := { s1.tlt with ports := tp1 :: s1.tlt.ports.filter (fun x => !(x.unit == u && x.port == p)) } } :
      State).settleMarkers

/-! ### Die-edge FIFOs (R23) -/

/-- The event of a FIFO fault of an interface other than the link: no chapter gives its code's low byte, which is not 0 (R13), and its
argument words, so they are free values (R23; log entry 86). -/
def State.fifoEvent (s : State) (u i : Nat) : State :=
  let c := s.free 23
  let a := c.2.free 24
  let b := a.2.free 25
  b.2.event (u * 256 + 1 + c.1 % 255) i a.1 b.1

/-- DIE_EDGE_FIFO_FAULT (R23): the interface unit logs it and handles it as its chapter states (TLK: R350); the others' handling is
not stated, and the fault is kept (log entry 86). -/
def State.fifoFault (s : State) (u i : Nat) : State :=
  let s1 : State := { s with tlt := { s.tlt with fifoFaults := s.tlt.fifoFaults ++ [(u, i)] } }
  if u = 13 then s1.linkFifo (i % 48) else s1.fifoEvent u i

/-! ### Meanings -/

/-- EPOCH_MARKER_CONSUMED (R22). -/
def execEpochMarkerConsumed (t u : Nat) (s : State) : Out := .next (s.whenOn t (fun s => s.consume u))

/-- UNIT_WRITES_SETTLED (R94). -/
def execUnitWritesSettled (t u : Nat) (s : State) : Out := .next ((s.tick t).writesSettled u)

/-- TILTH_GRANT (R19). -/
def execTilthGrant (t u p : Nat) (s : State) : Out := .next ((s.tick t).tilthGrant u p)

/-- DIE_EDGE_FIFO_FAULT (R23). -/
def execDieEdgeFifoFault (t u i : Nat) (s : State) : Out := .next (s.whenOn t (fun s => s.fifoFault u i))

/-- SYS_UNIT_RESET (R575). -/
def execSysUnitReset (t v : Nat) (s : State) : Out := .next (s.whenBar t (fun s => s.unitReset v))

end Sys2Proof.Machine
end

