-- ==== Sys2Proof/Machine/Switch.lean ====
section
/-!
DEFINITION. The switch to a full image (R54, R56, R309, R505, R590), and the resets of host-facing state (R96, R567).
-/

namespace Sys2Proof.Machine

/-! ### The switch -/

/-- The pipeline has drained: no band, no frame and no Tilth entry is left (R54). -/
def State.drained (s : State) : Bool :=
  s.brd.bands.isEmpty && s.brd.frames.isEmpty && s.tlt.queues.all (fun q => q.entries.isEmpty && q.owed.isEmpty)

/-- SWITCH_START (R53, R54): from the starting latch line on the tiles hold. The frame sealed there is the first one held (log
entry 89). -/
def State.switchStart (s : State) : State :=
  let s1 : State := { s with sho := { s.sho with switching := true, held := 1 } }
  (s1.put F.SYS_IMG_STATUS_HOLD_FRAMES 1).panelHalt

/-- A further frame passes unsealed during the switch. -/
def State.switchHold (s : State) : State :=
  let n := s.sho.held + 1
  ({ s with sho := { s.sho with held := n } } : State).put F.SYS_IMG_STATUS_HOLD_FRAMES (min n 255)

/-- What goes off with domain `k` (R503, R505): its instances halt. -/
def State.domainHalt (s : State) (k : Nat) : State :=
  match k with
  | 6 => (s.portLost 2).portLost 3
  | 7 => s.audReset
  | 8 => s.chkHalt
  | 12 => (s.pipeHalt 2).pipeHalt 3
  | 13 => s.trwHalt
  | 15 => (if s.engSt 1 < 4 then s.engineHalt 1 false else s).onEngine 1 (fun g => { g with rates := [] })
  | 19 => ((List.range 16).drop 8).foldl (fun s n => if s.fileSt n = 2 then s else s.fileHalt n) s
  | _ => s

/-- The domains that a plan leaves on, as THM_PD shows them. -/
def PowerPlan.onMask (p : PowerPlan) : Nat :=
  (List.range 24).foldl (fun a k => if (p.domains.getD k ⟨false, 0, 0⟩).leaveOff then a else a + 2 ^ k) 0

/-- R505: domains go off in reverse order, and on in forward order, before the units take the new topology. -/
def State.takePower (s : State) (p : PowerPlan) : State :=
  let off := (List.range 24).reverse.filter (fun k => s.domainOn k && (p.domains.getD k ⟨false, 0, 0⟩).leaveOff)
  ((off.foldl State.domainHalt s).put F.THM_PD_ON p.onMask).put F.THM_POWER_BUDGET_DW p.budget

/-- A staged field takes a value as if a commit had carried it (R309). -/
def State.asCommitted (s : State) (f : Fld) (v : Nat) : State :=
  let s1 := s.put f v
  { s1 with cmt := { s1.cmt with
      takenRegs := s1.cmt.takenRegs.put f v, sealedRegs := s1.cmt.sealedRegs.put f v, inForce := s1.cmt.inForce.put f v } }

/-- OUT_MODE of the first image: the lowest mode that passes, with ROW0 0 (R309). -/
def State.firstOutMode (s : State) (im : Image) : State :=
  match firstMode im s.phaseNs with
  | none => s
  | some m =>
    let s1 := (s.asCommitted F.OUT_MODE_MODE m).asCommitted F.OUT_MODE_ROW0 0
    { s1 with out := { s1.out with mode := m, row0 := 0, nmode := m, nrow0 := 0 } }

/-- Link groups under a panel: at the first image every group that is not empty is to be found; later those that were empty, and
a group now empty is off (R354). -/
def State.takeGroups (s : State) (first : Bool) (old : List Nat) : State :=
  if first then s.linkStart
  else
    let s1 := ((List.range 8).filter (fun n => !s.panel.live.contains n && s.tlkSt n != 0)).foldl (fun s n => s.setGroup n 0) s
    s1.detectGroups (s1.panel.live.filter (fun n => !old.contains n))

/-- The identity of the running image in its registers (R56, R64). -/
def State.showImage (s : State) (im : Image) : State :=
  (List.range 12).foldl (fun s i => s.put (F.SYS_IMG_DIGEST_DIGEST.nth i) (fieldLE im.digest (4 * i) 4))
    (s.put F.SYS_IMG_SERIAL_SERIAL im.serial)

/-- Ranges of device memory with their poison, as they stand in `old`, are written to other places. -/
def State.moveRange (s old : State) (src dst n : Nat) : State :=
  if src = dst then s
  else (List.range (n / 64)).foldl (fun t k => if old.blockPoison (src / 64 + k) then t.setPoison (dst / 64 + k) true else t)
    (s.write dst (old.read src n))

/-- The slices that an ALLOCATION region touches, as bits (R418). -/
def State.heldSlices (s : State) : Nat :=
  (List.range 16).foldl (fun a k =>
    if ((s.sho.run.map (·.regions)).getD []).any (fun r => overlaps (k * 6241124352) 6241124352 r.base r.size) then a + 2 ^ k else a) 0

/-- The bits of those slices are held at 1 (R418). -/
def State.holdSlices (s : State) : State := s.put F.MEM_PASR_KEEP_KEEP (Nat.lor (s.get F.MEM_PASR_KEEP_KEEP) s.heldSlices)

/-- R190: the registry sets and the live registry move with their regions; what moves is their content before the switch, wherever old
and new places overlap. -/
def State.moveRegistry (s : State) (im : Image) : State :=
  let base (id : Nat) : Option Nat := (im.regions.find? (fun r => r.id == id)).map (·.base)
  [(1, 8 * regStride), (2, 2 * regStride)].foldl (fun t q =>
    match s.region q.1, base q.1 with
    | some r, some b => t.moveRange s r.base b q.2
    | _, _ => t) s

/-- SWITCH_COMPLETE (R54, R56): the units have drained and take the new topology, and the new structure is in force. -/
def State.switchComplete (s : State) : State :=
  match s.sho.next with
  | none => s
  | some im =>
    let first := s.sho.run.isNone
    if s.sho.stage ≠ .switch ∨ (first = false ∧ s.sho.switching = false) ∨ s.drained = false ∨ s.cmt.stopped = true then s
    else
      let old := if first then [] else s.panel.live
      let s1 := s.takePower im.power
      let s2 : State := { s1.moveRegistry im with
        sho := { s1.sho with run := some im, next := none, switching := false, firstAt := if first then s.now else s1.sho.firstAt }
        tlt := { s1.tlt with queues := queuesOf im, ports := [] }
        dmp := { s1.dmp with applied := some im, appliedEpoch := 0 }
        cmt := { s1.cmt with checking := s1.cmt.checking.map (fun c => { c with board := none }) } }
      let s3 := (((s2.showImage im).put F.SYS_STATUS_IMAGE 1).put F.SYS_IMG_STATUS_ACTIVE 1).setStage .done
      let s4 := (s3.put F.SYS_IMG_STATUS_DONE 1).raise 0
      let s5 := ((if first then s4.firstOutMode im else s4).setMemPolicy im.memp).holdSlices
      let s6 := (if s5.out.gen = some im.genlock then s5 else s5.setGenlock im.genlock).takeGroups first old
      if first then ((((s6.put F.SYS_IMG_STATUS_HOLD_FRAMES 0).fullTolerance).zonesFirst).logFlush).timeBaseMoved false
      else s6.zonesSwitch old

/-! ### Function-level reset (R96, R567) -/

/-- HST registers at their reset values; after a function-level reset the link is still up, and HST_LINK shows it (log entry
90). -/
def State.hstRegsReset (s : State) (keepLink : Bool) : State :=
  { s with
    regs := s.regs.filter (fun q => !inWindowOf 2 q.1 || (keepLink && q.1 == Reg.HST_LINK))
    lowPend := s.lowPend.filter (fun q => !inWindowOf 2 q.1), hiLatch := s.hiLatch.filter (fun q => !inWindowOf 2 q.1) }

/-- R96: commits lose their completions; the one being checked is dropped, and the shadow returns to the last sealed epoch. -/
def State.commitsReset (s : State) : State :=
  let s1 : State := { s with cmt := { s.cmt with
    checking := none, recheck := [], waiting := s.cmt.waiting.map (fun c => { c with silent := true })
    epochs := s.cmt.epochs.map (fun e => { e with commits := e.commits.map (fun c => { c with silent := true }) }) } }
  ((s1.overlayOver).discard).cmtShow

/-- FUNCTION_LEVEL_RESET (R567): `cause` 1 FLR, 2 hot reset, 3 PERST_N, 4 link down, which is complete, and logged as HST_FLR, when the link
returns. -/
def State.flr (s : State) (cause : Nat) : State :=
  let s1 := ((List.range 64).foldl State.countStall s).hstRegsReset (cause == 1)
  let s2 : State := { s1 with hst := { s1.hst with
    rings := s1.hst.rings.map (fun r => { next := r.next }), msix := [], pba := [], copies := [], d3 := false, fetch := { unit := 2, port := 0 }
    downAt := s1.hst.downAt || cause == 4 } }
  let s3 := ((s2.put F.SYS_FR_SIZE_ENTRIES 0).put F.DBG_TRACE_CTRL_EN 0).put F.DBG_TRACE_STATUS_STATE 0
  let s4 := if cause = 4 then s3.event 0x0221 0 0 0 else s3
  let s5 := (s4.shoAbort).commitsReset.endSession
  if cause = 4 then s5 else s5.event 0x0222 0 cause 0

/-! ### Meanings -/

/-- SWITCH_COMPLETE (R54). -/
def execSwitchComplete (t : Nat) (s : State) : Out := .next (s.whenOn t State.switchComplete)

/-- FUNCTION_LEVEL_RESET (R567). -/
def execFunctionLevelReset (t cause : Nat) (s : State) : Out :=
  .next (s.whenOn t (fun s => if 1 ≤ cause ∧ cause ≤ 4 then s.flr cause else s))

end Sys2Proof.Machine
end

