-- ==== Sys2Proof/Machine/Recovery.lean ====
section
/-!
DEFINITION. Firmware (R583 to R585), the watchdogs (R588, R589), and the fatal freeze with its dump, summary, restore and resume
(R591 to R598).
-/

namespace Sys2Proof.Machine

/-! ### Firmware (R583 to R585) -/

/-- The header and trailer of a firmware image of `len` bytes, and its target (R583). -/
def fwFormatOk (b : List Nat) (len stepping : Nat) : Bool :=
  let n := fieldLE b 0x0C 4
  slice b 0 4 == [0x50, 0x59, 0x46, 0x57] && b.getD 4 0 == 1 && decide (b.getD 5 0 ≤ 3) && fieldLE b 6 2 == 0 &&
  decide (4096 ≤ n) && decide (n ≤ 1048576) && decide (n % 16 = 0) && len == 128 + n + 196 &&
  (slice b 0x12 14).all (· == 0) && fieldLE b 0x2C 4 == 0 && (slice b 0x40 60).all (· == 0) &&
  fieldLE b 0x7C 4 == crc32c (slice b 0 0x7C) && slice b (128 + n + 97) 3 == [0, 0, 0] &&
  decide (b.getD 0x10 0 ≤ stepping) && (b.getD 0x11 0 == 0xFF || decide (stepping ≤ b.getD 0x11 0))

/-- FIRMWARE_LOAD (R584): the image is copied into the bank that does not run. While the memory is not trained none is loaded (R415). -/
def State.fwLoad (s : State) : State :=
  if s.trained = false then s
  else if s.flag F.SYS_FW_STATUS_BUSY then s.event 0x0164 0 0 0
  else
    let b := s.read (s.get F.SYS_FW_ADDR_ADDR * 4096) (s.get F.SYS_FW_LEN_LEN)
    let s1 := s.noteRead 15 (s.get F.SYS_FW_ADDR_ADDR * 4096) (s.get F.SYS_FW_LEN_LEN)
    ({ s1 with fw := { s1.fw with load := some b } } : State).put F.SYS_FW_STATUS_BUSY 1

/-- The checks of R584 in the order of R52: 0, or the code of the first to fail. -/
def State.fwCode (s : State) (b : List Nat) (sigOk tagOk : Bool) : Nat :=
  if fwFormatOk b b.length (s.get F.SYS_ID_STEPPING) = false then 0x0160
  else if s.secOk = false then 0x0165
  else if sigOk = false ∨ s.rootSigned b = false then 0x0161
  else if fieldLE b 8 4 < s.minSerial 1 then 0x0162
  else if tagOk = false ∨ (s.otpValue (2 + b.getD 5 0)).isNone = true then 0x0163
  else 0

/-- The other bank runs from now on: its serial shows, and the load has ended (R584). -/
def State.fwRun (s : State) : State :=
  let n := 1 - s.fw.cur
  let s1 : State := { s with fw := { s.fw with cur := n, ready := false } }
  ((((s1.put F.SYS_FW_SERIAL (s1.fw.banks.getD n {}).serial).put F.SYS_FW_STATUS_RUNNING 1).put F.SYS_FW_STATUS_BUSY 0).put
    F.SYS_FW_STATUS_DONE 1).raise 0

/-- A firmware load is refused: code, DONE, the event and vector 0 (R584). -/
def State.fwRefuse (s : State) (c : Nat) : State :=
  let s0 : State := { s with fw := { s.fw with load := none } }
  ((((s0.put F.SYS_FW_STATUS_CODE c).put F.SYS_FW_STATUS_BUSY 0).put F.SYS_FW_STATUS_DONE 1).event c 0 0 0).raise 0

/-- FIRMWARE_CHECKED (R584): `sigOk` and `tagOk` are the security module's results. -/
def State.fwChecked (s : State) (sigOk tagOk : Bool) : State :=
  match s.fw.load with
  | none => s
  | some b =>
    let s0 : State := { s with fw := { s.fw with load := none } }
    let c := s.fwCode b sigOk tagOk
    if c ≠ 0 then
      s.fwRefuse c
    else
      let bank : FwBank := { bytes := b, serial := fieldLE b 8 4, digest := Config.sha384 b }
      let s1 : State := { s0 with fw := { s0.fw with banks := modAt s0.fw.banks (1 - s0.fw.cur) (fun _ => bank) } }
      if s1.flag F.SYS_FW_STATUS_RUNNING then { s1 with fw := { s1.fw with ready := true } } else s1.fwRun

/-- FIRMWARE_SWITCH (R584): after the governor run in hand the core restarts in the new bank. -/
def State.fwSwitch (s : State) : State := if s.fw.ready then s.fwRun else s

/-- CORE_WATCHDOG (R585): the running bank is checked and restarted, or found bad. -/
def State.coreWatchdog (s : State) (good : Bool) : State :=
  if s.flag F.SYS_FW_STATUS_RUNNING = false then s
  else if good then s.event 0x1720 0 0 0
  else (s.put F.SYS_FW_STATUS_RUNNING 0).raiseFatal 5 0

/-! ### Watchdogs (R588, R589) -/

/-- Documented waits during which the unit watchdog counts no time (R588): ROK WAIT, CHAIN_WAIT, a Silt bank waiting on the
Rook. -/
def State.unitWaits (s : State) (u i : Nat) : Bool :=
  match u with
  | 5 => s.engSt i == 3
  | 6 => s.bankSt i == 2
  | 8 => s.rok.waitAt.isSome
  | _ => false

/-- Neither a freeze nor a switch is in progress (R588). -/
def State.watching (s : State) : Bool := s.get F.DMP_STATUS_STATE == 0 && !s.sho.switching && !s.fw.ready

/-- The key under which the watchdog counts for an instance: the instances whose waits differ count apart. -/
def watchKey (u i : Nat) : Nat := if u = 5 ∨ u = 6 then 256 * u + i else 256 * u

/-- An instance is HALTED: a Kiln engine and a Silt bank by themselves, any other with its unit. -/
def State.instHalted (s : State) (u i : Nat) : Bool :=
  if u = 5 then decide (4 ≤ s.engSt i) else if u = 6 then s.bankSt i == 4 else s.unitHalted u

/-- The watchdog counts no time for an instance now (R588). -/
def State.watchPaused (s : State) (u i : Nat) : Bool := s.instHalted u i || s.unitWaits u i || !s.watching

/-- An entry waits at the front of a queue for its consumer (R588, R589): a marker in a data queue, which waits for the unit's own
marker, does not count. -/
def TiltQueue.waits (q : TiltQueue) : Bool := q.ready || (q.markerQueue && !q.entries.isEmpty)

/-- The stamp since which an entry has waited at a consumer port of a unit, none where none waits. -/
def State.waitSince (s : State) (u : Nat) : Option Nat :=
  s.tlt.queues.foldl (fun a q =>
    if q.consUnit = u ∧ q.waits = true then some (match a with | some f => min f q.frontSince | none => q.frontSince)
    else a) none

/-- What the watchdog has counted for an instance up to now, in ticks: up to the last pace window, and since then while it is
not paused (R588; log entry 14). -/
def State.watchedFor (s : State) (u i : Nat) : Nat :=
  match s.waitSince u with
  | none => 0
  | some f => assocGet (watchKey u i) 0 s.tlt.watched + (if s.watchPaused u i then 0 else s.now - max f s.tlt.windowAt)

/-- The watchdog's counts at the close of a pace window: a unit that counted a handshake, or at which nothing waits, starts anew
(R588). -/
def State.watchCounts (s : State) (counts : List (Nat × Nat)) : List (Nat × Nat) :=
  (resettable.flatMap (fun u => if u = 5 ∨ u = 6 then [(u, 0), (u, 1)] else [(u, 0)])).filterMap (fun q =>
    let n := if assocGet q.1 0 counts = 0 then s.watchedFor q.1 q.2 else 0
    if n = 0 then none else some (watchKey q.1 q.2, n))

/-- R25: a 1 µs window closes; each unit's 24-bit saturating count is formed, and the unit watchdog reads it (R588). -/
def State.paceWindow (s : State) (counts : List (Nat × Nat)) : State :=
  { s with tlt := { s.tlt with
      paceLast := counts.map (fun p => (p.1, min p.2 0xFFFFFF))
      windowAt := s.now
      watched := s.watchCounts counts
      untimed := !s.domainOn 5 } }

/-- UNIT_WATCHDOG (R588): unit `u`, instance `i`, has had an entry waiting for UNIT_MS with a pace of 0. -/
def State.unitWatchdog (s : State) (u i : Nat) : State :=
  let ms := s.get F.DMP_WDOG_UNIT_MS
  let waiting := s.tlt.queues.any (fun q => q.consUnit == u && q.waits && decide (q.frontSince + ms * tickMs ≤ s.now))
  if ms = 0 ∨ resettable.contains u = false ∨ waiting = false ∨ assocGet u 0 s.tlt.paceLast ≠ 0 ∨
      s.watchedFor u i < ms * tickMs ∨ s.watchPaused u i = true ∨ s.flag F.SYS_FW_STATUS_RUNNING = false then s
  else
    let again := s.dmp.hung.any (fun q => q.1 == u && q.2.1 == i && decide (s.now < q.2.2 + tickS))
    let s1 := s.event 0x1714 i u i
    if again then s1
    else
      ({ s1 with dmp := { s1.dmp with hung := (u, i, s.now) :: s1.dmp.hung.filter (fun q => !(q.1 == u && q.2.1 == i)) } } :
        State).resetUnit u

/-- TILTH_WATCHDOG (R589 cause 1): no entry has left queue `k` for TILTH_MS while its consumer was not halted. -/
def State.tilthWatchdog (s : State) (k : Nat) : State :=
  match s.queue k with
  | none => s
  | some q =>
    if q.waits = true ∧ s.unitHalted q.consUnit = false ∧ s.get F.DMP_STATUS_STATE = 0 ∧ s.sho.switching = false ∧
        q.frontSince + s.get F.DMP_WDOG_TILTH_MS * tickMs ≤ s.now then s.raiseFatal 1 k
    else s

/-! ### Freeze (R591, R594) -/

/-- Units that a freeze stops (R591). -/
def frozenUnits : List Nat := [5, 6, 7, 8, 9, 10, 11, 19]

/-- The bands of the frame in progress of which a row has left, and its bands in all (R593). -/
def State.bandsSent (s : State) : Nat × Nat :=
  match s.planFor s.out.mode with
  | none => (0, 0)
  | some p =>
    let all := bandCount (modeAt s.out.mode) p
    (min all (ceilDiv s.out.line (max 1 p.bandRows)), all)

/-- The steps of a report whose frame sent `n` of `all` bands: the others count as step 4 (R593). -/
def RepCount.cut (r : RepCount) (n all : Nat) : RepCount :=
  let kept := (r.order.reverse ++ List.replicate n 4).take n ++ List.replicate (all - n) 4
  { r with order := kept.reverse, steps := (List.range 5).map (fun k => kept.count k) }

/-- The epoch whose frame is being scanned out reports what it never sent as step 4, with INCOMPLETE (R593). -/
def State.cutReport (s : State) : State :=
  let e := s.out.epoch
  if e = 0 ∨ s.out.running = false ∨ s.cmt.epochs.any (fun x => x.num == e && !x.published) = false then s
  else
    let n := s.bandsSent
    (s.onReport e (fun r => r.cut n.1 n.2)).onEpoch e
      (fun x => { x with incomplete := if x.incomplete.contains 8 then x.incomplete else 8 :: x.incomplete })

/-- The commit that was being checked is checked again after resume (R96). -/
def State.commitsFreeze (s : State) : State :=
  let back : List Commit := match s.cmt.checking with
    | some c => [{ c with board := none, overlayCode := none, overlay := [], plain := [] }]
    | none => []
  (({ s with cmt := { s.cmt with stopped := true, checking := none, recheck := back ++ s.cmt.recheck } } : State).overlayOver).cmtShow

/-- What stops (R591). -/
def State.freezeUnits (s : State) : State :=
  let s1 := (frozenUnits.foldl (fun s u => s.haltUnit u false) s).panelStop
  { s1 with brd := { s1.brd with bands := [], frames := [] } }

/-- Channels lost in operation train again (R420, R592). -/
def State.restoreStart (s : State) : State :=
  (List.range 24).foldl (fun s c =>
    if (s.chan c).st = .failed ∧ (s.chan c).lostInService = true then
      (s.onChan c (fun x => { x with fails := 0, driftAt := none })).setChan c .training
    else s) s

/-- A fatal cause (R591, R594). The freeze follows the event by one tick, so that DMP_FATAL is stamped before every entry of
the recovery (R593; log entry 91). -/
def State.fatal (s : State) (cause detail : Nat) : State :=
  if s.get F.DMP_STATUS_STATE ≠ 0 then
    let s1 := (s.event 0x1710 0 (cause + 2 ^ 31) detail).put F.DMP_COUNT_COUNT (sat32 (s.get F.DMP_COUNT_COUNT + 1))
    if s.get F.DMP_STATUS_STATE = 4 then
      ({ s1 with dmp := { s1.dmp with restored := false } } : State).restoreStart
    else s1
  else
    let seq := s.operatingCells.getD 2 0 + 1
    let s1 := (((((s.event 0x1710 0 cause detail).put F.DMP_STATUS_CAUSE cause).put F.DMP_STATUS_STATE 1).put
      F.DMP_SEQ_DUMP_SEQ seq).put F.DMP_COUNT_COUNT (sat32 (s.get F.DMP_COUNT_COUNT + 1)))
    let s2 := (s1.put F.CMT_STATUS_RECOVERING 1).put F.SYS_STATUS_RECOVERING 1
    let s3 : State := { s2 with dmp := { s2.dmp with
      at_ := s.now, fullAt := s.full s.now, cause := cause, detail := detail, sealedNo := s.get F.CMT_EPOCH_SEALED_EPOCH
      retired := s.get F.CMT_EPOCH_RETIRED_EPOCH, frame := s.frameNo, stuck := if cause = 1 then [detail] else []
      restored := false, heldFrames := 0, queues := s.tlt.queues, waiting := s.cmt.waiting, banks := s.slt.banks
      halted := (upFrom 1 24).filter s.unitHalted } }
    let s4 := (({ s3 with now := s.now + 1 } : State).cutReport.freezeUnits).commitsFreeze
    { s4 with dmp := { s4.dmp with regs := s4.regs } }

/-- A load or an overlay of the applied structure is in progress (R589). -/
def State.structureBusy (s : State) : Bool :=
  s.sho.overlay || (s.sho.stage != .idle && s.sho.stage != .done && s.sho.stage != .refused)

/-- FATAL_FREEZE: `cause` 0 takes the oldest cause raised; 2, 4 and 5 are detected by the DMP itself (R589). -/
def State.fatalFreeze (s : State) (cause detail : Nat) : State :=
  if cause = 0 then
    match s.sys.fatal with
    | [] => s
    | q :: r => ({ s with sys := { s.sys with fatal := r } } : State).fatal q.1 q.2
  else if cause = 4 ∧ s.structureBusy = true then s
  else if cause = 2 ∨ cause = 4 ∨ cause = 5 then s.fatal cause (if cause = 4 then 0 else detail)
  else s

/-- FORCE (R589 cause 6). -/
def State.forceFatal (s : State) : State := s.raiseFatal 6 0

/-! ### Capture (R592, R595, R596) -/

/-- The register image of a unit: each word of its window as a read would have returned it at the freeze (R595). -/
def State.regImage (s : State) (u : Nat) : List Nat :=
  let f : State := { s with regs := s.dmp.regs, now := s.dmp.at_ }
  (List.range 65536).flatMap (fun i => leBytes 4 (f.peek ((u - 1) * 0x40000 + 4 * i)))

/-- One section of a dump: SECTION_ID, READ_ERR, ELEM, RAW or not, and its original bytes. -/
structure DumpSection where
  id : Nat
  err : Bool
  elem : Nat
  raw : Bool
  bytes : List Nat
deriving DecidableEq, Repr

/-- Units of 4,096 bytes of a list (R141). -/
def units4k : Nat → List Nat → List (List Nat)
  | 0, _ => []
  | k + 1, b => if b.isEmpty then [] else b.take 4096 :: units4k k (b.drop 4096)

/-- The element code of a unit: that of its section, or 0 where the unit is no whole number of elements (R141). -/
def unitElem (elem : Nat) (u : List Nat) : Nat := if u.length % 2 ^ elem = 0 then elem else 0

/-- The bytes that a section stores (R592, R595). -/
def DumpSection.stored (d : DumpSection) : List Nat :=
  if d.raw then d.bytes
  else (units4k (d.bytes.length / 4096 + 1) d.bytes).flatMap (fun u => (loamUnit (unitElem d.elem u) u).1)

/-- The queue table of section 0x0302: FIRST comes from the scan of the store, the rest from the queues at the event (R595). -/
def State.queueTable (s : State) (first : List Nat) : List Nat :=
  (List.range 512).flatMap (fun k =>
    match s.dmp.queues.find? (fun q => q.num == k) with
    | none => List.replicate 16 0
    | some q =>
      let age := match q.entries with
        | e :: _ => (s.dmp.at_ - e.stamp) / tickUs
        | [] => 0
      leBytes 4 (first.getD k 0) ++ leBytes 4 q.entries.length ++ leBytes 4 (q.granted - q.entries.length) ++ leBytes 4 (min age 0xFFFFFFFF))

/-- IDs, lengths and ELEM of the sections after the register images, in directory order (R595). -/
def storeSections : List (Nat × Nat × Nat) :=
  [(0x0301, 4194304, 3), (0x0302, 8192, 2), (0x0401, 16384, 2), (0x0601, 25165824, 3), (0x0602, 25165824, 3), (0x0801, 65536, 2),
   (0x0C01, 35389440, 0), (0x1001, 65536, 2), (0x1701, 18552, 0)]

/-- A Silt bank's 24 MiB as they stood at the freeze: each tile's samples in its granules (R27, R162); where no tile lies, what the
scan read. -/
def SiltBank.image (b : SiltBank) (scan : List Nat) : List Nat :=
  b.tiles.foldl (fun m t => t.data.zipIdx.foldl (fun m q =>
    putBytes m (4096 * b.granule (t.place q.2).1 + 8 * (t.place q.2).2) (leBytes 8 q.1)) m) scan

/-- The applied structure as bytes (R590): its header, whose inner layout is not given, is the 64 bytes `head`; then its records. -/
def State.structureBytes (s : State) (head : List Nat) : List Nat :=
  match s.dmp.applied with
  | some im => slice head 0 64 ++ im.records
  | none => head

/-- The sections of a dump in directory order; `scan` holds what the scan path read of each store: READ_ERR and bytes (R592; log
entry 94). The Silt banks hold State's tiles (R27). -/
def State.dumpSections (s : State) (scan : List (Bool × List Nat)) : List DumpSection :=
  (upFrom 1 23).map (fun u => ⟨u * 256, false, 2, u == 5, s.regImage u⟩) ++
  (storeSections.zipIdx.map (fun q =>
    let r := scan.getD q.2 (false, [])
    let b := if q.1.1 = 0x0302 then s.queueTable ((List.range 512).map (fun k => fieldLE r.2 (4 * k) 4))
      else if q.1.1 = 0x0601 ∨ q.1.1 = 0x0602 then (s.dmp.banks.getD (q.1.1 - 0x0601) {}).image (slice r.2 0 q.1.2.1)
      else if q.1.1 = 0x1701 then (s.structureBytes r.2).take q.1.2.1 else slice r.2 0 q.1.2.1
    ⟨q.1.1, r.1, q.1.2.2, false, b⟩))

/-- Place sections from an offset on: each with its offset and stored bytes. -/
def placeSections : Nat → List DumpSection → List (Nat × DumpSection × List Nat)
  | _, [] => []
  | o, d :: r =>
    let b := d.stored
    (o, d, b) :: placeSections (alignUp (o + b.length) 4096) r

/-- A directory entry (R595). -/
def dumpEntry (q : Nat × DumpSection × List Nat) : List Nat :=
  let d := q.2.1
  leBytes 2 d.id ++ [0, if d.raw then 0 else 1] ++ leBytes 4 (b2n d.err) ++ leBytes 4 q.1 ++ leBytes 4 q.2.2.length ++
  leBytes 4 d.bytes.length ++ [if d.raw then 0 else d.elem, 0, 0, 0] ++ leBytes 4 (crc32c d.bytes) ++ [0, 0, 0, 0]

/-- The dump header (R595). -/
def State.dumpHeader (s : State) (complete : Bool) (used : Nat) : List Nat :=
  let im := s.dmp.applied
  let h := [0x50, 0x59, 0x44, 0x4D, 1, b2n complete] ++ leBytes 2 32 ++ leBytes 4 (s.get F.DMP_SEQ_DUMP_SEQ) ++
    leBytes 2 s.dmp.cause ++ [0, 0] ++ leBytes 8 (fullSec s.dmp.fullAt % 2 ^ 48) ++ leBytes 4 (fullNs s.dmp.fullAt) ++
    leBytes 4 s.dmp.detail ++ leBytes 4 s.dmp.sealedNo ++ leBytes 4 s.dmp.retired ++ leBytes 8 s.dmp.frame ++
    [s.get F.SYS_ID_STEPPING, 0, 0, 0] ++ leBytes 4 (s.get F.SYS_FW_SERIAL) ++ leBytes 4 ((im.map (·.serial)).getD 0) ++
    leBytes 4 used ++ slice ((im.map (·.digest)).getD []) 0 48 ++ List.replicate 140 0
  h ++ leBytes 4 (crc32c h)

/-! ### Summary (R597) -/

/-- The STATE field and the first status register of each unit 0x01 to 0x18, where it has them (log entry 95). -/
def statusOf (u : Nat) : Option Fld × Option Nat :=
  match u with
  | 1 => (none, some Reg.SYS_STATUS)
  | 2 => (some F.HST_RING_STATUS_STATE, some Reg.HST_RING_STATUS)
  | 4 => (none, some Reg.CMT_STATUS)
  | 5 => (some F.KLN_STATUS_K0_STATE, some Reg.KLN_STATUS)
  | 6 => (some F.SLT_BANK_A_STATE, some Reg.SLT_BANK)
  | 7 => (some F.RRG_ZONE_STATUS_STATE, some Reg.RRG_ZONE_STATUS)
  | 8 => (some F.ROK_STATUS_F_STATE, some Reg.ROK_STATUS)
  | 9 => (some F.BRD_STATUS_STATE, some Reg.BRD_STATUS)
  | 10 => (some F.SVE_STATUS_P_STATE, some Reg.SVE_STATUS)
  | 11 => (some F.TRW_STATUS_STATE, some Reg.TRW_STATUS)
  | 12 => (some F.OUT_LOCK_STATE, some Reg.OUT_LOCK)
  | 13 => (some F.TLK_GROUP_STATUS_STATE, some Reg.TLK_GROUP_STATUS)
  | 14 => (some F.PNL_STATUS_STATE, some Reg.PNL_STATUS)
  | 15 => (some F.LBL_STATUS_STATE, some Reg.LBL_STATUS)
  | 16 => (some F.MEM_CHAN_STATUS_STATE, some Reg.MEM_STATUS)
  | 17 => (some F.TIM_STATUS_TB_STATE, some Reg.TIM_STATUS)
  | 18 => (some F.AUD_STATUS_IN_STATE, some Reg.AUD_STATUS)
  | 19 => (some F.CHK_STATUS_STATE, some Reg.CHK_STATUS)
  | 20 => (none, some Reg.THM_STATUS)
  | 21 => (none, some Reg.NVS_STATUS)
  | 22 => (some F.SEC_STATUS_STATE, some Reg.SEC_STATUS)
  | 23 => (some F.DMP_STATUS_STATE, some Reg.DMP_STATUS)
  | 24 => (some F.DBG_TRACE_STATUS_STATE, some Reg.DBG_TRACE_STATUS)
  | _ => (none, none)

/-- The 16 bytes of a unit in the summary, from the registers at the freeze. -/
def State.summaryUnit (s : State) (u : Nat) : List Nat :=
  let q := statusOf u
  leBytes 4 ((q.1.map s.dmp.regs.get).getD 0) ++ leBytes 4 ((q.2.map s.dmp.regs.rd).getD 0) ++
  leBytes 4 (bitsOf (s.dmp.regs.get F.SYS_RESET_STATUS_STATUS) u u) ++ [0, 0, 0, 0]

/-- The 8 bytes of a queue in the summary. -/
def State.summaryQueue (s : State) (k : Nat) : List Nat :=
  match s.dmp.queues.find? (fun q => q.num == k) with
  | none => List.replicate 8 0
  | some q =>
    let age := match q.entries with
      | e :: _ => (s.dmp.at_ - e.stamp) / tickUs
      | [] => 0
    leBytes 3 q.entries.length ++ [1 + 2 * b2n (s.dmp.halted.contains q.consUnit) + 4 * b2n (s.dmp.stuck.contains k)] ++
    leBytes 4 (min age 0xFFFFFFFF)

/-- The payload of the DUMP_SUMMARY record (R597). -/
def State.summaryBytes (s : State) : List Nat :=
  let b := slice s.dmp.header 0 256 ++ slice s.dmp.logTail.flatten 0 2048 ++ (upFrom 1 24).flatMap s.summaryUnit ++
    (List.range 512).flatMap s.summaryQueue ++ List.replicate 1404 0
  b ++ leBytes 4 (crc32c b)

/-- The DMP enters SUMMARY and asks for the record (R592, R597). -/
def State.summaryStart (s : State) : State :=
  let s1 := s.put F.DMP_STATUS_STATE 3
  (s1.nvsWrite .dump 1 0x0040 (s.get F.DMP_SEQ_DUMP_SEQ % 4) true false s1.summaryBytes).2

/-- CAPTURE_START (R592, R596): the firmware is ready. Before an image there is no region to capture into (log entry 93). -/
def State.captureStart (s : State) : State :=
  if s.get F.DMP_STATUS_STATE ≠ 1 ∨ s.flag F.SYS_FW_STATUS_RUNNING = false then s
  else
    let s0 : State := { s with dmp := { s.dmp with header := s.dumpHeader false 0 } }
    if s.flag F.DMP_CTRL_KEEP = true ∧ s.flag F.DMP_STATUS_VALID = true then (s0.event 0x1712 0 0 0).summaryStart
    else if (s.region 5).isNone then s0.summaryStart
    else
      let s1 := s.put F.DMP_STATUS_STATE 2
      let s2 := [0, 1].foldl (fun s e => if s.engSt e = 4 ∧ (e = 0 ∨ s.leftOff 15 = false) then s.setEng e 5 else s) s1
      let j := fwJob 1 0 0 (s.regionBase 5) (((s.region 5).map (·.size)).getD 0)
      (s2.pushFw j).pushFw j

/-- CAPTURE_COMPLETE (R592, R595): the sections are written, then the header. -/
def State.captureComplete (s : State) (scan : List (Bool × List Nat)) : State :=
  if s.get F.DMP_STATUS_STATE ≠ 2 then s
  else
    let base := s.regionBase 5
    let ps := placeSections 0x4000 (s.dumpSections scan)
    let used := ps.foldl (fun _ q => q.1 + q.2.2.length) 0x4000
    let h := s.dumpHeader true used
    let s1 := ps.foldl (fun s q => s.store 14 (base + q.1) q.2.2) (s.endFw 1)
    let s2 := (s1.store 14 (base + 0x100) (ps.flatMap dumpEntry)).store 14 base h
    let s3 : State := { s2 with dmp := { s2.dmp with header := h } }
    ((s3.put F.DMP_STATUS_VALID 1).event 0x1711 0 0 0).summaryStart

/-! ### Restore and resume (R592, R594) -/

/-- SUMMARY_COMMITTED (R592, R598): the record is committed, or its write failed; restore begins. -/
def State.summaryCommitted (s : State) : State :=
  if s.get F.DMP_STATUS_STATE ≠ 3 ∨ s.nvs.queue.any (fun j => j.who == NvsWho.dump) = true then s
  else
    let s1 : State := { s with nvs := { s.nvs with failed := s.nvs.failed.filter (fun w => w != NvsWho.dump) } }
    (s1.put F.DMP_STATUS_STATE 4).restoreStart

/-- RESTORE_COMPLETE (R592, R594): the frozen units are reset, and the running structure and the Tilth are those of the applied structure; a channel that does not train again makes the
error terminal. -/
def State.restoreComplete (s : State) : State :=
  let lost := s.mc.chans.filter (fun x => x.lostInService)
  if s.get F.DMP_STATUS_STATE ≠ 4 ∨ s.dmp.restored = true ∨ lost.any (fun x => x.st == .training) = true then s
  else if lost.any (fun x => x.st == .failed) then (s.put F.DMP_STATUS_STATE 5).event 0x1715 0 s.dmp.cause s.dmp.detail
  else
    let s0 := frozenUnits.foldl State.resetUnit s
    let s1 := [0, 1].foldl (fun s e => if s.engSt e = 5 then s.engineStop e true else s) s0
    let qs := match s1.dmp.applied with
      | some im => queuesOf im
      | none => []
    { s1 with
      sho := { s1.sho with run := s1.dmp.applied }, tlt := { s1.tlt with queues := qs, ports := [] }
      dmp := { s1.dmp with restored := true } }

/-- RESUME (R592): at the first latch instant after restore. -/
def State.resume (s : State) : State :=
  let ms := (s.now - s.dmp.at_) / tickMs
  let s1 : State := { s with cmt := { s.cmt with stopped := false }, dmp := { s.dmp with restored := false } }
  let s2 := ((s1.put F.CMT_STATUS_RECOVERING 0).put F.SYS_STATUS_RECOVERING 0).put F.DMP_STATUS_STATE 0
  let s3 := (s2.put F.DMP_LAST_HELD_FRAMES (min s.dmp.heldFrames 65535)).put F.DMP_LAST_RECOVERY_MS (min ms 65535)
  ((s3.countOperating 2).event 0x1713 0 s.dmp.heldFrames ms).fetchAll

/-- RELEASE (R596). -/
def State.dumpRelease (s : State) : State := s.put F.DMP_STATUS_VALID 0

/-! ### LATCH_INSTANT (R77) -/

/-- Scan-out has begun the latch line of the frame in progress, which has not been latched. -/
def State.latchDue (s : State) : Bool :=
  s.out.running && s.cmt.latched != s.frameNo &&
  decide (s.lineAt s.frameNo s.out.mode (s.get F.CMT_LATCH_LATCH_LINE) ≤ (s.now : Rat))

/-- Epochs are sealed from the last black frame on (R376, R586). -/
def State.composes (s : State) : Bool :=
  s.pnlSt == 2 || s.pnlSt == 3 || (s.pnlSt == 1 && s.pnl.black == s.pnl.blackN)

/-- The next frame's epoch is sealed (R77), with the credits of queues that no unit of the epochs produces into (R42; log entry
96). -/
def State.sealNext (s : State) : State :=
  if s.composes = false then s
  else
    let s1 := s.sealEpoch
    match s1.cmt.epochs.getLast? with
    | none => s1
    | some e =>
      let units := s1.markerUnits
      (s1.applyRoutes (fun p => !units.contains p) e).keepApplied e

/-- LATCH_INSTANT (R77): the epoch of the next frame is sealed, unless a switch or a recovery holds the frame; a checked image
starts its switch here, after the epoch is sealed (R54). -/
def State.latchInstant (s : State) : State :=
  if s.latchDue = false then s
  else
    let s1 : State := { s with cmt := { s.cmt with latched := s.frameNo } }
    if s1.sho.switching then s1.switchHold
    else if s1.cmt.stopped = true ∧ s1.dmp.restored = false then s1
    else
      let s2 := (if s1.cmt.stopped then s1.resume else s1).sealNext
      if s2.sho.stage = .switch ∧ s2.sho.next.isSome = true ∧ s2.sho.run.isSome = true then s2.switchStart else s2

/-! ### Meanings -/

/-- FIRMWARE_LOAD (R584). -/
def execFirmwareLoad (t : Nat) (s : State) : Out := .next (s.whenHost t State.fwLoad)

/-- FIRMWARE_CHECKED (R584). -/
def execFirmwareChecked (t : Nat) (sigOk tagOk : Bool) (s : State) : Out := .next ((s.tick t).fwChecked sigOk tagOk)

/-- FIRMWARE_SWITCH (R584). -/
def execFirmwareSwitch (t : Nat) (s : State) : Out := .next ((s.tick t).fwSwitch)

/-- CORE_WATCHDOG (R585). -/
def execCoreWatchdog (t : Nat) (good : Bool) (s : State) : Out := .next ((s.tick t).coreWatchdog good)

/-- PACE_WINDOW_END (R25). -/
def execPaceWindowEnd (t : Nat) (counts : List (Nat × Nat)) (s : State) : Out := .next ((s.tick t).paceWindow counts)

/-- UNIT_WATCHDOG (R588). -/
def execUnitWatchdog (t u i : Nat) (s : State) : Out := .next (s.whenOn t (fun s => s.unitWatchdog u i))

/-- TILTH_WATCHDOG (R589). -/
def execTilthWatchdog (t k : Nat) (s : State) : Out := .next (s.whenOn t (fun s => s.tilthWatchdog k))

/-- FATAL_FREEZE (R591). -/
def execFatalFreeze (t cause detail : Nat) (s : State) : Out := .next (s.whenOn t (fun s => s.fatalFreeze cause detail))

/-- FORCE (R589). -/
def execForce (t : Nat) (s : State) : Out := .next (s.whenHost t State.forceFatal)

/-- CAPTURE_START (R592). -/
def execCaptureStart (t : Nat) (s : State) : Out := .next (s.whenOn t State.captureStart)

/-- CAPTURE_COMPLETE (R592): `scan` holds, for the sections after the register images, READ_ERR and the bytes of the store. -/
def execCaptureComplete (t : Nat) (scan : List (Bool × List Nat)) (s : State) : Out :=
  .next (s.whenOn t (fun s => s.captureComplete scan))

/-- SUMMARY_COMMITTED (R592). -/
def execSummaryCommitted (t : Nat) (s : State) : Out := .next (s.whenOn t State.summaryCommitted)

/-- RESTORE_COMPLETE (R592). -/
def execRestoreComplete (t : Nat) (s : State) : Out := .next (s.whenOn t State.restoreComplete)

/-- RELEASE (R596). -/
def execRelease (t : Nat) (s : State) : Out := .next (s.whenBar t State.dumpRelease)

/-- LATCH_INSTANT (R77). -/
def execLatchInstant (t : Nat) (s : State) : Out := .next (s.whenOn t State.latchInstant)

end Sys2Proof.Machine
end

