-- ==== Sys2Proof/Machine/SecurityEvents.lean ====
section
/-!
DEFINITION. Zeroisation (R538, R542): the ZEROISE command, the tamper sources and the end of the burn.
-/

namespace Sys2Proof.Machine

/-- R542: an internal request in progress fails with its own decryption refusal code (log entry 98). -/
def State.failShoash (s : State) : State :=
  if s.sho.stage = .auth ∨ s.sho.stage = .decrypt then s.shoRefuse 0x0146 else s

/-- R542 for a registry set load. -/
def State.failSet (s : State) : State :=
  if s.flag F.RRG_SET_STATUS_BUSY = true ∧ s.rrg.parked.isNone = true then s.setRefuse 0x0712 else s

/-- R542 for a demura map load. -/
def State.failDemura (s : State) : State := if s.pnl.dmr = .check then s.dmrRefuse 0x0E22 else s

/-- R542 for a firmware load. -/
def State.failFirmware (s : State) : State :=
  if s.fw.load.isSome then s.fwRefuse 0x0163 else s

/-- R538, R542: the operation in progress is aborted; session, nonces and key components are cleared; the KEK's slots are
burned and the burn of the others has begun; SEC_USER_KEY gets its tombstone. The requests in progress belong to units of
the field die and fail while it is powered. -/
def State.zeroise (s : State) : State :=
  let s1 := match s.sec.running with
    | some c => s.secRespond c 0x1613 [] []
    | none => s
  let s2 := if s1.fieldOn then s1.failShoash.failSet.failDemura else s1
  let s3 := s2.failFirmware.endSession
  let s4 : State :=
    { s3 with
      sec := { s3.sec with nonces := [], component := none, burning := true } }
  ((s4.otpBurn 1).nvsWrite .security 2 0x0060 0 true true []).2

/-- The body of ZEROISE (R540): none; the module zeroises and logs SEC_ZEROISED. The answer is sent before the burn
completes. -/
def secZeroise (_ : SecReq) (s : State) : Nat × List Nat × State := (0, [], (s.event 0x1613 0 0x28 0).zeroise)

/-- ZEROISE (R538, R540). -/
def execZeroise (t : Nat) (auth : Bool) (s : State) : Out := .next (s.whenBar t (fun s => s.secCommand 0x28 auth [] secZeroise))

/-- TAMPER_MASK of SETTINGS (R538); without a SETTINGS value no source is enabled. -/
def State.tamperMask (s : State) : Nat := fieldLE ((s.otpValue 7).getD []) 4 4

/-- R538: tamper source `bit` fires: an enabled source is latched and logged, and the module zeroises. -/
def State.tamperFire (s : State) (bit : Nat) : State :=
  if bit < 4 ∧ bitAt s.tamperMask bit = true then
    let m := Nat.lor s.sec.tamper (2 ^ bit)
    let s1 := ({ s with sec := { s.sec with tamper := m } } : State).put F.SEC_STATUS_TAMPER m
    (s1.event 0x1612 0 bit 0).zeroise
  else s

/-- TAMPER (R538). -/
def execTamper (t bit : Nat) (s : State) : Out := .next ((s.tick t).tamperFire bit)

/-- A command that came during the burn is taken now (R542): in SELF_TEST only STATUS and SELF_TEST are served. -/
def State.takeWaiting (s : State) : State :=
  match s.sec.running with
  | none => s
  | some c =>
    if s.secRequest.okForm = false then s.secRespond c 0x1621 [] []
    else if c = 4 then s
    else if c = 1 then s.secRespond 1 0 s.secStatusBody []
    else s.secRespond c 0x1626 [] []

/-- R537, R538: the burn of KEY0 to KEY3 and DEVICE_ID is done, and the module goes to SELF_TEST. -/
def State.burnComplete (s : State) : State :=
  if s.sec.burning then
    let s1 := [2, 3, 4, 5, 6].foldl (fun s g => s.otpBurn g) s
    (({ s1 with sec := { s1.sec with burning := false } } : State).setSec .selfTest).takeWaiting
  else s

/-- ZEROISE_BURN_COMPLETE (R538). -/
def execZeroiseBurnComplete (t : Nat) (s : State) : Out := .next ((s.tick t).burnComplete)

end Sys2Proof.Machine
end

