-- ==== Sys2Proof/Machine/Registers.lean ====
section
/-!
DEFINITION. Host accesses to BAR0 and BAR4 (R10 to R12, R16, R70, R551): a register word written field by field, what
particular writes start, the two words of 64-bit registers, and reads that clear or latch. The effects that a write starts
are the operations of the units' own chapters.
-/

namespace Sys2Proof.Machine

/-! ### Fields of a written word (R10, R11) -/

/-- A value that an enumerated field may hold (R11). -/
def RegField.allows (f : RegField) (v : Nat) : Bool := f.ok.isEmpty || f.ok.any (fun q => decide (q.1 ≤ v) && decide (v ≤ q.2))

/-- One field of word `w` after a write of `v` over `old`; and whether a reserved value was kept out (R10, R11). -/
def RegField.write (f : RegField) (w old v : Nat) : Nat × Bool :=
  let lo := max f.lo (32 * w) - 32 * w
  let hi := min f.hi (32 * w + 31) - 32 * w
  if f.lo ≤ 32 * w + 31 ∧ 32 * w ≤ f.hi then
    match f.acc with
    | .rw => if f.allows (bitsOf v hi lo) then (withBits old hi lo (bitsOf v hi lo), false) else (old, true)
    | .w1c => (withBits old hi lo (clearBits (bitsOf old hi lo) (bitsOf v hi lo)), false)
    | _ => (old, false)
  else (old, false)

/-- Word `w` of a register after a write (R10, R11). -/
def RegRow.write (r : RegRow) (w old v : Nat) : Nat × Bool :=
  r.fields.foldl (fun a f => ((f.write w a.1 v).1, a.2 || (f.write w a.1 v).2)) (old, false)

/-- A write of a register word by the access types of its fields: a reserved value is kept out and logged, and a word with
staged fields is noted for the next commit (R10, R11, R70). -/
def State.plain (s : State) (off v : Nat) : State :=
  match rowAt off with
  | none => s
  | some (r, _, _, w) =>
    let x := r.write w (s.rd off) v
    let s1 := s.wr off x.1
    let s2 := if hasStaged off then s1.stage off x.1 else s1
    if x.2 then s2.reservedWrite off v else s2

/-- A plain write of the word `v` in which the fields that have a bit in `held` keep their values, since the write moves them
otherwise or their values are kept out; `bad`: a value was kept out by a rule of the register's own. The word is logged once, as
it was written (R11). -/
def State.plainHeld (s : State) (off v held : Nat) (bad : Bool) : State :=
  match rowAt off with
  | none => s
  | some (r, _, _, w) =>
    let r1 : RegRow := { r with fields := r.fields.filter (fun f => bitsOf held f.hi f.lo == 0) }
    let x := r1.write w (s.rd off) v
    let s1 := s.wr off x.1
    let s2 := if hasStaged off then s1.stage off x.1 else s1
    if x.2 || bad then s2.reservedWrite off v else s2

/-- The value that field `f` of a 32-bit register would have after a write of `v` (R11). -/
def State.fieldAfter (s : State) (f : Fld) (ok : List (Nat × Nat)) (v : Nat) : Nat :=
  let x := bitsOf v f.hi f.lo
  if ok.any (fun q => decide (q.1 ≤ x) && decide (x ≤ q.2)) then x else s.get f

/-! ### Writes with rules of their own -/

/-- Both words of the label's temperature bands, as seven signed bytes that must rise strictly (R395). -/
def bandsRise (w0 w1 : Nat) : Bool :=
  let b := (leBytes 4 w0 ++ leBytes 3 w1).map (signed 8)
  (b.zip (b.drop 1)).all (fun q => decide (q.1 < q.2))

/-- A write of LBL_BANDS0 or LBL_BANDS1 (R395). -/
def State.writeBands (s : State) (off v : Nat) : State :=
  let w0 := if off = Reg.LBL_BANDS0 then v else s.rd Reg.LBL_BANDS0
  let w1 := if off = Reg.LBL_BANDS1 then v else s.rd Reg.LBL_BANDS1
  if bandsRise w0 w1 then (s.plain off v).bandTrack else s.reservedWrite off v

/-- R280, R291: SVE_TBL_SEL; a coefficient bank has TABLE 0 to 3. -/
def State.writeTblSel (s : State) (off v : Nat) : State :=
  if bitAt v 29 = true ∧ 3 < bitsOf v 28 26 then s.plainHeld off v 0x1C000000 true else s.plain off v

/-- R511: THM_GOV; SLACK_HI stays above SLACK_LO, with the values that the write would leave. -/
def State.writeGov (s : State) (off v : Nat) : State :=
  if s.fieldAfter F.THM_GOV_SLACK_HI [(1, 63)] v ≤ s.fieldAfter F.THM_GOV_SLACK_LO [(0, 62)] v then s.plainHeld off v 0xFFFF0000 true
  else s.plain off v

/-- R601: DMP_WDOG; UNIT_MS stays below the TILTH_MS that the write leaves. -/
def State.writeWdog (s : State) (off v : Nat) : State :=
  if s.fieldAfter F.DMP_WDOG_TILTH_MS [(20, 1000)] v ≤ bitsOf v 15 0 then s.plainHeld off v 0xFFFF true else s.plain off v

/-- R426, R441: TIM_CTRL with CASTLE and STEP. -/
def State.writeTimCtrl (s : State) (off v : Nat) : State :=
  let d := bitsOf v 2 2
  let s1 := s.plain off v
  let s2 := if bitAt v 3 then s1.castleCmd d (bitAt v 5) else s1
  if bitAt v 4 then s2.stepCmd d else s2

/-- R439: TIM_SRV_CFG of a servo, whose ENABLE moves its state. -/
def State.writeSrvCfg (s : State) (off i v : Nat) : State :=
  let old := s.flag (F.TIM_SRV_CFG_ENABLE.nth i)
  let s1 := s.plain off v
  if bitAt v 31 = old then s1 else s1.srvEnable i (bitAt v 31)

/-- R427: TIM_PORT_CTRL: taking the port down, or another SPEED. -/
def State.writePort (s : State) (off i v : Nat) : State :=
  let old := s.get (F.TIM_PORT_CTRL_SPEED.nth i)
  let s1 := s.plain off v
  if bitAt v 0 = false ∨ bitsOf v 1 1 ≠ old then s1.portLost i else s1

/-- R254: BRD_CTX_CMD. -/
def State.writeCtxCmd (s : State) (off v : Nat) : State :=
  let c := v % 4096
  match bitsOf v 31 28 with
  | 1 => s.ctxRegister c
  | 2 => s.ctxActivate c
  | 3 => s.ctxDeactivate c
  | 4 => s.ctxUnregister c
  | _ => s.reservedWrite off v

/-- R561: HST_RING_CTRL of ring i: its settings, then ENABLE. -/
def State.writeRingCtrl (s : State) (off i v : Nat) : State :=
  let s1 := s.plainHeld off v 0x80000000 false
  if bitAt v 31 then s1.ringEnable i else s1.ringDisable i

/-- R191, R205, R208: RRG_CTRL: lane runs and zone runs that software asks for. -/
def State.writeRrgCtrl (s : State) (off v : Nat) : State :=
  let s1 := s.plain off v
  let s2 := (List.range 12).foldl (fun s n => if bitAt v (8 + n) then s.laneQueue n else s) s1
  (List.range 8).foldl (fun s n => if bitAt v n then s.trigger n else s) s2

/-- R526: NVS_REQ starts an operation; an OP without a meaning is refused. -/
def State.writeNvsReq (s : State) (v : Nat) : State :=
  let op := bitsOf v 31 28
  s.nvsStart op (bitsOf v 27 27) (bitsOf v 13 0) (match op with
    | 1 => State.nvsOpRead
    | 2 => fun s => s.nvsOpWrite false
    | 3 => fun s => s.nvsOpWrite true
    | 4 => State.nvsOpPage
    | 5 => State.nvsOpOtp
    | _ => fun s => s.nvsRefuse 0x1521)

/-- The mailbox commands of R540. -/
def secCommands : List Nat :=
  [0x01, 0x02, 0x03, 0x04, 0x10, 0x11, 0x12, 0x13, 0x20, 0x21, 0x22, 0x23, 0x24, 0x25, 0x26, 0x27, 0x28]

/-- R539, R540: SEC_MB_CTRL. A GO with a command of R540 is that command's own step; any other CMD is a bad request. -/
def State.writeMbCtrl (s : State) (off v : Nat) : State :=
  let s1 := s.plain off v
  let c := s1.secRequest.cmd
  if bitAt v 0 = false ∨ secCommands.contains c = true then s1
  else if s1.flag F.SEC_MB_CTRL_BUSY then s1.event 0x1620 0 c 0
  else if s1.sec.burning then s1.secRun c
  else s1.noteRequest.secRespond c 0x1621 [] []

/-- A write that starts something where bit 0 is 1. -/
def State.onGo (s : State) (v : Nat) (f : State → State) : State := if bitAt v 0 then f s else s

/-- The registers whose writes do more than set fields: the register's offset, and the effect by offset, element and
word. -/
def writeRules : List (Nat × (State → Nat → Nat → Nat → State)) :=
  [(Reg.SYS_UNIT_RESET, fun s _ _ v => s.unitReset v),
   (Reg.SYS_LOG_TAIL, fun s _ _ v => s.logTailWrite v),
   (Reg.SYS_FW_CTRL, fun s _ _ v => if s.fieldOn then s.onGo v State.fwLoad else s),
   (Reg.SYS_IMG_CTRL, fun s _ _ v => s.onGo v State.shoLoad),
   (Reg.HST_RING_CTRL, fun s o i v => s.writeRingCtrl o i v),
   (Reg.CMT_SNAP_CTRL, fun s o _ v => (s.plainHeld o v 1 false).freeze (bitAt v 0)),
   (Reg.CMT_STAGE_CTRL, fun s _ _ v => s.onGo v State.discard),
   (Reg.KLN_CHAIN_HEAD, fun s _ i v => s.chainHead i (v % 4096)),
   (Reg.RRG_CTRL, fun s o _ v => s.writeRrgCtrl o v),
   (Reg.RRG_SET_CTRL, fun s _ _ v => s.onGo v State.setLoad),
   (Reg.BRD_CTX_CMD, fun s o _ v => s.writeCtxCmd o v),
   (Reg.SVE_CTRL, fun s _ _ v => s.pipeEnWrite v),
   (Reg.SVE_TBL_SEL, fun s o _ v => s.writeTblSel o v),
   (Reg.SVE_TBL_DATA, fun s _ _ v => s.tblAccess true v),
   (Reg.SVE_APPLY, fun s _ _ v => s.sveApply v)] ++
  [(Reg.TLK_CTRL, fun s o _ v =>
      if bitsOf v 15 8 = 0 then s.plain o v else (s.plain o v).retrainMask (bitsOf v 15 8)),
   (Reg.PNL_CTRL, fun s o _ v =>
      let s1 := s.plain o v
      let s2 := if bitAt v 0 then s1.powerOffWrite else s1
      if bitAt v 1 then s2.powerOn else s2),
   (Reg.PNL_DMR_CTRL, fun s _ _ v => s.onGo v State.dmrLoad),
   (Reg.LBL_CTRL, fun s o _ v => ((s.plainHeld o v 3 false).bandTrack).lblEnable (bitAt v 0) (bitAt v 1)),
   (Reg.LBL_TEMP, fun s o _ v => if s.flag F.LBL_CTRL_TEMP_SRC then (s.plain o v).bandTrack else s),
   (Reg.LBL_BANDS0, fun s o _ v => s.writeBands o v),
   (Reg.LBL_BANDS1, fun s o _ v => s.writeBands o v),
   (Reg.LBL_WAVE_DATA, fun s _ _ v => s.waveData true v),
   (Reg.LBL_WAVE_APPLY, fun s _ _ v => s.onGo v State.waveApply),
   (Reg.MEM_PASR_KEEP, fun s o _ v => s.plain o (Nat.lor v s.heldSlices)),
   (Reg.TIM_CTRL, fun s o _ v => s.writeTimCtrl o v),
   (Reg.TIM_SRV_CFG, fun s o i v => s.writeSrvCfg o i v),
   (Reg.TIM_PORT_CTRL, fun s o i v => s.writePort o i v),
   (Reg.TIM_RING_HEAD, fun s o i v => if i = 1 then s.txHead (v % 4096) else s.plain o v)] ++
  [(Reg.AUD_PLAY_HEAD, fun s _ _ v => s.playHead (v % 4096)),
   (Reg.THM_CTRL, fun s o _ v => (s.plain o v).onGo v State.restart),
   (Reg.THM_GOV, fun s o _ v => s.writeGov o v),
   (Reg.NVS_REQ, fun s _ _ v => s.writeNvsReq v),
   (Reg.SEC_MB_CTRL, fun s o _ v => s.writeMbCtrl o v),
   (Reg.DMP_CTRL, fun s o _ v =>
      let s1 := s.plain o v
      let s2 := if bitAt v 1 then s1.dumpRelease else s1
      if s2.fieldOn then s2.onGo v State.forceFatal else s2),
   (Reg.DMP_WDOG, fun s o _ v => s.writeWdog o v),
   (Reg.SYS_FR_SIZE, fun s o _ v => ((s.plain o v).put F.SYS_FR_HEAD_HEAD 0).put F.SYS_FR_TAIL_TAIL 0),
   (Reg.SYS_FR_BASE, fun s o _ v => ((s.plain o v).put F.SYS_FR_HEAD_HEAD 0).put F.SYS_FR_TAIL_TAIL 0),
   (Reg.DBG_TRACE_CTRL, fun s _ _ v => s.traceCtrl v),
   (Reg.DBG_TRACE_SIZE, fun s o _ v => ((s.plain o v).put F.DBG_TRACE_HEAD_HEAD 0).put F.DBG_TRACE_TAIL_TAIL 0),
   (Reg.DBG_TRACE_BASE, fun s o _ v => ((s.plain o v).put F.DBG_TRACE_HEAD_HEAD 0).put F.DBG_TRACE_TAIL_TAIL 0),
   (Reg.DBG_TRACE_TAIL, fun s o _ v => (s.plain o v).traceShow)]

/-- A job uses chain ring n (R157). -/
def State.chainUsed (s : State) (n : Nat) : Bool :=
  [0, 1].any (fun e => ((s.engine e).job.map (fun j => j.chain == n)).getD false)

/-- Registers that cannot be written now, and the event that says so: a ring in use (R157, R561), the trace ring while it
runs (R581), a locked debug window (R581), and the panel LUT's places past its last node (R248). -/
def State.writeBlocked (s : State) (r : RegRow) (i j off v : Nat) : Option State :=
  if r.off = Reg.HST_WRING_BASE ∨ r.off = Reg.HST_WRING_SIZE ∨ r.off = Reg.HST_CRING_BASE ∨ r.off = Reg.HST_CRING_SIZE then
    if (s.ring i).st = .disabled then none else some (s.ringFault 0x0210 i)
  else if r.off = Reg.KLN_CHAIN_BASE ∨ r.off = Reg.KLN_CHAIN_SIZE then
    if s.chainUsed i then some (s.event 0x0520 0 i 0) else none
  else if inWindowOf 0x18 off = true ∧ s.debugLocked = true then some s
  else if r.off = Reg.DBG_TRACE_BASE ∨ r.off = Reg.DBG_TRACE_SIZE then
    if s.flag F.DBG_TRACE_CTRL_EN then some (s.reservedWrite off v) else none
  else if r.off = Reg.ROK_LUT ∧ 960 < j then some s
  else none

/-- Immediate enable bits of instances in a domain left off stay 0 (R505); staged ones meet a commit's check. -/
def State.enableMask (s : State) (r : RegRow) (off : Nat) : Nat :=
  if r.off = Reg.KLN_CTRL ∨ r.off = Reg.ROK_CTRL ∨ r.off = Reg.CHK_CTRL then 0 else s.offMask off

/-- A write of one register word that takes effect. -/
def State.writeWord (s : State) (off v : Nat) : State :=
  match rowAt off with
  | none => s
  | some (r, i, j, _) =>
    match s.writeBlocked r i j off v with
    | some s1 => s1
    | none =>
      let x := clearBits v (s.enableMask r off)
      match writeRules.find? (fun q => q.1 == r.off) with
      | some q => q.2 s off i x
      | none => s.plainHeld off v (s.enableMask r off) false

/-! ### 64-bit registers (R12) -/

/-- Nothing waits for `off` in a list of words. -/
def withoutOff (l : List (Nat × BitVec 32)) (off : Nat) : List (Nat × BitVec 32) := l.filter (fun q => q.1 != off)

/-- R12: a low-word write is held pending, in place of an earlier one. -/
def State.writeLow (s : State) (off v : Nat) : State :=
  { s with lowPend := (off, BitVec.ofNat 32 v) :: withoutOff s.lowPend off }

/-- Whether a write of the register at `off` is kept out now. -/
def State.blocked (s : State) (off v : Nat) : Option State :=
  match rowAt off with
  | none => none
  | some (r, i, j, _) => s.writeBlocked r i j off v

/-- R12: a high-word write commits both words: the pending low word, or the low word in force where none is pending. -/
def State.writeHigh (s : State) (off v : Nat) : State :=
  let low := off - 4
  let s1 : State := { s with lowPend := withoutOff s.lowPend low }
  match s1.blocked off v with
  | some s2 => s2
  | none =>
    match (s.lowPend.find? (fun q => q.1 == low)).map (·.2.toNat) with
    | none => (if hasStaged low then s1.writeWord low (s1.rd low) else s1).writeWord off v
    | some l => (s1.writeWord low l).writeWord off v

/-! ### MSI-X table (R551, R554) -/

/-- A write of a word of the MSI-X table: clearing a mask bit sends a pending vector. The pending bits are read only. -/
def State.writeMsix (s : State) (off v : Nat) : State :=
  let n := (off - 0x600000) / 16
  let k := (off - 0x600000) % 16 / 4
  if 0x601000 ≤ off then s
  else if k = 3 ∧ bitAt v 0 = false ∧ s.masked n = true then s.msixUnmask n
  else s.setMsixWord n k (if k = 3 then v % 2 else if k = 0 then v - v % 4 else v)

/-- A word of the MSI-X table or of the pending bit array. -/
def State.readMsix (s : State) (off : Nat) : Nat :=
  if 0x601000 ≤ off then
    (List.range 32).foldl (fun a b => if s.hst.pba.contains ((off - 0x601000) * 8 + b) then a + 2 ^ b else a) 0
  else s.msixWord ((off - 0x600000) / 16) ((off - 0x600000) % 16 / 4)

/-- The offset lies in the MSI-X table or the pending bit array (R551). -/
def inMsix (off : Nat) : Bool := decide (0x600000 ≤ off ∧ off < 0x601020)

/-- The offset is defined in BAR0 (R551). -/
def defined0 (off : Nat) : Bool := inMsix off || (rowAt off).isSome

/-- A 32-bit host write to BAR0 at an aligned offset (R10 to R12, R16, R551). -/
def State.hostWrite (s : State) (off v : Nat) : State :=
  if s.unreachable off then s
  else if inMsix off then s.writeMsix off v
  else match rowAt off with
    | none => s.event 0x0104 0 off 0
    | some (r, _, _, w) => if r.wide then (if w = 0 then s.writeLow off v else s.writeHigh off v) else s.writeWord off v

/-! ### Reads -/

/-- The fields that a read clears, as bits of the word (R10). -/
def clearedBits (r : RegRow) : Nat := r.fields.foldl (fun a f => if f.acc = .rc then a + (2 ^ (f.hi + 1) - 2 ^ f.lo) else a) 0

/-- A 32-bit read of BAR0 with its effects (R10, R12, R16, R291, R395, R442, R551, R581). -/
def State.readWord (s : State) (off : Nat) : Nat × State :=
  if s.unreachable off then (0xFFFFFFFF, s)
  else if inMsix off then (s.readMsix off, s)
  else match rowAt off with
    | none => (0, s.event 0x0104 0 off 0)
    | some (r, _, _, w) =>
      let v := s.peek off
      if inWindowOf 0x18 off = true ∧ s.debugLocked = true then (0, s)
      else if r.off = Reg.SVE_TBL_DATA then (v, s.tblAccess false 0)
      else if r.off = Reg.LBL_WAVE_DATA then (v, s.waveData false 0)
      else if r.off = Reg.TIM_TIME_NS then (v, s.timeRead)
      else if r.wide = true ∧ w = 0 then
        (v, { s with hiLatch := (off + 4, BitVec.ofNat 32 (s.peek (off + 4))) :: withoutOff s.hiLatch (off + 4) })
      else if r.wide = true ∧ w = 1 then
        match s.hiLatch.find? (fun q => q.1 == off) with
        | some q => (q.2.toNat, { s with hiLatch := withoutOff s.hiLatch off })
        | none => (v, s)
      else if clearedBits r ≠ 0 then (v, s.wr off (clearBits (s.rd off) (clearedBits r)))
      else (v, s)

/-- A read's answer goes to the host. -/
def State.answer (s : State) (bs : List Nat) : State := { s with hst := { s.hst with readData := bs, readEp := false } }

/-- A 32-bit read of BAR0 by the host. -/
def State.hostRead (s : State) (off : Nat) : State :=
  let x := s.readWord off
  x.2.answer (leBytes 4 x.1)

/-- A doorbell word as a read of BAR4 returns it (R557). -/
def State.readDoorbell (s : State) (off : Nat) : Nat :=
  let g := s.ring (off / 0x400)
  if 0x10000 ≤ off then 0
  else match off % 0x400 with
    | 0 => g.workHead
    | 4 => g.cplTail
    | _ => 0

/-- The bytes of a narrow read, word by word (R551). -/
def State.narrowBytes (s : State) (bar4 : Bool) : List Nat → List Nat × State
  | [] => ([], s)
  | a :: as =>
    let x := if bar4 then (if s.fieldOn then s.readDoorbell a else 0xFFFFFFFF, s) else s.readWord a
    let y := x.2.narrowBytes bar4 as
    (leBytes 4 x.1 ++ y.1, y.2)

/-- R551: a narrower access of `n` bytes. -/
def State.narrow (s : State) (bar4 write : Bool) (off n : Nat) : State :=
  if write then
    let gone := if bar4 then !s.fieldOn else s.unreachable (4 * (off / 4))
    if gone then s else s.event 0x0105 0 off 0
  else
    let first := off / 4
    let x := s.narrowBytes bar4 ((upFrom first ((off + n + 3) / 4 - first)).map (4 * ·))
    x.2.answer (slice x.1 (off % 4) n)

/-! ### Meanings -/

/-- REGISTER_WRITE (R10): a write of a 32-bit register, or of a word of the MSI-X table. -/
def execRegisterWrite (t off v : Nat) (s : State) : Out :=
  .next (s.whenBar t (fun s =>
    if off % 4 = 0 ∧ (inMsix off || (rowAt off).any (fun q => !q.1.wide)) = true then s.hostWrite off (v % 2 ^ 32) else s))

/-- STAGED_FIELD_WRITE (R70): a write of a register word that holds a staged field. -/
def execStagedFieldWrite (t off v : Nat) (s : State) : Out :=
  .next (s.whenBar t (fun s => if hasStaged off then s.hostWrite off (v % 2 ^ 32) else s))

/-- REGISTER_LOW_WORD_WRITE (R12). -/
def execRegisterLowWordWrite (t off v : Nat) (s : State) : Out :=
  .next (s.whenBar t (fun s =>
    if (rowAt off).any (fun q => q.1.wide && q.2.2.2 == 0) then s.hostWrite off (v % 2 ^ 32) else s))

/-- REGISTER_HIGH_WORD_WRITE (R12); `off` is the offset of the high word. -/
def execRegisterHighWordWrite (t off v : Nat) (s : State) : Out :=
  .next (s.whenBar t (fun s =>
    if (rowAt off).any (fun q => q.1.wide && q.2.2.2 == 1) then s.hostWrite off (v % 2 ^ 32) else s))

/-- REGISTER_LOW_WORD_READ (R12). -/
def execRegisterLowWordRead (t off : Nat) (s : State) : Out :=
  .next (s.whenBar t (fun s => if (rowAt off).any (fun q => q.1.wide && q.2.2.2 == 0) then s.hostRead off else s))

/-- READ_CLEAR (R10): a read of a register with fields that a read clears. -/
def execReadClear (t off : Nat) (s : State) : Out :=
  .next (s.whenBar t (fun s => if (rowAt off).any (fun q => clearedBits q.1 != 0) then s.hostRead off else s))

/-- UNMAPPED_ACCESS (R551): an aligned access where BAR0 defines nothing. -/
def execUnmappedAccess (t off : Nat) (write : Bool) (v : Nat) (s : State) : Out :=
  .next (s.whenBar t (fun s =>
    if off % 4 = 0 ∧ off < 0x800000 ∧ defined0 off = false then (if write then s.hostWrite off (v % 2 ^ 32) else s.hostRead off) else s))

/-- NARROW_ACCESS (R551): an access of `n` bytes to BAR0, or to BAR4, that fills neither one aligned 32-bit word nor one
aligned 64-bit word. -/
def execNarrowAccess (t : Nat) (bar4 write : Bool) (off n : Nat) (s : State) : Out :=
  .next (s.whenBar t (fun s =>
    if n = 0 ∨ (n = 4 ∧ off % 4 = 0) ∨ (n = 8 ∧ off % 8 = 0) then s else s.narrow bar4 write off n))

end Sys2Proof.Machine
end

