-- ==== Sys2Proof/Machine/Dispatch.lean ====
section
/-!
DEFINITION. The effect of each command, one arm per constructor.
-/

namespace Sys2Proof.Machine

/-- The effect of a command on everything but the queue of waiting commands. -/
def exec (i : Instr) (s : State) : Host.Outcome State Fault Refusal :=
  match i with
  | .registerWrite t off v => Sys2Proof.Machine.execRegisterWrite t off v s
  | .stagedFieldWrite t off v => Sys2Proof.Machine.execStagedFieldWrite t off v s
  | .registerLowWordWrite t off v => Sys2Proof.Machine.execRegisterLowWordWrite t off v s
  | .registerHighWordWrite t off v => Sys2Proof.Machine.execRegisterHighWordWrite t off v s
  | .registerLowWordRead t off => Sys2Proof.Machine.execRegisterLowWordRead t off s
  | .readClear t off => Sys2Proof.Machine.execReadClear t off s
  | .unmappedAccess t off write v => Sys2Proof.Machine.execUnmappedAccess t off write v s
  | .narrowAccess t bar4 write off n => Sys2Proof.Machine.execNarrowAccess t bar4 write off n s
  | .tilthPlaceEntry t k data => Sys2Proof.Machine.execTilthPlaceEntry t k data s
  | .tilthGrant t u p => Sys2Proof.Machine.execTilthGrant t u p s
  | .epochMarkerConsumed t u => Sys2Proof.Machine.execEpochMarkerConsumed t u s
  | .unitWritesSettled t u => Sys2Proof.Machine.execUnitWritesSettled t u s
  | .dieEdgeFifoFault t u inst => Sys2Proof.Machine.execDieEdgeFifoFault t u inst s
  | .paceWindowEnd t counts => Sys2Proof.Machine.execPaceWindowEnd t counts s
  | .shoashLoad t => Sys2Proof.Machine.execShoashLoad t s
  | .imageCopyComplete t => Sys2Proof.Machine.execImageCopyComplete t s
  | .imageSignatureResult t ok => Sys2Proof.Machine.execImageSignatureResult t ok s
  | .imageDecryptResult t ok plain => Sys2Proof.Machine.execImageDecryptResult t ok plain s
  | .switchComplete t => Sys2Proof.Machine.execSwitchComplete t s
  | .overlayCopyStart t sigOk tagOk plain => Sys2Proof.Machine.execOverlayCopyStart t sigOk tagOk plain s
  | .commit t => Sys2Proof.Machine.execCommit t s
  | .commitChecksComplete t => Sys2Proof.Machine.execCommitChecksComplete t s
  | .brdLayerCheck t => Sys2Proof.Machine.execBrdLayerCheck t s
  | .latchInstant t => Sys2Proof.Machine.execLatchInstant t s
  | .epochPublish t => Sys2Proof.Machine.execEpochPublish t s
  | .snapshotFreeze t on => Sys2Proof.Machine.execSnapshotFreeze t on s
  | .freezeExpiry t => Sys2Proof.Machine.execFreezeExpiry t s
  | .epochRetire t => Sys2Proof.Machine.execEpochRetire t s
  | .discard t => Sys2Proof.Machine.execDiscard t s
  | .kilnAdmission t => Sys2Proof.Machine.execKilnAdmission t s
  | .stratumDecoded t e intime => Sys2Proof.Machine.execStratumDecoded t e intime s
  | .kilnBandComplete t => Sys2Proof.Machine.execKilnBandComplete t s
  | .loamEncode t w => Sys2Proof.Machine.execLoamEncode t w s
  | .loamDecode t w => Sys2Proof.Machine.execLoamDecode t w s
  | .kssDecode t w => Sys2Proof.Machine.execKssDecode t w s
  | .loamUnitEncoded t e => Sys2Proof.Machine.execLoamUnitEncoded t e s
  | .loamUnitDecoded t e => Sys2Proof.Machine.execLoamUnitDecoded t e s
  | .hostJobEnd t e => Sys2Proof.Machine.execHostJobEnd t e s
  | .chainHeadWrite t n v => Sys2Proof.Machine.execChainHeadWrite t n v s
  | .chainWaitExpiry t e => Sys2Proof.Machine.execChainWaitExpiry t e s
  | .bankRelease t => Sys2Proof.Machine.execBankRelease t s
  | .carryCopyComplete t => Sys2Proof.Machine.execCarryCopyComplete t s
  | .flatFetchComplete t => Sys2Proof.Machine.execFlatFetchComplete t s
  | .rrgSetLoad t => Sys2Proof.Machine.execRrgSetLoad t s
  | .rrgSetChecked t sigOk tagOk plain => Sys2Proof.Machine.execRrgSetChecked t sigOk tagOk plain s
  | .zoneTempReport t n temp => Sys2Proof.Machine.execZoneTempReport t n temp s
  | .zoneRun t n => Sys2Proof.Machine.execZoneRun t n s
  | .zoneTempTimeout t n => Sys2Proof.Machine.execZoneTempTimeout t n s
  | .zoneRunStart t => Sys2Proof.Machine.execZoneRunStart t s
  | .zoneRunComplete t => Sys2Proof.Machine.execZoneRunComplete t s
  | .registryStreamBand t => Sys2Proof.Machine.execRegistryStreamBand t s
  | .laneLock t n => Sys2Proof.Machine.execLaneLock t n s
  | .laneLockLost t n => Sys2Proof.Machine.execLaneLockLost t n s
  | .laneIterationEnd t n counts h hh => Sys2Proof.Machine.execLaneIterationEnd t n counts h hh s
  | .lanePeriodExpiry t n => Sys2Proof.Machine.execLanePeriodExpiry t n s
  | .laneFomTrigger t n => Sys2Proof.Machine.execLaneFomTrigger t n s
  | .laneRun t n => Sys2Proof.Machine.execLaneRun t n s
  | .rokBandStart t => Sys2Proof.Machine.execRokBandStart t s
  | .heldBandSkip t => Sys2Proof.Machine.execHeldBandSkip t s
  | .rokSquareComplete t n corr bad luts => Sys2Proof.Machine.execRokSquareComplete t n corr bad luts s
  | .rokBandComplete t => Sys2Proof.Machine.execRokBandComplete t s
  | .rokBandAbandon t => Sys2Proof.Machine.execRokBandAbandon t s
  | .fileParityFault t n => Sys2Proof.Machine.execFileParityFault t n s
  | .brdListBand t => Sys2Proof.Machine.execBrdListBand t s
  | .register t c => Sys2Proof.Machine.execRegister t c s
  | .activate t c => Sys2Proof.Machine.execActivate t c s
  | .deactivate t c => Sys2Proof.Machine.execDeactivate t c s
  | .unregister t c => Sys2Proof.Machine.execUnregister t c s
  | .sourceFrameArrival t => Sys2Proof.Machine.execSourceFrameArrival t s
  | .sourceFrame t w => Sys2Proof.Machine.execSourceFrame t w s
  | .sieveFrameStart t p => Sys2Proof.Machine.execSieveFrameStart t p s
  | .inputReadComplete t p => Sys2Proof.Machine.execInputReadComplete t p s
  | .sieveFrameWritten t p => Sys2Proof.Machine.execSieveFrameWritten t p s
  | .sveApply t v => Sys2Proof.Machine.execSveApply t v s
  | .tableCopy t p => Sys2Proof.Machine.execTableCopy t p s
  | .tblDataAccess t write v => Sys2Proof.Machine.execTblDataAccess t write v s
  | .pipeEnWrite t v => Sys2Proof.Machine.execPipeEnWrite t v s
  | .pipeParityFault t p => Sys2Proof.Machine.execPipeParityFault t p s
  | .copy t => Sys2Proof.Machine.execCopy t s
  | .fill t => Sys2Proof.Machine.execFill t s
  | .blend t => Sys2Proof.Machine.execBlend t s
  | .reduce t => Sys2Proof.Machine.execReduce t s
  | .scratchCopied t => Sys2Proof.Machine.execScratchCopied t s
  | .watermark t => Sys2Proof.Machine.execWatermark t s
  | .trwJobDone t => Sys2Proof.Machine.execTrwJobDone t s
  | .frameStart t => Sys2Proof.Machine.execFrameStart t s
  | .lineStart t corr bad => Sys2Proof.Machine.execLineStart t corr bad s
  | .syncInEdge t => Sys2Proof.Machine.execSyncInEdge t s
  | .referenceLoss t => Sys2Proof.Machine.execReferenceLoss t s
  | .acquireTimeout t => Sys2Proof.Machine.execAcquireTimeout t s
  | .teEdge t => Sys2Proof.Machine.execTeEdge t s
  | .teTimeout t => Sys2Proof.Machine.execTeTimeout t s
  | .teDelayedSend t => Sys2Proof.Machine.execTeDelayedSend t s
  | .lineMark t => Sys2Proof.Machine.execLineMark t s
  | .terminationSensed t n mask => Sys2Proof.Machine.execTerminationSensed t n mask s
  | .detectTimeout t n => Sys2Proof.Machine.execDetectTimeout t n s
  | .detectRetry t n => Sys2Proof.Machine.execDetectRetry t n s
  | .backchannelSymbolLock t n => Sys2Proof.Machine.execBackchannelSymbolLock t n s
  | .patternTimeout t n => Sys2Proof.Machine.execPatternTimeout t n s
  | .lock t n b => Sys2Proof.Machine.execLock t n b s
  | .lockTimeout t n => Sys2Proof.Machine.execLockTimeout t n s
  | .config t n => Sys2Proof.Machine.execConfig t n s
  | .caps t n b => Sys2Proof.Machine.execCaps t n b s
  | .exchangeTimeout t n => Sys2Proof.Machine.execExchangeTimeout t n s
  | .statusMessage t n b => Sys2Proof.Machine.execStatusMessage t n b s
  | .retrain t mask => Sys2Proof.Machine.execRetrain t mask s
  | .backchannelTimeout t n => Sys2Proof.Machine.execBackchannelTimeout t n s
  | .dischargeTimeout t n => Sys2Proof.Machine.execDischargeTimeout t n s
  | .readbackPacket t g locks raw => Sys2Proof.Machine.execReadbackPacket t g locks raw s
  | .dcSweepComplete t => Sys2Proof.Machine.execDcSweepComplete t s
  | .powerOff t => Sys2Proof.Machine.execPowerOff t s
  | .powerOn t => Sys2Proof.Machine.execPowerOn t s
  | .dischargePhaseTimeout t => Sys2Proof.Machine.execDischargePhaseTimeout t s
  | .demuraLoad t => Sys2Proof.Machine.execDemuraLoad t s
  | .demuraChecked t sigOk tagOk plain => Sys2Proof.Machine.execDemuraChecked t sigOk tagOk plain s
  | .demuraDecoded t => Sys2Proof.Machine.execDemuraDecoded t s
  | .lblUpdateStart t => Sys2Proof.Machine.execLblUpdateStart t s
  | .lblPhaseEnd t => Sys2Proof.Machine.execLblPhaseEnd t s
  | .lblBlinkChange t g => Sys2Proof.Machine.execLblBlinkChange t g s
  | .lblBlinkWriteStart t => Sys2Proof.Machine.execLblBlinkWriteStart t s
  | .lblCleanTimer t => Sys2Proof.Machine.execLblCleanTimer t s
  | .lblWaveApply t => Sys2Proof.Machine.execLblWaveApply t s
  | .lblWaveInstall t => Sys2Proof.Machine.execLblWaveInstall t s
  | .lblWaveDataAccess t write v => Sys2Proof.Machine.execLblWaveDataAccess t write v s
  | .lblEnableWrite t en hv => Sys2Proof.Machine.execLblEnableWrite t en hv s
  | .lblRecoverDone t => Sys2Proof.Machine.execLblRecoverDone t s
  | .keeperReset t => Sys2Proof.Machine.execKeeperReset t s
  | .memRequestAccept t port n write => Sys2Proof.Machine.execMemRequestAccept t port n write s
  | .memPick t c busy => Sys2Proof.Machine.execMemPick t c busy s
  | .memReadReturn t id err => Sys2Proof.Machine.execMemReadReturn t id err s
  | .memWriteAck t id off data bad => Sys2Proof.Machine.execMemWriteAck t id off data bad s
  | .memRefreshDue t c b => Sys2Proof.Machine.execMemRefreshDue t c b s
  | .mr4Poll t codes => Sys2Proof.Machine.execMr4Poll t codes s
  | .oscillatorPoll t drift => Sys2Proof.Machine.execOscillatorPoll t drift s
  | .memRetrainStart t c => Sys2Proof.Machine.execMemRetrainStart t c s
  | .memRetrainDone t c ok => Sys2Proof.Machine.execMemRetrainDone t c ok s
  | .channelTrainingDone t c ok step => Sys2Proof.Machine.execChannelTrainingDone t c ok step s
  | .rankIdleTimeout t c r => Sys2Proof.Machine.execRankIdleTimeout t c r s
  | .patrolScrubRead t err => Sys2Proof.Machine.execPatrolScrubRead t err s
  | .ethFrameReceive t p ti raw => Sys2Proof.Machine.execEthFrameReceive t p ti raw s
  | .ethFrameTransmit t p => Sys2Proof.Machine.execEthFrameTransmit t p s
  | .portUp t p => Sys2Proof.Machine.execPortUp t p s
  | .portDown t p => Sys2Proof.Machine.execPortDown t p s
  | .txRingHeadWrite t v => Sys2Proof.Machine.execTxRingHeadWrite t v s
  | .announce t p ti raw => Sys2Proof.Machine.execAnnounce t p ti raw s
  | .sync t p ti raw => Sys2Proof.Machine.execSync t p ti raw s
  | .followUp t p ti raw => Sys2Proof.Machine.execFollowUp t p ti raw s
  | .delayResp t p ti raw => Sys2Proof.Machine.execDelayResp t p ti raw s
  | .delayReqSend t v => Sys2Proof.Machine.execDelayReqSend t v s
  | .announceTimeout t v => Sys2Proof.Machine.execAnnounceTimeout t v s
  | .syncTimeout t v => Sys2Proof.Machine.execSyncTimeout t v s
  | .servoEnableWrite t v en => Sys2Proof.Machine.execServoEnableWrite t v en s
  | .castle t d force => Sys2Proof.Machine.execCastle t d force s
  | .stepTime t d => Sys2Proof.Machine.execStep t d s
  | .revertTimer t => Sys2Proof.Machine.execRevertTimer t s
  | .timeRead t => Sys2Proof.Machine.execTimeRead t s
  | .pulse t id => Sys2Proof.Machine.execPulse t id s
  | .pulseEnd t id => Sys2Proof.Machine.execPulseEnd t id s
  | .setHigh t id => Sys2Proof.Machine.execSetHigh t id s
  | .setLow t id => Sys2Proof.Machine.execSetLow t id s
  | .slot t id => Sys2Proof.Machine.execSlot t id s
  | .captureEdge t src rising => Sys2Proof.Machine.execCaptureEdge t src rising s
  | .sampleInstant t bad => Sys2Proof.Machine.execSampleInstant t bad s
  | .blockEnd t => Sys2Proof.Machine.execBlockEnd t s
  | .aesInputFrame t p ti ok z a b => Sys2Proof.Machine.execAesInputFrame t p ti ok z a b s
  | .inputFrameTimeout t p => Sys2Proof.Machine.execInputFrameTimeout t p s
  | .playoutRingHeadWrite t v => Sys2Proof.Machine.execPlayoutRingHeadWrite t v s
  | .rateSwitch t => Sys2Proof.Machine.execRateSwitch t s
  | .realign t => Sys2Proof.Machine.execRealign t s
  | .wclkInEdge t => Sys2Proof.Machine.execWclkInEdge t s
  | .checkRecord t n b busy => Sys2Proof.Machine.execCheckRecord t n b busy s
  | .sensorSample t ts keeper stk => Sys2Proof.Machine.execSensorSample t ts keeper stk s
  | .dutyPeriodEnd t => Sys2Proof.Machine.execDutyPeriodEnd t s
  | .criticalTrip t => Sys2Proof.Machine.execCriticalTrip t s
  | .orderlyDomainsOff t => Sys2Proof.Machine.execOrderlyDomainsOff t s
  | .restart t => Sys2Proof.Machine.execRestart t s
  | .governorRun t core vout => Sys2Proof.Machine.execGovernorRun t core vout s
  | .vcoreSettled t => Sys2Proof.Machine.execVcoreSettled t s
  | .avsTimeout t => Sys2Proof.Machine.execAvsTimeout t s
  | .vcorePowerGood t => Sys2Proof.Machine.execVcorePowerGood t s
  | .domainStart t k => Sys2Proof.Machine.execDomainStart t k s
  | .domainPowerGood t k => Sys2Proof.Machine.execDomainPowerGood t k s
  | .domainTimeout t k => Sys2Proof.Machine.execDomainTimeout t k s
  | .railsPowerGood t => Sys2Proof.Machine.execRailsPowerGood t s
  | .powerGoodLoss t rails => Sys2Proof.Machine.execPowerGoodLoss t rails s
  | .brownout t => Sys2Proof.Machine.execBrownout t s
  | .keeperPowerUp t => Sys2Proof.Machine.execKeeperPowerUp t s
  | .nvsStartupScan t bad => Sys2Proof.Machine.execNvsStartupScan t bad s
  | .recordWriteComplete t fails => Sys2Proof.Machine.execRecordWriteComplete t fails s
  | .eraseComplete t ok => Sys2Proof.Machine.execEraseComplete t ok s
  | .nvsScrub t weak => Sys2Proof.Machine.execNvsScrub t weak s
  | .copyRepair t => Sys2Proof.Machine.execCopyRepair t s
  | .counterUpdate t => Sys2Proof.Machine.execCounterUpdate t s
  | .nvsRead t => Sys2Proof.Machine.execNvsRead t s
  | .nvsWrite t dup len => Sys2Proof.Machine.execNvsWrite t dup len s
  | .nvsDelete t => Sys2Proof.Machine.execNvsDelete t s
  | .nvsPageRead t => Sys2Proof.Machine.execNvsPageRead t s
  | .nvsOtpRead t => Sys2Proof.Machine.execNvsOtpRead t s
  | .secStatus t => Sys2Proof.Machine.execSecStatus t s
  | .getNonce t rnd => Sys2Proof.Machine.execGetNonce t rnd s
  | .devicePubkey t pub => Sys2Proof.Machine.execDevicePubkey t pub s
  | .selfTest t => Sys2Proof.Machine.execSelfTest t s
  | .openUser t auth => Sys2Proof.Machine.execOpenUser t auth s
  | .close t auth tag => Sys2Proof.Machine.execClose t auth tag s
  | .attest t auth sig tag => Sys2Proof.Machine.execAttest t auth sig tag s
  | .random t auth rnd tag => Sys2Proof.Machine.execRandom t auth rnd tag s
  | .raiseMinSerial t auth => Sys2Proof.Machine.execRaiseMinSerial t auth s
  | .provisionKey t auth plain => Sys2Proof.Machine.execProvisionKey t auth plain s
  | .genDeviceKey t auth scalar pub => Sys2Proof.Machine.execGenDeviceKey t auth scalar pub s
  | .setSettings t auth => Sys2Proof.Machine.execSetSettings t auth s
  | .rotateRoot t auth => Sys2Proof.Machine.execRotateRoot t auth s
  | .installUserKey t auth => Sys2Proof.Machine.execInstallUserKey t auth s
  | .pageWrite t auth => Sys2Proof.Machine.execPageWrite t auth s
  | .pageLock t auth => Sys2Proof.Machine.execPageLock t auth s
  | .zeroise t auth => Sys2Proof.Machine.execZeroise t auth s
  | .zeroiseBurnComplete t => Sys2Proof.Machine.execZeroiseBurnComplete t s
  | .selfTestComplete t pass => Sys2Proof.Machine.execSelfTestComplete t pass s
  | .conditionalTestFail t => Sys2Proof.Machine.execConditionalTestFail t s
  | .tamper t bit => Sys2Proof.Machine.execTamper t bit s
  | .sessionTimeout t => Sys2Proof.Machine.execSessionTimeout t s
  | .componentTimeout t => Sys2Proof.Machine.execComponentTimeout t s
  | .workDoorbell t w v => Sys2Proof.Machine.execWorkDoorbell t w v s
  | .cplDoorbell t w v => Sys2Proof.Machine.execCplDoorbell t w v s
  | .ingest t w => Sys2Proof.Machine.execIngest t w s
  | .ingestComplete t w k data => Sys2Proof.Machine.execIngestComplete t w k data s
  | .exportCopy t w => Sys2Proof.Machine.execExport t w s
  | .exportComplete t w k => Sys2Proof.Machine.execExportComplete t w k s
  | .nop t w => Sys2Proof.Machine.execNop t w s
  | .ringEnable t w => Sys2Proof.Machine.execRingEnable t w s
  | .ringDisable t w => Sys2Proof.Machine.execRingDisable t w s
  | .functionLevelReset t cause => Sys2Proof.Machine.execFunctionLevelReset t cause s
  | .linkUp t speed width => Sys2Proof.Machine.execLinkUp t speed width s
  | .powerStateChange t d3 => Sys2Proof.Machine.execPowerStateChange t d3 s
  | .bar2Read t o n => Sys2Proof.Machine.execBar2Read t o n s
  | .bar2Write t o bs => Sys2Proof.Machine.execBar2Write t o bs s
  | .msixUnmask t v => Sys2Proof.Machine.execMsixUnmask t v s
  | .eventLogWrite t => Sys2Proof.Machine.execEventLogWrite t s
  | .logTailWrite t v => Sys2Proof.Machine.execLogTailWrite t v s
  | .sysUnitReset t v => Sys2Proof.Machine.execSysUnitReset t v s
  | .dbgTraceEnable t v => Sys2Proof.Machine.execDbgTraceEnable t v s
  | .dbgTraceRecord t kind index b => Sys2Proof.Machine.execDbgTraceRecord t kind index b s
  | .firmwareLoad t => Sys2Proof.Machine.execFirmwareLoad t s
  | .firmwareChecked t sigOk tagOk => Sys2Proof.Machine.execFirmwareChecked t sigOk tagOk s
  | .firmwareSwitch t => Sys2Proof.Machine.execFirmwareSwitch t s
  | .coreWatchdog t good => Sys2Proof.Machine.execCoreWatchdog t good s
  | .unitWatchdog t u inst => Sys2Proof.Machine.execUnitWatchdog t u inst s
  | .tilthWatchdog t k => Sys2Proof.Machine.execTilthWatchdog t k s
  | .fatalFreeze t cause detail => Sys2Proof.Machine.execFatalFreeze t cause detail s
  | .force t => Sys2Proof.Machine.execForce t s
  | .captureStart t => Sys2Proof.Machine.execCaptureStart t s
  | .captureComplete t scan => Sys2Proof.Machine.execCaptureComplete t scan s
  | .summaryCommitted t => Sys2Proof.Machine.execSummaryCommitted t s
  | .restoreComplete t => Sys2Proof.Machine.execRestoreComplete t s
  | .release t => Sys2Proof.Machine.execRelease t s
  | .syncInOtherPolarityEdge t => Sys2Proof.Machine.execSyncInOtherPolarityEdge t s
  | .alwaysOnRailLoss t => Sys2Proof.Machine.execAlwaysOnRailLoss t s

end Sys2Proof.Machine
end

