-- ==== Sys2Proof/Safety.lean ====
section
/-!
DEFINITION. What counts as a well-kept state: device memory and the register files in their canonical form, so that equal
contents are equal data.
-/

namespace Sys2Proof.Machine

/-- Device memory in canonical form: addresses strictly rising, and no byte equal to what an unlisted address reads. -/
abbrev Memory.wf (m : List Host.Cell) : Bool := sparseWf memDefault m

/-- A register file in canonical form: offsets strictly rising, and no word equal to its reset word. -/
abbrev RegFile.wf (rf : RegFile) : Bool := sparseWf resetWord rf

/-- The command answers a next state; the spec gives the device no fault (R15), so this is what a safe step is. -/
def Out.isNext (o : Out) : Bool :=
  match o with
  | .next _ => true
  | .fault _ => false
  | .refused _ => false

/-- Grants at a consumer port since level `l`, with an entry ready, was last served (R19). -/
def TiltPort.age (tp : TiltPort) (l : Nat) : Nat := assocGet l 0 tp.starve

/-- Levels 0 to 2 of a port for which `p` holds. -/
def TiltPort.lower (p : Nat → Bool) : Nat := ([0, 1, 2].filter p).length

/-- The bookkeeping of a port under which no level with an entry ready waits past its sixteenth grant (R19). -/
def TiltPort.fair (tp : TiltPort) : Prop :=
  tp.age 3 ≤ TiltPort.lower (fun l => decide (tp.age l < tp.age 3)) ∧
  ∀ k, k < 4 → TiltPort.lower (fun l => decide (13 + k ≤ tp.age l)) ≤ 3 - k

/-- The entries that all queues hold of the fabric fit it (R20, R42). -/
def fabricFits (qs : List TiltQueue) : Prop := (qs.map TiltQueue.held).sum ≤ tilthEntries

end Sys2Proof.Machine
end

