-- ==== Sys2Proof/Certificates/Slice0/Obligations.lean ====
section
/-!
DEFINITION. The statements about the model, for the provers: what each command does, what it leaves unchanged, and what every step
keeps. A clause whose conclusion is an equation with a next state says the whole of that state.
-/

open Sys2Proof Sys2Proof.Machine

/-- With command c at the front of the queue, one step is exec of c on the state that holds the rest of the queue; with no command waiting the device idles (the idling is the model's choice, log entry 100). (derived from 95_what_each_step_holds, 00_scope.) -/
def Obligations.FrontCommandRuns : Prop :=
  (∀ (s : State) (c : Instr) (cs : List Instr), s.pending = c :: cs → step s = exec c { s with pending := cs }) ∧
  (∀ s : State, s.pending = [] → step s = .next s)

/-- Every command, in every state and with all operands, answers a next state: the model has no fault and refuses nothing, as a device that does not hang (R15; that misuse only passes time where nothing is stated is the model's choice, log entries 35 and 100). (derived from R15.) -/
def Obligations.EveryCommandAnswersNext : Prop :=
  (∀ (i : Instr) (s : State), ∃ u, exec i s = .next u) ∧ (∀ s : State, ∃ u, step s = .next u)

/-- Whatever the state, if device memory is in canonical form (addresses strictly rising, no byte equal to what an unlisted address reads) then it is after any step; so equal memories stay equal data. The canonical form is the model's own (log entry 3). (derived from R398, R403.) -/
def Obligations.MemoryStaysCanonical : Prop :=
  ∀ s u : State, Memory.wf s.mem = true → step s = .next u → Memory.wf u.mem = true

/-- At reset memory and every register file are in canonical form, no command and no event waits, every register word reads its table's reset value, the field die is not powered, and no epoch is in force anywhere. (derived from R10, R16, 00_scope.) -/
def Obligations.ResetIsWellKept : Prop :=
  Memory.wf State.reset.mem = true ∧ RegFile.wf State.reset.regs = true ∧ RegFile.wf State.reset.cmt.inForce = true ∧
  State.reset.pending = [] ∧ State.reset.sys.logPend = [] ∧ (∀ off, State.reset.rd off = (resetWord off).toNat) ∧
  State.reset.fieldOn = false ∧ (∀ u, State.reset.epochAt u = 0) ∧ (∀ a, State.reset.byte a = 0) ∧
  (∀ w, w < 64 → (State.reset.ring w).st = .disabled)

/-- A write of a 32-bit register with no rule of its own: an RW field takes the written bits unless they are a reserved value of an enumerated field, when it keeps its value; a W1C field clears the bits written 1; every other bit of the fields is unchanged; no other register changes; and beside registers only the event log and the noted staged writes change. Where no reserved value was written and the word has no staged field neither of those changes. (derived from R10, R11.) -/
def Obligations.RegisterWriteFields : Prop :=
  ∀ (s : State) (t off v : Nat) (r : RegRow) (i j : Nat), s.hst.d3 = false → off % 4 = 0 → v < 2 ^ 32 →
    s.unreachable off = false → inMsix off = false → rowAt off = some (r, i, j, 0) → r.wide = false →
    (s.tick t).writeBlocked r i j off v = none → s.enableMask r off = 0 → writeRules.find? (fun q => q.1 == r.off) = none →
    ∃ u, exec (.registerWrite t off v) s = .next u ∧
      (∀ f ∈ r.fields, bitsOf (u.rd off) f.hi f.lo =
        match f.acc with
        | .rw => if f.allows (bitsOf v f.hi f.lo) then bitsOf v f.hi f.lo else bitsOf (s.rd off) f.hi f.lo
        | .w1c => clearBits (bitsOf (s.rd off) f.hi f.lo) (bitsOf v f.hi f.lo)
        | _ => bitsOf (s.rd off) f.hi f.lo) ∧
      (∀ o, o ≠ off → u.rd o = s.rd o) ∧
      u = { s with now := max s.now t, regs := u.regs, sys := u.sys, cmt := u.cmt } ∧
      ((∀ f ∈ r.fields, f.acc = .rw → f.allows (bitsOf v f.hi f.lo) = true) → u.sys = s.sys) ∧
      ((∃ f ∈ r.fields, f.acc = .rw ∧ f.allows (bitsOf v f.hi f.lo) = false) →
        u.sys = ((s.tick t).event 0x0103 0 off v).sys) ∧
      (hasStaged off = false → u.cmt = s.cmt)

/-- A low-word write only holds the word pending in place of an earlier one; a high-word write with a low word pending writes both words by their fields, and with none pending the low word in force and the high word, which writes only the high word unless the register is staged; a low-word read answers the low word and latches the high word. (derived from R12.) -/
def Obligations.WideRegisterWords : Prop :=
  (∀ (s : State) (t off v : Nat) (r : RegRow) (i j : Nat), s.hst.d3 = false → v < 2 ^ 32 → s.unreachable off = false →
    inMsix off = false → rowAt off = some (r, i, j, 0) → r.wide = true →
    exec (.registerLowWordWrite t off v) s =
      .next { s with now := max s.now t, lowPend := (off, BitVec.ofNat 32 v) :: s.lowPend.filter (fun q => q.1 != off) }) ∧
  (∀ (s s1 : State) (t off v : Nat) (r : RegRow) (i j : Nat), s.hst.d3 = false → v < 2 ^ 32 →
    s.unreachable off = false → inMsix off = false → rowAt off = some (r, i, j, 1) → r.wide = true →
    s1 = { s with now := max s.now t, lowPend := s.lowPend.filter (fun q => q.1 != off - 4) } →
    (∀ b, s1.writeBlocked r i j off v = some b → exec (.registerHighWordWrite t off v) s = .next b) ∧
    (writeRules.find? (fun q => q.1 == r.off) = none → s1.writeBlocked r i j off v = none →
      (s1.enableMask r off = 0 → s.lowPend.find? (fun q => q.1 == off - 4) = none → hasStaged (off - 4) = false →
        exec (.registerHighWordWrite t off v) s = .next (s1.plain off v)) ∧
      (s.lowPend.find? (fun q => q.1 == off - 4) = none → hasStaged (off - 4) = true → rowAt (off - 4) = some (r, i, j, 0) →
        s1.writeBlocked r i j (off - 4) (s1.rd (off - 4)) = none → s1.enableMask r (off - 4) = 0 →
        (s1.plain (off - 4) (s1.rd (off - 4))).writeBlocked r i j off v = none →
        (s1.plain (off - 4) (s1.rd (off - 4))).enableMask r off = 0 →
        exec (.registerHighWordWrite t off v) s = .next ((s1.plain (off - 4) (s1.rd (off - 4))).plain off v)) ∧
      (∀ l, l < 2 ^ 32 → s.lowPend.find? (fun q => q.1 == off - 4) = some (off - 4, BitVec.ofNat 32 l) →
        rowAt (off - 4) = some (r, i, j, 0) → s1.writeBlocked r i j (off - 4) l = none → s1.enableMask r (off - 4) = 0 →
        (s1.plain (off - 4) l).writeBlocked r i j off v = none → (s1.plain (off - 4) l).enableMask r off = 0 →
        exec (.registerHighWordWrite t off v) s = .next ((s1.plain (off - 4) l).plain off v)))) ∧
  (∀ (s : State) (t off : Nat) (r : RegRow) (i j : Nat), s.hst.d3 = false → s.unreachable off = false →
    inMsix off = false → rowAt off = some (r, i, j, 0) → r.wide = true → inWindowOf 0x18 off = false →
    exec (.registerLowWordRead t off) s = .next
      (({ s with now := max s.now t, hiLatch := (off + 4, BitVec.ofNat 32 ((s.tick t).peek (off + 4))) :: s.hiLatch.filter (fun q => q.1 != off + 4) }
        : State).answer (leBytes 4 ((s.tick t).peek off))))

/-- A read of SYS_LOG_DROPPED, SYS_FR_DROPPED or DBG_TRACE_DROPPED answers the count and leaves 0 (R10). An aligned access of BAR0 where nothing is defined logs SYS_UNMAPPED with the offset, a read answers 0 and a write changes nothing. A narrower write is dropped and logged as SYS_ACCESS_SIZE; a narrower read answers the bytes asked for of the words it touches. (derived from R551.) -/
def Obligations.ReadsThatClearAndNarrowAccesses : Prop :=
  (∀ (s : State) (t : Nat) (off : Nat), s.hst.d3 = false → off = Reg.SYS_LOG_DROPPED ∨ off = Reg.SYS_FR_DROPPED →
    exec (.readClear t off) s = .next (((s.tick t).wr off 0).answer (leBytes 4 (s.rd off)))) ∧
  (∀ (s : State) (t : Nat), s.hst.d3 = false → s.fieldOn = true → s.debugLocked = false →
    exec (.readClear t Reg.DBG_TRACE_DROPPED) s =
      .next (((s.tick t).wr Reg.DBG_TRACE_DROPPED 0).answer (leBytes 4 (s.rd Reg.DBG_TRACE_DROPPED)))) ∧
  (∀ (s : State) (t off v : Nat), s.hst.d3 = false → off % 4 = 0 → off < 0x800000 → defined0 off = false →
    s.unreachable off = false →
    exec (.unmappedAccess t off false v) s = .next (((s.tick t).event 0x0104 0 off 0).answer [0, 0, 0, 0]) ∧
    exec (.unmappedAccess t off true v) s = .next ((s.tick t).event 0x0104 0 off 0)) ∧
  (∀ (s : State) (t off n : Nat), s.hst.d3 = false → 0 < n → ¬ (n = 4 ∧ off % 4 = 0) → ¬ (n = 8 ∧ off % 8 = 0) →
    (s.unreachable (4 * (off / 4)) = false → exec (.narrowAccess t false true off n) s = .next ((s.tick t).event 0x0105 0 off 0)) ∧
    (s.fieldOn = true → exec (.narrowAccess t true true off n) s = .next ((s.tick t).event 0x0105 0 off 0)) ∧
    (off % 4 + n ≤ 4 → exec (.narrowAccess t false false off n) s = .next
      (((s.tick t).readWord (4 * (off / 4))).2.answer
        (slice (leBytes 4 ((s.tick t).readWord (4 * (off / 4))).1) (off % 4) n))) ∧
    (off % 4 + n ≤ 4 → s.fieldOn = true → exec (.narrowAccess t true false off n) s = .next
      ((s.tick t).answer (slice (leBytes 4 (s.readDoorbell (4 * (off / 4)))) (off % 4) n))) ∧
    (4 < off % 4 + n → off % 4 + n ≤ 8 → exec (.narrowAccess t false false off n) s = .next
      ((((s.tick t).readWord (4 * (off / 4))).2.readWord (4 * (off / 4 + 1))).2.answer
        (slice (leBytes 4 ((s.tick t).readWord (4 * (off / 4))).1 ++
          leBytes 4 (((s.tick t).readWord (4 * (off / 4))).2.readWord (4 * (off / 4 + 1))).1) (off % 4) n))))

/-- An entry is placed at the end of its queue while the queue has a credit and no marker waits for one; otherwise the producer waits and no entry changes. A consumer port that has an entry ready removes the front entry of the queue chosen, whose credit returns, and markers that stand at the front of data queues are then taken by the units that have reached their epoch; a port with none ready, one of the memory controller whose head entry waits for a slot, or any in a fatal freeze, changes nothing. Settling markers changes only the queues, the check units and the snapshots of epochs, and only the credits where no marker stands at the front of a data queue. (derived from R18.) -/
def Obligations.TilthPlaceAndGrant : Prop :=
  (∀ (s : State) (t k : Nat) (data : List Nat), exec (.tilthPlaceEntry t k data) s = .next { s with
      now := max s.now t
      tlt := { s.tlt with queues := s.tlt.queues.map (fun q => if q.num = k then
        (if q.owed = [] ∧ q.entries.length < q.granted then
          { q with entries := q.entries ++ [⟨0, data, max s.now t⟩], blocked := false,
                   frontSince := if q.entries = [] then max s.now t else q.frontSince }
        else { q with blocked := true }) else q) } }) ∧
  (∀ (s : State) (t u p k l : Nat), s.cmt.stopped = false → s.portHeld u p = false → s.grantChoice u p = some (k, l) →
    ∃ ports w, exec (.tilthGrant t u p) s = .next w ∧ w = ({ s with
        now := max s.now t
        tlt := { s.tlt with
          queues := s.tlt.queues.map (fun q => if q.num = k then q.pop (max s.now t) else q)
          ports := ports } } : State).settleMarkers ∧
      assocGet l 0 (w.tiltPort u p).last = k + 1 ∧ (w.tiltPort u p).age l = 0) ∧
  (∀ (s : State) (t u p : Nat), s.cmt.stopped = true ∨ s.portHeld u p = true ∨ s.grantChoice u p = none →
    exec (.tilthGrant t u p) s = .next (s.tick t)) ∧
  (∀ s : State, (∀ q ∈ s.tlt.queues, q.markerQueue = false → ∀ x ∈ q.entries.head?, x.marker = 0) →
    s.settleMarkers = { s with tlt := { s.tlt with queues := settleQueues s.now s.tlt.queues } }) ∧
  (∀ s : State, ∃ qs epochs, s.settleMarkers = { s with
      tlt := { s.tlt with queues := qs }
      cmt := { s.cmt with epochs := epochs }
      chk := s.settleMarkers.chk }) ∧
  (∀ (q : TiltQueue) (now : Nat), q.owed = [] → (q.pop now).entries = q.entries.drop 1)

/-- A port's grant bookkeeping stays fair under every grant at that port, and while it is fair no level with an entry ready has waited more than 15 grants; a level that has waited 15 grants, with an entry ready, is the one granted next. Other ports' bookkeeping is unchanged. (How a waiting level is counted is the model's choice, log entry 114.) (derived from R19.) -/
def Obligations.NoLevelWaitsPastSixteenGrants : Prop :=
  ∀ (s w : State) (t u p : Nat), (s.tiltPort u p).fair → exec (.tilthGrant t u p) s = .next w →
    (w.tiltPort u p).fair ∧ (∀ l, l < 4 → (w.tiltPort u p).age l ≤ 15) ∧
    (∀ l, l ∈ readyLevels (s.feeding u p) → (s.tiltPort u p).age l = 15 → s.cmt.stopped = false → s.portHeld u p = false →
      (w.tiltPort u p).age l = 0) ∧
    (∀ u' p', (u', p') ≠ (u, p) → w.tiltPort u' p' = s.tiltPort u' p')

/-- If what all queues hold (their granted credits, or their entries after a reduction) fits the fabric's 65,536 entries, it does after an entry is placed, after a grant, and after an overlay changes a queue's credits to a count within the credits the others are given; and no queue is granted more than its credit count. (derived from R20, R42.) -/
def Obligations.FabricNeverOverfilled : Prop :=
  (∀ (s w : State) (t k : Nat) (data : List Nat), fabricFits s.tlt.queues → exec (.tilthPlaceEntry t k data) s = .next w →
    fabricFits w.tlt.queues) ∧
  (∀ (s w : State) (t u p : Nat), fabricFits s.tlt.queues → exec (.tilthGrant t u p) s = .next w → fabricFits w.tlt.queues) ∧
  (∀ (k c prio : Nat) (qs : List TiltQueue), fabricFits qs → fabricFits (setCredits k c prio qs)) ∧
  (∀ (k c prio : Nat) (qs : List TiltQueue), (∀ q ∈ qs, q.granted ≤ q.credits) →
    ∀ q ∈ setCredits k c prio qs, q.granted ≤ q.credits)

/-- A marker at the front of a unit's marker queue, with everything before it taken, leaves the queue and the unit then takes that epoch; frozen units consume nothing. Before the first epoch a unit whose writes have settled is released and leaves SYS_RESET_STATUS. A die-edge FIFO fault is noted; the link handles it by its chapter, and another interface unit logs its event, whose code and arguments are free values (log entry 86). A pace window forms each unit's count, saturating at 0xFF_FFFF, and brings the unit watchdog's counts up to date, of which it keeps those above 0. (derived from R25.) -/
def Obligations.MarkersSettleAndFifoFaults : Prop :=
  (∀ (s : State) (t u : Nat) (q : TiltQueue) (x : TiltEntry) (es : List TiltEntry), s.fieldOn = true → s.cmt.stopped = false →
    s.tlt.queues.find? (fun q => q.markerQueue && q.consUnit == u) = some q → q.entries = x :: es → x.marker ≠ 0 →
    s.behind u x.marker = false → exec (.epochMarkerConsumed t u) s = .next (({ s with
      now := max s.now t
      tlt := { s.tlt with queues := settleQueues (max s.now t) (s.tlt.queues.map (fun p => if p.num = q.num then p.pop (max s.now t) else p)) } }
        : State).markerTaken u x.marker [q.num])) ∧
  (∀ (s : State) (t u : Nat), s.cmt.stopped = true → exec (.epochMarkerConsumed t u) s = .next (s.tick t)) ∧
  (∀ (s : State) (t u : Nat), s.cmt.last = 0 → unitOff s u = false → s.cmt.stopped = false → s.fieldOn = true ∨ u = 15 →
    exec (.unitWritesSettled t u) s = .next (((s.tick t).releaseUnit u).rejoin u)) ∧
  (∀ (s : State) (t u i : Nat), s.fieldOn = true →
    exec (.dieEdgeFifoFault t u i) s = .next
      (if u = 13 then ({ s with now := max s.now t, tlt := { s.tlt with fifoFaults := s.tlt.fifoFaults ++ [(u, i)] } } : State).linkFifo
          (i % 48)
       else ({ s with now := max s.now t, tlt := { s.tlt with fifoFaults := s.tlt.fifoFaults ++ [(u, i)] } } : State).fifoEvent u i)) ∧
  (∀ (s : State) (t : Nat) (counts : List (Nat × Nat)), exec (.paceWindowEnd t counts) s = .next { s with
      now := max s.now t
      tlt := { s.tlt with
        paceLast := counts.map (fun p => (p.1, min p.2 0xFFFFFF))
        windowAt := max s.now t
        watched := (s.tick t).watchCounts counts
        untimed := !s.domainOn 5 } }) ∧
  (∀ (s : State) (counts : List (Nat × Nat)) (u i n : Nat), (watchKey u i, n) ∈ s.watchCounts counts → 0 < n)

/-- When a unit applies an epoch, each register of its window that the epoch's commits wrote is in force with the last captured value and every other register in force is unchanged; the staging shadow is not touched. (derived from R21, R22.) -/
def Obligations.EpochSettingsReachOneUnit : Prop :=
  (∀ (s : State) (u : Nat) (e : Epoch) (off : Nat), inWindowOf u off = false ∨ (∀ c ∈ e.commits, ∀ q ∈ c.writes, q.1 ≠ off) →
    (s.applyEpoch u e).cmt.inForce.rd off = s.cmt.inForce.rd off) ∧
  (∀ (s : State) (u : Nat) (e : Epoch) (cs : List Commit) (c : Commit) (ws : List (Nat × Nat × Nat)) (off st v : Nat),
    inWindowOf u off = true → v < 2 ^ 32 → e.commits = cs ++ [c] → c.writes = ws ++ [(off, st, v)] →
    (s.applyEpoch u e).cmt.inForce.rd off = v) ∧
  (∀ (s : State) (u : Nat) (e : Epoch), s.applyEpoch u e = { s with cmt := { s.cmt with
      inForce := (s.applyEpoch u e).cmt.inForce } })

/-- LOAD starts the copy when memory is trained, no load is busy and firmware runs; while BUSY it is only logged, and while memory is not trained it does nothing; the complete copy goes to authentication; a good signature with a serial not below the minimum goes to decryption; a good tag with a checked structure waits for the switch; and the switch puts the new structure in force, with an empty topology of its own queues, STAGE DONE and vector 0. A failed check refuses the load with its code. (derived from R51, R52, R54, R55, R56.) -/
def Obligations.ShoashLoadSteps : Prop :=
  (∀ (s : State) (t : Nat), s.fieldOn = true → s.hst.d3 = false → s.trained = true → s.loadBusy = false → s.flag F.SYS_FW_STATUS_RUNNING = true →
    exec (.shoashLoad t) s = .next (((s.tick t).put F.SYS_IMG_STATUS_COPIED 0).setStage .copy)) ∧
  (∀ (s : State) (t : Nat), s.fieldOn = true → s.hst.d3 = false → s.trained = true → s.loadBusy = true →
    exec (.shoashLoad t) s = .next ((s.tick t).event 0x0140 0 0 0)) ∧
  (∀ (s : State) (t : Nat), s.fieldOn = true → s.hst.d3 = false → s.trained = false → exec (.shoashLoad t) s = .next (s.tick t)) ∧
  (∀ (s : State) (t n : Nat) (b : List Nat), s.sho.stage = .copy → n = s.get F.SYS_IMG_LEN_LEN →
    b = s.read (s.get F.SYS_IMG_ADDR_ADDR * 4096) (min n stagingSize) → s.stagingBase = none → shoEarly b n true (s.get F.SYS_ID_STEPPING) = 0 →
    s.secOk = true → exec (.imageCopyComplete t) s = .next
      (({ (s.tick t).noteRead 15 (s.get F.SYS_IMG_ADDR_ADDR * 4096) (min n stagingSize) with sho := { s.sho with staging := b } } : State).put
        F.SYS_IMG_STATUS_COPIED 1 |>.setStage .auth)) ∧
  (∀ (s : State) (t n a : Nat) (b : List Nat), s.sho.stage = .copy → n = s.get F.SYS_IMG_LEN_LEN →
    b = s.read (s.get F.SYS_IMG_ADDR_ADDR * 4096) (min n stagingSize) → s.stagingBase = some a → shoEarly b n true (s.get F.SYS_ID_STEPPING) = 0 →
    s.secOk = true → exec (.imageCopyComplete t) s = .next
      (({ ((s.tick t).noteRead 15 (s.get F.SYS_IMG_ADDR_ADDR * 4096) (min n stagingSize)).store 15 a b with
        sho := { s.sho with staging := b } } : State).put F.SYS_IMG_STATUS_COPIED 1 |>.setStage .auth)) ∧
  (∀ (s : State) (t : Nat), s.sho.stage = .auth → s.rootSigned s.sho.staging = true →
    s.minSerial 0 ≤ fieldLE s.sho.staging 0x10 4 → s.secOk = true →
    exec (.imageSignatureResult t true) s = .next ((s.tick t).setStage .decrypt)) ∧
  (∀ (s : State) (t : Nat), s.sho.stage = .auth → exec (.imageSignatureResult t false) s = .next ((s.tick t).shoRefuse 0x0144)) ∧
  (∀ (s : State) (t : Nat) (plain : List Nat) (im : Image), s.sho.stage = .decrypt →
    (s.otpValue (2 + s.sho.staging.getD 0x0D 0)).isSome = true →
    shoFullCheck s.sho.staging (slice plain 0 (shoPayloadLen s.sho.staging)) ((s.tick t).setStage .check).panelHash
      ((s.tick t).setStage .check).pageValid ((s.tick t).setStage .check).phaseNs = .ok im →
    exec (.imageDecryptResult t true plain) s = .next
      { ((s.tick t).setStage .check).setStage .switch with sho := { s.sho with stage := .switch, next := some im } }) ∧
  (∀ (s : State) (t : Nat) (plain : List Nat), s.sho.stage = .decrypt →
    exec (.imageDecryptResult t false plain) s = .next ((s.tick t).shoRefuse 0x0146))

/-- When the checked image waits, the switch has started or no image ran before, every unit has drained and nothing is frozen: the running structure is the checked one, the fabric holds exactly its queues, empty and with all credits granted, the load shows DONE and ACTIVE, and IMAGE reads 1. (derived from R54, R56.) -/
def Obligations.SwitchTakesTheNewStructure : Prop :=
  ∀ (s : State) (t : Nat) (im : Image), s.fieldOn = true → s.sho.next = some im → s.sho.stage = .switch →
    (s.sho.run = none ∨ s.sho.switching = true) → s.drained = true → s.cmt.stopped = false →
    ∃ u, exec (.switchComplete t) s = .next u ∧ u.sho.run = some im ∧ u.sho.next = none ∧ u.sho.switching = false ∧
      u.sho.stage = .done ∧ u.tlt.queues = queuesOf im ∧ u.mem = (if s.sho.run = none then u.mem else s.mem) ∧
      u.pending = s.pending ∧ u.hst.rings = s.hst.rings

/-- The commit unit takes the earliest committed descriptor with the staged writes stamped before this instant, which leave the shadow's list; one left unchecked by a fatal event goes first; its overlay is copied and checked once no full load is busy; the Board answers a check request unless HALTED; and the checks end as soon as the last is made, accepting the commit or refusing it whole. What the unit and the Board read of memory for it is noted at the controller. (derived from R57, R70, R72, R252.) -/
def Obligations.CommitIsTakenAndChecked : Prop :=
  (∀ (s : State) (t w : Nat) (d : Desc), s.fieldOn = true → s.mayCommit = true → s.cmt.recheck = [] → s.nextCommit = some (w, d) →
    ∃ u, exec (.commit t) s = .next u ∧ u.cmt.checking = some
        { ring := w, slot := d.slot, num := d.num, bytes := d.bytes, capture := max s.now t, flags := fieldLE d.bytes 8 4,
          writes := captureOf (max s.now t) s.cmt.writes } ∧
      u.cmt.writes = s.cmt.writes.filter (fun q => decide (max s.now t ≤ q.2.1)) ∧ u.cmt.waiting = s.cmt.waiting ∧
      u = { s with now := max s.now t, regs := u.regs, hst := u.hst, cmt := u.cmt }) ∧
  (∀ (s : State) (t : Nat) (c : Commit) (r : List Commit), s.fieldOn = true → s.mayCommit = true → s.cmt.recheck = c :: r →
    exec (.commit t) s = .next
      (({ s with now := max s.now t, cmt := { s.cmt with checking := some c, recheck := r } } : State).cmtShow)) ∧
  (∀ (s : State) (t : Nat) (sigOk tagOk : Bool) (plain : List Nat) (c : Commit), s.fieldOn = true → s.cmt.checking = some c →
    c.hasOverlay = true → c.overlayCode = none → s.loadBusy = false → (s.tick t).commitEarly c = 0 →
    ∃ u, exec (.overlayCopyStart t sigOk tagOk plain) s = .next u ∧
      u.cmt.checking = some { c with
        overlay := s.read (fieldLE c.bytes 0x18 8) (min (fieldLE c.bytes 0x20 4) stagingSize)
        plain := slice plain 0 (shoPayloadLen (s.read (fieldLE c.bytes 0x18 8) (min (fieldLE c.bytes 0x20 4) stagingSize)))
        overlayCode := some ((s.tick t).overlayCheck (s.read (fieldLE c.bytes 0x18 8) (min (fieldLE c.bytes 0x20 4) stagingSize)) (fieldLE c.bytes 0x20 4) sigOk tagOk
          (slice plain 0 (shoPayloadLen (s.read (fieldLE c.bytes 0x18 8) (min (fieldLE c.bytes 0x20 4) stagingSize))))) } ∧
      u.loadBusy = true ∧ u.sho.overlay = true) ∧
  (∀ (s : State) (t : Nat) (c : Commit), s.fieldOn = true → s.cmt.checking = some c → c.needsBoard = true → c.board = none →
    s.sho.switching = false → (s.tick t).beforeBoard c = some (0, none) → s.get F.BRD_STATUS_STATE ≠ 0 →
    exec (.brdLayerCheck t) s = .next { (if c.hasLayers then (s.tick t).noteReads 10 ((s.tick t).layersReads 0 [] ((s.tick t).listFor c))
      else s.tick t) with cmt := { s.cmt with checking := some { c with board := some ((s.tick t).boardCheck c) } } }) ∧
  (∀ (s : State) (t k l : Nat) (c : Commit) (d : Option Nat), s.fieldOn = true → s.cmt.checking = some c → s.sho.switching = false →
    s.cmt.stopped = false → (s.tick t).commitCode c = some (k, l, d) →
    exec (.commitChecksComplete t) s = .next
      (if k = 0 then ((s.tick t).noteReads 1 (c.reads 0)).commitAccept c else ((s.tick t).noteReads 1 (c.reads k)).commitRefuse c k l d))

/-- When a check fails, nothing of the commit takes effect: no waiting commit, no setting taken, sealed or in force, no structure and no epoch changes; each register it captured, if not written since, has its captured staged fields back in the shadow; the checks are over and the refusal is logged once under its code with ring, layer and detail. An accepted commit waits with its completion stamp, behind those taken before it. (derived from R73, R72.) -/
def Obligations.RefusedCommitLeavesNothing : Prop :=
  (∀ (s : State) (t k l : Nat) (c : Commit) (d : Option Nat), s.fieldOn = true → s.cmt.checking = some c → s.sho.switching = false →
    s.cmt.stopped = false → (s.tick t).commitCode c = some (k, l, d) → k ≠ 0 →
    ∃ u, exec (.commitChecksComplete t) s = .next u ∧ u.cmt.checking = none ∧ u.cmt.waiting = s.cmt.waiting ∧
      u.cmt.takenRegs = s.cmt.takenRegs ∧ u.cmt.sealedRegs = s.cmt.sealedRegs ∧ u.cmt.inForce = s.cmt.inForce ∧
      u.cmt.epochs = s.cmt.epochs ∧ u.sho.run = s.sho.run ∧ u.cmt.last = s.cmt.last ∧
      (∀ q ∈ c.writes, s.cmt.since.contains q.1 = false →
        q ∈ u.cmt.writes)) ∧
  (∀ (s : State) (t l : Nat) (c : Commit) (d : Option Nat), s.fieldOn = true → s.cmt.checking = some c → s.sho.switching = false →
    s.cmt.stopped = false → (s.tick t).commitCode c = some (0, l, d) →
    ∃ u c', exec (.commitChecksComplete t) s = .next u ∧ u.cmt.checking = none ∧ u.cmt.waiting = s.cmt.waiting ++ [c'] ∧
      c'.complete = max s.now t ∧ c'.completeShort = (s.tick t).short (max s.now t) ∧ c'.capture = c.capture ∧ c'.writes = c.writes ∧ c'.ring = c.ring ∧
      u.cmt.takenRegs = (s.tick t).takenWith c ∧ u.cmt.sealedRegs = s.cmt.sealedRegs ∧
      u.cmt.inForce = s.cmt.inForce ∧ u.cmt.last = s.cmt.last)

/-- A waiting commit lands at the latch instant exactly when it completed before it, its NOT_BEFORE is not after the frame's target, and no earlier waiting commit of its ring stays behind; landed and waiting commits keep their order and together are those that waited. (derived from R74, R77.) -/
def Obligations.LandingRule : Prop :=
  (∀ (now target : Nat) (pre post : List Commit) (c : Commit), (pre ++ c :: post).Nodup →
    (c ∈ (landing now target [] (pre ++ c :: post)).1 ↔
      c.complete < now ∧ c.notBefore ≤ target ∧ ∀ b ∈ pre, b.ring = c.ring → b ∈ (landing now target [] (pre ++ c :: post)).1)) ∧
  (∀ (now target : Nat) (cs : List Commit), (landing now target [] cs).1.Sublist cs ∧ (landing now target [] cs).2.Sublist cs ∧
    (landing now target [] cs).1.length + (landing now target [] cs).2.length = cs.length)

/-- At the latch instant the next epoch is sealed, or during a switch the frame is held; the earliest epoch not published is published once every unit has latched it; the earliest epoch not retired retires once its readers have passed it and no frame holds its content; FREEZE holds the view with its stamp, a write of 0 releases it, and 250 ms after it was set it is released with EXPIRED and a log entry; DISCARD returns every staged field to its sealed value and empties the list of staged writes. (derived from R77, R82, R83, R84, R103.) -/
def Obligations.LatchPublishRetireFreezeDiscard : Prop :=
  (∀ (s : State) (t : Nat) (x : State), s.fieldOn = true → (s.tick t).latchDue = true → s.sho.switching = false → s.cmt.stopped = false →
    x = ({ s with now := max s.now t, cmt := { s.cmt with latched := s.frameNo } } : State).sealNext →
    exec (.latchInstant t) s = .next
      (if x.sho.stage = .switch ∧ x.sho.next.isSome = true ∧ x.sho.run.isSome = true then x.switchStart else x)) ∧
  (∀ (s : State) (t : Nat), s.fieldOn = true → (s.tick t).latchDue = true → s.sho.switching = true →
    exec (.latchInstant t) s = .next (({ s with
      now := max s.now t, cmt := { s.cmt with latched := s.frameNo }, sho := { s.sho with held := s.sho.held + 1 } } : State).put
        F.SYS_IMG_STATUS_HOLD_FRAMES (min (s.sho.held + 1) 255))) ∧
  (∀ (s : State) (t : Nat) (e : Epoch), s.fieldOn = true → s.cmt.epochs.find? (fun x => !x.published) = some e →
    s.markerUnits.all e.latched.contains = true → e.latched.isEmpty = false →
    ∃ u, exec (.epochPublish t) s = .next u ∧ u.cmt.heldEpoch = e.num ∧
      (∀ x ∈ u.cmt.epochs, x.num = e.num → x.published = true) ∧
      (s.flag F.CMT_SNAP_CTRL_FREEZE = true → ∀ o, isSnap o = true → u.rd o = s.rd o)) ∧
  (∀ (s : State) (t : Nat) (e : Epoch), s.fieldOn = true → s.cmt.epochs.find? (fun x => !x.retired) = some e →
    s.passedUnits e = true → s.heldLater e = false → exec (.epochRetire t) s = .next
      ((e.commits.foldl (fun s c => if c.silent then s
          else s.postCompletion c.ring c.num (commitBody 3 0 e.num e.frame c.completeShort 0xFFFF))
        (((s.tick t).onEpoch e.num (fun x => { x with retired := true })).put F.CMT_EPOCH_RETIRED_EPOCH e.num)).dropEpochs)) ∧
  (∀ (s : State) (t : Nat), s.fieldOn = true → s.hst.d3 = false → s.flag F.CMT_SNAP_CTRL_FREEZE = false →
    exec (.snapshotFreeze t true) s = .next (({ s with now := max s.now t, cmt := { s.cmt with freezeAt := max s.now t } } : State).put
      F.CMT_SNAP_CTRL_FREEZE 1)) ∧
  (∀ (s : State) (t : Nat), s.fieldOn = true → s.hst.d3 = false → s.flag F.CMT_SNAP_CTRL_FREEZE = true →
    exec (.snapshotFreeze t false) s = .next (s.tick t).thaw) ∧
  (∀ (s : State) (t : Nat), s.fieldOn = true → s.flag F.CMT_SNAP_CTRL_FREEZE = true →
    s.cmt.freezeAt + 250 * tickMs ≤ max s.now t →
    exec (.freezeExpiry t) s = .next (((s.tick t).thaw.put F.CMT_SNAP_CTRL_EXPIRED 1).event 0x0421 0 0 0)) ∧
  (∀ (s : State) (t : Nat), s.fieldOn = true → s.hst.d3 = false → ∃ u, exec (.discard t) s = .next u ∧
    u.cmt.writes = [] ∧ u = { s with now := max s.now t, regs := u.regs, cmt := { s.cmt with writes := [] } } ∧
    (∀ o, hasStaged o = true → u.rd o = stagedMerge o (s.rd o) (s.cmt.sealedRegs.rd o)) ∧
    (∀ o, hasStaged o = false → u.rd o = s.rd o))

/-- A released band is admitted whole when the predicted decode time of its strata with refinement fits the time left, base only with its refinement dropped when that fits, and otherwise held and counted; a stratum that decodes without a base fault is reported and its tiles are stored in the band's bank, one with a base fault is lost under its layer's policy; the job completes when every stratum is done, late when D has passed. (derived from R131, R134, R136, R137.) -/
def Obligations.KilnBandJobs : Prop :=
  (∀ (s x : State) (t : Nat) (bd : Band) (τ : Rat), s.fieldOn = true → x = s.tick t →
    s.brd.bands.find? (fun b => b.released && !b.admitted) = some bd → epochLe bd.epoch (s.epochAt 5) = true → bd.fitStep = 0 →
    x.decodeTime (bd.strata.map (fun q => x.bandCost bd q true)) = some τ → τ ≤ x.timeAvail bd →
    exec (.kilnAdmission t) s = .next ((x.count Reg.KLN_SNAP_REFINE_DROPPED (b2n (!decide (bd.paceStep = 0)))).admitBand bd 0
      ((bd.strata.map (fun q => { q with cost := x.bandCost bd q (decide (bd.paceStep = 0)) })).foldl (fun a q =>
        insertStratum q a) [])).rokRefresh) ∧
  (∀ (s x : State) (t : Nat) (bd : Band) (τ : Rat), s.fieldOn = true → x = s.tick t →
    s.brd.bands.find? (fun b => b.released && !b.admitted) = some bd → epochLe bd.epoch (s.epochAt 5) = true → bd.fitStep ≠ 0 →
    x.decodeTime (bd.strata.map (fun q => x.bandCost bd q false)) = some τ → τ ≤ x.timeAvail bd →
    exec (.kilnAdmission t) s = .next ((x.count Reg.KLN_SNAP_REFINE_DROPPED 1).admitBand bd 0
      ((bd.strata.map (fun q => { q with cost := x.bandCost bd q false })).foldl (fun a q => insertStratum q a) [])).rokRefresh) ∧
  (∀ (s x : State) (t : Nat) (bd : Band) (τ υ : Rat), s.fieldOn = true → x = s.tick t →
    s.brd.bands.find? (fun b => b.released && !b.admitted) = some bd → epochLe bd.epoch (s.epochAt 5) = true → bd.fitStep = 0 →
    x.decodeTime (bd.strata.map (fun q => x.bandCost bd q true)) = some υ → x.timeAvail bd < υ →
    x.decodeTime (bd.strata.map (fun q => x.bandCost bd q false)) = some τ → τ ≤ x.timeAvail bd →
    exec (.kilnAdmission t) s = .next (((x.admitShort bd).count Reg.KLN_SNAP_REFINE_DROPPED 1).admitBand bd 1
      ((bd.strata.map (fun q => { q with cost := x.bandCost bd q false })).foldl (fun a q => insertStratum q a) [])).rokRefresh) ∧
  (∀ (s x : State) (t : Nat) (bd : Band), s.fieldOn = true → x = s.tick t →
    s.brd.bands.find? (fun b => b.released && !b.admitted) = some bd → epochLe bd.epoch (s.epochAt 5) = true →
    (∀ τ, x.decodeTime (bd.strata.map (fun q => x.bandCost bd q true)) = some τ → bd.fitStep ≠ 0 ∨ x.timeAvail bd < τ) →
    (∀ τ, x.decodeTime (bd.strata.map (fun q => x.bandCost bd q false)) = some τ → x.timeAvail bd < τ) →
    exec (.kilnAdmission t) s = .next (((((x.admitShort bd).count Reg.KLN_SNAP_HELD 1).onBand bd.seq (fun b => { b with
      admitted := true, kilnStep := 4, kilnDone := true, flatDone := true, carryDone := true })).carryOver (1 - bd.bank)).holdBand
        bd).rokRefresh) ∧
  (∀ (s x y : State) (t e seq i a ts σ n : Nat) (intime refine : Bool) (bd : Band) (o : KssOut) (b : List Nat), s.fieldOn = true →
    x = s.tick t → e < 2 → (s.engine e).cur = some (seq, i) → s.bandAt seq = some bd → bd.kilnDone = false → σ = (bd.strata.getD i { layer := 0, stratum := 0 }).stratum →
    s.sceneOf bd (bd.strata.getD i { layer := 0, stratum := 0 }).layer = some (a, ts) →
    refine = (decide (bd.step = 0) && !s.baseOnly bd (bd.strata.getD i { layer := 0, stratum := 0 }).layer) →
    b = s.read (s.stratumAt a σ).1 (s.stratumAt a σ).2 →
    n = stratumReads (s.auAt a) (s.tablesAt ts) σ (s.stratumAt a σ).2 b refine none → x.readPoison (s.stratumAt a σ).1 n = false →
    y = x.noteRead (2 + e) (s.stratumAt a σ).1 n →
    o = decodeStratum (s.auAt a) (y.tablesAt ts) σ b refine none →
    exec (.stratumDecoded t e intime) s = .next
      (if o.baseFault then
        ((y.kssReport e (s.auAt a) σ o).lostStratum e bd (bd.strata.getD i { layer := 0, stratum := 0 }).layer σ intime).stratumEnd e seq i 0
       else ((y.kssReport e (s.auAt a) σ o).storeAll bd.bank (y.siltTiles bd (bd.strata.getD i { layer := 0, stratum := 0 }).layer σ
          (s.auAt a).colour o.tiles)).stratumEnd e seq i (reconBytes o.tiles))) ∧
  (∀ (s x : State) (t e n : Nat) (only : Option Nat) (intime : Bool) (j : KilnJob) (o : KssOut) (b : List Nat), s.fieldOn = true →
    x = s.tick t → e < 2 → only = (if j.bytes.getD 0x34 0 = 0xFF then none else some (j.bytes.getD 0x34 0)) →
    (s.engine e).cur = none → (s.engine e).job = some j → s.engSt e = 2 → j.op = 3 → j.spent = false → j.open_ = false →
    (s.stratumAt j.src j.stratum).2 ≠ 0 → b = s.read (s.stratumAt j.src j.stratum).1 (s.stratumAt j.src j.stratum).2 →
    n = stratumReads (s.auAt j.src) (s.tablesAt (fieldLE j.bytes 0x38 8)) j.stratum (s.stratumAt j.src j.stratum).2 b true only →
    x.readPoison (s.stratumAt j.src j.stratum).1 n = false →
    o = decodeStratum (s.auAt j.src) (s.tablesAt (fieldLE j.bytes 0x38 8)) j.stratum b true only → o.baseFault = true →
    exec (.stratumDecoded t e intime) s = .next ((((x.noteRead (2 + e) (s.stratumAt j.src j.stratum).1 n).kssReport e (s.auAt j.src) j.stratum o).onJob e (fun q =>
      { q with marked := q.marked + 1 })).kssNext e (s.stratumAt j.src j.stratum).2)) ∧
  (∀ (s x y : State) (t e : Nat) (intime : Bool) (j : KilnJob) (r : List Nat), s.fieldOn = true → x = s.tick t → e < 2 →
    (s.engine e).cur = none → (s.engine e).job = some j → s.engSt e = 2 → j.op = 3 → j.spent = false → j.open_ = true → j.recs = [r] →
    j.bufUsed + r.length ≤ j.bufLen → y = (x.putOut e r.length r).onJob e (fun q => { q with recs := q.recs.tail, units := q.units + 1 }) →
    exec (.stratumDecoded t e intime) s = .next (y.kssNext e (s.stratumAt j.src j.stratum).2)) ∧
  (∀ (s x : State) (t : Nat) (bd : Band), s.fieldOn = true →
    s.brd.bands.find? (fun b => b.admitted && !b.kilnDone && b.strata.all (·.done)) = some bd → ((max s.now t : Nat) : Rat) < bd.d →
    x = ((s.tick t).onBand bd.seq (fun b => { b with kilnDone := true, late := b.late || false })).count Reg.KLN_SNAP_BANDS 1 →
    exec (.kilnBandComplete t) s = .next (((((x.measureEngine 0).measureEngine 1).bankReady bd.seq).resumeHost 0).resumeHost 1)) ∧
  (∀ (s x : State) (t : Nat) (bd : Band), s.fieldOn = true →
    s.brd.bands.find? (fun b => b.admitted && !b.kilnDone && b.strata.all (·.done)) = some bd → bd.d ≤ ((max s.now t : Nat) : Rat) →
    bd.late = false →
    x = (((s.tick t).onBand bd.seq (fun b => { b with kilnDone := true, late := b.late || true })).count Reg.KLN_SNAP_BANDS 1) →
    exec (.kilnBandComplete t) s = .next ((((((x.event 0x0510 0 bd.b bd.seq).count Reg.KLN_SNAP_LATE 1).measureEngine 0).measureEngine
      1).bankReady bd.seq).resumeHost 0 |>.resumeHost 1))

/-- A ready job descriptor that passes its checks starts on the first IDLE engine, and one that fails is refused with the code, a KSS_DECODE after the reads of its access unit where these decide it; an encoded unit is written where the job has reached, a decoded unit likewise; a chain head write gives a waiting job its buffer; a wait that expires ends the job with an empty chain; a job with nothing left to do hands its completion to its ring. (derived from R139, R140, R143, R145, R147, R148, R150.) -/
def Obligations.KilnHostJobs : Prop :=
  (∀ (s x y : State) (t w op e : Nat) (i : Instr) (d : Desc), (i, op) ∈ [(Instr.loamEncode t w, 1), (Instr.loamDecode t w, 2), (Instr.kssDecode t w, 3)] →
    s.fieldOn = true → x = s.tick t → x.jobReady w op = some d → x.jobCode d.bytes = 0 → [0, 1].find? (fun e => decide (s.engSt e = 0)) = some e →
    y = (if d.bytes.getD 8 0 = 3 then x.noteReads (2 + e) (x.auReads (fieldLE d.bytes 0x10 8) (fieldLE d.bytes 0x38 8)) else x) →
    exec i s = .next (((y.startDesc w d.num).onEngine e (fun g => { g with job := some { ring := w, slot := d.slot, num := d.num, bytes := d.bytes, bufAddr := fieldLE d.bytes 0x18 8, bufLen := fieldLE d.bytes 0x20 4 } })).setEng e 2)) ∧
  (∀ (s x y : State) (t w op : Nat) (i : Instr) (d : Desc), (i, op) ∈ [(Instr.loamEncode t w, 1), (Instr.loamDecode t w, 2), (Instr.kssDecode t w, 3)] →
    s.fieldOn = true → x = s.tick t → x.jobReady w op = some d → x.jobCode d.bytes ≠ 0 →
    y = (if d.bytes.getD 8 0 = 3 ∧ x.jobAuCode d.bytes = x.jobCode d.bytes then
      x.noteReads (2 + ([0, 1].find? (fun e => decide (s.engSt e = 0))).getD 0) (x.auReads (fieldLE d.bytes 0x10 8) (fieldLE d.bytes 0x38 8)) else x) →
    exec i s = .next ((y.eventOnce (x.jobCode d.bytes) w 0 w d.slot).endDesc w d.num (x.jobCode d.bytes) (jobBody { ring := w, slot := d.slot, num := d.num, bytes := d.bytes, bufAddr := fieldLE d.bytes 0x18 8, bufLen := fieldLE d.bytes 0x20 4 } (x.jobCode d.bytes) 0))) ∧
  (∀ (s x : State) (t e n : Nat) (j : KilnJob) (u : List Nat × Bool), s.fieldOn = true → x = (s.tick t).noteRead (2 + e) (j.src + j.inPos) n → e < 2 →
    (s.engine e).job = some j → s.engSt e = 2 → j.op = 1 → j.spent = false → j.ring ≠ fwRing → n = min 4096 (j.srcLen - j.inPos) →
    (s.tick t).readPoison (j.src + j.inPos) n = false →
    u = loamUnit (if n % 2 ^ j.bytes.getD 10 0 = 0 then j.bytes.getD 10 0 else 0) (s.read (j.src + j.inPos) n) →
    j.bufUsed + u.1.length ≤ j.bufLen →
    exec (.loamUnitEncoded t e) s = .next
      (((if j.useIndex then x.store (2 + e) (j.index + 8 * j.units) (leBytes 4 j.bufUsed ++ [0, 0, 0, j.links % 256]) else x).putOut e u.1.length
        u.1).onJob e (fun q => { q with inPos := q.inPos + n, units := q.units + 1, marked := q.marked + b2n u.2, spent := decide (q.srcLen ≤ q.inPos + n) }))) ∧
  (∀ (s x : State) (t e n : Nat) (j : KilnJob) (h : LoamHdr) (o : List Nat), s.fieldOn = true →
    x = (s.tick t).noteRead (2 + e) (j.src + j.inPos) (unitReads (s.read (j.src + j.inPos) n)) → e < 2 →
    (s.engine e).job = some j → s.engSt e = 2 → j.op = 2 → j.spent = false → j.ring ≠ fwRing → j.useIndex = false → j.inPos < j.srcLen →
    n = min 4112 (j.srcLen - j.inPos) → (s.tick t).readPoison (j.src + j.inPos) (unitReads (s.read (j.src + j.inPos) n)) = false →
    loamHead (s.read (j.src + j.inPos) n) = .ok h → h.orig = 4096 → h.size ≤ n → j.bufUsed + 4096 ≤ j.bufLen →
    loamBody h (s.read (j.src + j.inPos) n) = .ok o →
    exec (.loamUnitDecoded t e) s = .next (((x.putOut e 4096 o).onJob e (fun q => { q with units := q.units + 1 })).onJob e (fun q =>
      { q with inPos := j.inPos + h.size, spent := decide (q.srcLen ≤ j.inPos + h.size) }))) ∧
  (∀ (s : State) (t e : Nat) (j : KilnJob), s.fieldOn = true → e < 2 → (s.engine e).job = some j → j.spent = true → j.ring ≠ fwRing →
    exec (.hostJobEnd t e) s = .next ((s.tick t).endJob e j.code)) ∧
  (∀ (s : State) (t n v : Nat), s.fieldOn = true → s.hst.d3 = false → n < 16 → (s.engine 0).job = none → (s.engine 1).job = none →
    exec (.chainHeadWrite t n v) s = .next ((s.tick t).put (F.KLN_CHAIN_HEAD_HEAD.nth n) v)) ∧
  (∀ (s x : State) (t n v a : Nat) (j : KilnJob), s.fieldOn = true → s.hst.d3 = false → n < 16 →
    x = (s.tick t).put (F.KLN_CHAIN_HEAD_HEAD.nth n) v → (s.engine 0).job = some j → (s.engine 1).job = none →
    j.waitAt = some a → j.chain = n → v ≠ x.get (F.KLN_CHAIN_TAIL_TAIL.nth n) → x.chainExpired a = false → x.engSt 0 = 3 →
    exec (.chainHeadWrite t n v) s = .next (x.takeLink 0 j).2) ∧
  (∀ (s : State) (t e a : Nat) (j : KilnJob), s.fieldOn = true → e < 2 → (s.engine e).job = some j → j.waitAt = some a →
    s.engSt e = 3 → (s.tick t).chainExpired a = true → exec (.chainWaitExpiry t e) s = .next ((s.tick t).chainEmpty e ((s.tick t).chainEnd a)))

/-- The next band, its lists made late when no band is left and Silt has consumed the marker of the frame to be listed, takes the bank of the alternation once that bank is free and the other free or being read, and its fill is planned, or it is held at once where the Board holds it; a carry copy stores the carried plane-strata and the wanted fetch tiles of the carried strips of the previous bank, but for strips of a layer lost, in the new bank, counts them, is late at or after D and frees the previous bank unless it is still read; a flat fetch without a fault stores its tiles as they lie in memory and counts its bytes, and one that meets poison leaves the layer to its policy. (derived from R161, R162, R163, R165, R170, R172.) -/
def Obligations.SiltBands : Prop :=
  (∀ (s x : State) (t k : Nat) (bd : Band) (f : BrdFrame), s.fieldOn = true → k = s.get F.SLT_BANK_NEXT → s.bankSt k = 0 →
    s.bankSt (1 - k) = 0 ∨ s.bankSt (1 - k) = 3 →
    x = (if s.brd.bands.any (fun b => !b.released) || !(s.listFrame.any (fun f => epochLe f.epoch (s.epochAt 6))) then s.tick t
      else (s.tick t).listLate).paceNext →
    x.brd.bands.find? (fun b => !b.released) = some bd → x.frameOf bd = some f → epochLe bd.epoch (s.epochAt 6) = true →
    (bd.held = false →
      exec (.bankRelease t) s = .next (((x.planShow f.plan).put F.SLT_BANK_NEXT (1 - k)).releaseBand bd k f.plan).rokRefresh) ∧
    (bd.held = true → exec (.bankRelease t) s = .next ((((((x.planShow f.plan).put F.SLT_BANK_NEXT (1 - k)).onBand bd.seq (fun b =>
      { b with bank := k, released := true, s := max s.now t, admitted := true, kilnDone := true, flatDone := true, carryDone := true })).onBank
        k (fun b => { b with band := bd.seq })).setBank k 1).holdBand { bd with bank := k }).rokRefresh)) ∧
  (∀ (s x y : State) (t : Nat) (bd : Band), s.fieldOn = true → x = s.tick t → s.brd.bands.find? (fun b => b.released && !b.carryDone) = some bd →
    y = ((x.onBank bd.bank (fun b => (bd.carry.filter (fun c => !(c.2.1 == 255 && bd.lost.contains c.1))).foldl (fun b c =>
        storeTiles b ((s.bank (1 - bd.bank)).tiles.filter (fun q => [c].contains (q.layer, q.plane, q.row) &&
          (q.plane != 255 || ((x.flatTiles bd).map (fun z => (((s.entriesOf bd)[z.1]?).map (·.layer), z.2))).contains (some q.layer, q.row, q.col))))
          (if c.2.1 = 255 then 8 else (((s.entriesOf bd).find? (fun e => e.layer == c.1 && e.scene)).map (·.sr)).getD 8)) b)).onBand bd.seq
      (fun b => { b with carryDone := true, late := b.late || (decide (bd.d ≤ ((max s.now t : Nat) : Rat)) && !bd.late) })).count
        Reg.SLT_SNAP_CARRIED bd.carry.length →
    exec (.carryCopyComplete t) s = .next (((if decide (bd.d ≤ ((max s.now t : Nat) : Rat)) && !bd.late then
      (y.event 0x0510 0 bd.b bd.seq).count Reg.KLN_SNAP_LATE 1 else y).carryOver (1 - bd.bank)).bankReady bd.seq)) ∧
  (∀ (s x : State) (t : Nat) (bd : Band), s.fieldOn = true → x = s.tick t → s.brd.bands.find? (fun b => b.released && !b.flatDone) = some bd →
    (∀ q ∈ bd.fetch, x.fetchPoison bd q = none) → exec (.flatFetchComplete t) s = .next
      (((((x.onBank bd.bank (fun b => storeTiles b (bd.fetch.map (x.fetchedTile bd)) 8)).count Reg.SLT_SNAP_FETCH_BYTES
        bd.fetch.length).noteReads 4 (bd.fetch.flatMap (fun q => fetchSpans (x.fetchInfo bd q).desc (x.fetchInfo bd q).content (x.fetchInfo bd q).level q.2.1 q.2.2))).onBand bd.seq (fun b => { b with flatDone := true })).bankReady bd.seq)) ∧
  (∀ (s x y : State) (t l : Nat) (bd : Band) (q : Nat × Nat × Nat) (r : Nat × Nat), s.fieldOn = true → x = s.tick t →
    s.brd.bands.find? (fun b => b.released && !b.flatDone) = some bd → bd.fetch = [q] → x.fetchPoison bd q = some r →
    l = (x.fetchInfo bd q).layer → y = ((x.onBank bd.bank (fun b => storeTiles b [] 8)).count Reg.SLT_SNAP_FETCH_BYTES 1).noteReads 4
      (fetchSpans (x.fetchInfo bd q).desc (x.fetchInfo bd q).content (x.fetchInfo bd q).level q.2.1 q.2.2) →
    exec (.flatFetchComplete t) s = .next (((y.fetchFault ((y.bandAt bd.seq).getD bd) l).onBand bd.seq (fun b =>
      { b with flatDone := true })).bankReady bd.seq))

/-- LOAD copies the set file once an image runs and is only logged while BUSY; a file that fails its format is refused with the code; a zone report stores the temperature, opens the report window, clears TEMP_LOST and triggers the zone where it moved by more than ZONE_DELTA; a trigger queues an idle zone; no report for 100 ms of a group with patches marks TEMP_LOST and logs it once; the next zone runs with its sets; a run reads its sets, writes every entry of the other half, is pending, is published at once before the first epoch, and a set that waited for it takes its slot; a listed band's entries and demura values are streamed while the registry streams, once its epoch has reached the RRG. (derived from R189, R191, R192, R194, R198, R208, R26.) -/
def Obligations.RegistrySetsAndZones : Prop :=
  ∀ (s x : State) (t : Nat), s.fieldOn = true → x = s.tick t →
    (s.hst.d3 = false → s.flag F.RRG_SET_STATUS_BUSY = true → exec (.rrgSetLoad t) s = .next (x.event 0x0715 0 0 0)) ∧
    (s.hst.d3 = false → s.flag F.RRG_SET_STATUS_BUSY = false → s.sho.run.isSome = true → exec (.rrgSetLoad t) s = .next
      { (x.put F.RRG_SET_STATUS_BUSY 1).noteRead 6 (s.get F.RRG_SET_ADDR_ADDR * 4096) (s.get F.RRG_SET_LEN_LEN) with rrg := { s.rrg with
          file := s.read (s.get F.RRG_SET_ADDR_ADDR * 4096) (s.get F.RRG_SET_LEN_LEN) } }) ∧
    (∀ sigOk tagOk plain, s.flag F.RRG_SET_STATUS_BUSY = true → s.rrg.parked = none → setFormatOk s.rrg.file = false →
      exec (.rrgSetChecked t sigOk tagOk plain) s = .next (x.setRefuse 0x0710)) ∧
    (∀ plain e, s.flag F.RRG_SET_STATUS_BUSY = true → s.rrg.parked = none → setFormatOk s.rrg.file = true →
      fieldLE s.rrg.file 0x0A 2 = s.panel.patchW → fieldLE s.rrg.file 0x0C 2 = s.panel.patchH →
      slice s.rrg.file 0x10 48 = slice s.nvs.page 0x20 48 → s.secOk = true →
      s.panelSigner (slice s.rrg.file (160 + alignUp (fieldLE s.rrg.file 0x64 4) 16) 97) = true →
      (s.otpValue (2 + s.rrg.file.getD 6 0)).isSome = true →
      (if bitAt (s.rrg.file.getD 7 0) 0 then
        loamAll 8 ((slice plain 0 (fieldLE s.rrg.file 0x64 4)).length + 1) (slice plain 0 (fieldLE s.rrg.file 0x64 4))
       else some (slice plain 0 (fieldLE s.rrg.file 0x64 4))) = some e → e.length = 8 * s.panel.patchW * s.panel.patchH →
      s.setFits (s.rrg.file.getD 5 0) (parseSet s.rrg.file) = true → s.rrg.running = none →
      exec (.rrgSetChecked t true true plain) s = .next (x.installSet (s.rrg.file.getD 5 0) (parseSet s.rrg.file) e)) ∧
    (∀ n temp y z, n < 8 → y = (x.put (F.RRG_ZONE_TEMP_TEMP.nth n) temp).onZone n (fun z =>
        { z with reported := true, since := some (max s.now t) }) →
      z = (if s.flag (F.RRG_ZONE_STATUS_TEMP_LOST.nth n) then y.put (F.RRG_ZONE_STATUS_TEMP_LOST.nth n) 0 else y) →
      exec (.zoneTempReport t n temp) s = .next (if z.flag F.RRG_CTRL_ZONE_TRIM_EN = true ∧ z.get F.RRG_TRIGGER_ZONE_DELTA * 16 <
        (signed 16 temp - s.getS (F.RRG_ZONE_STATUS_RUN_TEMP.nth n)).natAbs then z.trigger n else z)) ∧
    (∀ n, n < 8 → s.hst.d3 = false → s.panel.hasGroup n = true → s.zoneSt n = 0 →
      exec (.zoneRun t n) s = .next ((x.onZone n (fun z => { z with trigAt := max s.now t })).setZone n 1)) ∧
    (∀ n t0, n < 8 → s.panel.hasGroup n = true → (s.zone n).since = some t0 → s.flag (F.RRG_ZONE_STATUS_TEMP_LOST.nth n) = false → t0 + 100 * tickMs ≤ max s.now t →
      exec (.zoneTempTimeout t n) s = .next ((x.put (F.RRG_ZONE_STATUS_TEMP_LOST.nth n) 1).event 0x0720 0 n 0)) ∧
    (∀ n lo hi (T : Int), s.rrg.running = none → s.nextZone = some n →
      T = (if (s.zone n).reported then s.getS (F.RRG_ZONE_TEMP_TEMP.nth n) else ((s.usableSets.head?.map (·.2.temp)).getD 0)) →
      runSets s.usableSets T = some (lo, hi) → exec (.zoneRunStart t) s = .next
        { (x.onZone n (fun z => { z with runT := T, lo := lo, hi := hi, pubEpoch := 0 })).setZone n 2 with
          rrg := { (x.onZone n (fun z => { z with runT := T, lo := lo, hi := hi, pubEpoch := 0 })).rrg with running := some n } }) ∧
    (∀ n h ks v y z w, s.rrg.running = some n → ks = s.panel.zoneEntries n → h = 1 - s.get (F.RRG_ZONE_STATUS_ACTIVE_HALF.nth n) →
      v = ks.foldl (fun s k => s.runEntry n h k) ((x.noteReads 6 (ks.map (fun k => (s.setAddr (s.zone n).lo k, 8)) ++
        (if (s.zone n).lo = (s.zone n).hi then [] else ks.map (fun k => (s.setAddr (s.zone n).hi k, 8))))).freshBlocks n h) →
      y = ((joinSpans (ks.map (fun k => (s.liveAddr h k, 8)))).foldl (fun s q => s.noteWrite 6 q.1 q.2) v) →
      z = (State.setZone { y.onZone n (fun z => { z with doneAt := max s.now t }) with
        rrg := { (y.onZone n (fun z => { z with doneAt := max s.now t })).rrg with running := none } } n 3).count Reg.RRG_SNAP_ZONE_RUNS 1 →
      w = (if z.cmt.last = 0 then z.zonePublish n else z) →
      (w.rrg.parked = none → exec (.zoneRunComplete t) s = .next w) ∧
      (∀ i v e, w.rrg.parked = some (i, v, e) → exec (.zoneRunComplete t) s = .next (w.installSet i v e))) ∧
    (∀ bd ks, s.brd.bands.find? (fun b => b.listed && !b.streamed) = some bd → s.rrgStreams = true →
      epochLe bd.epoch (s.epochAt 7) = true → ks = s.panel.patchesOf bd.row0 bd.rows →
      exec (.registryStreamBand t) s = .next ((((x.noteReads 5 (x.liveSpans ks)).liveEcc ks).demuraEcc bd.epoch ks).onBand bd.seq (fun b =>
        { b with streamed := true, rays := ks.map (x.streamOf bd.epoch) })))

/-- Lock of a lane that has none puts its settings at the start point for the die temperature and starts a run; loss of lock takes the lane to DOWN with its lock bit, and ends a run, logged when it was running; an iteration moves the auxiliary path one step for each parameter by the counts, marks the limit once, and ends the run when every parameter is balanced or at the 32nd iteration; period expiry, a low figure of merit and software trigger a run of an idle lane while LANE_TRIM_EN is set, and software queues one behind a run in progress. (derived from R201, R203, R205, R206, R208.) -/
def Obligations.LaneTrimRuns : Prop :=
  ∀ (s x : State) (t n : Nat), s.fieldOn = true → x = s.tick t → n < 12 →
    (s.laneSt n = 0 → exec (.laneLock t n) s = .next ((((x.onLane n (fun l => { l with locked := true })).onLane n (fun l =>
      { l with main := (x.onLane n (fun l => { l with locked := true })).startPoint n s.dieTemp })).showLane n).laneRun n)) ∧
    (s.laneSt n ≠ 0 → exec (.laneLock t n) s = .next (x.onLane n (fun l => { l with locked := true }))) ∧
    (∀ y, y = (if n < 8 then (x.onLane n (fun l => { l with locked := false })).put (F.TLK_GROUP_STATUS_BC_LOCK.nth n) 0
        else x.onLane n (fun l => { l with locked := false })) →
      (s.laneSt n = 2 → exec (.laneLockLost t n) s = .next (((y.event 0x0732 0 n (y.get (F.RRG_LANE_STATUS_FOM.nth n))).laneAbandon n).put
        (F.RRG_LANE_STATUS_STATE.nth n) 0)) ∧
      (s.laneSt n = 1 → exec (.laneLockLost t n) s = .next (y.put (F.RRG_LANE_STATUS_STATE.nth n) 0)) ∧
      (s.laneSt n ≠ 1 → s.laneSt n ≠ 2 → exec (.laneLockLost t n) s = .next y)) ∧
    (∀ counts h hh l r y z, s.laneSt n = 2 → l = s.lane n → r = laneSteps l.start l.aux counts (laneParams n) →
      y = x.onLane n (fun k => { k with aux := r.map (·.1), iter := k.iter + 1, limit := k.limit || r.any (·.2) }) →
      z = (if r.any (·.2) = true ∧ l.limit = false then
        (y.put (F.RRG_LANE_STATUS_AT_LIMIT.nth n) 1).event 0x0730 0 n (y.get (F.RRG_LANE_STATUS_FOM.nth n)) else y) →
      exec (.laneIterationEnd t n counts h hh) s = .next (if (∀ i, i < laneParams n → (if (counts.getD i (0, 0)).1 < (counts.getD i (0, 0)).2 then
        (counts.getD i (0, 0)).2 - (counts.getD i (0, 0)).1 else (counts.getD i (0, 0)).1 - (counts.getD i (0, 0)).2) * 256 ≤
        (counts.getD i (0, 0)).1 + (counts.getD i (0, 0)).2) ∨ l.iter = 31 then z.laneRunEnd n h hh else z)) ∧
    (s.laneSt n = 1 → s.flag F.RRG_CTRL_LANE_TRIM_EN = true → s.hst.d3 = false → exec (.laneRun t n) s = .next (x.laneRun n)) ∧
    (s.laneSt n = 2 → s.flag F.RRG_CTRL_LANE_TRIM_EN = true → s.hst.d3 = false → exec (.laneRun t n) s = .next
      (x.onLane n (fun l => { l with queued := true }))) ∧
    (s.laneSt n = 1 → s.flag F.RRG_CTRL_LANE_TRIM_EN = true → s.get F.RRG_TRIGGER_LANE_PERIOD ≠ 0 →
      (s.lane n).lastRun + s.get F.RRG_TRIGGER_LANE_PERIOD * tickS ≤ max s.now t → exec (.lanePeriodExpiry t n) s = .next (x.laneRun n)) ∧
    (s.laneSt n = 1 → s.flag F.RRG_CTRL_LANE_TRIM_EN = true → s.get (F.RRG_LANE_STATUS_FOM.nth n) < s.get F.RRG_FOM_FOM_MIN →
      s.flag (F.RRG_LANE_STATUS_FOM_STALE.nth n) = false → (s.lane n).lastFom = 0 ∨ (s.lane n).lastFom + tickS ≤ max s.now t →
      exec (.laneFomTrigger t n) s = .next ((x.onLane n (fun l => { l with lastFom := max s.now t })).laneRun n))

/-- The next band starts when its bank is READY with it and not held, its entries are streamed, a file is live, the link has read the Furrow buffer it takes, and the Rook has taken the marker of its epoch and none later: the bank is being read and every file gets a square; a held band is passed over; a square completes into the panel codes and its file gets the next; a band with every square complete ends, late when its Furrow deadline has passed; a band whose last row begins with squares incomplete, or before it has started, is abandoned; a parity fault of a live file is logged, counted and halts it, and the fourth within 60 s retires it. (derived from R161, R230, R232, R235, R236, R239.) -/
def Obligations.RookBands : Prop :=
  ∀ (s x : State) (t : Nat), s.fieldOn = true → x = s.tick t →
    (∀ bd y z r b, s.nextBand = some bd → s.ownsReady bd = true → bd.held = false → (s.bank bd.bank).held = false → bd.streamed = true →
      s.liveFiles.isEmpty = false → s.bufferDue bd.seq = false → bd.epoch = s.epochAt 8 →
      y = ((((x.endWait bd).onBand bd.seq (fun b => { b with started := true, startAt := max s.now t })).setBank bd.bank 3).stepCounts
        bd).rokShow bd →
      z = { y with out := { y.out with
        rows := y.out.rows.filter (fun r => decide (bd.seq < r.seq + 2))
        ready := y.out.ready.filter (fun r => decide (bd.seq < r.seq + 2)) } } →
      r = z.dealAll.passBand (some (((max s.now t : Nat) : Rat) + (z.workTicks (z.bandWork bd bd.step)).getD 0)) →
      r.runningBand = some b → r.brd.rookSeq ≠ s.brd.rookSeq →
      exec (.rokBandStart t) s = .next (r.cutUpdates (fun u => decide (u.seq + 2 ≤ b.seq)))) ∧
    (∀ bd y z, s.nextBand = some bd → epochLe bd.epoch (s.epochAt 8) = true → s.bankLost bd = true ∨ (s.ownsReady bd = true ∧ s.bandHeld bd = true) →
      y = (x.endWait bd).stepCounts (if bd.step = 4 then bd else { bd with held := true }) →
      z = (if s.ownsReady bd then y.freeBank bd.bank else y).dropBand bd.seq →
      exec (.heldBandSkip t) s = .next ((({ z.noteSlack bd none with out := { z.out with held := (bd.frame, bd.b) :: z.out.held } } : State).passBand
        (some ((max s.now t : Nat) : Rat))).rokReady)) ∧
    (∀ n corr bad luts bd k q y, n < 16 → s.runningBand = some bd → bd.busy.find? (fun q => q.1 == n) = some (n, k) → bd.squares[k]? = some q →
      y = (luts.foldl State.lutFault x).siltEcc bd corr bad →
      exec (.rokSquareComplete t n corr bad luts) s = .next (((((y.writeSquare bd (s.entriesOf bd) bad q).squareCounts bd (s.entriesOf bd) q
        (y.squareComps bd (s.entriesOf bd) bad q)).onBand bd.seq (fun b => { b with
          busy := b.busy.filter (fun z => z.1 != n)
          doneSq := b.doneSq ++ [(k, max s.now t)] })).groupsReady bd.seq).dealFile n |>.formUpdates s.out.ready)) ∧
    (∀ bd y z, s.runningBand = some bd → bd.squares.length ≤ bd.doneSq.length →
      y = { x with rok := { s.rok with
          rates := (bd.slots * tickS / (4 * max 1 (max s.now t - bd.startAt) * max 1 s.lanes) :: s.rok.rates).take 4 } } →
      z = (if x.furrowDeadline bd ≤ ((max s.now t : Nat) : Rat) then
        ((y.event 0x0810 0 (bandArg bd) bd.frame).count Reg.ROK_SNAP_LATE 1).onReport bd.epoch (fun r => { r with late := r.late + 1 }) else y) →
      exec (.rokBandComplete t) s = .next (((((z.count Reg.ROK_SNAP_BANDS 1).noteSlack bd
        (some (slackOf (x.furrowDeadline bd) (max s.now t)))).dropBand bd.seq).endReading bd.bank).rokReady)) ∧
    (∀ bd, s.runningBand = some bd → epochLe bd.epoch (s.epochAt 8) = true → x.lastRowAt bd ≤ ((max s.now t : Nat) : Rat) → bd.started = true → bd.doneSq.length ≠ bd.squares.length →
      exec (.rokBandAbandon t) s = .next (x.abandon bd)) ∧
    (∀ bd, s.runningBand = none → s.brd.bands.head? = some bd → epochLe bd.epoch (s.epochAt 8) = true → bd.started = false → x.lastRowAt bd ≤ ((max s.now t : Nat) : Rat) →
      s.bankLost bd = false → s.ownsReady bd = false ∨ s.bandHeld bd = false → exec (.rokBandAbandon t) s = .next (x.abandon bd)) ∧
    (∀ n, n < 16 → s.fileSt n ≠ 2 → (s.rok.files.getD n {}).faults = [] → exec (.fileParityFault t n) s = .next ((((x.event 0x0821 n 0 0).count Reg.ROK_SNAP_FILE_FAULTS
      1).onFile n (fun f => { f with faults := [max s.now t] })).fileHalt n)) ∧
    (∀ n a b c, n < 16 → s.fileSt n ≠ 2 → (s.rok.files.getD n {}).faults = [a, b, c] → max s.now t < a + 60 * tickS → max s.now t < b + 60 * tickS →
      max s.now t < c + 60 * tickS → exec (.fileParityFault t n) s = .next (((((((x.event 0x0821 n 0 0).count Reg.ROK_SNAP_FILE_FAULTS 1).onFile n
        (fun f => { f with faults := [max s.now t, a, b, c] })).event 0x0822 n 0 0).onFile n (fun f => { f with retired := true })).fileHalt n)))

/-- A free context is registered, a registered one activated, a live one deactivated with its input discarded, a registered one that no layer names is unregistered, each with result 0; a command that the context's state does not allow changes nothing and answers and logs its code; an arrival is noted at its context; the Board lists the next band that it may list: the squares with their entries, counted, and the first one truncated logged. (derived from R254, R255, R261.) -/
def Obligations.SourceContextsAndLists : Prop :=
  ∀ (s x : State) (t c : Nat), s.fieldOn = true → x = s.tick t → c < 4096 →
    (s.hst.d3 = false → s.ctx c = none → exec (.register t c) s = .next
      (({ x with brd := { s.brd with ctxs := s.brd.ctxs ++ [{ num := c }] } } : State).ctxResult c 0)) ∧
    (∀ y, s.hst.d3 = false → s.ctx c = some y → exec (.register t c) s = .next (x.ctxResult c 0x0920)) ∧
    (∀ y d z, s.hst.d3 = false → s.ctx c = some y → y.st = .registered → x.activateCode c = (0, d) →
      z = x.noteReads 10 (((x.ctxAddr c).map (fun a => [(a, 128)])).getD []) → exec (.activate t c) s = .next ((z.onCtx c (fun z => { z with
        st := .live, desc := d, arrivals := if y.desc = d then z.arrivals else []
        lastSlot := if y.desc = d then z.lastSlot else none })).ctxResult c 0)) ∧
    (∀ y k d z, s.hst.d3 = false → s.ctx c = some y → y.st = .registered → x.activateCode c = (k, d) → k ≠ 0 →
      z = (if k = 0x0921 then x else x.noteReads 10 (((x.ctxAddr c).map (fun a => [(a, 128)])).getD [])) →
      exec (.activate t c) s = .next (z.ctxAnswer c k (d.getD 2 0))) ∧
    (∀ y, s.hst.d3 = false → s.ctx c = some y → y.st ≠ .registered → exec (.activate t c) s = .next (x.ctxResult c 0x0920)) ∧
    (s.hst.d3 = false → s.ctx c = none → exec (.activate t c) s = .next (x.ctxResult c 0x0920) ∧
      exec (.deactivate t c) s = .next (x.ctxResult c 0x0920) ∧ exec (.unregister t c) s = .next (x.ctxResult c 0x0920)) ∧
    (∀ y, s.hst.d3 = false → s.ctx c = some y → y.st ≠ .live → exec (.deactivate t c) s = .next (x.ctxResult c 0x0920)) ∧
    (∀ y, s.hst.d3 = false → s.ctx c = some y → y.st ≠ .registered → exec (.unregister t c) s = .next (x.ctxResult c 0x0920)) ∧
    (∀ y, s.hst.d3 = false → s.ctx c = some y → y.st = .live → exec (.deactivate t c) s = .next
      (((x.sveDiscard c).onCtx c (fun z => { z with st := .registered })).ctxResult c 0)) ∧
    (∀ y, s.hst.d3 = false → s.ctx c = some y → y.st = .registered → s.ctxNamed c = false → exec (.unregister t c) s = .next
      (({ x with brd := { s.brd with ctxs := s.brd.ctxs.filter (fun z => z.num != c) } } : State).ctxResult c 0)) ∧
    (∀ y, s.hst.d3 = false → s.ctx c = some y → y.st = .registered → s.ctxNamed c = true →
      exec (.unregister t c) s = .next (x.ctxResult c 0x0922)) ∧
    (∀ stamp slot r, s.sve.sent = (c, stamp, slot) :: r → exec (.sourceFrameArrival t) s = .next
      (({ x with sve := { s.sve with sent := r } } : State).onCtx c (fun z => { z with arrivals := (stamp, slot) :: z.arrivals }))) ∧
    (∀ (f : BrdFrame) (sq tr : List SquareList) (pk cu : Nat) (y : State), s.get F.BRD_STATUS_STATE ≠ 0 → s.mayList = true → s.listFrame = some f →
      sq = x.bandLists f (x.newBand f).row0 (x.newBand f).rows → tr = sq.filter (fun q => decide (256 < q.full)) →
      pk = sq.foldl (fun a q => max a q.full) 0 → cu = sq.foldl (fun a q => a + q.culled) 0 →
      y = ({ x.addBand { x.newBand f with listed := true, squares := sq } with
          brd := { (x.addBand { x.newBand f with listed := true, squares := sq }).brd with lastB := (x.newBand f).b } } : State) →
      exec (.brdListBand t) s = .next (((((match tr with
          | [] => (((y.count Reg.BRD_SNAP_LISTS sq.length).count Reg.BRD_SNAP_CULLED cu).count Reg.BRD_SNAP_TRUNCATED tr.length).countMax
              Reg.BRD_SNAP_ENTRY_PEAK pk
          | q :: _ => ((((y.count Reg.BRD_SNAP_LISTS sq.length).count Reg.BRD_SNAP_CULLED cu).count Reg.BRD_SNAP_TRUNCATED tr.length).countMax
              Reg.BRD_SNAP_ENTRY_PEAK pk).eventOnce 0x0931 0 0 q.sx q.sy)).onReport f.epoch (fun r => { r with
          trunc := r.trunc + tr.length, peak := max r.peak pk, culled := r.culled + cu
          overflow := r.overflow + sq.countP (fun (q : SquareList) => decide (32 < q.ents.length)) })).boardShow).rokCheck))

/-- A source-frame descriptor is queued at its pipe, dropped or refused with its code; a pipe that scales starts the front of its queue in a free slot, and drops it where its context is gone or no slot is free; the input is read whole, written as level 0 with the levels formed from it, and completes; a poisoned row drops the frame; the written frame is counted and sent to its context. (derived from R284, R285, R261, R566.) -/
def Obligations.SieveFrames : Prop :=
  ∀ (s x : State) (t p : Nat), s.fieldOn = true → x = s.tick t → p < 4 →
    (∀ w d, s.nextDesc w 2 = some d → x.sourceCode d.bytes = 0 → exec (.sourceFrame t w) s = .next ((x.startDesc w d.num).sourceQueue
      (((s.ctx (fieldLE d.bytes 8 2)).map (fun c => if c.st = .live then c.desc.getD 2 0 else 0)).getD 0)
      ⟨w, d.num, fieldLE d.bytes 8 2, fieldLE d.bytes 0x10 8, fieldLE d.bytes 0x0C 4, d.stamp⟩)) ∧
    (∀ w d q, s.nextDesc w 2 = some d → q = (((s.ctx (fieldLE d.bytes 8 2)).map (fun c => if c.st = .live then c.desc.getD 2 0 else 0)).getD 0) →
      (x.sourceCode d.bytes = 0x0A22 → exec (.sourceFrame t w) s = .next ((x.startDesc w d.num).sveDrop q
        ⟨w, d.num, fieldLE d.bytes 8 2, fieldLE d.bytes 0x10 8, fieldLE d.bytes 0x0C 4, d.stamp⟩ 0x0A22 0)) ∧
      (x.sourceCode d.bytes = 0x0111 → exec (.sourceFrame t w) s = .next (((x.startDesc w d.num).protectedEvent (fieldLE d.bytes 0x10 8)).endDesc
        w d.num 0x0111 (sveBody 0x0111 (fieldLE d.bytes 8 2) 0xFF q 0))) ∧
      (x.sourceCode d.bytes ≠ 0 → x.sourceCode d.bytes ≠ 0x0A22 → x.sourceCode d.bytes ≠ 0x0111 →
        exec (.sourceFrame t w) s = .next (((x.startDesc w d.num).eventOnce (x.sourceCode d.bytes) w w w d.slot).endDesc w d.num
          (x.sourceCode d.bytes) (sveBody (x.sourceCode d.bytes) (fieldLE d.bytes 8 2) 0xFF q 0)))) ∧
    (∀ j rest c k, (s.pipe p).queue = j :: rest → s.pipeSt p = 1 → (s.pipe p).cur = none → s.ctx j.ctx = some c →
      (slotOrder (c.desc.getD 7 2) c.lastSlot).find? (fun k => !x.slotSkipped c c.desc k) = some k →
      exec (.sieveFrameStart t p) s = .next ((((x.onPipe p (fun y => { y with queue := rest })).onCtx j.ctx (fun y => { y with
        lastSlot := some k, arrivals := y.arrivals.filter (fun (a : Nat × Nat) => a.2 != k) })).onPipe p (fun q => { q with
          cur := some { job := j, desc := c.desc, slot := k } })).setPipe p 1)) ∧
    (∀ j rest, (s.pipe p).queue = j :: rest → s.pipeSt p = 1 → (s.pipe p).cur = none → s.ctx j.ctx = none →
      exec (.sieveFrameStart t p) s = .next (((x.onPipe p (fun y => { y with queue := rest })).sveDrop p j 0x0A22 0).pipeBoundary p)) ∧
    (∀ j rest c, (s.pipe p).queue = j :: rest → s.pipeSt p = 1 → (s.pipe p).cur = none → s.ctx j.ctx = some c →
      (∀ k ∈ slotOrder (c.desc.getD 7 2) c.lastSlot, x.slotSkipped c c.desc k = true) →
      exec (.sieveFrameStart t p) s = .next (((x.onPipe p (fun y => { y with queue := rest })).sveDrop p j 0x0A20 0).pipeBoundary p)) ∧
    (∀ f addrs a, (s.pipe p).cur = some f → f.readDone = false →
      addrs = (List.range (fieldLE f.desc 10 2)).map (fun y => f.job.addr + f.job.pitch * y) →
      addrs.find? (fun a => x.readPoison a (sveRowBytes (f.desc.getD 0 0) (fieldLE f.desc 8 2))) = some a →
      exec (.inputReadComplete t p) s = .next ((((x.noteReads 7 ((addrs.takeWhile (fun z => !x.readPoison z (sveRowBytes (f.desc.getD 0 0)
        (fieldLE f.desc 8 2))) ++ [a]).map (fun z => (z, sveRowBytes (f.desc.getD 0 0) (fieldLE f.desc 8 2))))).onPipe p (fun q => { q with cur := none })).sveDrop p f.job 0x0A21
        (x.short (max s.now t))).pipeBoundary p)) ∧
    (∀ f addrs y, (s.pipe p).cur = some f → f.readDone = false →
      addrs = (List.range (fieldLE f.desc 10 2)).map (fun y => f.job.addr + f.job.pitch * y) →
      addrs.find? (fun a => x.readPoison a (sveRowBytes (f.desc.getD 0 0) (fieldLE f.desc 8 2))) = none →
      y = ((x.noteReads 7 (addrs.map (fun a => (a, sveRowBytes (f.desc.getD 0 0) (fieldLE f.desc 8 2))))).writeLevel0 (slotAddr f.desc f.slot) (fieldLE f.desc 0x1C 4) 0 (sveScale (s.pipe p).live f.desc
        (addrs.map (fun a => s.read a (sveRowBytes (f.desc.getD 0 0) (fieldLE f.desc 8 2)))))).formLevels (slotAddr f.desc f.slot)
          (fieldLE f.desc 0x1C 4) (fieldLE f.desc 12 2) (fieldLE f.desc 14 2) 0 (f.desc.getD 6 1 - 1) →
      exec (.inputReadComplete t p) s = .next ((y.onPipe p (fun q => { q with cur := some { f with readDone := true } })).endDesc f.job.ring
        f.job.num 0 (sveBody 0 f.job.ctx f.slot p (x.short (max s.now t))))) ∧
    (∀ f, (s.pipe p).cur = some f → f.readDone = true → exec (.sieveFrameWritten t p) s = .next
      ((({ (x.count Reg.SVE_SNAP_FRAMES 1).count Reg.SVE_SNAP_STRIPED (b2n (bitAt (f.desc.getD 1 0) 0 && decide (4096 < fieldLE f.desc 0x0C 2))) with
        sve := { s.sve with sent := s.sve.sent ++ [(f.job.ctx, max s.now t, f.slot)] } } : State).onPipe p (fun y => { y with cur := none })).pipeBoundary p))

/-- APPLY is added to the requests, and each requested pipe that stands at a frame boundary begins to apply; a pipe at its boundary copies its shadow tables into use unless a coefficient phase is bad, when the copy is refused and logged; an access of SVE_TBL_DATA reads or writes the entry selected and steps INDEX, an index beyond the table reading 0 and keeping nothing (the model's choice, log entry 41); PIPE_EN releases and halts pipes, those of a domain left off staying disabled; a parity fault drops the pipe's frame, or is logged alone. (derived from R280, R287, R288, R291.) -/
def Obligations.SieveTablesAndPipes : Prop :=
  ∀ (s x : State) (t p : Nat), s.fieldOn = true → x = s.tick t → p < 4 →
    (∀ v, s.hst.d3 = false → exec (.sveApply t v) s = .next ([0, 1, 2, 3].foldl (fun z p =>
      if z.pipeSt p ≤ 1 ∧ (z.pipe p).cur = none ∧ bitAt v p = true then z.setPipe p 2 else z)
        (x.put F.SVE_APPLY_APPLY (Nat.lor (s.get F.SVE_APPLY_APPLY) (v % 16))))) ∧
    (∀ v y, s.hst.d3 = false → exec (.sveApply t v) s = .next y → y.get F.SVE_APPLY_APPLY = Nat.lor (s.get F.SVE_APPLY_APPLY) (v % 16)) ∧
    (s.pipeSt p = 2 → badPhase (s.pipe p).shadow = none → exec (.tableCopy t p) s = .next
      (((x.put F.SVE_APPLY_APPLY (withBits (s.get F.SVE_APPLY_APPLY) p p 0)).onPipe p (fun y => { y with live := y.shadow })).pipeBoundary p)) ∧
    (∀ q, s.pipeSt p = 2 → badPhase (s.pipe p).shadow = some q → exec (.tableCopy t p) s = .next
      ((((x.put F.SVE_APPLY_APPLY (withBits (s.get F.SVE_APPLY_APPLY) p p 0)).event 0x0A12 p q.1 q.2).count Reg.SVE_SNAP_APPLY_REFUSED
        1).pipeBoundary p)) ∧
    (∀ v ix kind n y, s.hst.d3 = false → ix = s.get F.SVE_TBL_SEL_INDEX → kind = s.get F.SVE_TBL_SEL_KIND → n = (if kind = 0 then 3075 else 896) →
      y = (if ix < n then x.onPipe (s.get F.SVE_TBL_SEL_PIPE) (fun y => { y with
        shadow := sparseSet (fun _ => none) y.shadow (sveKey kind (s.get F.SVE_TBL_SEL_TABLE) ix) (some (v % 65536)) }) else x) →
      exec (.tblDataAccess t true v) s = .next (y.put F.SVE_TBL_SEL_INDEX ((ix + 1) % 4096))) ∧
    (∀ v ix kind n r, s.hst.d3 = false → ix = s.get F.SVE_TBL_SEL_INDEX → kind = s.get F.SVE_TBL_SEL_KIND → n = (if kind = 0 then 3075 else 896) →
      r = (if ix < n then sveEntry (s.pipe (s.get F.SVE_TBL_SEL_PIPE)).shadow kind (s.get F.SVE_TBL_SEL_TABLE) ix else 0) →
      exec (.tblDataAccess t false v) s = .next ((x.answer (leBytes 4 r)).put F.SVE_TBL_SEL_INDEX ((ix + 1) % 4096))) ∧
    (∀ v y, s.hst.d3 = false → v < 16 → s.leftOff 12 = false → y = x.put F.SVE_CTRL_PIPE_EN v →
      exec (.pipeEnWrite t v) s = .next ([0, 1, 2, 3].foldl (fun z p => if bitAt v p then z.pipeRelease p else if z.pipeSt p = 3 then z else
        z.pipeHalt p) y)) ∧
    (∀ v y, s.hst.d3 = false → v < 16 → s.leftOff 12 = true → y = x.put F.SVE_CTRL_PIPE_EN (v % 4) →
      exec (.pipeEnWrite t v) s = .next ([0, 1, 2, 3].foldl (fun z p => if bitAt (v % 4) p then z.pipeRelease p else if z.pipeSt p = 3 then z else
        z.pipeHalt p) y)) ∧
    ((s.pipe p).cur = none → exec (.pipeParityFault t p) s = .next (x.event 0x0A30 p 0 0)) ∧
    ((s.pipe p).cur ≠ none → exec (.pipeParityFault t p) s = .next ((x.dropCurrent p 0x0A30).pipeBoundary p))

/-- A ready Trowel job of each operation is taken when the engine is idle: refused with its code, or current with its method shown; the scratch copy writes the source rows to the scratch region; the watermark runs the rows before it and forms its completion; the job ends when its remaining rows are written, or with the code of a poisoned read, and posts its watermark first where the rows before it stand written. (derived from R293, R297, R298, R302.) -/
def Obligations.TrowelJobs : Prop :=
  (∀ (s x : State) (t op w : Nat) (i : Instr) (d : Desc), (i, op) ∈ [(Instr.copy t, 1), (Instr.fill t, 2), (Instr.blend t, 3), (Instr.reduce t, 4)] →
    s.fieldOn = true → s.trwNext = some (w, d) → s.trwSt = 0 →
    (trwFields d.bytes).op = op ∨ ¬ (1 ≤ (trwFields d.bytes).op ∧ (trwFields d.bytes).op ≤ 4) →
    x = ({ s with now := max s.now t, trw := { s.trw with taken := ⟨(trwFields d.bytes).tag, max s.now t, none⟩ :: s.trw.taken } } : State).startDesc w d.num →
    exec i s = .next (if x.trwCode d.bytes ≠ 0 then
        ((x.count Reg.TRW_SNAP_REFUSED 1).event (x.trwCode d.bytes) 0 (trwFields d.bytes).tag 0).endDesc w d.num (x.trwCode d.bytes)
          (trwBody 3 0 (x.trwCode d.bytes) (trwFields d.bytes).tag (x.short (max s.now t)) 0)
      else ((({ x with trw := { x.trw with cur := some { ring := w, num := d.num, bytes := d.bytes, method := (trwFields d.bytes).method } } }
        : State).put F.TRW_STATUS_STATE (if (trwFields d.bytes).method = 2 then 2 else 1)).put F.TRW_STATUS_METHOD
          (trwFields d.bytes).method).put F.TRW_STATUS_ROWS 0)) ∧
  (∀ (s x : State) (t : Nat) (j : TrwJob) (f : TrwFields) (rows : List (Nat × Nat)), s.fieldOn = true → x = s.tick t → s.trw.cur = some j →
    f = trwFields j.bytes → rows = (List.range f.h).map (fun r => (f.src + f.spitch * r, f.elem * f.w)) → s.trwSt = 2 →
    rows.find? (fun q => x.readPoison q.1 q.2) = none →
    exec (.scratchCopied t) s = .next ((((x.noteReads 8 rows).store 8 (s.regionBase 0x0130) (rows.flatMap (fun q => s.read q.1 q.2))).trwShow
      { j with copied := true }).put F.TRW_STATUS_STATE 1)) ∧
  (∀ (s x : State) (t : Nat) (j : TrwJob) (f : TrwFields) (q : Nat × Nat) (rows : List (Nat × Nat)), s.fieldOn = true → x = s.tick t →
    s.trw.cur = some j → f = trwFields j.bytes → s.trwSt = 2 → rows = (List.range f.h).map (fun r => (f.src + f.spitch * r, f.elem * f.w)) →
    rows.find? (fun q => x.readPoison q.1 q.2) = some q → exec (.scratchCopied t) s = .next
      ((x.noteReads 8 (rows.takeWhile (fun q => !x.readPoison q.1 q.2) ++ [q])).trwEnd j 0x0B20)) ∧
  (∀ (s x y : State) (t : Nat) (j j1 : TrwJob) (bad : Bool), s.fieldOn = true → x = s.tick t → s.trw.cur = some j → s.trwSt = 1 →
    j.marked = false → (trwFields j.bytes).mark ≠ 0xFFFF → x.trwRun j (j.markRows - j.rows) = (y, j1, bad) →
    exec (.watermark t) s = .next (if bad then (y.trwShow j1).trwEnd j1 0x0B20 else y.trwMark j1)) ∧
  (∀ (s x y : State) (t : Nat) (j j1 : TrwJob) (bad : Bool), s.fieldOn = true → x = s.tick t → s.trw.cur = some j → s.trwSt = 1 →
    x.trwRun j ((trwFields j.bytes).rows.length - j.rows) = (y, j1, bad) →
    exec (.trwJobDone t) s = .next (((if (trwFields j1.bytes).mark ≠ 0xFFFF ∧ j1.marked = false ∧ j1.markRows ≤ j1.rows then y.trwMark j1
      else y).trwShow j1).trwEnd j1 (if bad then 0x0B20 else 0)))

/-- A frame begins when it is due, with a sweep of the panel first where the panel is in black or discharging; a line is decided when scan-out begins it, and at the first block-row boundary from 3.2 µs after its start its mark leaves with the packets behind it on every group that takes marks, T_PIPE shows the delay and what each packet changes comes about; an edge of SYNC_IN or TE comes after the actions due by then, and outside the dead time is stamped, captured where its capture is on, and of the active polarity or TE also taken by its rule; a missed reference loses lock, a free start is scheduled 2 s after the first image, and a missing TE is marked lost and logged. (derived from R306, R311, R312, R314, R319, R323, R325, R349, R350, R450.) -/
def Obligations.RasterTiming : Prop :=
  ∀ (s x : State) (t : Nat), s.fieldOn = true → x = s.tick t →
    (∀ g sweep y, s.out.gen = some g → x.frameDue = true → sweep = (s.out.running && !s.pnl.sweepOff && (s.pnlSt == 1 || s.pnlSt == 2 || s.pnlSt == 4)) →
      y = (if sweep then x.sweep 1 else x) →
      exec (.frameStart t) s = .next ((({ y with pnl := { y.pnl with sweepDue := sweep } } : State).frameBegin g).panelFrame)) ∧
    (∀ corr bad, (max s.now t : Nat) < (s.out.start + (s.out.line : Rat) * s.out.period / ((modeAt s.out.mode).vtotal : Rat)) ∨
        s.out.running = false → exec (.lineStart t corr bad) s = .next x) ∧
    (∀ corr bad, s.out.running = true → s.out.line < (modeAt s.out.mode).vtotal →
      s.out.start + (s.out.line : Rat) * s.out.period / ((modeAt s.out.mode).vtotal : Rat) ≤ ((max s.now t : Nat) : Rat) →
      ∃ u l, exec (.lineStart t corr bad) s = .next u ∧ u.out.line = s.out.line + 1 ∧ u.tlk.lines = s.tlk.lines ++ [l] ∧ l.line = s.out.line ∧
        l.frame = s.frameNo ∧ l.holdAll = s.holdAll ∧
        l.start = s.out.start + (s.out.line : Rat) * s.out.period / ((modeAt s.out.mode).vtotal : Rat)) ∧
    (∀ l rest, s.tlk.lines = l :: rest → s.markAt l ≤ ((max s.now t : Nat) : Rat) →
      ∃ u, exec (.lineMark t) s = .next u ∧ u.tlk.lines = rest ∧ u.tlk.mark = some (l.line, l.frame % 2 ^ 32, b2n l.holdAll) ∧
        u.tlk.grid = some (s.markAt l)) ∧
    (∀ l rest w y z, s.tlk.lines = l :: rest → w = s.markAt l → w ≤ ((max s.now t : Nat) : Rat) →
      y = (({ x with tlk := { s.tlk with lines := rest, mark := some (l.line, l.frame % 2 ^ 32, b2n l.holdAll), sent := [], grid := some w } }
        : State).put F.TLK_DELAY_T_PIPE (min 0xFFFF ((w - l.start) / 16).floor.toNat)) →
      z = s.markGroups.foldl State.sendIdle ((s.markGroups.foldl (fun s n => s.sendMark l.line (l.frame % 2 ^ 32) (b2n l.holdAll) w n) y).sendPackets (l.packets.filter (fun p => s.markGroups.contains p.group))) →
      exec (.lineMark t) s = .next (z.tlk.sent.foldl State.packetLeft z).settleUpdates) ∧
    (∀ src rising w z y, src ≠ 1 → w = x.dueActions → w.tim.edges.any (fun e => e.1 == src && decide (w.now < e.2 + 50 * tickNs)) = false →
      z = ({ w with tim := { w.tim with edges := assocSet src w.now w.tim.edges } } : State) →
      y = (if z.capOn src then z.capture src (b2n rising) 0 (z.full z.now) else z) →
      (src = 0 → rising = x.syncRising → exec (.syncInEdge t) s = .next (y.syncEdge y.now)) ∧
      (src = 0 → rising = !x.syncRising → exec (.syncInOtherPolarityEdge t) s = .next y) ∧
      (src = 2 → rising = true → exec (.teEdge t) s = .next (y.teEdge y.now))) ∧
    (∀ w, w = x.dueActions → w.tim.edges.any (fun e => e.1 == 0 && decide (w.now < e.2 + 50 * tickNs)) = true →
      exec (.syncInEdge t) s = .next (w.count Reg.TIM_SNAP_CAP_DEAD 1) ∧
      exec (.syncInOtherPolarityEdge t) s = .next (w.count Reg.TIM_SNAP_CAP_DEAD 1)) ∧
    (∀ g a, s.out.gen = some g → g.sync = true → s.lock = 1 ∨ s.lock = 2 → s.out.lastEdge = some a →
      (a : Rat) + 2 * g.tref + g.win ≤ ((max s.now t : Nat) : Rat) → exec (.referenceLoss t) s = .next x.refLost) ∧
    (∀ g, s.out.gen = some g → s.lock = 0 → s.out.sched = false → s.sho.firstAt + 2 * tickS ≤ max s.now t →
      exec (.acquireTimeout t) s = .next { x with out := { s.out with
        sched := true, next := (x.ptpGrid g s.out.nmode 0).from ((max s.now t : Nat) : Rat) } }) ∧
    (∀ a, s.out.lastTe = some a → s.flag F.OUT_TE_TE_EN = true → s.out.teInts ≠ [] → s.flag F.OUT_LOCK_TE_LOST = false →
      (a : Rat) + 3 * s.pTe ≤ ((max s.now t : Nat) : Rat) → exec (.teTimeout t) s = .next
        { (x.put F.OUT_LOCK_TE_LOST 1).event 0x0C20 0 0 0 with out := { s.out with teGood := 0 } }) ∧
    (exec (.teDelayedSend t) s = .next { x with pnl := { s.pnl with updates := s.pnl.updates.map (fun u => match u.until_ with
      | some z => if z ≤ ((max s.now t : Nat) : Rat) then { u with until_ := none } else u
      | none => u) } })

/-- Sensed terminations are shown and move a group that detects to training; no detection is logged once after 10 ms and tried again at 100 ms; the back channel's symbol lock shows and starts pattern training; a stage that takes too long is logged and tried again; a lock message of all lanes starts the exchange; CONFIG is sent when due; CAPS that match make the group active; an exchange too long goes back; software retrains the groups it names; a silent back channel is marked lost; a group's discharge ends at 2 s; a read-back that is lost is logged once; a control block whose CHECK fails, a packet that fails its own checks and, with READBACK_EN, one that differs from the one sent, is a mismatch, a LINE read back gives the light measurement of its row, and the row of a mismatch is sent again in a panel-memory mode. (derived from R354, R355, R356, R359, R360, R361.) -/
def Obligations.LinkGroups : Prop :=
  ∀ (s x : State) (t n : Nat), s.fieldOn = true → x = s.tick t → n < 8 →
    (s.tlkSt n = 1 → exec (.terminationSensed t n 0x3F) s = .next ((x.put (F.TLK_GROUP_STATUS_LANE_DETECT.nth n) 0x3F).toPattern n)) ∧
    (∀ mask, s.tlkSt n ≠ 1 → exec (.terminationSensed t n mask) s = .next (x.put (F.TLK_GROUP_STATUS_LANE_DETECT.nth n) mask)) ∧
    (s.tlkSt n = 1 → (s.tlkGroup n).since + 10 * tickMs ≤ max s.now t → (s.tlkGroup n).detectLogged = false →
      exec (.detectTimeout t n) s = .next ((x.event 0x0D10 0 n 0).onGroup n (fun g => { g with detectLogged := true }))) ∧
    (s.tlkSt n = 1 → (s.tlkGroup n).since + 100 * tickMs ≤ max s.now t → exec (.detectRetry t n) s = .next (x.setGroup n 1)) ∧
    (s.tlkSt n = 2 → exec (.backchannelSymbolLock t n) s = .next (((x.put (F.TLK_GROUP_STATUS_BC_LOCK.nth n) 1).laneLock n).setGroup n 3)) ∧
    (s.tlkSt n = 2 → s.flag (F.TLK_GROUP_STATUS_BC_LOCK.nth n) = false → (s.tlkGroup n).since + 5 * tickMs ≤ max s.now t →
      exec (.patternTimeout t n) s = .next ((x.event 0x0D11 0 n 0).toPattern n)) ∧
    (∀ b p, bcParse b = some (3, p) → p.length = 2 → exec (.lock t n b) s = .next ((x.bcSeen n).lockMsg n p)) ∧
    (∀ y p, s.tlkSt n = 3 → p.getD 0 0 % 64 = 0x3F → p.getD 1 0 % 64 = 0x3F → y = (x.bcSeen n).put (F.TLK_GROUP_STATUS_LANE_LOCK.nth n) (p.getD 1 0) →
      (x.bcSeen n).lockMsg n p = (((y.endPattern n).onGroup n (fun g =>
        { g with alive := 0, exchangeAt := max s.now t, mismatchAt := none, configAt := none })).onZone n (fun z => { z with since := some (max s.now t) })).setGroup n 4) ∧
    (∀ b, bcParse b = none → exec (.lock t n b) s = .next (x.bcFail n) ∧ exec (.caps t n b) s = .next (x.bcFail n) ∧
      exec (.statusMessage t n b) s = .next (x.bcFail n)) ∧
    (s.tlkSt n = 3 → (s.tlkGroup n).since + 10 * tickMs ≤ max s.now t →
      exec (.lockTimeout t n) s = .next ((x.event 0x0D11 0 n 0).toPattern n)) ∧
    (s.tlkSt n = 4 → (s.tlkGroup n).mismatchAt = none →
      (∀ a, (s.tlkGroup n).configAt = some a → a + 100 * tickUs ≤ max s.now t ∨ a < (s.tlkGroup n).exchangeAt) → exec (.config t n) s = .next
      ((((({ x with tlk := { s.tlk with sent := s.tlk.sent.filter (fun p => p.group != n) } } : State).sendRows n ((max s.now t : Nat) : Rat)
        [idleRow n]).onGroup n (fun g => { g with configAt := some (max s.now t), rowAt := ((max s.now t + rowTicks : Nat) : Rat) })).sendPackets
          [{ group := n, typ := 7, payload := s.configPayload n }]).sendIdle n)) ∧
    (∀ b p, bcParse b = some (2, p) → p.length = 24 → (x.bcSeen n).tlkSt n = 4 → (x.bcSeen n).capsMatch n p = true →
      ((x.bcSeen n).tlkGroup n).tileId = none → exec (.caps t n b) s = .next ((((((x.bcSeen n).put (F.TLK_TILE_ID_TILE_ID.nth n) (fieldLE p 0 8)).put
        (F.TLK_TILE_INFO_CODE_BITS.nth n) (p.getD 9 0)).put (F.TLK_TILE_INFO_MEMORY.nth n) (p.getD 14 0)).put (F.TLK_TILE_INFO_D_PANEL_US.nth n)
          (fieldLE p 16 4)).onGroup n (fun g => { g with tileId := some (fieldLE p 0 8), mismatchAt := none }) |>.groupActive n)) ∧
    (s.tlkSt n = 4 → (s.tlkGroup n).mismatchAt = none → (s.tlkGroup n).since + 10 * tickMs ≤ max s.now t →
      exec (.exchangeTimeout t n) s = .next (x.toPattern n)) ∧
    (∀ a, s.tlkSt n = 4 → (s.tlkGroup n).mismatchAt = some a → a + tickS ≤ max s.now t →
      exec (.exchangeTimeout t n) s = .next ((x.onGroup n (fun g => { g with mismatchAt := none })).setGroup n 4)) ∧
    (∀ b p, bcParse b = some (1, p) → p.length = 24 → exec (.statusMessage t n b) s = .next
      (if ((x.bcSeen n).statusMsg n p).phaseDone then ((x.bcSeen n).statusMsg n p).nextPhase else (x.bcSeen n).statusMsg n p)) ∧
    (s.hst.d3 = false → exec (.retrain t (2 ^ n)) s = .next (x.retrain n)) ∧
    (s.tlkSt n = 5 → x.retrain n = ((x.event 0x0D14 0 n 0).count Reg.TLK_SNAP_RETRAINS 1).toPattern n) ∧
    (4 ≤ s.tlkSt n → s.flag (F.TLK_GROUP_STATUS_BC_LOST.nth n) = false →
      max (s.tlkGroup n).lastMsg (s.tlkGroup n).exchangeAt + 10 * tickMs ≤ max s.now t →
      exec (.backchannelTimeout t n) s = .next ((x.put (F.TLK_GROUP_STATUS_BC_LOST.nth n) 1).event 0x0D20 0 n 0)) ∧
    (s.tlkSt n = 6 → s.pnl.phase ≠ 0 → s.pnl.phaseAt + 2 * tickS ≤ max s.now t → exec (.dischargeTimeout t n) s = .next (x.setGroup n 0)) ∧
    (∀ raw, exec (.readbackPacket t n false raw) s = .next ((if (s.tlkGroup n).rbLost then x else x.event 0x0D31 0 n 0).onGroup n (fun g =>
      { g with rbLost := true }))) ∧
    (∀ raw y, y = x.onGroup n (fun g => { g with rbLost := false }) → exec (.readbackPacket t n true (0x109 :: raw)) s = .next
      (if checkOk raw = false then y.rbMismatch n 0 else y)) ∧
    (∀ raw p y z mine, raw.head? ≠ some 0x109 → mine = (fun (q : Packet) => q.group == n && decide (q.leftAt ≤ ((max s.now t : Nat) : Rat))) → s.tlk.sent.find? mine = some p →
      y = x.onGroup n (fun g => { g with rbLost := false }) →
      z = (if p.typ = 1 then ({ y with tlk := { y.tlk with sent := s.tlk.sent.eraseIdx (s.tlk.sent.findIdx mine) } } : State).lightMeasure n p.row p.frame
        else { y with tlk := { y.tlk with sent := s.tlk.sent.eraseIdx (s.tlk.sent.findIdx mine) } }) →
      (p.checksOk raw = true → s.flag F.TLK_CTRL_READBACK_EN = false ∨ p.codesOk raw = true → exec (.readbackPacket t n true raw) s = .next z) ∧
      (p.checksOk raw = false ∨ (s.flag F.TLK_CTRL_READBACK_EN = true ∧ p.codesOk raw = false) → exec (.readbackPacket t n true raw) s = .next
        (if panelMemory s.out.mode = true ∧ 1 ≤ p.typ ∧ p.typ ≤ 3 then (z.rbMismatch n p.row).markRow n p.row else z.rbMismatch n p.row)))

/-- A due sweep is marked done; POWER_OFF starts the discharge from any lit state, dropping open updates and moving the active groups to DISCHARGE, and the label strip writes its clean record, in IDLE at once and else on reaching IDLE (the model's reading, log entry 163); POWER_ON from the off state detects every live group; a discharge phase that overruns by 10 ms ends; a demura file is copied and checked once an image runs, refused with the code of the first failed check, decoded by a job of the firmware's ring, and written to the spare half, before any epoch into use at once. (derived from R370, R376, R377, R379.) -/
def Obligations.PanelPower : Prop :=
  ∀ (s x : State) (t : Nat), s.fieldOn = true → x = s.tick t →
    (s.pnl.sweepDue = true → exec (.dcSweepComplete t) s = .next (({ x with pnl := { s.pnl with sweepDue := false } } : State).sweepMark)) ∧
    (∀ y z, s.hst.d3 = false → s.pnlSt ≠ 0 → s.pnlSt ≠ 4 →
      y = s.panel.live.foldl (fun s g => if s.tlkSt g = 5 then s.setGroup g 6 else s) (x.put F.PNL_STATUS_STATE 4) →
      z = { y with pnl := { y.pnl with
        phase := 0, phaseDue := some 1, brown := false, updates := [], select := none, sweepOff := y.pnl.sweepOff || s.pnlSt == 3 } } →
      (s.get F.LBL_STATUS_STATE = 2 → exec (.powerOff t) s = .next z.lblClean) ∧
      (s.get F.LBL_STATUS_STATE = 1 ∨ s.get F.LBL_STATUS_STATE = 3 → exec (.powerOff t) s = .next (z.onLbl (fun l => { l with cleanDue := true }))) ∧
      (s.get F.LBL_STATUS_STATE = 0 ∨ s.get F.LBL_STATUS_STATE = 4 → exec (.powerOff t) s = .next z)) ∧
    (s.hst.d3 = false → s.pnlSt = 0 → s.imageOn = true → s.flag F.THM_STATUS_ORDERLY = false → s.pageValid = true → exec (.powerOn t) s = .next (s.panel.live.foldl State.toDetect x)) ∧
    (s.hst.d3 = false → s.pnlSt = 0 → s.imageOn = true → s.flag F.THM_STATUS_ORDERLY = false → s.pageValid = false → exec (.powerOn t) s = .next (x.event 0x0D15 0 0 0)) ∧
    (s.pnlSt = 4 → s.pnl.phase ≠ 0 → s.pnl.phaseDue = none → s.pnl.phaseAt + (s.phaseMs s.pnl.phase + 10) * tickMs ≤ max s.now t →
      exec (.dischargePhaseTimeout t) s = .next x.nextPhase) ∧
    (s.hst.d3 = false → s.flag F.PNL_DMR_STATUS_BUSY = true → exec (.demuraLoad t) s = .next (x.event 0x0E24 0 0 0)) ∧
    (∀ r b y, s.hst.d3 = false → s.flag F.PNL_DMR_STATUS_BUSY = false → s.sho.run.isSome = true → s.region 4 = some r →
      2 * s.panel.demuraHalf + s.get F.PNL_DMR_LEN_LEN ≤ r.size →
      b = s.read (s.get F.PNL_DMR_ADDR_ADDR * 4096) (s.get F.PNL_DMR_LEN_LEN) → y = ((x.noteRead 15 (s.get F.PNL_DMR_ADDR_ADDR * 4096) (s.get F.PNL_DMR_LEN_LEN)).store 15 (r.base + 2 * s.panel.demuraHalf) b).put
        F.PNL_DMR_STATUS_BUSY 1 → exec (.demuraLoad t) s = .next { y with pnl := { y.pnl with dmr := .check, dmrFile := b } }) ∧
    (∀ sigOk tagOk plain, s.pnl.dmr = .check → dmrFormatOk s.pnl.dmrFile = false →
      exec (.demuraChecked t sigOk tagOk plain) s = .next (x.dmrRefuse 0x0E20)) ∧
    (∀ plain o, s.pnl.dmr = .check → dmrFormatOk s.pnl.dmrFile = true → fieldLE s.pnl.dmrFile 8 2 = s.panel.patchW →
      fieldLE s.pnl.dmrFile 0x0A 2 = s.panel.patchH → slice s.pnl.dmrFile 0x10 48 = slice s.nvs.page 0x20 48 → s.secOk = true →
      s.panelSigner (slice s.pnl.dmrFile (128 + alignUp (fieldLE s.pnl.dmrFile 0x0C 4) 16) 97) = true →
      (s.otpValue (2 + s.pnl.dmrFile.getD 5 0)).isSome = true →
      loamAll 4 (fieldLE s.pnl.dmrFile 0x0C 4 + 1) (slice plain 0 (fieldLE s.pnl.dmrFile 0x0C 4)) = some o →
      o.length = 52 * s.panel.patchW * s.panel.patchH →
      exec (.demuraChecked t true true plain) s = .next (({ x with pnl := { s.pnl with dmr := .decode, dmrOut := o } } : State).pushFw
        (fwJob 2 (s.regionBase 4 + 2 * s.panel.demuraHalf + 128) (fieldLE s.pnl.dmrFile 0x0C 4) (s.regionBase 4 + s.dmrSpare * s.panel.demuraHalf)
          s.panel.demuraHalf))) ∧
    (∀ e y z, s.pnl.dmr = .decode → [0, 1].any (s.runsFw 2) = true → e = (if s.runsFw 2 0 then 2 else 3) →
      y = (x.endFw 2).noteRead e (s.regionBase 4 + 2 * s.panel.demuraHalf + 128) (fieldLE s.pnl.dmrFile 0x0C 4) → z = ({ ((y.store e
      (s.regionBase 4 + s.dmrSpare * s.panel.demuraHalf) s.pnl.dmrOut).put F.PNL_DMR_STATUS_BUSY 0).put F.PNL_DMR_STATUS_DONE 1 with
        pnl := { y.pnl with dmr := .idle, dmrFile := [], dmrOut := [], dmrPend := true, dmrEpoch := 0, dmrAt := max s.now t } } : State).raise 4 →
      exec (.demuraDecoded t) s = .next (if z.cmt.last = 0 then z.dmrPublish else z))

/-- A due update, and a blink write with no update due, starts on the bounding rectangle of the differing pixels when the LBL is idle, no record of its waits and an open LBL_UIP covers it; otherwise that record is asked for first, and a record that failed is asked for again before anything is written; with nothing to write the due mark falls. A phase that has lasted its DURATION adds DURATION × v_seg to each counter of the run's segments, and the next phase begins, or the common is written. A generator that changes marks a blink write due. After CLEAN_S seconds without a write, the LBL_CLEAN record is written. (derived from R386, R389, R390, R391, R392.) -/
def Obligations.LabelUpdatesAndRecords : Prop :=
  ∀ (s x : State) (t : Nat), x = s.tick t →
    (s.lbl.due = true → s.lblSt = 2 → s.lbl.diff false = none →
      exec (.lblUpdateStart t) s = .next { x with lbl := { s.lbl with due := false } }) ∧
    (∀ r w, s.lbl.due = true → s.lblSt = 2 → s.lbl.diff false = some r → x.lblQueued = false → s.lbl.retry = none → x.uipCovers [r] = true →
      w = phasesOf (s.lbl.live.getD (2 * x.lblBand) []) →
      exec (.lblUpdateStart t) s = .next (((((x.put F.LBL_STATUS_BAND x.lblBand).onLbl (fun l => { l with
        run := some ⟨r, s.lbl.wantRows, w, x.lblInvert w s.lbl.wantRows r, false, r.c0, 0, max s.now t, false⟩
        dirty := true })).latchDrive).put F.LBL_STATUS_STATE 3).onLbl (fun l => { l with due := false, blinkDue := false }))) ∧
    (∀ r, s.lbl.due = true → s.lblSt = 2 → s.lbl.diff false = some r → x.lblQueued = false → s.lbl.retry ≠ some 0x0031 →
      (s.lbl.retry = none → x.uipCovers [r] = false) → exec (.lblUpdateStart t) s = .next (x.uipWrite [r])) ∧
    (∀ r, s.lbl.due = true → s.lblSt = 2 → s.lbl.diff false = some r → x.lblQueued = false → s.lbl.retry = some 0x0031 →
      exec (.lblUpdateStart t) s = .next x.lblClean) ∧
    (∀ r w, s.lbl.blinkDue = true → s.lbl.due = false → s.lblSt = 2 → s.lbl.diff true = some r → x.lblQueued = false → s.lbl.retry = none →
      x.uipCovers s.lbl.blinkRows = true → w = phasesOf (s.lbl.live.getD (2 * x.lblBand) []) →
      exec (.lblBlinkWriteStart t) s = .next (((((x.put F.LBL_STATUS_BAND x.lblBand).onLbl (fun l => { l with
        run := some ⟨r, s.lbl.wantRows, w, x.lblInvert w s.lbl.wantRows r, true, r.c0, 0, max s.now t, false⟩
        dirty := true })).latchDrive).put F.LBL_STATUS_STATE 3).onLbl (fun l => { l with blinkDue := false }))) ∧
    (∀ u r y, s.lbl.run = some u → u.wave[u.phase]? = some r → u.at_ + phaseDur r * 10 * tickUs ≤ max s.now t →
      y = (upFrom u.rect.s0 u.rect.n).foldl (fun s k => s.addDc k (segDrive r (bitAt (u.rows.getD u.com 0) k) u.inv)) x →
      (u.phase + 1 < u.wave.length → exec (.lblPhaseEnd t) s = .next
        (y.onLbl (fun l => { l with run := some { u with phase := u.phase + 1, at_ := u.at_ + phaseDur r * 10 * tickUs } })).latchDrive) ∧
      (u.wave.length ≤ u.phase + 1 → exec (.lblPhaseEnd t) s = .next (y.commonDone u))) ∧
    (∀ g on, g < 4 → on = s.blinkOn g (s.full (max s.now t)) → s.lbl.gens.getD g true ≠ on →
      exec (.lblBlinkChange t g) s = .next { x with lbl := { s.lbl with
        gens := modAt s.lbl.gens g (fun _ => on)
        blinkDue := s.lbl.masks.any (fun m => m.any (· != 0)) || s.lbl.blinkDue } }) ∧
    (s.lblSt = 2 → s.lbl.dirty = true → s.lbl.wroteAt + s.get F.LBL_CLEAN_CLEAN_S * tickS ≤ max s.now t →
      exec (.lblCleanTimer t) s = .next x.lblClean)

/-- The selected shadow record is read or written and PHASE advances; an apply is requested and, between updates, the waveform becomes live or is refused with LBL_WAVE_BALANCE or LBL_WAVE_SHORT; ENABLE and HV_EN together take OFF to RECOVER, one of them clear takes RECOVER and IDLE to OFF and stops what is being written at its common; RECOVER clears one rectangle after the other by CLEAR runs and, with none left, goes IDLE with the landed label data applied; a keeper reset takes FLOATED to OFF with ENABLE and HV_EN clear (the model's reading, log entry 175). (derived from R387, R392, R393, R395.) -/
def Obligations.LabelWaveformsAndStates : Prop :=
  ∀ (s x : State) (t : Nat), x = s.tick t →
    (s.hst.d3 = false → exec (.lblWaveApply t) s =
      .next ((x.put F.LBL_WAVE_APPLY_APPLY 1).onLbl (fun l => { l with request := some s.waveIx }))) ∧
    (∀ v y, s.hst.d3 = false → y = x.onLbl (fun l => { l with shadow := modAt l.shadow s.waveIx (fun w => modAt w (s.get F.LBL_WAVE_SEL_PHASE) (fun _ =>
      v % 2 ^ 32)) }) → exec (.lblWaveDataAccess t true v) s = .next ((y.put F.LBL_WAVE_DATA_RECORD ((y.lbl.shadow.getD s.waveIx []).getD
        (s.get F.LBL_WAVE_SEL_PHASE) 0)).put F.LBL_WAVE_SEL_PHASE (s.get F.LBL_WAVE_SEL_PHASE + 1))) ∧
    (∀ v r, s.hst.d3 = false → r = (s.lbl.shadow.getD s.waveIx []).getD (s.get F.LBL_WAVE_SEL_PHASE) 0 →
      exec (.lblWaveDataAccess t false v) s = .next ((({ x with hst := { s.hst with readData := leBytes 4 r, readEp := false } } : State).put
        F.LBL_WAVE_DATA_RECORD r).put F.LBL_WAVE_SEL_PHASE (s.get F.LBL_WAVE_SEL_PHASE + 1))) ∧
    (∀ i w y, s.lbl.request = some i → s.lbl.run = none → w = s.lbl.shadow.getD i [] →
      y = (x.put F.LBL_WAVE_APPLY_APPLY 0).onLbl (fun l => { l with request := none }) →
      exec (.lblWaveInstall t) s = .next (if waveBalanced w then
        (if waveLongEnough (s.get F.LBL_CTRL_SCK_DIV) w then y.onLbl (fun l => { l with live := modAt l.live i (fun _ => w) })
         else y.event 0x0F12 0 i 0)
        else y.event 0x0F11 0 i 0)) ∧
    (∀ y, s.hst.d3 = false → s.lblSt = 0 → y = (x.put F.LBL_CTRL_ENABLE 1).put F.LBL_CTRL_HV_EN 1 →
      exec (.lblEnableWrite t true true) s = .next y.lblRecover) ∧
    (∀ en hv y, (en && hv) = false → s.hst.d3 = false → y = (x.put F.LBL_CTRL_ENABLE (b2n en)).put F.LBL_CTRL_HV_EN (b2n hv) →
      (s.lblSt = 0 ∨ s.lblSt = 4 → exec (.lblEnableWrite t en hv) s = .next y) ∧
      (1 ≤ s.lblSt → s.lblSt ≤ 3 → s.lbl.run = none → exec (.lblEnableWrite t en hv) s = .next y.lblOff) ∧
      (1 ≤ s.lblSt → s.lblSt ≤ 3 → s.lbl.run ≠ none → exec (.lblEnableWrite t en hv) s = .next (y.onLbl (fun l => { l with stop := true })))) ∧
    (s.lblSt = 1 → s.lbl.run = none → s.lbl.clear = [] → exec (.lblRecoverDone t) s = .next
      (s.lbl.landed.foldl (fun s d => s.onLbl (fun l => ((lblRecords d.length d).getD []).foldl LblState.apply l))
        (x.onLbl (fun l => { l with target := l.shown, landed := [], due := !s.lbl.landed.isEmpty, blinkDue := true }))).lblIdle) ∧
    (∀ u z w r rs, s.lbl.run = some u → u.wave.length ≤ u.phase → u.clear = true → u.rect.c1 ≤ u.com → s.lbl.stop = false → s.lbl.clear = r :: rs →
      z = ((x.count Reg.LBL_SNAP_COMMONS 1).count Reg.LBL_SNAP_INVERTED (b2n u.inv)).onLbl (fun l => { l with
        shown := modAt l.shown u.com ((upFrom u.rect.s0 u.rect.n).foldl (fun a k => setBit a k (bitAt (u.rows.getD u.com 0) k)))
        wroteAt := max s.now t, clear := rs }) →
      w = phasesOf (s.lbl.live.getD (2 * z.lblBand + 1) []) → exec (.lblPhaseEnd t) s = .next ((z.put F.LBL_STATUS_BAND z.lblBand).onLbl
        (fun l => { l with
          run := some ⟨r, List.replicate 8 0, w, z.lblInvert w (List.replicate 8 0) r, false, r.c0, 0, max s.now t, true⟩
          dirty := true })).latchDrive) ∧
    (s.lblSt = 4 → exec (.keeperReset t) s = .next (((x.put F.LBL_CTRL_ENABLE 0).put F.LBL_CTRL_HV_EN 0).put F.LBL_STATUS_STATE 0))

/-- After a write of bytes at an address, a usable byte of the range reads as written and every other byte as before; nothing at or above the end of usable memory is written; a block that the write covers whole is no longer poisoned, and every other block's poison, every register and every pending command stay; a write of part of one block names that block as written while poisoned exactly if it is. A block as it was written reads good, with one data bit flipped it is corrected, and under the poison marker or another block's number it reads as uncorrectable (the code's bit positions are the model's, log entry 152). (derived from R400, R401, R403, R409.) -/
def Obligations.MemoryBytesReadBack : Prop :=
  ∀ (s : State) (a : Nat) (bs : List Nat),
    (∀ i b, bs[i]? = some b → a + i < memTop → b < 256 → (s.write a bs).byte (a + i) = b) ∧
    (∀ x, (x < a ∨ a + bs.length ≤ x ∨ memTop ≤ x) → (s.write a bs).byte x = s.byte x) ∧
    (∀ n, a ≤ 64 * n → 64 * n + 64 ≤ a + bs.length → (s.write a bs).blockPoison n = false) ∧
    (∀ n, (64 * n < a ∨ a + bs.length < 64 * n + 64) → (s.write a bs).blockPoison n = s.blockPoison n) ∧
    (s.write a bs).regs = s.regs ∧ (s.write a bs).pending = s.pending ∧
    (∀ n, 64 * n ≤ a → 0 < bs.length → bs.length < 64 → a + bs.length ≤ 64 * n + 64 → 64 * n < memTop →
      s.partPoison a bs.length = if s.blockPoison n then [n] else []) ∧
    (∀ d n, eccDecode d (eccCode d n) n n = .good d) ∧
    (∀ d n i, d.length = 64 → i < 512 → eccDecode (flipBit d i) (eccCode d n) n n = .corrected d) ∧
    (∀ d c m n, m ≠ n ∨ 2048 ≤ c → eccDecode d c m n = .bad)

/-- A request beyond usable memory is logged once per epoch and port and a read of it answers poisoned; one that fits the three limits takes a slot and wakes its rank, another waits at its port, counted once, and nothing after it there is taken meanwhile; the picked request of an active channel finds its row open or opens it, the row before closing with its check block written back and the new page's check block read, a read then waiting for its data and a write merging its word of the check block; with none to pick, the slot takes a refresh postponed or ahead of time; an issued read returns its bytes as the check of the block leaves them, counted, or 64 zero bytes marked poisoned where the check finds an error it cannot correct; a write acknowledged stores its bytes and frees its slot, and one voided by a reset of its unit is dropped. (derived from R400, R402, R403, R405, R408, R409, R410, R411, R414, R426.) -/
def Obligations.MemoryRequests : Prop :=
  ∀ (s x : State) (t : Nat), s.fieldOn = true → x = s.tick t →
    (∀ p n w, p < 16 → s.mc.held.any (fun q => q.1 == p && q.2 != (n, w)) = true → exec (.memRequestAccept t p n w) s = .next x) ∧
    (∀ p n w, p < 16 → s.mc.held.any (fun q => q.1 == p && q.2 != (n, w)) = false → memTop ≤ 64 * n →
      exec (.memRequestAccept t p n w) s = .next (x.rangeRequest p n w)) ∧
    (∀ p n w, p < 16 → s.mc.held.any (fun q => q.1 == p && q.2 != (n, w)) = false → 64 * n < memTop → s.slotFree p (dramPlace n).chan = true → exec (.memRequestAccept t p n w) s = .next
      ((({ x with mc := { s.mc with
          reqs := s.mc.reqs ++ [{ id := s.mc.nextId, port := p, block := n, write := w, stamp := max s.now t }]
          nextId := s.mc.nextId + 1
          held := s.mc.held.filter (fun q => q.1 != p) } } : State).wakeRank (dramPlace n).chan (dramPlace n).rank).showSlots (dramPlace n).chan)) ∧
    (∀ p n w y, p < 16 → 64 * n < memTop → s.slotFree p (dramPlace n).chan = false → s.mc.held.any (fun q => q.1 == p) = false →
      y = x.count Reg.MEM_SNAP_SLOT_WAIT 1 → exec (.memRequestAccept t p n w) s = .next { y with mc := { y.mc with held := (p, n, w) :: y.mc.held } }) ∧
    (∀ c busy d y z u r rot waits, (s.chan c).st = .active → d = x.drainNow c → y = x.onChan c (fun k => { k with drain := d }) →
      y.pick c busy d = some (r, rot) →
      waits = (y.chanReqs c).any (fun q => q.open_ && bankIx q.block == bankIx r.block && !(y.chan c).hit q && decide (1 ≤ y.urgency q)) →
      z = ((y.wakeRank c (dramPlace r.block).rank).openRow c r.block waits).onChan c (fun k => { k with last := if rot then bankIx r.block else k.last }) →
      u = (if x.urgency r = 2 then z.count Reg.MEM_SNAP_URGENT 1 else z) →
      (r.write = false → exec (.memPick t c busy) s = .next { u with mc := { u.mc with
        reqs := u.mc.reqs.map (fun q => if q.id = r.id then { q with issued := true } else q) } }) ∧
      (r.write = true → exec (.memPick t c busy) s = .next { u.mergeWord r.block with mc := { (u.mergeWord r.block).mc with
        reqs := (u.mergeWord r.block).mc.reqs.filter (fun q => q.id != r.id) } })) ∧
    (∀ c busy d y, (s.chan c).st = .active → d = x.drainNow c → y = x.onChan c (fun k => { k with drain := d }) → y.pick c busy d = none →
      (∀ b, y.idleRefresh c busy = some b → exec (.memPick t c busy) s = .next (y.refreshBank c b)) ∧
      (y.idleRefresh c busy = none → exec (.memPick t c busy) s = .next y)) ∧
    (∀ c n w y, ((x.chan c).banks.getD (bankIx n) {}).openRow ≠ some (dramPlace n).row → y = x.closeRow c (bankIx n) → x.openRow c n w =
      y.onChan c (fun k => { k with banks := modAt k.banks (bankIx n) (fun q =>
        { q with openRow := some (dramPlace n).row, page := n / 31, check := y.pageCheck (n / 31), hits := 0 }) })) ∧
    (∀ id err r d y z, s.mc.reqs.find? (fun q => q.id == id && q.issued && !q.write) = some r → x.blockRead r.port r.block err = (d, z) →
      y = ((z.count Reg.MEM_SNAP_READ 64).countMax Reg.MEM_SNAP_LAT_MAX ((max s.now t - r.stamp) / tickNs)).dropReq r →
      exec (.memReadReturn t id err) s = .next { y with mc := { y.mc with
        respId := id, respPoison := d.isNone, resp := d.getD (List.replicate 64 0) } }) ∧
    (∀ port n err q, x.dramRead n err = q →
      (∀ d, eccDecode q.1.1 q.1.2.1 q.1.2.2 n = .good d → x.blockRead port n err = (some d, q.2)) ∧
      (∀ d, eccDecode q.1.1 q.1.2.1 q.1.2.2 n = .corrected d → x.blockRead port n err = (some d, q.2.count Reg.MEM_SNAP_ECC_CORR 1)) ∧
      (eccDecode q.1.1 q.1.2.1 q.1.2.2 n = .bad → x.blockRead port n err = (none, (q.2.setPoison n true).eccRead port n))) ∧
    (∀ id off data bad r y, s.mc.reqs.find? (fun q => q.id == id && q.write && !q.acked) = some r → r.void = false → off < 64 →
      off + data.length ≤ 64 →
      y = ((if bad && decide (data.length < 64) then x.setPoison r.block true else x).store r.port (64 * r.block + off) data).countMax
        Reg.MEM_SNAP_LAT_MAX ((max s.now t - r.stamp) / tickNs) →
      exec (.memWriteAck t id off data bad) s = .next ((({ y with mc := { y.mc with
          reqs := y.mc.reqs.map (fun q => if q.id = id then { q with acked := true } else q) } } : State).onRank (dramPlace r.block).chan
        (dramPlace r.block).rank (fun k => { k with idleSince := max s.now t })).showSlots (dramPlace r.block).chan)) ∧
    (∀ id off data bad r, s.mc.reqs.find? (fun q => q.id == id && q.write && !q.acked) = some r → r.void = true →
      exec (.memWriteAck t id off data bad) s = .next (x.dropReq r))

/-- A refresh due is taken by one issued ahead of time, or is issued, its bank's row closing, or postponed (at most 8 times) while an urgent request waits for its bank; MR4 codes and HOT are shown and logged once per epoch; training ends ACTIVE, TRAINED when all 24 are, or fails at the third attempt; a drifted channel retrains at a tolerance of 2,000 ns or after 1 s, and returns to ACTIVE or is lost fatally; an idle rank sleeps as MODE and tolerance allow; the scrub, when the next block's share of its period has come and the channel serves nothing more urgent, reads that block with port 0xFF, and a pass takes a period. (derived from R405, R406, R413, R414, R415, R416, R417, R420, R589.) -/
def Obligations.MemoryUpkeep : Prop :=
  ∀ (s x : State) (t : Nat), s.fieldOn = true → x = s.tick t →
    (∀ c b y u k, b < 32 → (s.rank c (b / 16)).st ≠ .selfRefresh → y = (x.wakeRank c (b / 16)).onRank c (b / 16) (fun k => { k with idleSince := max s.now t }) →
      u = (y.chanReqs c).any (fun r => r.open_ && bankIx r.block == b && y.urgency r == 2) → k = (y.chan c).banks.getD b {} →
      (0 < k.early → exec (.memRefreshDue t c b) s = .next (y.onChan c (fun q => { q with
        banks := modAt q.banks b (fun q => { q with early := q.early - 1 }) }))) ∧
      (k.early = 0 → u = true → k.postponed < 8 → exec (.memRefreshDue t c b) s = .next ((y.onChan c (fun q => { q with
        banks := modAt q.banks b (fun q => { q with postponed := q.postponed + 1, refreshDue := true }) })).count Reg.MEM_SNAP_REF_POSTPONED 1)) ∧
      (k.early = 0 → u = false ∨ 8 ≤ k.postponed → exec (.memRefreshDue t c b) s = .next ((y.closeRow c b).onChan c (fun q => { q with
        banks := modAt q.banks b (fun q => { q with postponed := if u then q.postponed else 0, refreshDue := u, hits := 0 }) })))) ∧
    (∀ code, exec (.mr4Poll t [(code, false)]) s =
      .next ((x.put (F.MEM_CHAN_STATUS_MR4_RATE.nth 0) code).put (F.MEM_CHAN_STATUS_HOT.nth 0) 0)) ∧
    (∀ code, exec (.mr4Poll t [(code, true)]) s =
      .next (((x.put (F.MEM_CHAN_STATUS_MR4_RATE.nth 0) code).put (F.MEM_CHAN_STATUS_HOT.nth 0) 1).eventOnce 0x1022 0 0 0 0)) ∧
    ((s.chan 0).driftAt = none → exec (.oscillatorPoll t [true]) s = .next (x.onChan 0 (fun k => { k with
      driftAt := match k.driftAt with
        | some d => some d
        | none => some (max s.now t) }))) ∧
    (∀ c d, (s.chan c).st = .active → (s.chan c).driftAt = some d → (2000 ≤ s.mc.tol ∨ tickS ≤ max s.now t - d) →
      exec (.memRetrainStart t c) s = .next ((x.onChan c (fun k => { k with pauseAt := max s.now t })).setChan c .retrain)) ∧
    (∀ c y, (s.chan c).st = .retrain → y = x.count Reg.MEM_SNAP_RETRAIN_NS (max s.now t - (s.chan c).pauseAt) →
      exec (.memRetrainDone t c true) s = .next ((y.onChan c (fun k => { k with driftAt := none })).setChan c .active) ∧
      exec (.memRetrainDone t c false) s = .next ((((y.onChan c (fun k => { k with lostInService := true, fails := 0, driftAt := none })).setChan c .failed).event
        0x1021 0 c 0).raiseFatal 3 c)) ∧
    (∀ c step y, c < 24 → (s.chan c).st = .training → y = (x.onChan c (fun k => { k with fails := 0, lostInService := false, driftAt := none })).setChan c .active →
      y.mc.chans.all (fun k => k.st == .active) = true →
      exec (.channelTrainingDone t c true step) s = .next ((y.put F.MEM_STATUS_TRAINED 1).put F.SYS_STATUS_MEM_TRAINED 1)) ∧
    (∀ c step n, c < 24 → (s.chan c).st = .training → n = (s.chan c).fails + 1 →
      exec (.channelTrainingDone t c false step) s = .next (if n < 3 then x.onChan c (fun k => { k with fails := n })
        else ((x.onChan c (fun k => { k with fails := n })).setChan c .failed).event 0x1020 0 c step)) ∧
    (∀ c r, (s.chan c).st = .active → (s.rank c r).st = .awake → s.rankIdle c r = true →
      s.get F.MEM_POLICY0_IDLE_US * tickUs ≤ max s.now t - (s.rank c r).idleSince →
      (s.get F.MEM_POLICY0_MODE = 1 → 400 ≤ s.mc.tol → exec (.rankIdleTimeout t c r) s = .next (x.sleepRank c r .selfRefresh)) ∧
      (s.get F.MEM_POLICY0_MODE = 2 → 20 ≤ s.mc.tol → exec (.rankIdleTimeout t c r) s = .next (x.sleepRank c r .powerDown))) ∧
    (x.scrubDueNow s.mc.scrub = false → ∀ err, exec (.patrolScrubRead t err) s = .next x) ∧
    (∀ err n y z d, n = s.mc.scrub → x.scrubDueNow n = true → ((x.wakeRank (dramPlace n).chan (dramPlace n).rank).openRow (dramPlace n).chan n
      false).blockRead 0xFF n err = (d, y) → z = y.count Reg.MEM_SNAP_READ 64 → exec (.patrolScrubRead t err) s = .next { z with mc := { z.mc with
        scrub := if memTop / 64 ≤ n + 1 then 0 else n + 1
        scrubAt := if memTop / 64 ≤ n + 1 then max (max s.now t) (s.mc.scrubAt + s.scrubPeriod) else s.mc.scrubAt } })

/-- A port that locks comes up, logged where it was up before, and one that loses lock goes down, its waiting frames dropped and counted; a frame of wrong length or FCS is counted and dropped, a pause frame only counted; another is forwarded to the network's other port, and is copied to the receive ring where it is for the device; the port sends the waiting frame whose turn it is, an event message with its residence time added; a write of the transmit ring's HEAD takes the entries up to it. (derived from R427, R428, R429, R432, R433, R434, R435, R436.) -/
def Obligations.EthernetPortsAndFrames : Prop :=
  ∀ (s x : State) (t p : Nat), s.fieldOn = true → x = s.tick t → p < 4 →
    (s.portUp p = false → s.flag (F.TIM_PORT_CTRL_ENABLE.nth p) = true → exec (.portUp t p) s = .next
      ((if (s.tim.ports.getD p {}).wasDown then (x.put F.TIM_STATUS_PORT_UP (s.get F.TIM_STATUS_PORT_UP + 2 ^ p)).event 0x1111 0 p 0
        else x.put F.TIM_STATUS_PORT_UP (s.get F.TIM_STATUS_PORT_UP + 2 ^ p)).laneLock (8 + p))) ∧
    (∀ y, s.portUp p = true → y = ((x.put F.TIM_STATUS_PORT_UP (s.get F.TIM_STATUS_PORT_UP - 2 ^ p)).event 0x1110 0 p 0).laneLost (8 + p) →
      exec (.portDown t p) s = .next ((y.tim.ports.getD p {}).queue.foldl (fun s f => match f.slot with
        | some k => s.txRefuse k
        | none => s) ((y.onPort p (fun q => { q with queue := [], wasDown := true })).count Reg.TIM_SNAP_FWD_DROP (y.tim.ports.getD p {}).queue.length))) ∧
    (∀ ti raw, s.portUp p = true → (9216 < raw.length ∨ raw.length < 18 ∨ raw.drop (raw.length - 4) ≠ fcsOf (raw.take (raw.length - 4))) →
      exec (.ethFrameReceive t p ti raw) s = .next (x.count Reg.TIM_SNAP_BAD_FCS 1)) ∧
    (∀ ti raw b, s.portUp p = true → raw.length ≤ 9216 → 18 ≤ raw.length → b = raw.take (raw.length - 4) → raw.drop (raw.length - 4) = fcsOf b →
      (pauseFrame b = true → exec (.ethFrameReceive t p ti raw) s = .next (x.count Reg.TIM_SNAP_PAUSE 1)) ∧
      (∀ y, pauseFrame b = false → y = (if x.forwards (p / 2) b then x.egress (Nat.xor p 1) ⟨b, if eventFrame b then 1 else 2, some ti, none, none⟩
          else x) → exec (.ethFrameReceive t p ti raw) s = .next
        (if y.consumed (p / 2) b then (if y.flag F.TIM_CTRL_COPY_PTP then y.rxDeliver p ti b else y)
          else (if y.forDevice (p / 2) b || peerFrame b then y.rxDeliver p ti b else y)))) ∧
    (∀ f out a b d, s.portUp p = true → nextFrame (s.tim.ports.getD p {}).queue = some f → out = clockFrame f (max s.now t) →
      a = x.onPort p (fun z => { z with queue := z.queue.erase f, last := some (max s.now t, out.1 ++ fcsOf out.1) }) →
      b = (match out.2 with
        | some c => a.count c 1
        | none => a) → d = (if f.ingress.isSome then b.count Reg.TIM_SNAP_FWD 1 else b) → f.slot = none →
      (f.dreq = none → exec (.ethFrameTransmit t p) s = .next d) ∧
      (∀ q, f.dreq = some q → exec (.ethFrameTransmit t p) s = .next { d with tim := { d.tim with
        servos := modAt d.tim.servos q.1 (fun v => { v with sentDreq := some (q.2, max s.now t) }) } })) ∧
    (∀ f ti q y, s.portUp p = true → nextFrame (s.tim.ports.getD p {}).queue = some f → f.ingress = some ti → f.slot = none → f.dreq = none →
      ptpAt f.bytes = some q → isEvent f.bytes q = true → y = correctFrame f.bytes q (max s.now t - ti) →
      exec (.ethFrameTransmit t p) s = .next (((x.onPort p (fun z => { z with
        queue := z.queue.erase f
        last := some (max s.now t, y ++ fcsOf y) })).count Reg.TIM_SNAP_TC_CORRECTED 1).count Reg.TIM_SNAP_FWD 1)) ∧
    (∀ f k y, s.portUp p = true → nextFrame (s.tim.ports.getD p {}).queue = some f → f.ingress = none → f.slot = some k → f.dreq = none →
      y = x.onPort p (fun z => { z with
        queue := z.queue.erase f
        last := some (max s.now t, f.bytes ++ fcsOf f.bytes) }) →
      exec (.ethFrameTransmit t p) s = .next ((y.store 12 (y.timEntry 1 k + 12) (leBytes 4 (y.short (max s.now t)))).txComplete k)) ∧
    (∀ v n, s.hst.d3 = false → n = s.get (F.TIM_RING_SIZE_ENTRIES.nth 1) → v < 4096 → v < n → 2 ≤ n → exec (.txRingHeadWrite t v) s = .next
      ((slotsTo (s.get (F.TIM_RING_HEAD_HEAD.nth 1)) v n).foldl State.txTake (x.put (F.TIM_RING_HEAD_HEAD.nth 1) v)))

/-- An Announce is entered among the masters, each named by its identity and port, and the best is chosen, and where the selected master names another grandmaster the servo starts its measurement anew; a Sync of the selected master is measured at once, or with two steps at its Follow_Up of the same sequence number; a Delay_Resp to this servo adds one path delay and shows the mean; a Delay_Req leaves on the master's port when its interval is over; a closed Announce or Sync window returns the servo to LISTENING; ENABLE 1 begins LISTENING and ENABLE 0 goes OFF. (derived from R437, R438, R439.) -/
def Obligations.PtpServos : Prop :=
  ∀ (s x : State) (t v p : Nat), s.fieldOn = true → x = s.tick t → p < 4 → v = p / 2 →
    (∀ ti raw q y z w, s.srvMsg v 0xB raw = some q → -3 ≤ ptpLog raw q → ptpLog raw q ≤ 1 → fieldBE raw (q.off + 61) 2 < 255 → y = x.srvWindows v ti →
      z = announceOf raw q p ti (((y.srv v).masters.find? (fun m => m.ident == ptpIdent raw q && m.port == p)).map (·.seen) |>.getD []) →
      w = (y.onSrv v (fun w => { w with
        masters := z :: (y.srv v).masters.filter (fun m => m.ident != ptpIdent raw q || m.port != p)
        lastAnn := if w.sel = some z.name then ti else w.lastAnn })).bmca v ti →
      ((y.srv v).sel ≠ some z.name ∨ (w.srv v).sel ≠ some z.name ∨ (y.srv v).selected.map (·.gm) = some z.gm ∨ w.srvState v < 2 →
        exec (.announce t p ti raw) s = .next w.tbSettle) ∧
      ((y.srv v).sel = some z.name → (w.srv v).sel = some z.name → (y.srv v).selected.map (·.gm) ≠ some z.gm → 2 ≤ w.srvState v →
        exec (.announce t p ti raw) s = .next (((w.onSrv v Servo.fresh).setSrv v 2).srvEvent 0x1122 v).tbSettle)) ∧
    (∀ ti raw q y, s.srvMsg v 0 raw = some q → y = x.srvWindows v ti → y.fromSel v p raw q = true → -7 ≤ ptpLog raw q → ptpLog raw q ≤ 1 →
      (bitAt (raw.getD (q.off + 6) 0) 1 = true → exec (.sync t p ti raw) s = .next (((y.onSrv v (fun w => { w with
        lastSync := some ti
        syncLog := ptpLog raw q
        twoStep := none })).onSrv v (fun w => { w with twoStep := some (fieldBE raw (q.off + 30) 2, ti, ptpCorr raw q) })).tbSettle)) ∧
      (bitAt (raw.getD (q.off + 6) 0) 1 = false → exec (.sync t p ti raw) s = .next (((y.onSrv v (fun w => { w with
        lastSync := some ti
        syncLog := ptpLog raw q
        twoStep := none })).syncDone v ti (ptpTime raw (q.off + 34) + ptpCorr raw q)).tbSettle))) ∧
    (∀ ti raw q y c, s.srvMsg v 8 raw = some q → y = x.srvWindows v ti → y.fromSel v p raw q = true →
      (y.srv v).twoStep = some (fieldBE raw (q.off + 30) 2, c) → exec (.followUp t p ti raw) s = .next
        (((y.onSrv v (fun w => { w with twoStep := none })).syncDone v c.1 (ptpTime raw (q.off + 34) + c.2 + ptpCorr raw q)).tbSettle)) ∧
    (∀ ti raw q y t3 dn z, s.srvMsg v 9 raw = some q → y = x.srvWindows v ti → y.fromSel v p raw q = true → slice raw (q.off + 44) 10 = y.srvIdent v →
      (y.srv v).sentDreq = some (fieldBE raw (q.off + 30) 2, t3) → (y.srv v).down = some dn →
      z = y.onSrv v (fun w => { w with
        delays := ((dn + (ptpTime raw (q.off + 34) - ptpCorr raw q - (y.full t3 : Int))).fdiv 2 :: w.delays).take 16
        sentDreq := none }) →
      exec (.delayResp t p ti raw) s = .next
        ((z.put (F.TIM_SRV_DELAY_DELAY.nth v) (((meanDelay (z.srv v).delays).getD 0).toNat % 2 ^ 32)).tbSettle)) ∧
    (∀ m, (s.srv v).selected = some m → 2 ≤ s.srvState v → (s.srv v).nextDreq ≤ max s.now t → (s.flag (F.TIM_SRV_CFG_TRANSPORT.nth v) = true ∨ s.netIp v ≠ 0) →
      exec (.delayReqSend t v) s = .next ((x.onSrv v (fun w => { w with
        dreqSeq := (w.dreqSeq + 1) % 65536
        nextDreq := max s.now t + logTicks (s.getS (F.TIM_SRV_CFG_LOG_DREQ.nth v)) })).egress m.port
          ⟨x.dreqFrame v (s.srv v).dreqSeq m, 1, none, none, some (v, (s.srv v).dreqSeq)⟩)) ∧
    (∀ e, (s.srvState v = 2 ∨ s.srvState v = 3) → s.annEnd v = some e → e ≤ max s.now t → exec (.announceTimeout t v) s = .next ((x.srvListen v).tbSettle)) ∧
    (∀ e, (s.srvState v = 2 ∨ s.srvState v = 3) → s.syncEnd v = some e → e ≤ max s.now t → exec (.syncTimeout t v) s = .next ((x.srvListen v).tbSettle)) ∧
    (∀ y, s.hst.d3 = false → y = x.put (F.TIM_SRV_CFG_ENABLE.nth v) 1 → y.srvState v = 0 →
      exec (.servoEnableWrite t v true) s = .next (y.setSrv v 1)) ∧
    (∀ y, s.hst.d3 = false → y = x.put (F.TIM_SRV_CFG_ENABLE.nth v) 0 → exec (.servoEnableWrite t v false) s = .next
      (((y.onSrv v (fun w => { w.fresh with
        masters := []
        sel := none })).setSrv v 0).tbSettle))

/-- A commanded castle, from DISCIPLINED or HOLDOVER, and the revert timer, from DISCIPLINED, to a LOCKED domain near enough castles toward it; a commanded step goes to a LOCKED domain at once; a read of the time answers the nanoseconds and latches seconds and fraction; a due firing raises, sets or clears its pin, or captures its slot, and the trigger moves to its next firing or is removed; a pulse ends low unless another holds the pin; of two actions at one instant on a pin the one of the higher ID decides its level; what is due by an edge comes before it; an edge within 50 ns of an accepted one is only counted, another is captured where enabled. (derived from R441, R444, R446, R449, R450, R451.) -/
def Obligations.TimeBaseAndTriggers : Prop :=
  ∀ (s x : State) (t : Nat), s.fieldOn = true → x = s.tick t →
    (∀ d force, d < 2 → s.hst.d3 = false → (s.tbState = 1 ∨ s.tbState = 3) → d ≠ s.tbSource → s.srvLocked d = true → s.castling = true →
      (s.offsetsNear || force) = true → exec (.castle t d force) s = .next (((x.castleTo d).castleEnd.setTrim).timeBaseMoved false)) ∧
    (∀ d, d < 2 → s.hst.d3 = false → s.tbState ≠ 0 → s.srvLocked d = true →
      exec (.stepTime t d) s = .next ((((x.tbEnter 1 d).tbStep (s.srv d).o).setTrim).timeBaseMoved true)) ∧
    (∀ p r, p = s.get F.TIM_CTRL_PREFER → r = s.get F.TIM_CTRL_REVERT_S → s.tbState = 1 → p ≠ s.tbSource → 0 < r → s.srvLocked p = true →
      (s.srv p).lockedAt + r * tickS ≤ max s.now t → s.castling = true → s.offsetsNear = true →
      exec (.revertTimer t) s = .next (((x.castleTo p).castleEnd.setTrim).timeBaseMoved false)) ∧
    (∀ f y, s.hst.d3 = false → f = s.full (max s.now t) →
      y = ((((x.put F.TIM_TIME_NS_NS (fullNs f)).put F.TIM_TIME_SEC_LO_SEC (fullSec f % 2 ^ 32)).put F.TIM_TIME_SEC_HI_SEC (fullSec f / 2 ^ 32)).put
        F.TIM_TIME_SEC_HI_FRAC (f % tickNs)) →
      exec (.timeRead t) s = .next { y with hst := { y.hst with readData := leBytes 4 (fullNs f), readEp := false } }) ∧
    (∀ id g f ts y, f = g.instant g.next → f ≤ s.full (max s.now t) →
      ts = (if ({ g with next := g.next + 1 } : Trigger).has (g.next + 1) then
          s.tim.triggers.map (fun z => if z.id = id then { g with next := g.next + 1 } else z)
        else s.tim.triggers.filter (fun z => z.id != id)) →
      y = { x with tim := { s.tim with triggers := ts } } →
      (s.tim.triggers.find? (fun z => z.id == id && z.action == 1) = some g → g.action = 1 → exec (.pulse t id) s = .next
        (({ y with tim := { y.tim with pulses := (g.pin, g.id, f + g.width * tickNs) :: s.tim.pulses.filter (fun q => q.2.1 != g.id) } } : State).setPin
          g.pin f g.id (some true))) ∧
      (s.tim.triggers.find? (fun z => z.id == id && z.action == 2) = some g → g.action = 2 → exec (.setHigh t id) s = .next (y.setPin g.pin f g.id (some true))) ∧
      (s.tim.triggers.find? (fun z => z.id == id && z.action == 3) = some g → g.action = 3 → exec (.setLow t id) s = .next (y.setPin g.pin f g.id (some false))) ∧
      (s.tim.triggers.find? (fun z => z.id == id && z.action == 4) = some g → g.action = 4 → exec (.slot t id) s = .next
        ((y.capture 0x20 0 g.id f).raise 5))) ∧
    (∀ id pin e y, s.tim.pulses.find? (fun q => q.2.1 == id) = some (pin, id, e) → e ≤ s.full (max s.now t) →
      y = { x with tim := { s.tim with pulses := s.tim.pulses.filter (fun q => q.2.1 != id) } } →
      exec (.pulseEnd t id) s = .next (y.setPin pin e id none)) ∧
    (∀ pin f id v, x.tim.pinActs.find? (fun q => q.1 == pin) = none → x.setPin pin f id v = { x with tim := { x.tim with
      pins := x.tim.pins.set pin (some (v.getD (x.tim.pulses.any (fun q => q.1 == pin))))
      pinActs := (pin, f, id, v) :: x.tim.pinActs.filter (fun q => q.1 != pin) } }) ∧
    (∀ pin f id v f' id' v', x.tim.pinActs.find? (fun q => q.1 == pin) = some (pin, f', id', v') → f < f' ∨ (f = f' ∧ id < id') →
      (x.setPin pin f id v).tim.pins = x.tim.pins.set pin (some (v'.getD (x.tim.pulses.any (fun q => q.1 == pin))))) ∧
    (∀ src r y, (src = 1 ∨ (8 ≤ src ∧ src < 16)) → y = x.dueActions → y.tim.edges.any (fun e => e.1 == src && decide (y.now < e.2 + 50 * tickNs)) = true →
      exec (.captureEdge t src r) s = .next (y.count Reg.TIM_SNAP_CAP_DEAD 1)) ∧
    (∀ src r w y, (src = 1 ∨ (8 ≤ src ∧ src < 16)) → w = x.dueActions →
      w.tim.edges.any (fun e => e.1 == src && decide (w.now < e.2 + 50 * tickNs)) = false →
      y = { w with tim := { w.tim with edges := assocSet src w.now w.tim.edges } } →
      exec (.captureEdge t src r) s = .next (if y.capOn src then y.capture src (b2n r) 0 (y.full y.now) else y))

/-- A read of TIM_TIME_NS answers the nanoseconds of the full time and latches its seconds and fraction in TIM_TIME_SEC_LO and TIM_TIME_SEC_HI: at any later time these two registers read the latched values, whatever the time has become. (R444.) -/
def Obligations.FullTimeIsLatched : Prop :=
  ∀ (s : State) (t f : Nat), s.hst.d3 = false → s.fieldOn = true → f = s.full (max s.now t) →
    ∃ y, exec (.timeRead t) s = .next y ∧ y.hst.readData = leBytes 4 (fullNs f) ∧ y.now = max s.now t ∧
      ∀ t2, (y.tick t2).peek Reg.TIM_TIME_SEC_LO = fullSec f % 2 ^ 32 ∧
        bitsOf ((y.tick t2).peek Reg.TIM_TIME_SEC_HI) 15 0 = fullSec f / 2 ^ 32 % 2 ^ 16 ∧
        bitsOf ((y.tick t2).peek Reg.TIM_TIME_SEC_HI) 23 16 = f % tickNs

/-- A valid frame at a port without signal starts acquiring with one good frame; a bad frame while acquiring starts the count afresh and changes nothing otherwise; a frame three periods or more after the last takes the port down as lost, one whose rate, measured over the nearest whole number of periods (log entry 162), is off by more than 1,000 ppm with its own reason; the sixteenth good frame locks it, to come in over the next block, and a block that still fades out does so to its end; a locked port counts parity errors and places the frame's two words; three frame periods without a frame take it down. (derived from R462, R464.) -/
def Obligations.AudioInputs : Prop :=
  ∀ (s x : State) (t p ti a b : Nat) (z : Bool), s.fieldOn = true → x = s.tick t → p < 8 →
    (s.aesSt p = 0 → exec (.aesInputFrame t p ti true z a b) s = .next ((x.setAes p 1).onAes p (fun q => { q with
      last := some ti
      good := 1
      cs := none }))) ∧
    (s.aesSt p = 1 → exec (.aesInputFrame t p ti false z a b) s = .next (x.onAes p (fun q => { q with good := 0 }))) ∧
    (s.aesSt p = 2 → exec (.aesInputFrame t p ti false z a b) s = .next x) ∧
    (∀ dt, s.aesSt p ≠ 0 → dt = ti - ((s.aes p).last.getD ti) → 3 * tickS ≤ dt * s.fs →
      exec (.aesInputFrame t p ti true z a b) s = .next (x.aesDown p 0x1210)) ∧
    (∀ dt k, s.aesSt p ≠ 0 → dt = ti - ((s.aes p).last.getD ti) → k = max 1 (divNear (dt * s.fs) tickS) → dt * s.fs < 3 * tickS →
      (k * tickS * 1000 < dt * s.fs * 999 ∨ dt * s.fs * 1001 < k * tickS * 1000) →
      exec (.aesInputFrame t p ti true z a b) s = .next (x.aesDown p 0x1212)) ∧
    (∀ dt k y, dt = ti - ((s.aes p).last.getD ti) → k = max 1 (divNear (dt * s.fs) tickS) → dt * s.fs < 3 * tickS →
      dt * s.fs * 999 ≤ k * tickS * 1000 → k * tickS * 1000 ≤ dt * s.fs * 1001 →
      y = x.onAes p (fun q => { q with
        last := some ti
        good := if k = 1 then q.good + 1 else 1 }) →
      (s.aesSt p = 1 → (y.aes p).good < 16 → exec (.aesInputFrame t p ti true z a b) s = .next y) ∧
      (s.aesSt p = 1 → 16 ≤ (y.aes p).good → exec (.aesInputFrame t p ti true z a b) s = .next (((y.setAes p 2).onAes p (fun q => { q with
        fade := if q.fade.fout then { q.fade with next := true } else { part := true, next := true }
        hold := if q.fade.fout then q.hold else []
        lastI := none })).event 0x1211 p p s.aud.seq)) ∧
      (∀ bad, s.aesSt p = 2 → bad = b2n (!parityOk a) + b2n (!parityOk b) → exec (.aesInputFrame t p ti true z a b) s = .next
        (((if bad = 0 then y else y.count Reg.AUD_SNAP_PARITY bad).csBits p z (bitAt a 26) (bitAt b 26)).place p ti
          (subWord a (s.aes p).prev.1) (subWord b (s.aes p).prev.2)))) ∧
    (∀ l, (s.aes p).last = some l → s.aesSt p ≠ 0 → l + ceilDiv (3 * tickS) s.fs ≤ max s.now t →
      exec (.inputFrameTimeout t p) s = .next (x.aesDown p 0x1210))

/-- At a sample instant, within the 10 ns of an edge at the balls, every output sends its word, once for each instant, and each 192nd instant latches the channel status; the block before the present ms ends once: each input port's block goes to the store and the meters and waits for the capture record that falls due, the sequence number rises; a port that is neither LOCKED nor fading out contributes silence; a write of HEAD takes the playout records up to it and raises vector 6; at the 10 ms boundary another RATE scales the delay and empties the store, and a stepped time base is re-aligned and logged; a word-clock edge shows its error. (derived from R460, R461, R467, R469, R470, R472, R474.) -/
def Obligations.AudioInstantsAndBlocks : Prop :=
  ∀ (s x : State) (t : Nat), s.fieldOn = true → x = s.tick t →
    (∀ bad, (s.tick t).instantNow = none → exec (.sampleInstant t bad) s = .next x) ∧
    (∀ bad i, x.instantNow = some i → s.aud.sent = some i → exec (.sampleInstant t bad) s = .next x) ∧
    (∀ bad i y, x.instantNow = some i → s.aud.sent ≠ some i → y = { x with aud := { s.aud with
        zMark := (i % 192 == 0)
        sent := some i
        csSent := if i % 192 = 0 then (List.range 16).map x.csFor else s.aud.csSent } } →
      exec (.sampleInstant t bad) s = .next ((List.range 16).foldl (fun y c => y.sendOut bad i c) y)) ∧
    (∀ i, x.instantNow = some i → x.audFull ≤ instantTime s.fs i + 10 * tickNs ∧ instantTime s.fs i ≤ x.audFull + 10 * tickNs) ∧
    (∀ ms z w v, ms = s.full (max s.now t) / tickMs → ms ≠ 0 → s.aud.lastBlock ≠ some (ms - 1) →
      z = ((List.range 8).foldl (fun q p => q.portBlock (ms - 1) p) x).dueRecord (ms - 1) →
      w = (List.range 16).foldl (fun q c => q.meterStat (16 + c) (q.aud.outPeak.getD c 0)) z →
      v = { w with aud := { w.aud with
        outPeak := List.replicate 16 0
        seq := (w.aud.seq + 1) % 2 ^ 32
        lastBlock := some (ms - 1)
        mute := w.aud.mute - 1
        regs := w.cmt.inForce } } →
      exec (.blockEnd t) s = .next (v.delayStep.count Reg.AUD_SNAP_BLOCKS 1)) ∧
    (∀ ms, ms = s.full (max s.now t) / tickMs → ms = 0 ∨ s.aud.lastBlock = some (ms - 1) → exec (.blockEnd t) s = .next x) ∧
    (∀ (k p j : Nat) (is : List Nat) (a b : List Nat × List Nat × Bool) (y z : State), (k : Int) - s.portLag p = j →
      is = upFrom (blockFirst s.fs j) (blockFirst s.fs (j + 1) - blockFirst s.fs j) → a = s.inBlock is (2 * p) → b = s.inBlock is (2 * p + 1) →
      y = (s.inputChannel is (2 * p) a.2.1).inputChannel is (2 * p + 1) b.2.1 →
      z = y.onAes p (fun q => { q with
        hold := q.hold.filter (fun h => decide (blockFirst s.fs (j + 1) ≤ h.1))
        slip := false
        fade := { fin := q.fade.next }
        first := blockFirst s.fs (j + 1)
        tail := (a.1.getLastD silentV, b.1.getLastD silentV) }) →
      s.portBlock k p = { z with aud := { z.aud with blocks := z.aud.blocks ++ [(⟨p, j, a.2.1, b.2.1, a.2.2, b.2.2, (s.aes p).slip⟩ : AudBlock)] } }) ∧
    (∀ (k p : Nat), (k : Int) - s.portLag p < 0 → s.portBlock k p = s) ∧
    (∀ (is : List Nat) (c : Nat), s.aesSt (c / 2) ≠ 2 → (s.aes (c / 2)).fade.fout = false →
      (s.inBlock is c).2 = (is.map (fun _ => silentV), true)) ∧
    (∀ v n l, s.hst.d3 = false → n = s.get F.AUD_PLAY_SIZE_SLOTS → 2 ≤ n → v < n → v < 4096 → s.flag F.AUD_CTRL_PLAY_EN = true →
      l = slotsTo (s.get F.AUD_PLAY_TAIL_TAIL) v n → l ≠ [] → (x.put F.AUD_PLAY_HEAD_HEAD v).get F.AUD_PLAY_TAIL_TAIL = s.get F.AUD_PLAY_TAIL_TAIL →
      (x.put F.AUD_PLAY_HEAD_HEAD v).flag F.AUD_CTRL_PLAY_EN = true →
      exec (.playoutRingHeadWrite t v) s = .next ((l.foldl State.playTake (x.put F.AUD_PLAY_HEAD_HEAD v)).raise 6)) ∧
    (∀ r, r = s.live F.AUD_CTRL_RATE → r ≠ s.aud.rate → x.past10ms s.aud.rateFrom = true → exec (.rateSwitch t) s = .next (({ x with aud := { s.aud with
      rate := r
      nD := divNear (s.aud.nD * rateHz r) s.fs
      store := []
      sent := none
      blocks := []
      ports := s.aud.ports.map (fun q => { q with
        hold := []
        lastI := none
        first := 0 }) } } : State).showDelay)) ∧
    (∀ y, s.tim.steppedAt.any x.past10ms = true → y = x.event 0x1225 0 0 s.aud.seq →
      exec (.realign t) s = .next { y with tim := { s.tim with
        steppedAt := none
        stepLag := 0 } }) ∧
    (∀ f i, f = x.audFull → i = instantNear s.fs (f : Int) → exec (.wclkInEdge t) s = .next (x.putS F.AUD_WCLK_ERR_ERR_NS
      (idivNear ((f : Int) * (s.fs : Int) - ((i / s.fs * tickS : Nat) : Int) * (s.fs : Int) - (((i % s.fs) * tickS : Nat) : Int)) (s.fs * tickNs))))

/-- A HALTED or OFF unit does nothing, nor does one whose tap's records have another size (64 bytes of a Tilth queue, 24 of AES audio); a record that comes while the unit is busy is an overrun; a short one is only counted; otherwise, in frame mode with the check on, the computed value is shown, a mismatch is counted and logged, and a match has its alive value judged where that is on (where CHECK_OFF leaves the field less room than its width the missing bytes are a free value); in running mode the record is fed to the running CRC; a first alive value is taken, one advanced by INC taken, an unchanged one counted as a repeat, and another taken as a skip. (derived from R479, R480, R481, R484, R485, R487, R488, R491.) -/
def Obligations.CheckUnits : Prop :=
  ∀ (s x : State) (t n : Nat) (b : List Nat), s.fieldOn = true → x = s.tick t → n < 16 →
    (∀ busy, tapRecord (s.live (F.CHK_TAP_KIND.nth n)) b = false → exec (.checkRecord t n b busy) s = .next x) ∧
    (tapRecord (s.live (F.CHK_TAP_KIND.nth n)) b = true →
    (s.chkSt n ≠ 1 → s.chkSt n ≠ 2 → ∀ busy, exec (.checkRecord t n b busy) s = .next x) ∧
    ((s.chkSt n = 1 ∨ s.chkSt n = 2) → exec (.checkRecord t n b true) s = .next ((x.chkCount Reg.CHK_SNAP_OVERRUN n).chkEvent 0x1323 n 0)) ∧
    ((s.chkSt n = 1 ∨ s.chkSt n = 2) → s.chkShort n b = true → exec (.checkRecord t n b false) s = .next (x.chkCount Reg.CHK_SNAP_SHORT n)) ∧
    (∀ c v y q z, (s.chkSt n = 1 ∨ s.chkSt n = 2) → s.chkShort n b = false → s.live (F.CHK_CTRL_MODE.nth n) ≠ 2 → s.live (F.CHK_CTRL_CHECK_EN.nth n) = 1 →
      c = chkCrc s.cmt.inForce n → v = crcOf c.width c.poly c.init c.refin c.refout c.xorout (s.covered n b) →
      y = x.chkCount Reg.CHK_SNAP_RECORDS n → q = (if s.live (F.CHK_FIELD_CHECK_OFF.nth n) < ceilDiv c.width 8 then y.free 30 else (0, y)) →
      z = q.2.put (F.CHK_RESULT_VALUE.nth n) v →
      (v ≠ s.checkField n b (leBytes 8 (q.1 % 2 ^ 64)) →
        exec (.checkRecord t n b false) s = .next ((z.chkCount Reg.CHK_SNAP_MISMATCH n).chkEvent 0x1320 n (v % 2 ^ 32))) ∧
      (v = s.checkField n b (leBytes 8 (q.1 % 2 ^ 64)) → s.live (F.CHK_CTRL_ALIVE_EN.nth n) ≠ 1 → exec (.checkRecord t n b false) s = .next z) ∧
      (v = s.checkField n b (leBytes 8 (q.1 % 2 ^ 64)) → s.live (F.CHK_CTRL_ALIVE_EN.nth n) = 1 →
        exec (.checkRecord t n b false) s = .next (z.judge n b))) ∧
    (∀ y, (s.chkSt n = 1 ∨ s.chkSt n = 2) → s.chkShort n b = false → s.live (F.CHK_CTRL_MODE.nth n) ≠ 2 → s.live (F.CHK_CTRL_CHECK_EN.nth n) ≠ 1 →
      y = x.chkCount Reg.CHK_SNAP_RECORDS n →
      exec (.checkRecord t n b false) s = .next (if s.live (F.CHK_CTRL_ALIVE_EN.nth n) = 1 then y.judge n b else y)) ∧
    (∀ c y z, (s.chkSt n = 1 ∨ s.chkSt n = 2) → s.chkShort n b = false → s.live (F.CHK_CTRL_MODE.nth n) = 2 → c = chkCrc s.cmt.inForce n →
      y = x.chkCount Reg.CHK_SNAP_RECORDS n →
      z = (if s.live (F.CHK_CTRL_CHECK_EN.nth n) = 1 then y.onChk n (fun u => { u with run := some (crcFeed c.width c.poly c.refin
        (((s.chk.getD n {}).run).getD (c.init % 2 ^ c.width)) (s.covered n b)) }) else y) →
      exec (.checkRecord t n b false) s = .next (if s.live (F.CHK_CTRL_ALIVE_EN.nth n) = 1 then z.judge n b else z))) ∧
    (∀ a m p d, a = s.aliveOf n b → m = 2 ^ s.live (F.CHK_ALIVE_WIDTH_A.nth n) → p = s.get (F.CHK_STATUS_ALIVE.nth n) →
      d = (a + m - p % m) % m →
      (s.chkSt n = 1 → s.judge n b = (s.put (F.CHK_STATUS_ALIVE.nth n) a).put (F.CHK_STATUS_STATE.nth n) 2) ∧
      (s.chkSt n = 2 → d = s.live (F.CHK_ALIVE_INC.nth n) → s.judge n b = s.put (F.CHK_STATUS_ALIVE.nth n) a) ∧
      (s.chkSt n = 2 → d = 0 → d ≠ s.live (F.CHK_ALIVE_INC.nth n) → s.judge n b = (s.chkCount Reg.CHK_SNAP_REPEAT n).chkEvent 0x1321 n 0) ∧
      (s.chkSt n = 2 → d ≠ 0 → d ≠ s.live (F.CHK_ALIVE_INC.nth n) → s.judge n b = ((s.put (F.CHK_STATUS_ALIVE.nth n) a).chkCount Reg.CHK_SNAP_SKIP n).chkEvent
        0x1322 n ((d + m - s.live (F.CHK_ALIVE_INC.nth n) % m) % m)))

/-- A clear level asserts at its limit, an asserted one clears below its limit less 2 °C, and neither changes within 10 ms of its last change; with the field die off a sample shows the keeper's and the stacks' readings, and a keeper at 110 °C trips; with it on and every reading below its limit it shows all readings and the peak; a die at 98 °C asserts THROTTLE, which takes the duty to 15 at once; every 10 ms the duty falls by 1 to 8 at least while the limit is reached, and rises by 1 to 16 when clear. (derived from R492, R494, R495, R496, R498.) -/
def Obligations.TemperatureLevelsAndThrottle : Prop :=
  (∀ (now : Nat) (limit r : Int), (limit ≤ r → levelNext false none now limit r = true) ∧ (r < limit → levelNext false none now limit r = false) ∧
      (r < limit - degC 2 → levelNext true none now limit r = false) ∧ (limit - degC 2 ≤ r → levelNext true none now limit r = true)) ∧
    (∀ (on : Bool) (c now : Nat) (limit r : Int), (now < c + 10 * tickMs → levelNext on (some c) now limit r = on) ∧
      (c + 10 * tickMs ≤ now → levelNext on (some c) now limit r = levelNext on none now limit r)) ∧
    ∀ (s x : State) (t : Nat), x = s.tick t →
    (∀ ts keeper stk q y, s.fieldOn = false → y = (stk.take 6).zipIdx.foldl (fun z q => z.putS (F.THM_STACK_TEMP.nth q.2) q.1)
        (x.putS F.THM_KEEPER_TEMP keeper).bandTrack → hottest ((stk.take 6).zipIdx.map (fun q => (0x48 + q.2, q.1))) = some q → q.2 < degC 95 →
      (keeper < degC 110 → exec (.sensorSample t ts keeper stk) s = .next y) ∧
      (degC 110 ≤ keeper → y.flag F.THM_STATUS_ORDERLY = false → y.thm.changed.getD 3 none = none →
        exec (.sensorSample t ts keeper stk) s = .next (y.orderlyTrip 0x40 keeper))) ∧
    (∀ ts keeper stk l q d y z, s.fieldOn = true → l = (ts ++ List.replicate 32 (0, false)).take 32 →
      y = (stk.take 6).zipIdx.foldl (fun z q => z.putS (F.THM_STACK_TEMP.nth q.2) q.1)
        ((l.zipIdx.foldl (fun z q => z.sensor q.2 q.1) x).putS F.THM_KEEPER_TEMP keeper).bandTrack →
      hottest ((stk.take 6).zipIdx.map (fun q => (0x48 + q.2, q.1))) = some q → q.2 < degC 95 → keeper < degC 110 → dieOf l = some d →
      z = (y.putS F.THM_STATUS_TEMP d.2).countMax Reg.THM_SNAP_PEAK (d.2 + 65536).toNat → z.flag F.THM_STATUS_WARN = false →
      z.flag F.THM_STATUS_THROTTLE = false → z.flag F.THM_STATUS_STACK_THROTTLE = false → d.2 < degC (z.get F.THM_CTRL_WARN_C) →
      (d.2 < degC 98 → exec (.sensorSample t ts keeper stk) s = .next (z.put F.THM_STATUS_FAST (b2n z.fastNow)).lanesAtTemp) ∧
      (∀ u v, degC 98 ≤ d.2 → d.2 < degC 112 → z.thm.changed.getD 1 none = none → u = z.setLevel 1 F.THM_STATUS_THROTTLE true →
        v = u.throttleEdge false d.1 d.2 →
        exec (.sensorSample t ts keeper stk) s = .next (v.put F.THM_STATUS_FAST (b2n v.fastNow)).lanesAtTemp)) ∧
    (∀ y, s.fieldOn = true → s.thm.periodAt + 10 * tickMs ≤ max s.now t →
      y = { x with thm := { s.thm with
        periodAt := max s.now t
        reached := s.thm.reachedNext
        reachedNext := false } } →
      (s.throttled = true → s.thm.reached = true → exec (.dutyPeriodEnd t) s = .next (y.setDuty (max 8 (s.get F.THM_STATUS_DUTY - 1)))) ∧
      (s.throttled = true → s.thm.reached = false → exec (.dutyPeriodEnd t) s = .next y) ∧
      (s.throttled = false → exec (.dutyPeriodEnd t) s = .next (y.setDuty (min 16 (s.get F.THM_STATUS_DUTY + 1))))) ∧
    (s.fieldOn = true → max s.now t < s.thm.periodAt + 10 * tickMs → exec (.dutyPeriodEnd t) s = .next x)

/-- A critical trip, once PD00 has started, opens every domain and drives PWR_CUT; an orderly trip shows, logs and stamps itself, discharges the panel, asks for the lowest voltage, stops record writes, counts and floats the label lines, and opens the domains when the panel is discharged or 2 s have passed; RESTART is refused within 10 s of the trip, while a reading blocks it, with the field die powered, with PWR_CUT driven or without the rails, and otherwise clears the limits and asks for the boot voltage; a brown-out stops record writes, floats the lines and discharges; a lost power-good does that too and cuts VDD_CORE; loss of the always-on rail leaves only flash, page and OTP. (derived from R501, R502, R522, R611.) -/
def Obligations.TripsAndRestart : Prop :=
  ∀ (s x : State) (t : Nat), x = s.tick t →
    (∀ y, (s.fieldOn = true ∨ s.domainOn 0 = true) → y = x.fieldOff → exec (.criticalTrip t) s = .next { y with pwr := { y.pwr with
      pwrCut := true
      bootAt := none
      early := false } }) ∧
    (s.fieldOn = false → s.domainOn 0 = false → exec (.criticalTrip t) s = .next x) ∧
    (∀ a y, s.thm.tripAt = some a → (s.pnlSt = 0 ∨ a + 2 * tickS ≤ max s.now t) → y = x.fieldOff →
      exec (.orderlyDomainsOff t) s = .next { y with pwr := { y.pwr with
        bootAt := none
        early := false } }) ∧
    (∀ src r y, y = (x.put F.THM_STATUS_ORDERLY 1).event 0x1413 0 src (argS r) → x.orderlyTrip src r =
      ((((({ y with thm := { y.thm with tripAt := some (max s.now t), changed := y.thm.changed.set 3 (some (max s.now t)) } } : State).discharge
        false).askVolts y.vMin).nvsStop).countOperating 3).lblFloat) ∧
    (∀ a, s.hst.d3 = false → s.thm.tripAt = some a → max s.now t < a + 10 * tickS → exec (.restart t) s = .next (x.event 0x1432 0 0 0)) ∧
    (∀ q, s.hst.d3 = false → (∀ a, s.thm.tripAt = some a → a + 10 * tickS ≤ max s.now t) → s.restartBlock = some q →
      exec (.restart t) s = .next (x.event 0x1432 0 q.1 (argS q.2))) ∧
    (∀ y, s.hst.d3 = false → (∀ a, s.thm.tripAt = some a → a + 10 * tickS ≤ max s.now t) → s.restartBlock = none → s.fieldOn = false → s.pwr.pwrCut = false →
      s.pwr.railsPg = true → s.pwr.vcorePg = true →
      y = ((((((x.put F.THM_STATUS_ORDERLY 0).put F.THM_STATUS_THROTTLE 0).put F.THM_STATUS_STACK_THROTTLE 0).put F.THM_STATUS_WARN 0).put
        F.THM_STATUS_DUTY 16).put F.THM_VCORE_REQ_MV 800).put F.THM_STATUS_FAST 0 →
      exec (.restart t) s = .next { y with
        thm := { y.thm with tripAt := none, volts := 800, settling := false, stopped := false, changed := List.replicate 4 none }
        nvs := { y.nvs with stopped := false }
        pwr := { y.pwr with early := true, running := false, next := 0 } }) ∧
    (s.hst.d3 = false → (∀ a, s.thm.tripAt = some a → a + 10 * tickS ≤ max s.now t) → s.restartBlock = none →
      (s.fieldOn = true ∨ s.pwr.pwrCut = true ∨ s.pwr.railsPg = false ∨ s.pwr.vcorePg = false) → exec (.restart t) s = .next (x.event 0x1432 0 0 0)) ∧
    (∀ y, y = { x with pwr := { s.pwr with brownout := true } } → exec (.brownout t) s = .next (((y.nvsStop).lblFloat).discharge true)) ∧
    (∀ y z, s.fieldOn = true → y = { x with pwr := { s.pwr with railsPg := false } } →
      z = ((((y.nvsStop).lblFloat).discharge true).fieldOff).put F.THM_VCORE_REQ_MV 0 → exec (.powerGoodLoss t true) s = .next { z with pwr := { z.pwr with
        bootAt := none
        early := false } }) ∧
    (s.fieldOn = false → exec (.powerGoodLoss t false) s = .next { x with pwr := { s.pwr with vcorePg := false } }) ∧
    (∀ c, c = x.nvsCut → exec (.alwaysOnRailLoss t) s = .next { State.reset with
      now := max s.now t
      off := s.off
      pending := s.pending
      fresh := c.fresh
      nvs := { ({} : NvsState) with
        sectors := c.nvs.sectors
        recs := c.nvs.recs
        open1 := c.nvs.open1
        open2 := c.nvs.open2
        page := c.nvs.page
        otp := c.nvs.otp } })

/-- The keeper's power-up starts the boot and logs each bad OTP slot; VDD_CORE good when asked for begins the sequence, unless PWR_CUT is driven; domain k starts at its gap after the last one and waits for its power-good, one left off is passed over, and after PD23 the field die is powered; one without power-good in 1 ms is logged and the field die goes off; the governor at the power budget lowers the request by a step, with low slack raises it when maximum and budget allow, after 16 calm runs lowers it, and stops on a fault that the regulator reports; a settled voltage is in force, a timed-out one stops the governor. (derived from R49, R499, R500, R503, R504, R531, R586, R610.) -/
def Obligations.PowerSequenceAndGovernor : Prop :=
  ∀ (s x : State) (t : Nat), x = s.tick t →
    (∀ y, y = { x.railLoss with pwr := { x.railLoss.pwr with
        bootAt := some (max s.now t)
        testMode := s.pwr.testMode } } → exec (.keeperPowerUp t) s = .next (y.badSlots.foldl (fun z k => z.event 0x1532 0 k 0) y)) ∧
    (exec (.railsPowerGood t) s = .next { x with pwr := { s.pwr with railsPg := true } }) ∧
    (x.vcoreAsked = true → s.pwr.pwrCut = false → s.pwr.running = false → s.fieldOn = false → exec (.vcorePowerGood t) s = .next { x with pwr := { s.pwr with
      vcorePg := true
      running := true
      next := 0
      lastStart := max s.now t
      waitGood := none } }) ∧
    (s.pwr.pwrCut = true → exec (.vcorePowerGood t) s = .next { x with pwr := { s.pwr with vcorePg := true } }) ∧
    (∀ k g, k = s.pwr.next → k < 24 → s.pwr.running = true → s.pwr.waitGood = none → (k = 0 ∨ s.pwr.lastStart + (s.domainPlan k).1 * tickUs ≤ max s.now t) →
      g = x.put F.THM_PD_ON (s.get F.THM_PD_ON + 2 ^ k) →
      ((s.domainPlan k).2 = false → exec (.domainStart t k) s = .next { g with pwr := { g.pwr with
        next := k + 1
        lastStart := max s.now t
        waitGood := some (k, max s.now t) } }) ∧
      ((s.domainPlan k).2 = true → exec (.domainStart t k) s = .next { x with pwr := { s.pwr with
        next := k + 1
        lastStart := max s.now t } })) ∧
    (∀ k a, s.pwr.waitGood = some (k, a) →
      (k ≠ 23 → exec (.domainPowerGood t k) s = .next { x with pwr := { s.pwr with waitGood := none } }) ∧
      (k = 23 → exec (.domainPowerGood t k) s = .next ((((({ x with pwr := { s.pwr with waitGood := none } } : State).put F.SYS_STATUS_FIELD_ON 1).timStart
        ).audStart))) ∧
      (∀ y, a + tickMs ≤ max s.now t → y = (x.eventK 0x1430 0 k 0).fieldOff → exec (.domainTimeout t k) s = .next { y with pwr := { y.pwr with
        bootAt := none
        early := false } })) ∧
    (∀ core vout im v y z sl, vout < 65536 → s.fieldOn = true → s.flag F.THM_GOV_GOV_EN = true → s.imageOn = true → s.sho.run = some im → v = s.thm.volts →
      sl = x.slackNow → y = ((x.countEnergy).put F.THM_POWER_CORE_DW core).put F.THM_VCORE_MEAS_MV vout →
      z = { y with thm := { y.thm with calm := if (match sl.1 with
        | some q => decide (s.tau * (s.get F.THM_GOV_SLACK_HI : Rat) / 64 < (q : Rat))
        | none => false) = true then y.thm.calm + 1 else 0 } } →
      (z.thm.stopped = false → exec (.governorRun t core (vout + 65536)) s = .next z.avsFault) ∧
      (z.thm.settling = false → z.thm.stopped = false → z.cmt.stopped = false →
      (im.power.budget ≤ core + s.get F.THM_GOV2_OTHER_DW → exec (.governorRun t core vout) s = .next
        (z.askVolts (max (v - s.get F.THM_GOV_STEP_MV) im.power.vMin))) ∧
      (∀ q, core + s.get F.THM_GOV2_OTHER_DW < im.power.budget → z.flag F.THM_STATUS_ORDERLY = false → z.throttled = false → sl.1 = some q →
        (q : Rat) < s.tau * (s.get F.THM_GOV_SLACK_LO : Rat) / 64 → v + s.get F.THM_GOV_STEP_MV ≤ im.power.vMax →
        core * (v + s.get F.THM_GOV_STEP_MV) * (v + s.get F.THM_GOV_STEP_MV) + s.get F.THM_GOV2_OTHER_DW * v * v < im.power.budget * v * v →
        exec (.governorRun t core vout) s = .next (z.askVolts (v + s.get F.THM_GOV_STEP_MV))) ∧
      (∀ q, core + s.get F.THM_GOV2_OTHER_DW < im.power.budget → z.flag F.THM_STATUS_ORDERLY = false → sl = (some q, false) →
        s.tau * (s.get F.THM_GOV_SLACK_LO : Rat) / 64 ≤ (q : Rat) →
        exec (.governorRun t core vout) s = .next (if 16 ≤ z.thm.calm then z.askVolts (max (v - s.get F.THM_GOV_STEP_MV) im.power.vMin) else z)))) ∧
    (exec (.vcoreSettled t) s = .next { x with thm := { s.thm with
      volts := s.get F.THM_VCORE_REQ_MV
      settling := false
      stopped := false } }) ∧
    (∀ y, s.thm.settling = true → s.thm.askedAt + tickMs ≤ max s.now t → y = x.event 0x1421 0 0 (s.get F.THM_VCORE_REQ_MV) → exec (.avsTimeout t) s = .next { y with thm := { y.thm with
      settling := false
      stopped := true } })

/-- A record that was written whole passes its checks and reads back, one cut before its commit word does not; the start-up scan reads the sectors, whose records end before the first bad header, logs bad headers, ties and incomplete sets, queues dirty sectors for erase, becomes READY and counts the power-up; the front write is appended valid after fewer than four failed tries, counted, logged for a repair, counted as weak for a scrub, answered for the host or the security module; after four it fails, is logged and drops its other copy; an erase that verifies returns its sector with one more ERASES, another retires it and writes SECTOR_RETIRED; a due scrub sets SCRUB, queues and logs a rewrite of each weak record kept and then SCRUB_STATE; while a record write is in progress no erase ends; a single copy of a DUP record that start-up found gets its missing copy while it is still current; the OPERATING counter is written every 3,600 s. (derived from R513, R514, R515, R517, R518, R520, R522, R523, R524, R525.) -/
def Obligations.StoreUpkeep : Prop :=
  ∀ (s x : State) (t : Nat), x = s.tick t →
    (∀ (bad : List Nat) (z a b c d : State) (w : Option Nat → Option Nat), s.flag F.NVS_STATUS_READY = false →
      z = { x with nvs := { s.nvs with sectors := s.nvs.sectors.map Sector.atStart } } →
      a = (List.range 64).foldl (fun q k => if (q.nvs.sectors.getD k {}).st = .erased then q else q.readSector bad k) z →
      b = a.nvsTies.foldl (fun z r => (z.event 0x1510 0 (r.typ * 65536 + r.key) (r.sector * 2 ^ 24 + r.seq % 2 ^ 24)).put
        F.NVS_COUNT_TIES_COUNT (z.get F.NVS_COUNT_TIES_COUNT + 1)) a →
      c = b.nvsIncomplete.foldl (fun z k => z.event 0x1512 0 (0x20 * 65536 + k) 0) b →
      w = (fun o => o.filter (fun k => (c.nvs.sectors.getD k {}).st == .open_)) →
      d = ({ c with nvs := { c.nvs with
        erasing := c.nvs.erasing ++ c.sectorsIn .dirty
        operating := ((c.nvsCounter 1).map (·.2)).getD [0, 0, 0, 0]
        poweredFrom := c.pwr.bootAt.getD c.now
        stopped := false
        repair := c.nvsSingles
        open1 := w c.nvs.open1
        open2 := w c.nvs.open2 } } : State) →
      exec (.nvsStartupScan t bad) s = .next ((((((List.range 64).foldl (fun (z : State) k => z.onSector k id) d).keepOpen).put F.NVS_STATUS_READY 1).countOperating
        1).nvsCollect)) ∧
    (∀ bad k rs m y, rs = s.nvs.recs.filter (fun r => r.sector == k) → bad.contains k = false → m = rs.findIdx (fun r => !r.headOk) →
      y = (fun e (f : SectorSt → SectorSt) => ({ s with nvs := { s.nvs with sectors := modAt s.nvs.sectors k (fun c => { c with
        ends := e
        st := f c.st }) } } : State)) →
      (m = rs.length → s.readSector bad k = y none id) ∧
      (m < rs.length → s.readSector bad k = (y (some m) (fun c => if c = .open_ then .full else c)).event 0x1511 0 0 (k * 2 ^ 24))) ∧
    (∀ c : Sector, (c.st = .retired ∨ c.st = .dirty → c.atStart = c) ∧
      (c.st ≠ .retired → c.st ≠ .dirty → c.head = List.replicate 32 0xFF → c.atStart = { c with st := .erased }) ∧
      (c.st ≠ .retired → c.st ≠ .dirty → c.blank = false → c.headOk = false → c.atStart = { c with st := .dirty })) ∧
    (∀ (k typ key seq flags : Nat) (p : List Nat) (r : NvsRec), typ < 65536 → key < 65536 → seq < 2 ^ 32 → flags < 65536 → p.length ≤ 8192 →
      r = ⟨k, recordBytes typ key seq flags p⟩ → r.valid = true ∧ r.typ = typ ∧ r.key = key ∧ r.seq = seq ∧ r.flags = flags ∧ r.payload = p ∧
        r.bytes.length = recBytes p.length ∧ ∀ n, n ≤ r.bytes.length - 16 → (⟨k, tornBytes n r.bytes⟩ : NvsRec).valid = false) ∧
    (∀ j r y, s.nvs.queue = j :: r → s.nvs.stopped = false → y = ({ x with nvs := { s.nvs with
        queue := r
        flight := false } } : State).scrubEnd j →
      (∀ n k z w v u, n < 4 → (y.failedTries j n).placeIn (j.who == .collect) (y.jobSecond j) j.payload.length = some (k, z) →
        w = z.appendRec k ⟨k, j.bytes⟩ →
        v = w.put F.NVS_COUNT_WRITES_COUNT (sat32 (w.get F.NVS_COUNT_WRITES_COUNT + 1)) → u.nvs.collecting = none →
        (j.who = .repair → u = v.event 0x1513 0 (j.typ * 65536 + j.key) (k * 2 ^ 24 + j.seq % 2 ^ 24) →
          exec (.recordWriteComplete t n) s = .next u.nvsCollect) ∧
        (j.who = .scrub → u = v.put F.NVS_COUNT_WEAK_COUNT (sat32 (v.get F.NVS_COUNT_WEAK_COUNT + 1)) →
          exec (.recordWriteComplete t n) s = .next u.nvsCollect) ∧
        (j.who = .host → bitAt j.flags 0 = false → u = v.nvsResult 0 0 j.seq → exec (.recordWriteComplete t n) s = .next u.nvsCollect) ∧
        (j.who = .security → bitAt j.flags 0 = true → bitAt j.flags 2 = true → u = v.secWritten j 0 →
          exec (.recordWriteComplete t n) s = .next u.nvsCollect)) ∧
      (∀ n z, 4 ≤ n → j.who = .host → z = (y.failedTries j 4).event 0x1515 0 (j.typ * 65536 + j.key) (j.seq % 2 ^ 24) →
        exec (.recordWriteComplete t n) s = .next (({ z with nvs := { z.nvs with
          queue := z.nvs.queue.filter (fun q => !q.waitsOn j) } } : State).nvsResult 0x1515 0 0))) ∧
    (s.nvsWriting = true → ∀ ok, exec (.eraseComplete t ok) s = .next x) ∧
    (∀ k r e y, s.nvsWriting = false → s.nvs.erasing = k :: r → e = (s.nvs.sectors.getD k {}).erases + 1 → y = { x with nvs := { s.nvs with
        erasing := r
        recs := s.nvs.recs.filter (fun q => q.sector != k)
        collecting := if s.nvs.collecting = some k then none else s.nvs.collecting } } →
      (e < 100000 → exec (.eraseComplete t true) s = .next ((y.onSector k (fun _ => { st := .erased, erases := e })).keepOpen.nvsCollect)) ∧
      (exec (.eraseComplete t false) s = .next ((((y.onSector k (fun c => { c with
        st := .retired
        erases := e })).event 0x1516 0 (2 * 65536 + k) (k * 2 ^ 24)).nvsWrite .store 4 0x0002 k true false []).2.nvsCollect))) ∧
    (∀ weak y w, x.scrubDue = true → s.flag F.NVS_STATUS_READY = true → s.flag F.NVS_STATUS_SCRUB = false →
      y = ((weak.filterMap (fun i => s.nvs.recs[i]?)).filter x.nvsKept).foldl (fun (z : State) r => (z.nvsPush
        ⟨.scrub, 4, r.typ, r.key, r.seq, r.flags, r.payload, z.otherSector r⟩).event 0x1514 0 (r.typ * 65536 + r.key)
        (r.sector * 2 ^ 24 + r.seq % 2 ^ 24)) (x.put F.NVS_STATUS_SCRUB 1) →
      w = y.nvsWrite .store 4 0x0003 0 false false (leBytes 8 y.poweredS) →
      exec (.nvsScrub t weak) s = .next (if w.1 = 0 then w.2 else w.2.put F.NVS_STATUS_SCRUB 0)) ∧
    (∀ r y, s.nvs.repair = [r] → y = ({ x with nvs := { s.nvs with repair := [] } } : State) → (x.nvsSingles.contains r = false → exec (.copyRepair t) s = .next y) ∧
      (x.nvsSingles.contains r = true → exec (.copyRepair t) s = .next (y.nvsPush
      ⟨.repair, 4, r.typ, r.key, r.seq, if r.copy then r.flags - 4 else r.flags + 4, r.payload, some r.sector⟩))) ∧
    (∀ y, s.nvs.lastCounter + 3600 * tickS ≤ max s.now t → s.flag F.NVS_STATUS_READY = true → y = x.nvsWriteSet 1 x.operatingCells →
      exec (.counterUpdate t) s = .next { y with nvs := { y.nvs with lastCounter := max s.now t } })

/-- A request while BUSY is only logged; before READY or beyond 8,192 bytes it is refused; READ answers a counter's complete set or the current record, and refuses SEC_USER_KEY, a missing record and a tombstone; WRITE and DELETE of a host type within the hourly rate queue a record and hold BUSY, a device type is refused; PAGE_READ answers 4,096 bytes, OTP_READ the slot states with the newest payload of the three groups that may be read. (derived from R516, R519, R520, R525, R526, R530, R531.) -/
def Obligations.StoreHostOperations : Prop :=
  ∀ (s x : State) (t : Nat), s.hst.d3 = false → x = s.tick t →
    (s.flag F.NVS_STATUS_BUSY = true → exec (.nvsRead t) s = .next (x.event 0x1520 0 (s.get F.NVS_REQ_ID_TYPE * 65536 + s.get F.NVS_REQ_ID_KEY) 0)) ∧
    (∀ y, s.flag F.NVS_STATUS_BUSY = false → y = ((x.put F.NVS_REQ_OP 1).put F.NVS_REQ_DUP 0).put F.NVS_REQ_LEN 0 →
      (y.flag F.NVS_STATUS_READY = false → exec (.nvsRead t) s = .next (y.nvsRefuse 0x1520)) ∧
      (y.flag F.NVS_STATUS_READY = true →
        (y.get F.NVS_REQ_ID_TYPE = 0x0060 → exec (.nvsRead t) s = .next (y.nvsRefuse 0x1522)) ∧
        (∀ q cells, y.get F.NVS_REQ_ID_TYPE = 0x0020 → y.nvsCounter (y.get F.NVS_REQ_ID_KEY) = some (q, cells) → exec (.nvsRead t) s = .next
          ((y.store 15 (y.get F.NVS_REQ_ADDR_ADDR * 64) (cells.flatMap (leBytes 8))).nvsResult 0 (cells.flatMap (leBytes 8)).length q)) ∧
        (∀ r, y.get F.NVS_REQ_ID_TYPE ≠ 0x0060 → y.get F.NVS_REQ_ID_TYPE ≠ 0x0020 →
          y.nvsCurrent (y.get F.NVS_REQ_ID_TYPE) (y.get F.NVS_REQ_ID_KEY) = some r → exec (.nvsRead t) s = .next
          (if r.tomb then y.nvsRefuse 0x1523 else (y.store 15 (y.get F.NVS_REQ_ADDR_ADDR * 64) r.payload).nvsResult 0 r.payload.length r.seq)))) ∧
    (∀ dup len y p n w z, s.flag F.NVS_STATUS_BUSY = false → len ≤ 8192 → y = ((x.put F.NVS_REQ_OP 2).put F.NVS_REQ_DUP dup).put F.NVS_REQ_LEN len →
      y.flag F.NVS_STATUS_READY = true → p = y.read (y.get F.NVS_REQ_ADDR_ADDR * 64) (y.get F.NVS_REQ_LEN) →
      n = recBytes p.length * (if y.flag F.NVS_REQ_DUP then 2 else 1) →
      (y.get F.NVS_REQ_ID_TYPE < 0x8000 → exec (.nvsWrite t dup len) s = .next (y.nvsRefuse 0x1522)) ∧
      (0x8000 ≤ y.get F.NVS_REQ_ID_TYPE → 1048576 < y.hostRate + n → exec (.nvsWrite t dup len) s = .next (y.nvsRefuse 0x1524)) ∧
      (0x8000 ≤ y.get F.NVS_REQ_ID_TYPE → y.hostRate + n ≤ 1048576 →
        w = (y.noteRead 15 (y.get F.NVS_REQ_ADDR_ADDR * 64) (y.get F.NVS_REQ_LEN)).nvsWrite .host 3 (y.get F.NVS_REQ_ID_TYPE) (y.get F.NVS_REQ_ID_KEY) (y.flag F.NVS_REQ_DUP) false p → w.1 = 0 →
        z = w.2.put F.NVS_STATUS_BUSY 1 → exec (.nvsWrite t dup len) s = .next { z with nvs := { z.nvs with
          hostBytes := (max s.now t, n) :: s.nvs.hostBytes } })) ∧
    (∀ y w z, s.flag F.NVS_STATUS_BUSY = false → y = ((x.put F.NVS_REQ_OP 3).put F.NVS_REQ_DUP 0).put F.NVS_REQ_LEN 0 →
      y.flag F.NVS_STATUS_READY = true → 0x8000 ≤ y.get F.NVS_REQ_ID_TYPE → y.hostRate + recBytes 0 ≤ 1048576 →
      w = y.nvsWrite .host 3 (y.get F.NVS_REQ_ID_TYPE) (y.get F.NVS_REQ_ID_KEY) false true [] → w.1 = 0 → z = w.2.put F.NVS_STATUS_BUSY 1 →
      exec (.nvsDelete t) s = .next { z with nvs := { z.nvs with hostBytes := (max s.now t, recBytes 0) :: s.nvs.hostBytes } }) ∧
    (∀ y, s.flag F.NVS_STATUS_BUSY = false → y = ((x.put F.NVS_REQ_OP 4).put F.NVS_REQ_DUP 0).put F.NVS_REQ_LEN 0 →
      y.flag F.NVS_STATUS_READY = true → exec (.nvsPageRead t) s = .next ((y.store 15 (y.get F.NVS_REQ_ADDR_ADDR * 64) s.nvs.page).nvsResult 0 4096 0)) ∧
    (∀ y g b, s.flag F.NVS_STATUS_BUSY = false → y = ((x.put F.NVS_REQ_OP 5).put F.NVS_REQ_DUP 0).put F.NVS_REQ_LEN 0 →
      y.flag F.NVS_STATUS_READY = true → g = y.get F.NVS_REQ_ID_KEY / 256 → g < 9 →
      b = (s.otpGroup g).map (·.st) ++ (if g = 0 ∨ g = 7 ∨ g = 8 then (s.otpValue g).getD [] else []) →
      exec (.nvsOtpRead t) s = .next ((y.store 15 (y.get F.NVS_REQ_ADDR_ADDR * 64) b).nvsResult 0 b.length 0))

/-- While BUSY a request is only logged; otherwise the request is read; one whose form, state, nonce, session or proof fails is answered with that code and has no effect. An accepted STATUS, GET_NONCE, DEVICE_PUBKEY, OPEN_USER, CLOSE, ATTEST or RANDOM answers its body; RAISE_MIN_SERIAL and INSTALL_USER_KEY write a record; PROVISION_KEY, GEN_DEVICE_KEY, SET_SETTINGS, ROTATE_ROOT and PAGE_LOCK program a slot; PAGE_WRITE stores a valid page; ZEROISE zeroises; SELF_TEST begins the tests. (derived from R529, R532, R535, R539, R540, R541.) -/
def Obligations.SecurityCommands : Prop :=
  ∀ (s x q a : State) (t : Nat) (r : SecReq), s.hst.d3 = false → x = s.tick t → s.sec.burning = false → s.sec.running = none → r = x.secRequest →
    q = x.noteRequest → a = q.secAccept r →
    (s.flag F.SEC_MB_CTRL_BUSY = true → exec (.secStatus t) s = .next (x.event 0x1620 0 1 0) ∧
      (∀ rnd, exec (.getNonce t rnd) s = .next (x.event 0x1620 0 2 0)) ∧ (∀ auth, exec (.pageLock t auth) s = .next (x.event 0x1620 0 0x27 0))) ∧
    (s.flag F.SEC_MB_CTRL_BUSY = false →
      (∀ auth c, r.cmd = 0x25 → q.secAuth r auth = c → c ≠ 0 → exec (.installUserKey t auth) s = .next (q.secRespond 0x25 c [] [])) ∧
      (r.cmd = 1 → q.secAuth r true = 0 → a.respFits 1 a.secStatusBody = true → exec (.secStatus t) s = .next (a.secRespond 1 0 a.secStatusBody [])) ∧
      (∀ rnd, r.cmd = 2 → q.secAuth r true = 0 → a.respFits 2 (slice rnd 0 32) = true → exec (.getNonce t rnd) s = .next (({ a with sec := { a.sec with
        nonces := { bytes := slice rnd 0 32, at_ := a.now } :: a.sec.nonces } } : State).secRespond 2 0 (slice rnd 0 32) [])) ∧
      (∀ pub v, r.cmd = 3 → q.secAuth r true = 0 → a.otpValue 6 = some v → a.respFits 3 (slice pub 0 97 ++ slice v 48 16) = true →
        exec (.devicePubkey t pub) s = .next (a.secRespond 3 0 (slice pub 0 97 ++ slice v 48 16) [])) ∧
      (r.cmd = 4 → r.okForm = true → exec (.selfTest t) s = .next ((q.setSec .selfTest).secRun 4)) ∧
      (∀ auth k e, r.cmd = 0x10 → q.secAuth r auth = 0 → a.nvsValue 0x0060 0 = some k → a.otpValue 1 = some e → a.respFits 0x10 (leBytes 4 a.sec.nextSession) = true →
        exec (.openUser t auth) s = .next ((({ a with sec := { a.sec with
          session := some ⟨a.sec.nextSession, 0, a.now⟩
          nextSession := a.sec.nextSession + 1 } } : State).put F.SEC_STATUS_ROLE 1).secRespond 0x10 0 (leBytes 4 a.sec.nextSession) [])) ∧
      (∀ auth tag, r.cmd = 0x11 → x.secAuth r auth = 0 → q.secAuth r auth = 0 → x.respFits 0x11 [] = true → a.respFits 0x11 [] = true → exec (.close t auth tag) s = .next ((a.secRespond 0x11 0 [] tag).endSession)) ∧
      (∀ auth sig tag v, r.cmd = 0x12 → q.secAuth r auth = 0 → a.otpValue 6 = some v → a.respFits 0x12 (a.attestBody r.body ++ slice sig 0 96) = true →
        exec (.attest t auth sig tag) s = .next (a.secRespond 0x12 0 (a.attestBody r.body ++ slice sig 0 96) tag)) ∧
      (∀ auth rnd tag, r.cmd = 0x13 → q.secAuth r auth = 0 → 1 ≤ fieldLE r.body 0 4 → fieldLE r.body 0 4 ≤ 4096 →
        a.respFits 0x13 (slice rnd 0 (fieldLE r.body 0 4)) = true →
        exec (.random t auth rnd tag) s = .next (a.secRespond 0x13 0 (slice rnd 0 (fieldLE r.body 0 4)) tag)) ∧
      (∀ auth k v w, r.cmd = 0x20 → q.secAuth r auth = 0 → a.respFits 0x20 [] = true → k = r.body.getD 0 0 → k ≤ 1 → slice r.body 1 3 = [0, 0, 0] →
        v = fieldLE r.body 4 4 → a.minSerial k ≤ v → w = a.nvsWrite .security 2 0x0010 k true false (leBytes 4 v) → w.1 = 0 →
        exec (.raiseMinSerial t auth) s = .next (w.2.secRun 0x20)) ∧
      (∀ auth k g, r.cmd = 0x21 → q.secAuth r auth = 0 → a.respFits 0x21 [] = true → g = r.body.getD 0 0 → 1 ≤ g → g ≤ 5 → r.body.getD 1 0 = 0 →
        slice r.body 2 2 = [0, 0] → (a.otpValue 1).isSome = true → a.otpSpare g = true →
        exec (.provisionKey t auth (some k)) s = .next ((a.otpProgram g (slice k 0 32)).secRespond 0x21 0 [] [])) ∧
      (∀ auth sc pub, r.cmd = 0x22 → q.secAuth r auth = 0 → a.respFits 0x22 (slice pub 0 97) = true → a.otpSpare 6 = true → exec (.genDeviceKey t auth sc pub) s = .next
        ((a.otpProgram 6 (slice sc 0 48 ++ slice ((a.otpValue 6).getD []) 48 16)).secRespond 0x22 0 (slice pub 0 97) [])) ∧
      (∀ auth, r.cmd = 0x23 → q.secAuth r auth = 0 → a.respFits 0x23 [] = true → a.otpSpare 7 = true →
        exec (.setSettings t auth) s = .next (((a.otpProgram 7 r.body).lockTrace r.body).secRespond 0x23 0 [] [])) ∧
      (∀ auth, r.cmd = 0x24 → q.secAuth r auth = 0 → a.respFits 0x24 [] = true → a.otpSpare 0 = true →
        exec (.rotateRoot t auth) s = .next ((a.otpProgram 0 r.body).secRespond 0x24 0 [] [])) ∧
      (∀ auth w, r.cmd = 0x25 → q.secAuth r auth = 0 → a.respFits 0x25 [] = true → (a.otpValue 1).isSome = true →
        w = a.nvsWrite .security 2 0x0060 0 true false r.body → w.1 = 0 → exec (.installUserKey t auth) s = .next (w.2.secRun 0x25)) ∧
      (∀ auth, r.cmd = 0x26 → q.secAuth r auth = 0 → a.respFits 0x26 [] = true → a.pageLocked = false → pageOk r.body = true →
        exec (.pageWrite t auth) s = .next (({ a with nvs := { a.nvs with page := r.body } } : State).secRespond 0x26 0 [] [])) ∧
      (∀ auth, r.cmd = 0x27 → q.secAuth r auth = 0 → a.respFits 0x27 [] = true → a.otpSpare 8 = true →
        exec (.pageLock t auth) s = .next ((a.otpProgram 8 (leBytes 4 0x4C4F434B)).secRespond 0x27 0 [] [])) ∧
      (∀ auth, r.cmd = 0x28 → q.secAuth r auth = 0 → a.respFits 0x28 [] = true → ((a.event 0x1613 0 0x28 0).zeroise).sec.running = none →
        exec (.zeroise t auth) s = .next (((a.event 0x1613 0 0x28 0).zeroise).secRespond 0x28 0 [] [])))

/-- Self-tests that pass make the module OPERATIONAL, others put it in ERROR and end the session, and a waiting SELF_TEST is answered with the result; a conditional failure does the latter too; a session ends 60 s after its last request and a key component is discarded 60 s after it came; an enabled tamper source is latched, logged and zeroises; zeroising ends the session, clears nonces and components, burns the KEK's slots at once and writes the tombstone, and its completion burns KEY0 to KEY3 and DEVICE_ID, goes to SELF_TEST and answers a command that came during the burn, which waits until then. (derived from R535, R536, R537, R538, R542.) -/
def Obligations.SecurityStates : Prop :=
  ∀ (s x : State) (t : Nat), x = s.tick t →
    (∀ pass y, s.sec.st = .selfTest → s.sec.burning = false →
      y = (if pass then x.burnLeftovers.setSec .operational else ((x.burnLeftovers.setSec .error).endSession).event 0x1610 0 0 0) →
      exec (.selfTestComplete t pass) s = .next (if y.sec.running = some 4 then y.secRespond 4 0 [if pass then 0 else 1] [] else y)) ∧
    (s.hst.d3 = false → s.sec.burning = true → s.flag F.SEC_MB_CTRL_BUSY = false → x.secRequest.cmd = 1 →
      exec (.secStatus t) s = .next (x.noteRequest.secRun 1)) ∧
    (s.sec.st = .operational → exec (.conditionalTestFail t) s = .next (((x.setSec .error).endSession).event 0x1611 0 0 0)) ∧
    (∀ u, s.sec.session = some u → u.last + 60 * tickS ≤ max s.now t → exec (.sessionTimeout t) s =
      .next (({ x with sec := { s.sec with session := none } } : State).put F.SEC_STATUS_ROLE 0)) ∧
    (∀ n b a, s.sec.component = some (n, b, a) → a + 60 * tickS ≤ max s.now t → exec (.componentTimeout t) s =
      .next { x with sec := { s.sec with component := none } }) ∧
    (∀ bit m, bit < 4 → bitAt s.tamperMask bit = true → m = Nat.lor s.sec.tamper (2 ^ bit) → exec (.tamper t bit) s =
      .next ((((({ x with sec := { s.sec with tamper := m } } : State).put F.SEC_STATUS_TAMPER m).event 0x1612 0 bit 0)).zeroise)) ∧
    (∀ y, s.sec.running = none → s.fieldOn = false → s.fw.load = none → y = s.endSession → s.zeroise = ((({ y with sec := { y.sec with
      nonces := []
      component := none
      burning := true } } : State).otpBurn 1).nvsWrite .security 2 0x0060 0 true true []).2) ∧
    (∀ y, s.sec.burning = true → y = ((((x.otpBurn 2).otpBurn 3).otpBurn 4).otpBurn 5).otpBurn 6 → exec (.zeroiseBurnComplete t) s =
      .next ((({ y with sec := { y.sec with burning := false } } : State).setSec .selfTest).takeWaiting))

/-- With memory reachable: a BAR2 read whose bytes all lie in PROTECTED regions answers zeros, a BAR2 write that touches one changes no memory, and an INGEST whose rows touch one is refused whole; each is logged as SYS_PROTECTED_ACCESS (0x0111) with the device address (its low word first) as the argument, and the refused INGEST carries that code. (R45.) -/
def Obligations.ProtectedRegionsAnswerZero : Prop :=
  (∀ (s x : State) (t o n : Nat), x = s.tick t → s.hst.d3 = false → s.bar2On = true → o + n ≤ memTop → 0 < n →
      (∀ a, o ≤ a → a < o + n → s.protectedHit a 1 = true) →
      exec (.bar2Read t o n) s = .next (let y := (x.count Reg.HST_SNAP_BAR2_READS 1).event 0x0111 0 o (o / 2 ^ 32)
        { y with hst := { y.hst with
          readData := List.replicate n 0
          readEp := false } })) ∧
    (∀ (s x : State) (t o : Nat) (bs : List Nat), x = s.tick t → s.hst.d3 = false → s.bar2On = true → o + bs.length ≤ memTop → bs ≠ [] →
      (∃ a, o ≤ a ∧ a < o + bs.length ∧ s.protectedHit a 1 = true) →
      exec (.bar2Write t o bs) s = .next (x.event 0x0111 0 o (o / 2 ^ 32))) ∧
    (∀ (s x : State) (t w : Nat) (d : Desc) (c : CopyDesc), x = s.tick t → s.fieldOn = true → s.nextDesc w 1 = some d → copyFormatOk d.bytes = true →
      c = copyOf d.bytes → (∀ i, i < c.rows → c.dev + i * c.devPitch + c.len ≤ memTop) →
      (∃ i a, i < c.rows ∧ c.dev + i * c.devPitch ≤ a ∧ a < c.dev + i * c.devPitch + c.len ∧ s.protectedHit a 1 = true) →
      exec (.ingest t w) s = .next ((x.event 0x0111 0 c.dev (c.dev / 2 ^ 32)).endDesc w d.num 0x0111 (copyBody 0x0111 0 0 0)))

/-- Let the buffers be those named by a sealed epoch that has not retired or by a completed commit that has not landed. When a 4 KiB page that a well-formed, unprotected INGEST would write overlaps one, the descriptor ends with HST_INGEST_TARGET_BUSY, no byte is written, and the completion carries the first such page in the order of the rows. (R87.) -/
def Obligations.IngestIntoNamedBuffersIsRefused : Prop :=
  ∀ (s x : State) (t w k : Nat) (d : Desc) (c : CopyDesc) (names : List (Nat × Nat)), x = s.tick t → s.fieldOn = true → s.nextDesc w 1 = some d →
    copyFormatOk d.bytes = true → c = copyOf d.bytes →
    (∀ i, i < c.rows → c.dev + i * c.devPitch + c.len ≤ memTop ∧ s.protectedHit (c.dev + i * c.devPitch) c.len = false) →
    names = (s.cmt.epochs.filter (fun e => !e.retired)).flatMap (fun e => e.names ++ e.commits.flatMap (·.names)) ++ s.cmt.waiting.flatMap (·.names) →
    ((List.range c.rows).flatMap (fun i => upFrom ((c.dev + i * c.devPitch) / 4096)
      ((c.dev + i * c.devPitch + c.len - 1) / 4096 - (c.dev + i * c.devPitch) / 4096 + 1))).find?
        (fun p => names.any (fun q => overlaps (p * 4096) 4096 q.1 q.2)) = some k →
    exec (.ingest t w) s = .next ((x.eventOnce 0x0230 w w w d.slot).endDesc w d.num 0x0230 (copyBody 0x0230 0 0 (k * 4096)))

/-- ENABLE with a valid configuration makes a DISABLED ring RUNNING with TAIL and HEAD 0 and PHASE 1, an invalid one is logged; ENABLE 0 makes it DRAINING; a WORK_HEAD doorbell in range stamps the newly covered descriptors, which are taken while they fit; a well-formed one reserves its entries and moves TAIL, one that does not fit stalls the ring; a CPL_TAIL doorbell that makes room resumes it, the time stalled counted in whole microseconds; descriptors are fetched one after another, the ring chosen by priority; a value out of range is only logged; a NOP completes with code 0. (derived from R556, R557, R558, R560, R561.) -/
def Obligations.RingsAndDescriptors : Prop :=
  ∀ (s x : State) (t w : Nat), s.fieldOn = true → s.hst.d3 = false → x = s.tick t → w < 64 →
    ((s.ring w).st = .disabled → s.ringConfigOk w = true → exec (.ringEnable t w) s = .next
      ((((((x.put (F.HST_RING_CTRL_ENABLE.nth w) 1).put (F.HST_WRING_TAIL_TAIL.nth w) 0).put (F.HST_CRING_HEAD_HEAD.nth w) 0).put
        (F.HST_CRING_HEAD_PHASE.nth w) 1).onRing w (fun r => { next := r.next })).setRingSt w .running)) ∧
    ((s.ring w).st = .disabled → s.ringConfigOk w = false → exec (.ringEnable t w) s = .next
      ((x.put (F.HST_RING_STATUS_CODE.nth w) 0x0210).event 0x0210 w w 0)) ∧
    (((s.ring w).st = .running ∨ (s.ring w).st = .stalled) → exec (.ringDisable t w) s = .next
      ((((x.countStall w).put (F.HST_RING_CTRL_ENABLE.nth w) 0).setRingSt w .draining).settleRing w)) ∧
    (∀ v, (s.get (F.HST_WRING_SIZE_ENTRIES.nth w) ≤ v ∨ ((s.ring w).st ≠ .running ∧ (s.ring w).st ≠ .stalled)) →
      exec (.workDoorbell t w v) s = .next ((x.put (F.HST_RING_STATUS_CODE.nth w) 0x0211).event 0x0211 w w 0)) ∧
    (∀ v n cov, n = s.get (F.HST_WRING_SIZE_ENTRIES.nth w) → v < n → ((s.ring w).st = .running ∨ (s.ring w).st = .stalled) →
      cov = (slotsTo (s.get (F.HST_WRING_TAIL_TAIL.nth w)) v n).map (fun k =>
        (k, (((s.ring w).avail.find? (fun p => p.1 == k)).map (·.2)).getD (max s.now t))) →
      exec (.workDoorbell t w v) s = .next ((x.onRing w (fun r => { r with
        workHead := v
        avail := cov })).fetchAll)) ∧
    (∀ slot stamp rest b need, (s.ring w).avail = (slot, stamp) :: rest → s.mayTake w = true →
      s.readPoison (s.get (F.HST_WRING_BASE_BASE.nth w) * 64 + 64 * slot) 64 = false →
      b = s.read (s.get (F.HST_WRING_BASE_BASE.nth w) * 64 + 64 * slot) 64 → need = resvOf b →
      (s.freeEntries w < need → s.takeOne w = (s.setRingSt w .stalled).onRing w (fun r => { r with stallAt := s.now })) ∧
      (need ≤ s.freeEntries w → headerOk b = true → s.takeOne w = (((((s.put (F.HST_WRING_TAIL_TAIL.nth w)
        ((slot + 1) % max (s.get (F.HST_WRING_SIZE_ENTRIES.nth w)) 1)).count Reg.HST_SNAP_DESC 1).onRing w (fun r => { r with
          avail := rest
          taken := r.taken ++ [{ slot := slot, num := (s.ring w).next, bytes := b, stamp := stamp, resv := need }]
          next := r.next + 1 })).noteRead 13 (s.get (F.HST_WRING_BASE_BASE.nth w) * 64 + 64 * slot) 64).settleRing w))) ∧
    (∀ v y need, v < s.get (F.HST_CRING_SIZE_ENTRIES.nth w) → (s.ring w).st = .stalled → y = x.onRing w (fun r => { r with cplTail := v }) →
      need = (match (y.ring w).avail with
        | [] => 0
        | (slot, _) :: _ => if y.readPoison (y.get (F.HST_WRING_BASE_BASE.nth w) * 64 + 64 * slot) 64 then 1
          else resvOf (y.read (y.get (F.HST_WRING_BASE_BASE.nth w) * 64 + 64 * slot) 64)) → need ≤ y.freeEntries w →
      exec (.cplDoorbell t w v) s = .next (((y.countStall w).setRingSt w .running).fetchAll)) ∧
    ((s.ring w).st = .stalled → x.countStall w = (x.count Reg.HST_SNAP_STALLED_US ((max s.now t - (s.ring w).stallAt) / tickUs)).onRing w (fun r => { r with
      stallAt := r.stallAt + (max s.now t - (s.ring w).stallAt) / tickUs * tickUs })) ∧
    (s.fetchChoice = none → s.fetchMany 1 = s) ∧
    (∀ l k, s.fetchChoice = some (k, l) → s.fetchMany 1 = s.fetchOne k l) ∧
    (∀ v, v < s.get (F.HST_CRING_SIZE_ENTRIES.nth w) → (s.ring w).st = .running →
      exec (.cplDoorbell t w v) s = .next (x.onRing w (fun r => { r with cplTail := v }))) ∧
    (∀ d, s.nextDesc w 6 = some d → (d.bytes.drop 8).all (fun b => b == 0) = true →
      exec (.nop t w) s = .next (x.endDesc w d.num 0 (leBytes 2 0 ++ List.replicate 22 0)))

/-- A copy that passes its checks is marked running; a malformed one ends with HST_DESC_FORMAT and one beyond usable memory with HST_INGEST_RANGE. An ingest that ends with all its bytes has written its rows in order and completes with code 0, the arrival stamp and the byte count; one cut short completes with HST_INGEST_FAULT, the bytes written and the address of the next; bytes beyond it may have been written. An export of clean memory sends its rows to host memory and completes with code 0. (derived from R562, R563, R564.) -/
def Obligations.CopiesStartAndEnd : Prop :=
  ∀ (s x : State) (t w : Nat), s.fieldOn = true → x = s.tick t →
    (∀ d y, s.nextDesc w 1 = some d → s.copyCheck d.bytes true = (0, 0) → y = x.startDesc w d.num →
      exec (.ingest t w) s = .next { y with hst := { y.hst with copies := (w, d.num) :: y.hst.copies } }) ∧
    (∀ d y, s.nextDesc w 7 = some d → s.copyCheck d.bytes false = (0, 0) → y = x.startDesc w d.num →
      exec (.exportCopy t w) s = .next { y with hst := { y.hst with copies := (w, d.num) :: y.hst.copies } }) ∧
    (∀ d, s.nextDesc w 1 = some d → copyFormatOk d.bytes = false →
      exec (.ingest t w) s = .next ((x.eventOnce 0x0212 w w w d.slot).endDesc w d.num 0x0212 (copyBody 0x0212 0 0 0))) ∧
    (∀ d, s.nextDesc w 7 = some d → copyFormatOk d.bytes = true → (copySpans (copyOf d.bytes)).any (fun q => decide (memTop < q.1 + q.2)) = true →
      exec (.exportCopy t w) s = .next ((x.eventOnce 0x0231 w w w d.slot).endDesc w d.num 0x0231 (copyBody 0x0231 0 0 0))) ∧
    (∀ k d data c n y z, s.descAt w k = some d → s.hst.copies.contains (w, k) = true → d.typ = 1 → c = copyOf d.bytes → n = (readBytes (data.take (c.len * c.rows))).length →
      y = (x.writeRows c 0 (readBytes (data.take (c.len * c.rows)))).count Reg.HST_SNAP_INGEST n → z = { y with hst := { y.hst with
        copies := y.hst.copies.erase (w, k) } } →
      (n = c.len * c.rows → exec (.ingestComplete t w k data) s = .next (z.endDesc w k 0 (copyBody 0 (x.short x.now) n 0))) ∧
      (n ≠ c.len * c.rows → exec (.ingestComplete t w k data) s = .next
        (((z.writeCopyBytes c (readBeyond (data.take (c.len * c.rows)))).eventOnce 0x0232 w w w d.slot).endDesc w k 0x0232 (copyBody 0x0232 (x.short x.now) n (copyAddr c n))))) ∧
    (∀ k d c n rows y, s.descAt w k = some d → s.hst.copies.contains (w, k) = true → d.typ = 7 → c = copyOf d.bytes → n = c.len * c.rows →
      s.exportClean c 0 n = n → rows = (List.range c.rows).map (fun i =>
        ({ addr := c.host + i * c.hostPitch, bytes := ((s.exportBytes c n).drop (i * c.len)).take c.len } : HostWrite)) →
      y = (x.count Reg.HST_SNAP_EXPORT n).noteReads 0 ((List.range c.rows).map (fun i => (c.dev + i * c.devPitch, c.len))) →
      exec (.exportComplete t w k) s = .next (({ y with hst := { y.hst with
        copies := y.hst.copies.erase (w, k)
        hostOut := rows.reverse ++ y.hst.hostOut } } : State).endDesc w k 0 (copyBody 0 (x.short x.now) n 0)))

/-- A trained link shows speed and width and is logged as degraded below 32 GT/s x16; D3hot stops the rings, D0 takes their descriptors again; a function-level reset, hot reset, PERST or link down clears the host registers, disables every ring, drops commits' completions and ends the user session, each logged with its cause, a link down when the link returns; a raised vector that is masked is pending, and unmasking a pending vector sends it. (derived from R547, R548, R554, R567.) -/
def Obligations.LinkResetsPowerAndVectors : Prop :=
  ∀ (s x : State) (t : Nat), s.fieldOn = true → x = s.tick t →
    (∀ sp wd z y, 1 ≤ sp → sp ≤ 5 → z = (x.put F.HST_LINK_SPEED sp).put F.HST_LINK_WIDTH wd →
      y = (if s.hst.downAt then ({ z with hst := { s.hst with downAt := false } } : State).event 0x0222 0 4 0 else z) →
      exec (.linkUp t sp wd) s = .next (if sp = 5 ∧ wd = 16 then y else y.event 0x0220 0 0 0)) ∧
    (exec (.powerStateChange t true) s = .next { x with hst := { s.hst with d3 := true } }) ∧
    (exec (.powerStateChange t false) s = .next ({ x with hst := { s.hst with d3 := false } } : State).fetchAll) ∧
    (∀ c y z, 1 ≤ c → c ≤ 4 → y = ((List.range 64).foldl State.countStall x).hstRegsReset (c == 1) →
      z = ((({ y with hst := { y.hst with
        rings := y.hst.rings.map (fun r => { next := r.next })
        msix := []
        pba := []
        copies := []
        d3 := false
        fetch := { unit := 2, port := 0 }
        downAt := y.hst.downAt || c == 4 } } : State).put F.SYS_FR_SIZE_ENTRIES 0).put F.DBG_TRACE_CTRL_EN 0).put F.DBG_TRACE_STATUS_STATE 0 →
      exec (.functionLevelReset t c) s = .next (if c = 4 then (z.event 0x0221 0 0 0).shoAbort.commitsReset.endSession
        else z.shoAbort.commitsReset.endSession.event 0x0222 0 c 0)) ∧
    (∀ v y, v < 256 → s.hst.d3 = false → y = x.setMsixWord v 3 0 → s.hst.pba.contains v = true →
      exec (.msixUnmask t v) s = .next { y with hst := { y.hst with
        pba := y.hst.pba.erase v
        sent := v :: y.hst.sent } }) ∧
    (∀ v, v < 256 → s.hst.d3 = false → s.hst.pba.contains v = false → exec (.msixUnmask t v) s = .next (x.setMsixWord v 3 0))

/-- With the field die off or memory untrained a read answers all ones and a write is dropped; beyond usable memory likewise, logged once per epoch and port; a read of clean unprotected memory answers its bytes; one that meets a poisoned block is logged and answers all ones, or zeros with the EP bit where EP_POISON is set; a write of unprotected memory writes its bytes, as far as usable memory goes; an access that begins in usable memory and ends beyond it is logged and acts on the part inside. What is read and written is counted; a read of a poisoned block is an ECC error of its port, and a write that covers one only in part is logged. (derived from R16, R400, R403, R405, R552.) -/
def Obligations.MemoryWindow : Prop :=
  ∀ (s x : State) (t o n : Nat) (bs : List Nat), s.hst.d3 = false → x = s.tick t →
    (s.bar2On = false → exec (.bar2Read t o n) s = .next { x with hst := { s.hst with readData := List.replicate n 0xFF, readEp := false } } ∧
      exec (.bar2Write t o bs) s = .next x) ∧
    (∀ y, s.bar2On = true → memTop ≤ o → bs ≠ [] → 0 < n → s.protectedHit o n = false →
      y = (x.count Reg.HST_SNAP_BAR2_READS 1).noteRead 0 o n →
      exec (.bar2Read t o n) s = .next { y with hst := { y.hst with readData := List.replicate n 0xFF, readEp := false } } ∧
      exec (.bar2Write t o bs) s = .next (x.store 0 o bs)) ∧
    (∀ y, s.bar2On = true → o + n ≤ memTop → o < memTop → s.protectedHit o n = false → y = (x.count Reg.HST_SNAP_BAR2_READS 1).noteRead 0 o n →
      (s.anyPoison (o / 64) (blockCount o n) = false →
        exec (.bar2Read t o n) s = .next { y with hst := { y.hst with readData := s.read o n, readEp := false } }) ∧
      (s.anyPoison (o / 64) (blockCount o n) = true → ∀ z, z = y.eventOnce 0x0240 0 0 0 0 →
        exec (.bar2Read t o n) s = .next { z with hst := { z.hst with
            readData := List.replicate n (if s.flag F.HST_CTRL_EP_POISON then 0 else 0xFF)
            readEp := s.flag F.HST_CTRL_EP_POISON } })) ∧
    (s.bar2On = true → bs ≠ [] → s.protectedHit o bs.length = false →
      exec (.bar2Write t o bs) s = .next (x.store 0 o bs)) ∧
    (∀ y, s.bar2On = true → o < memTop → memTop < o + n → s.protectedHit o n = false → s.anyPoison (o / 64) (blockCount o n) = false →
      y = (x.count Reg.HST_SNAP_BAR2_READS 1).noteRead 0 o n →
      exec (.bar2Read t o n) s = .next { y with hst := { y.hst with
          readData := (upFrom o n).map (fun a => if memTop ≤ a then 0xFF else s.byte a)
          readEp := false } }) ∧
    (∀ p a m b, 0 < m → a / 64 = b → (a + m - 1) / 64 = b →
      (b < memTop / 64 → s.blockPoison b = false → s.noteRead p a m = s.count Reg.MEM_SNAP_READ 64) ∧
      (b < memTop / 64 → s.blockPoison b = true → s.noteRead p a m = (s.count Reg.MEM_SNAP_READ 64).eccRead p b) ∧
      (memTop / 64 ≤ b → s.noteRead p a m = ((s.count Reg.MEM_SNAP_READ 0).eventOnce 0x1012 p 0 b (p * 2 ^ 24)).count Reg.MEM_SNAP_ECC_UNCORR 1)) ∧
    (∀ p a m, s.partPoison a m = [] →
      (a + m ≤ memTop → s.noteWrite p a m = s.count Reg.MEM_SNAP_WRITE m) ∧
      (memTop ≤ a → 0 < m → s.noteWrite p a m = (s.count Reg.MEM_SNAP_WRITE 0).eventOnce 0x1012 p 0 (a / 64) (p * 2 ^ 24))) ∧
    (∀ p a m b, s.partPoison a m = [b] → a + m ≤ memTop →
      s.noteWrite p a m = (s.count Reg.MEM_SNAP_WRITE m).event 0x1011 0 b (memArg1 p b)) ∧
    (∀ p a, x.store p a bs = (x.write a bs).noteWrite p a bs.length) ∧
    (memTop ≤ o → (x.write o bs).mem = s.mem)

/-- A write of a word with a staged field, with no rule of its own, puts the word into the shadow by its fields and notes register, stamp and word for the next capture; a reserved value in it is logged besides; what is in force does not change. A word written to SYS_UNIT_RESET resets the units of its bits that can be reset, in order of number: a unit whose reset bit already reads 1 is left alone, another halts, has its snapshot flagged INCOMPLETE, is logged, and raises vector 0. (derived from R10, R21, R70, R81, R94, R575.) -/
def Obligations.StagedWritesAndUnitResets : Prop :=
  (∀ (s x : State) (t off v : Nat) (r : RegRow) (i j : Nat), s.hst.d3 = false → x = s.tick t → v < 2 ^ 32 → s.unreachable off = false →
      inMsix off = false → hasStaged off = true → rowAt off = some (r, i, j, 0) → r.wide = false → x.writeBlocked r i j off v = none →
      s.enableMask r off = 0 → writeRules.find? (fun q => q.1 == r.off) = none →
      exec (.stagedFieldWrite t off v) s = .next (let w := r.write 0 (s.rd off) v
        let y := (x.wr off w.1).stage off w.1
        if w.2 then y.reservedWrite off v else y) ∧
      ((x.wr off (r.write 0 (s.rd off) v).1).stage off (r.write 0 (s.rd off) v).1).cmt.inForce = s.cmt.inForce) ∧
    (∀ (s x : State) (t v : Nat), s.hst.d3 = false → x = s.tick t → s.fieldOn = true →
      exec (.sysUnitReset t v) s = .next ((resettable.filter (fun u => bitAt v u)).foldl State.resetUnit x))

/-- The earliest event is put into the log 10 µs after its stamp: into the keeper's buffer of 256 before an image is in force, under OVERWRITE always, and under STOP while fewer than 4,096 are unread, else it is dropped and counted; after a drop the overflow entry with the count and the entry are written once two fit. TAIL written arms the vector. A trace enable is ignored while locked and refused with a bad tap or ring; a traced record writes its entry and moves HEAD. (derived from R538, R568, R569, R570, R580, R581, R582.) -/
def Obligations.EventLogAndTrace : Prop :=
  ∀ (s x : State) (t : Nat), x = s.tick t →
    (∀ e r y, s.sys.logPend = e :: r → e.stamp + 10 * tickUs ≤ max s.now t → y = { x with sys := { s.sys with logPend := r } } →
      (s.imageOn = false → s.sys.logKeep.length < 256 → exec (.eventLogWrite t) s = .next { y with sys := { y.sys with logKeep := s.sys.logKeep ++ [e] } }) ∧
      (s.imageOn = true → s.flag F.SYS_LOG_CTRL_MODE = true → exec (.eventLogWrite t) s = .next (y.logWrite e)) ∧
      (s.imageOn = true → s.flag F.SYS_LOG_CTRL_MODE = false → s.sys.logDropRun = 0 → s.logUnread < 4096 →
        exec (.eventLogWrite t) s = .next (y.logWrite e)) ∧
      (s.imageOn = true → s.flag F.SYS_LOG_CTRL_MODE = false → s.sys.logDropRun = 0 → 4096 ≤ s.logUnread →
        exec (.eventLogWrite t) s = .next (({ y with sys := { y.sys with logDropRun := 1 } } : State).logDrop)) ∧
      (∀ z, s.imageOn = true → s.flag F.SYS_LOG_CTRL_MODE = false → s.sys.logDropRun ≠ 0 → s.logUnread < 4095 →
        z = y.logWrite (overflowEntry e s.sys.logDropRun) →
        exec (.eventLogWrite t) s = .next (({ z with sys := { z.sys with logDropRun := 0 } } : State).logWrite e)) ∧
      (s.imageOn = true → s.flag F.SYS_LOG_CTRL_MODE = false → s.sys.logDropRun ≠ 0 → 4095 ≤ s.logUnread →
        exec (.eventLogWrite t) s = .next (({ y with sys := { y.sys with logDropRun := s.sys.logDropRun + 1 } } : State).logDrop))) ∧
    (∀ v y, s.hst.d3 = false → v < 2 ^ 32 → y = x.put F.SYS_LOG_TAIL_SEQ v →
      exec (.logTailWrite t v) s = .next { y with sys := { s.sys with logArmed := true } }) ∧
    (∀ v k, s.hst.d3 = false → s.fieldOn = true → v < 2 ^ 32 → k = bitsOf v 26 24 →
      (s.debugLocked = true → exec (.dbgTraceEnable t v) s = .next x) ∧
      (s.debugLocked = false → bitAt v 31 = true → (k = 0 ∨ 6 < k ∨ tapIndices k ≤ bitsOf v 15 0 ∨ s.traceRingOk = false) →
        exec (.dbgTraceEnable t v) s = .next (x.reservedWrite Reg.DBG_TRACE_CTRL v)) ∧
      (s.debugLocked = false → bitAt v 31 = true → 1 ≤ k → k ≤ 6 → bitsOf v 15 0 < tapIndices k → s.traceRingOk = true → s.flag F.DBG_TRACE_CTRL_EN = false →
        exec (.dbgTraceEnable t v) s = .next (({ ((((x.put F.DBG_TRACE_CTRL_EN 1).put F.DBG_TRACE_CTRL_KIND k).put F.DBG_TRACE_CTRL_DECIMATE (bitsOf v 23 16)).put
          F.DBG_TRACE_CTRL_INDEX (bitsOf v 15 0)) with dbg := {} } : State).traceShow))) ∧
    (∀ k i b h n y, s.fieldOn = true → s.debugLocked = false → s.flag F.DBG_TRACE_CTRL_EN = true → s.get F.DBG_TRACE_CTRL_KIND = k →
      s.get F.DBG_TRACE_CTRL_INDEX = i → s.dbg.skip = 0 → s.dbg.lastAt.any (fun a => decide (max s.now t < a + 8 * tickNs)) = false →
      n = s.get F.DBG_TRACE_SIZE_ENTRIES → s.traceUnread + 1 < n → h = s.get F.DBG_TRACE_HEAD_HEAD →
      y = (x.store 13 (s.get F.DBG_TRACE_BASE_BASE * 32 + 32 * h) (leBytes 4 (s.short (max s.now t)) ++ [s.frac (max s.now t), k] ++ leBytes 2 i ++
        leBytes 4 (s.epochAt (tapUnit k)) ++ leBytes 4 b.length ++ slice b 0 16)).put F.DBG_TRACE_HEAD_HEAD ((h + 1) % n) →
      exec (.dbgTraceRecord t k i b) s = .next (({ y with dbg := { skip := s.get F.DBG_TRACE_CTRL_DECIMATE, lastAt := some (max s.now t) } } : State).traceShow))

/-- With the memory trained a load copies the image, or is only logged while BUSY; a checked image with a failing check is refused with its code, one that passes is put into the other bank, and runs at once where no firmware runs, else at the switch; the core watchdog restarts a good bank and otherwise stops the firmware and raises fatal cause 5; a hung unit is logged and reset, unless it hung within the last second; a stuck queue raises fatal cause 1; FORCE raises cause 6. (derived from R583, R584, R585, R588, R589.) -/
def Obligations.FirmwareAndWatchdogs : Prop :=
  ∀ (s x : State) (t : Nat), x = s.tick t →
    (∀ y, s.hst.d3 = false → s.fieldOn = true → s.trained = true → s.flag F.SYS_FW_STATUS_BUSY = false →
      y = x.noteRead 15 (s.get F.SYS_FW_ADDR_ADDR * 4096) (s.get F.SYS_FW_LEN_LEN) →
      exec (.firmwareLoad t) s = .next (({ y with fw := { y.fw with
        load := some (s.read (s.get F.SYS_FW_ADDR_ADDR * 4096) (s.get F.SYS_FW_LEN_LEN)) } } : State).put F.SYS_FW_STATUS_BUSY 1)) ∧
    (s.hst.d3 = false → s.fieldOn = true → s.trained = false → exec (.firmwareLoad t) s = .next x) ∧
    (s.hst.d3 = false → s.fieldOn = true → s.trained = true → s.flag F.SYS_FW_STATUS_BUSY = true → exec (.firmwareLoad t) s = .next (x.event 0x0164 0 0 0)) ∧
    (∀ b sg tg c, s.fw.load = some b → c = x.fwCode b sg tg → c ≠ 0 → exec (.firmwareChecked t sg tg) s = .next
      ((((({ x with fw := { s.fw with load := none } } : State).put F.SYS_FW_STATUS_CODE c).put F.SYS_FW_STATUS_BUSY 0).put F.SYS_FW_STATUS_DONE 1).event
        c 0 0 0 |>.raise 0)) ∧
    (∀ b y, s.fw.load = some b → x.fwCode b true true = 0 → y = { x with fw := { s.fw with
        load := none
        banks := modAt s.fw.banks (1 - s.fw.cur) (fun _ => { bytes := b, serial := fieldLE b 8 4, digest := Config.sha384 b }) } } →
      (s.flag F.SYS_FW_STATUS_RUNNING = true → exec (.firmwareChecked t true true) s = .next { y with fw := { y.fw with ready := true } }) ∧
      (s.flag F.SYS_FW_STATUS_RUNNING = false → exec (.firmwareChecked t true true) s = .next y.fwRun)) ∧
    (∀ y, s.fw.ready = true → y = { x with fw := { s.fw with
        cur := 1 - s.fw.cur
        ready := false } } → exec (.firmwareSwitch t) s = .next
      (((((y.put F.SYS_FW_SERIAL (s.fw.banks.getD (1 - s.fw.cur) {}).serial).put F.SYS_FW_STATUS_RUNNING 1).put F.SYS_FW_STATUS_BUSY 0).put
        F.SYS_FW_STATUS_DONE 1).raise 0)) ∧
    (s.flag F.SYS_FW_STATUS_RUNNING = true → exec (.coreWatchdog t true) s = .next (x.event 0x1720 0 0 0) ∧
      exec (.coreWatchdog t false) s = .next ((x.put F.SYS_FW_STATUS_RUNNING 0).raiseFatal 5 0)) ∧
    (∀ u i ms y, s.fieldOn = true → ms = s.get F.DMP_WDOG_UNIT_MS → ms ≠ 0 → resettable.contains u = true →
      s.tlt.queues.any (fun q => q.consUnit == u && q.waits && decide (q.frontSince + ms * tickMs ≤ max s.now t)) = true →
      assocGet u 0 s.tlt.paceLast = 0 → ms * tickMs ≤ (s.tick t).watchedFor u i → s.instHalted u i = false → s.unitWaits u i = false → s.watching = true → s.flag F.SYS_FW_STATUS_RUNNING = true →
      y = x.event 0x1714 i u i →
      (s.dmp.hung.any (fun q => q.1 == u && q.2.1 == i && decide (max s.now t < q.2.2 + tickS)) = true → exec (.unitWatchdog t u i) s = .next y) ∧
      (s.dmp.hung.any (fun q => q.1 == u && q.2.1 == i && decide (max s.now t < q.2.2 + tickS)) = false → exec (.unitWatchdog t u i) s = .next
        (({ y with dmp := { y.dmp with hung := (u, i, max s.now t) :: y.dmp.hung.filter (fun q => !(q.1 == u && q.2.1 == i)) } } : State).resetUnit u))) ∧
    (∀ k q, s.fieldOn = true → s.queue k = some q → q.waits = true → s.unitHalted q.consUnit = false → s.get F.DMP_STATUS_STATE = 0 →
      s.sho.switching = false → q.frontSince + s.get F.DMP_WDOG_TILTH_MS * tickMs ≤ max s.now t →
      exec (.tilthWatchdog t k) s = .next (x.raiseFatal 1 k)) ∧
    (s.hst.d3 = false → s.fieldOn = true → exec (.force t) s = .next (x.raiseFatal 6 0))

/-- A cause (the oldest raised, or 2, 4, 5 found by the DMP, 4 outside a load or overlay) is logged, noted in DMP_STATUS, DMP_SEQ and DMP_COUNT, sets RECOVERING, and a tick later (log entry 91) the units halt and commits stop; during a freeze it is only logged with bit 31 and counted. Capture keeps a kept dump, goes to SUMMARY with no region (log entry 93), else runs, with its jobs in the firmware ring; its end writes the sections, directory and header, then asks for the record. Restore resets the frozen units and takes the structure and the Tilth from the applied structure, or a lost channel makes the error terminal. (derived from R591, R592, R594, R595, R596, R597, R598.) -/
def Obligations.FreezeDumpRestore : Prop :=
  ∀ (s x : State) (t : Nat), s.fieldOn = true → x = s.tick t →
    (∀ c d w, s.sys.fatal = (c, d) :: w → exec (.fatalFreeze t 0 0) s = .next (({ x with sys := { s.sys with fatal := w } } : State).fatal c d)) ∧
    (∀ c d, (c = 2 ∨ c = 5 ∨ (c = 4 ∧ d = 0 ∧ s.structureBusy = false)) → s.get F.DMP_STATUS_STATE ≠ 0 → s.get F.DMP_STATUS_STATE ≠ 4 →
      exec (.fatalFreeze t c d) s = .next ((x.event 0x1710 0 (c + 2 ^ 31) d).put F.DMP_COUNT_COUNT (sat32 (s.get F.DMP_COUNT_COUNT + 1)))) ∧
    (∀ c d w z, (c = 2 ∨ c = 5 ∨ (c = 4 ∧ d = 0 ∧ s.structureBusy = false)) → s.get F.DMP_STATUS_STATE = 0 →
      w = ((((((x.event 0x1710 0 c d).put F.DMP_STATUS_CAUSE c).put F.DMP_STATUS_STATE 1).put F.DMP_SEQ_DUMP_SEQ (x.operatingCells.getD 2 0 + 1)).put
        F.DMP_COUNT_COUNT (sat32 (x.get F.DMP_COUNT_COUNT + 1))).put F.CMT_STATUS_RECOVERING 1).put F.SYS_STATUS_RECOVERING 1 →
      z = (({ w with
        now := w.now + 1
        dmp := { w.dmp with
          at_ := x.now
          fullAt := x.full x.now
          cause := c
          detail := d
          sealedNo := x.get F.CMT_EPOCH_SEALED_EPOCH
          retired := x.get F.CMT_EPOCH_RETIRED_EPOCH
          frame := x.frameNo
          stuck := []
          restored := false
          heldFrames := 0
          queues := x.tlt.queues
          waiting := x.cmt.waiting
          banks := x.slt.banks
          halted := (upFrom 1 24).filter x.unitHalted } } : State).cutReport.freezeUnits).commitsFreeze →
      exec (.fatalFreeze t c d) s = .next { z with dmp := { z.dmp with regs := z.regs } }) ∧
    (∀ y, s.get F.DMP_STATUS_STATE = 1 → s.flag F.SYS_FW_STATUS_RUNNING = true →
      y = { x with dmp := { s.dmp with header := x.dumpHeader false 0 } } →
      (s.flag F.DMP_CTRL_KEEP = true → s.flag F.DMP_STATUS_VALID = true → exec (.captureStart t) s = .next (y.event 0x1712 0 0 0).summaryStart) ∧
      (s.flag F.DMP_CTRL_KEEP = false → y.region 5 = none → exec (.captureStart t) s = .next y.summaryStart) ∧
      (s.flag F.DMP_CTRL_KEEP = false → (y.region 5).isSome = true → s.engSt 0 ≠ 4 → s.engSt 1 ≠ 4 →
        exec (.captureStart t) s = .next (let j := fwJob 1 0 0 (x.regionBase 5) (((x.region 5).map (·.size)).getD 0)
          ((x.put F.DMP_STATUS_STATE 2).pushFw j).pushFw j))) ∧
    (∀ scan b ps n h y, s.get F.DMP_STATUS_STATE = 2 → b = x.regionBase 5 → ps = placeSections 0x4000 (x.dumpSections scan) →
      n = ps.foldl (fun _ q => q.1 + q.2.2.length) 0x4000 → h = x.dumpHeader true n →
      y = ((ps.foldl (fun s q => s.store 14 (b + q.1) q.2.2) (x.endFw 1)).store 14 (b + 0x100) (ps.flatMap dumpEntry)).store 14 b h →
      exec (.captureComplete t scan) s =
        .next ((({ y with dmp := { y.dmp with header := h } } : State).put F.DMP_STATUS_VALID 1).event 0x1711 0 0 0).summaryStart) ∧
    (s.get F.DMP_STATUS_STATE = 3 → s.nvs.queue.any (fun j => j.who == NvsWho.dump) = false → exec (.summaryCommitted t) s =
      .next (({ x with nvs := { s.nvs with failed := s.nvs.failed.filter (fun w => w != NvsWho.dump) } } : State).put F.DMP_STATUS_STATE 4).restoreStart) ∧
    (s.get F.DMP_STATUS_STATE = 4 → s.dmp.restored = false → (s.mc.chans.filter (fun c => c.lostInService)).any (fun c => c.st == .training) = false →
      (((s.mc.chans.filter (fun c => c.lostInService)).any (fun c => c.st == .failed) = true →
        exec (.restoreComplete t) s = .next ((x.put F.DMP_STATUS_STATE 5).event 0x1715 0 s.dmp.cause s.dmp.detail)) ∧
      (∀ z im, (s.mc.chans.filter (fun c => c.lostInService)).any (fun c => c.st == .failed) = false →
        z = [0, 1].foldl (fun q e => if q.engSt e = 5 then q.engineStop e true else q) (frozenUnits.foldl State.resetUnit x) →
        z.dmp.applied = some im → exec (.restoreComplete t) s = .next { z with
          sho := { z.sho with run := some im }
          tlt := { z.tlt with
            queues := queuesOf im
            ports := [] }
          dmp := { z.dmp with restored := true } }))) ∧
    (s.hst.d3 = false → exec (.release t) s = .next (x.put F.DMP_STATUS_VALID 0))
end

