-- ==== Sys2Proof/Laws/Ecc.lean ====
section
/-!
SUPPORT. What the in-line code of R401 does: a block as written reads good, and one flipped data bit is corrected.
-/

namespace Sys2Proof.Machine

/-- Positions are the numbers below 1,024 that are no power of 2, each data bit at one of its own. -/
theorem eccPos_lt (i : Nat) (h : i < 543) : eccPos i < 1024 := by
  unfold eccPos; repeat' split <;> try omega

theorem eccPos_find : ∀ i, i < 512 → eccBitAt (eccPos i) = some i ∧ eccCheckAt (eccPos i) = false := by decide +kernel

/-- The lowest bit of an exclusive or. -/
theorem xor_mod_two (a b : Nat) : (a ^^^ b) % 2 = (a + b) % 2 := by
  have h := Nat.xor_mod_two_eq_one (a := a) (b := b)
  omega

/-- What was folded before only adds to the result. -/
theorem eccFold_acc (k : Nat) : ∀ (i v x c : Nat), eccFold k i v (x, c) =
    (Nat.xor x (eccFold k i v (0, 0)).1, c + (eccFold k i v (0, 0)).2) := by
  induction k with
  | zero => intro i v x c; simp [eccFold]
  | succ k ih =>
    intro i v x c
    unfold eccFold
    split
    · rw [ih, ih (i + 1) (v / 2) (Nat.xor 0 (eccPos i)) (0 + 1)]
      simp [Nat.xor_assoc, Nat.add_assoc]
    · rw [ih]

theorem eccFold_lt (k : Nat) : ∀ (i v x c : Nat), i + k ≤ 543 → x < 1024 → (eccFold k i v (x, c)).1 < 1024 := by
  induction k with
  | zero => intro i v x c _ h; exact h
  | succ k ih =>
    intro i v x c hi hx
    unfold eccFold
    split
    · exact ih _ _ _ _ (by omega) (Nat.xor_lt_two_pow (n := 10) hx (eccPos_lt i (by omega)))
    · exact ih _ _ _ _ (by omega) hx

/-- A flipped bit moves the XOR by its position and turns the parity. -/
theorem eccFold_flip (k : Nat) : ∀ (i v j : Nat), j < k →
    (eccFold k i (Nat.xor v (2 ^ j)) (0, 0)).1 = Nat.xor (eccFold k i v (0, 0)).1 (eccPos (i + j)) ∧
    (eccFold k i (Nat.xor v (2 ^ j)) (0, 0)).2 % 2 = ((eccFold k i v (0, 0)).2 + 1) % 2 := by
  induction k with
  | zero => intro i v j h; omega
  | succ k ih =>
    intro i v j h
    cases j with
    | zero =>
      have e1 : Nat.xor v (2 ^ 0) / 2 = v / 2 := by
        show (v ^^^ 1) / 2 = v / 2
        rw [Nat.xor_div_two]; simp
      have e2 : Nat.xor v (2 ^ 0) % 2 = (v + 1) % 2 := by
        show (v ^^^ 1) % 2 = _
        exact xor_mod_two v 1
      unfold eccFold
      rw [e1, e2]
      rcases Nat.mod_two_eq_zero_or_one v with hv | hv
      · rw [if_pos (by omega), if_neg (by omega), eccFold_acc]
        simp [Nat.xor_comm, Nat.add_comm]
      · rw [if_neg (by omega), if_pos (by omega), eccFold_acc k (i + 1) (v / 2) (Nat.xor 0 (eccPos i))]
        simp only [Nat.zero_add, Nat.add_zero]
        refine ⟨?_, by omega⟩
        show _ = ((0 ^^^ eccPos i) ^^^ _) ^^^ eccPos i
        rw [Nat.zero_xor, Nat.xor_comm (eccPos i), Nat.xor_assoc, Nat.xor_self, Nat.xor_zero]
    | succ j =>
      have e1 : Nat.xor v (2 ^ (j + 1)) / 2 = Nat.xor (v / 2) (2 ^ j) := by
        show (v ^^^ 2 ^ (j + 1)) / 2 = (v / 2) ^^^ 2 ^ j
        rw [Nat.xor_div_two, Nat.pow_succ, Nat.mul_div_cancel _ (by decide)]
      have e2 : Nat.xor v (2 ^ (j + 1)) % 2 = v % 2 := by
        show (v ^^^ 2 ^ (j + 1)) % 2 = _
        rw [xor_mod_two, Nat.pow_succ]; omega
      obtain ⟨h1, h2⟩ := ih (i + 1) (v / 2) j (by omega)
      unfold eccFold
      rw [e1, e2]
      rw [show i + (j + 1) = i + 1 + j by omega]
      split
      · rw [eccFold_acc k (i + 1) (Nat.xor (v / 2) (2 ^ j)), eccFold_acc k (i + 1) (v / 2) (Nat.xor 0 (eccPos i))]
        dsimp only
        rw [h1]
        exact ⟨(Nat.xor_assoc _ _ _).symm, by omega⟩
      · exact ⟨h1, h2⟩

/-- A flipped bit of a byte list is a flipped bit of its number. -/
theorem leNat_flip (l : List Nat) : ∀ i, i / 8 < l.length → leNat (flipBit l i) = Nat.xor (leNat l) (2 ^ i) := by
  induction l with
  | nil => intro i h; simp at h
  | cons b bs ih =>
    intro i h
    apply Nat.eq_of_testBit_eq
    intro j
    have lo : ∀ (x y : Nat), (x % 256 + 256 * y).testBit j = if j < 8 then x.testBit j else y.testBit (j - 8) := by
      intro x y
      rw [Nat.add_comm, show (256 : Nat) = 2 ^ 8 from rfl, Nat.testBit_two_pow_mul_add _ (Nat.mod_lt _ (by decide)), Nat.testBit_mod_two_pow]
      split <;> simp_all
    have xr : ∀ (x y k : Nat), (Nat.xor x y).testBit k = (x.testBit k ^^ y.testBit k) := fun x y k => Nat.testBit_xor x y k
    by_cases q : i < 8
    · have e : i / 8 = 0 := by omega
      have m : i % 8 = i := by omega
      simp only [flipBit, modAt, e, m, List.modify_zero_cons, leNat, lo, xr, Nat.testBit_two_pow]
      split
      · rfl
      · rw [decide_eq_false (by omega)]; simp
    · have e : i / 8 = (i - 8) / 8 + 1 := by omega
      have m : i % 8 = (i - 8) % 8 := by omega
      have := ih (i - 8) (by simp at h; omega)
      simp only [flipBit, modAt] at this
      simp only [flipBit, modAt, e, m, List.modify_succ_cons, leNat, lo, xr, Nat.testBit_two_pow, this]
      split
      · rw [decide_eq_false (by omega)]; simp
      · rw [show decide (i - 8 = j - 8) = decide (i = j) from by simp; omega]

/-- A whole block is its own slice. -/
theorem slice_self (l : List Nat) (n : Nat) (h : l.length = n) : slice l 0 n = l := by subst h; simp [slice]

/-- A flipped data bit turns the block's parity and moves the XOR by the bit's position. -/
theorem eccInfo_flip (l : List Nat) (n i : Nat) (h : l.length = 64) (hi : i < 512) :
    (eccInfo (flipBit l i) n).1 = Nat.xor (eccInfo l n).1 (eccPos i) ∧ (eccInfo (flipBit l i) n).2 % 2 = ((eccInfo l n).2 + 1) % 2 := by
  have e := leNat_flip l i (by omega)
  unfold eccInfo
  rw [slice_self l 64 h, slice_self _ 64 (by simp [flipBit, modAt, h]), e]
  obtain ⟨h1, h2⟩ := eccFold_flip 512 0 (leNat l) i hi
  rw [eccFold_acc 31 512 n, eccFold_acc 31 512 n (eccFold 512 0 (leNat l) (0, 0)).1 (eccFold 512 0 (leNat l) (0, 0)).2]
  dsimp only
  rw [h1, Nat.zero_add]
  refine ⟨?_, by omega⟩
  have c : ∀ x y z : Nat, (x ^^^ y) ^^^ z = (x ^^^ z) ^^^ y := fun x y z => by rw [Nat.xor_assoc, Nat.xor_comm y, ← Nat.xor_assoc]
  exact c _ _ _

theorem eccInfo_lt (l : List Nat) (n : Nat) : (eccInfo l n).1 < 1024 := by
  unfold eccInfo
  have h := eccFold_lt 512 0 (leNat (slice l 0 64)) 0 0 (by decide) (by decide)
  generalize eccFold 512 0 (leNat (slice l 0 64)) (0, 0) = q at h
  exact eccFold_lt 31 512 n q.1 q.2 (by decide) h

theorem bitCount_add (k : Nat) : ∀ (v p : Nat), v < 2 ^ k → p < 2 → bitCount (k + 1) (v + 2 ^ k * p) = bitCount k v + p := by
  induction k with
  | zero => intro v p hv hp; have : v = 0 := by omega
            subst this; simp [bitCount]; omega
  | succ k ih =>
    intro v p hv hp
    rw [Nat.pow_succ] at *
    rw [bitCount, show (v + 2 ^ k * 2 * p) / 2 = v / 2 + 2 ^ k * p by rw [Nat.mul_right_comm]; omega, ih _ _ (by omega) hp]
    rw [bitCount, show (v + 2 ^ k * 2 * p) % 2 = v % 2 by rw [Nat.mul_right_comm]; omega]
    omega

/-- A block's check word stays below the poison marker's bits. -/
theorem eccCode_lt (l : List Nat) (n : Nat) : eccCode l n < 2048 := by
  have := eccInfo_lt l n
  unfold eccCode; dsimp only; omega

/-- The parity over the whole code word is even as written. -/
theorem eccCode_even (l : List Nat) (n : Nat) : ((eccInfo l n).2 + bitCount 11 (eccCode l n)) % 2 = 0 ∧ eccCode l n % 1024 = (eccInfo l n).1 := by
  have h := eccInfo_lt l n
  have e := bitCount_add 10 (eccInfo l n).1 (((eccInfo l n).2 + bitCount 10 (eccInfo l n).1) % 2) (by omega) (by omega)
  unfold eccCode; dsimp only
  rw [show (1024 : Nat) = 2 ^ 10 from rfl, e]
  omega

/-- A block as it was written reads good (R401). -/
theorem eccDecode_written (l : List Nat) (n : Nat) : eccDecode l (eccCode l n) n n = .good l := by
  obtain ⟨h1, h2⟩ := eccCode_even l n
  have h3 := eccCode_lt l n
  unfold eccDecode; dsimp only
  rw [h2, if_neg (by omega), if_pos ⟨Nat.xor_self _, by omega⟩]

/-- One flipped data bit is put right (R401). -/
theorem eccDecode_flipped (l : List Nat) (n i : Nat) (h : l.length = 64) (hi : i < 512) :
    eccDecode (flipBit l i) (eccCode l n) n n = .corrected l := by
  obtain ⟨h1, h2⟩ := eccCode_even l n
  have h3 := eccCode_lt l n
  obtain ⟨g1, g2⟩ := eccInfo_flip l n i h hi
  obtain ⟨f1, f2⟩ := eccPos_find i hi
  have s : Nat.xor (Nat.xor (eccInfo l n).1 (eccPos i)) (eccInfo l n).1 = eccPos i := by
    have c : ∀ x y : Nat, (x ^^^ y) ^^^ x = y := fun x y => by rw [Nat.xor_comm x, Nat.xor_assoc, Nat.xor_self, Nat.xor_zero]
    exact c _ _
  have two : flipBit (flipBit l i) i = l := by
    simp only [flipBit, modAt, List.modify_modify_eq]
    have : ((fun b => Nat.xor b (2 ^ (i % 8))) ∘ fun b => Nat.xor b (2 ^ (i % 8))) = id := by
      funext b; show (b ^^^ _) ^^^ _ = b; rw [Nat.xor_assoc, Nat.xor_self, Nat.xor_zero]
    rw [this]; exact List.modify_id _ _
  have ne : eccPos i ≠ 0 := by unfold eccPos; repeat' split <;> try omega
  unfold eccDecode; dsimp only
  rw [h2, g1, s, if_neg (by omega), if_neg (by rintro ⟨a, _⟩; exact ne a), if_neg (by omega), f2, if_neg (by decide), f1]
  dsimp only
  rw [two]

end Sys2Proof.Machine
end

