-- ==== Sys2Proof/Laws/Sparse.lean ====
section
/-!
SUPPORT. Laws of the sparse store: what a read answers after a write, and that a write keeps the canonical form.
-/

namespace Sys2Proof.Machine

variable {α : Type} [DecidableEq α] (d : Nat → α)

omit [DecidableEq α] in
theorem sparseGet_of_startsAbove (l : List (Nat × α)) (k : Nat) (h : startsAbove k l = true) : sparseGet d l k = d k := by
  cases l with
  | nil => rfl
  | cons q r =>
    obtain ⟨k', v'⟩ := q
    simp only [startsAbove, decide_eq_true_eq] at h
    simp [sparseGet, h, Nat.ne_of_gt h]

/-- A read of the key written gives the value written. -/
theorem sparseGet_set_same (l : List (Nat × α)) (k : Nat) (v : α) : sparseGet d (sparseSet d l k v) k = v := by
  induction l with
  | nil => by_cases h : v = d k <;> simp [sparseSet, sparseGet, h]
  | cons q r ih =>
    obtain ⟨k', v'⟩ := q
    simp only [sparseSet]
    split
    · rename_i h
      split
      · rename_i hv
        simp [sparseGet, h, Nat.ne_of_gt h, hv]
      · simp [sparseGet]
    · split
      · rename_i h1 h2
        subst h2
        split
        · rename_i hv
          rw [sparseGet_of_startsAbove d r k hv.2]; exact hv.1.symm
        · simp [sparseGet]
      · rename_i h1 h2
        have h3 : ¬ k' = k := fun e => h2 e.symm
        simp [sparseGet, h1, h3, ih]

/-- A read of any other key gives what it gave. -/
theorem sparseGet_set_other (l : List (Nat × α)) (k k2 : Nat) (v : α) (hne : k2 ≠ k) :
    sparseGet d (sparseSet d l k v) k2 = sparseGet d l k2 := by
  induction l with
  | nil =>
    simp only [sparseSet]
    split
    · rfl
    · simp [sparseGet, Ne.symm hne]
  | cons q r ih =>
    obtain ⟨k', v'⟩ := q
    simp only [sparseSet]
    split
    · rename_i h
      split
      · rfl
      · by_cases h2 : k2 < k
        · simp [sparseGet, Ne.symm hne, h2, Nat.lt_trans h2 h, Nat.ne_of_gt (Nat.lt_trans h2 h)]
        · simp [sparseGet, Ne.symm hne, h2]
    · split
      · rename_i h1 h2
        subst h2
        split
        · rename_i hv
          simp only [sparseGet, Ne.symm hne, if_false]
          split
          · rename_i h3
            apply sparseGet_of_startsAbove
            revert hv
            cases r with
            | nil => simp [startsAbove]
            | cons q2 r2 => simp only [startsAbove, decide_eq_true_eq]; omega
          · rfl
        · simp [sparseGet, Ne.symm hne]
      · simp only [sparseGet, ih]

/-- Reading a store key by key after a write. -/
theorem sparseGet_set (l : List (Nat × α)) (k k2 : Nat) (v : α) :
    sparseGet d (sparseSet d l k v) k2 = if k2 = k then v else sparseGet d l k2 := by
  split
  · rename_i h; subst h; exact sparseGet_set_same d l k2 v
  · rename_i h; exact sparseGet_set_other d l k k2 v h

/-- The canonical form, cell by cell. -/
theorem sparseWf_cons (k : Nat) (v : α) (r : List (Nat × α)) :
    sparseWf d ((k, v) :: r) = (decide (v ≠ d k) && startsAbove k r && sparseWf d r) := by
  cases r with
  | nil => simp [sparseWf, startsAbove]
  | cons q r2 => obtain ⟨k', v'⟩ := q; simp [sparseWf, startsAbove]

omit [DecidableEq α] in
theorem startsAbove_trans (k k' : Nat) (l : List (Nat × α)) (hk : k < k') (h : startsAbove k' l = true) :
    startsAbove k l = true := by
  cases l with
  | nil => rfl
  | cons q r => simp only [startsAbove, decide_eq_true_eq] at *; omega

theorem startsAbove_set (l : List (Nat × α)) (k0 k : Nat) (v : α) (hk : k0 < k) (h : startsAbove k0 l = true)
    (hw : sparseWf d l = true) : startsAbove k0 (sparseSet d l k v) = true := by
  cases l with
  | nil => simp only [sparseSet]; split <;> simp [startsAbove, hk]
  | cons q r =>
    obtain ⟨k', v'⟩ := q
    have hk0 : k0 < k' := by simpa [startsAbove] using h
    simp only [sparseSet]
    split
    · split <;> simp [startsAbove, hk, hk0]
    · split
      · split
        · rename_i hv; exact startsAbove_trans k0 k r hk hv.2
        · simp [startsAbove, hk]
      · simp [startsAbove, hk0]

/-- A write keeps the canonical form. -/
theorem sparseWf_set (l : List (Nat × α)) (k : Nat) (v : α) (h : sparseWf d l = true) : sparseWf d (sparseSet d l k v) = true := by
  induction l with
  | nil => simp only [sparseSet]; split <;> simp_all [sparseWf]
  | cons q r ih =>
    obtain ⟨k', v'⟩ := q
    have h' := h
    rw [sparseWf_cons] at h
    simp only [Bool.and_eq_true, decide_eq_true_eq] at h
    obtain ⟨⟨hv', ha⟩, hr⟩ := h
    simp only [sparseSet]
    split
    · rename_i hk
      split
      · exact h'
      · rename_i hv
        rw [sparseWf_cons]
        simp [hv, startsAbove, hk, h']
    · rename_i hk
      split
      · rename_i hkk
        subst hkk
        split
        · exact hr
        · rename_i hv
          rw [sparseWf_cons]
          have : v ≠ d k := fun e => hv ⟨e, ha⟩
          simp [this, ha, hr]
      · rename_i hkk
        rw [sparseWf_cons]
        have hlt : k' < k := by omega
        simp [hv', ih hr, startsAbove_set d r k' k v hlt ha hr]

/-- Cells kept by a test on their keys stay in canonical form. -/
theorem startsAbove_filter (k : Nat) (p : Nat × α → Bool) (l : List (Nat × α)) (h : startsAbove k l = true)
    (hw : sparseWf d l = true) : startsAbove k (l.filter p) = true := by
  induction l with
  | nil => rfl
  | cons q r ih =>
    obtain ⟨k', v'⟩ := q
    rw [sparseWf_cons] at hw
    simp only [Bool.and_eq_true] at hw
    have hk : k < k' := by simpa [startsAbove] using h
    simp only [List.filter_cons]
    split
    · simpa [startsAbove] using hk
    · exact ih (startsAbove_trans k k' r hk hw.1.2) hw.2

/-- Leaving cells out keeps the canonical form. -/
theorem sparseWf_filter (p : Nat × α → Bool) (l : List (Nat × α)) (h : sparseWf d l = true) : sparseWf d (l.filter p) = true := by
  induction l with
  | nil => rfl
  | cons q r ih =>
    obtain ⟨k, v⟩ := q
    rw [sparseWf_cons] at h
    simp only [Bool.and_eq_true] at h
    simp only [List.filter_cons]
    split
    · rw [sparseWf_cons]
      simp [h.1.1, ih h.2, startsAbove_filter d k p r h.1.2 h.2]
    · exact ih h.2

end Sys2Proof.Machine
end

