-- ==== Sys2Proof/Laws/Fields.lean ====
section
/-!
SUPPORT. Laws of bit fields and of register fields: what a field reads after a field was written.
-/

namespace Sys2Proof.Machine

/-! ### Bits -/

theorem bitsOf_lt (w hi lo : Nat) : bitsOf w hi lo < 2 ^ (hi - lo + 1) := Nat.mod_lt _ (Nat.two_pow_pos _)

theorem two_pow_succ_split (hi lo : Nat) (h : lo ≤ hi) : 2 ^ (hi + 1) = 2 ^ lo * 2 ^ (hi - lo + 1) := by
  rw [← Nat.pow_add]; congr 1; omega

/-- The field written reads what was written. -/
theorem bitsOf_withBits_same (w hi lo v : Nat) (h : lo ≤ hi) : bitsOf (withBits w hi lo v) hi lo = v % 2 ^ (hi - lo + 1) := by
  unfold bitsOf withBits
  rw [two_pow_succ_split hi lo h]
  have hp : 0 < 2 ^ lo := Nat.two_pow_pos lo
  have e : w % 2 ^ lo + v % 2 ^ (hi - lo + 1) * 2 ^ lo + w / (2 ^ lo * 2 ^ (hi - lo + 1)) * (2 ^ lo * 2 ^ (hi - lo + 1)) =
      w % 2 ^ lo + 2 ^ lo * (v % 2 ^ (hi - lo + 1) + 2 ^ (hi - lo + 1) * (w / (2 ^ lo * 2 ^ (hi - lo + 1)))) := by ring
  rw [e, Nat.add_mul_div_left _ _ hp, Nat.div_eq_of_lt (Nat.mod_lt _ hp), Nat.zero_add, Nat.add_mul_mod_self_left,
    Nat.mod_mod]

/-- A field below the field written keeps its value. -/
theorem bitsOf_withBits_below (w hi lo v h2 l2 : Nat) (h : h2 < lo) (hl : l2 ≤ h2) (hh : lo ≤ hi) :
    bitsOf (withBits w hi lo v) h2 l2 = bitsOf w h2 l2 := by
  have key (x : Nat) : bitsOf x h2 l2 = bitsOf (x % 2 ^ lo) h2 l2 := by
    unfold bitsOf
    have e : 2 ^ lo = 2 ^ l2 * 2 ^ (lo - l2) := by rw [← Nat.pow_add]; congr 1; omega
    rw [e, Nat.mod_mul_right_div_self, Nat.mod_mod_of_dvd]
    exact Nat.pow_dvd_pow 2 (by omega)
  rw [key, key w]
  congr 1
  unfold withBits
  rw [two_pow_succ_split hi lo hh]
  have e : w % 2 ^ lo + v % 2 ^ (hi - lo + 1) * 2 ^ lo + w / (2 ^ lo * 2 ^ (hi - lo + 1)) * (2 ^ lo * 2 ^ (hi - lo + 1)) =
      w % 2 ^ lo + 2 ^ lo * (v % 2 ^ (hi - lo + 1) + 2 ^ (hi - lo + 1) * (w / (2 ^ lo * 2 ^ (hi - lo + 1)))) := by ring
  rw [e, Nat.add_mul_mod_self_left, Nat.mod_mod]

/-- A field above the field written keeps its value. -/
theorem bitsOf_withBits_above (w hi lo v h2 l2 : Nat) (h : hi < l2) (hl : lo ≤ hi) :
    bitsOf (withBits w hi lo v) h2 l2 = bitsOf w h2 l2 := by
  unfold bitsOf
  congr 1
  have key (x : Nat) : x / 2 ^ l2 = x / 2 ^ (hi + 1) / 2 ^ (l2 - (hi + 1)) := by
    rw [Nat.div_div_eq_div_mul, ← Nat.pow_add]; congr 2; omega
  rw [key, key w]
  congr 1
  unfold withBits
  have hp : 0 < 2 ^ (hi + 1) := Nat.two_pow_pos _
  have hlt : w % 2 ^ lo + v % 2 ^ (hi - lo + 1) * 2 ^ lo < 2 ^ (hi + 1) := by
    rw [two_pow_succ_split hi lo hl]
    have h1 : w % 2 ^ lo < 2 ^ lo := Nat.mod_lt _ (Nat.two_pow_pos _)
    have h2 : v % 2 ^ (hi - lo + 1) + 1 ≤ 2 ^ (hi - lo + 1) := Nat.mod_lt _ (Nat.two_pow_pos _)
    calc w % 2 ^ lo + v % 2 ^ (hi - lo + 1) * 2 ^ lo < 2 ^ lo + v % 2 ^ (hi - lo + 1) * 2 ^ lo := by omega
      _ = (v % 2 ^ (hi - lo + 1) + 1) * 2 ^ lo := by ring
      _ ≤ 2 ^ (hi - lo + 1) * 2 ^ lo := Nat.mul_le_mul_right _ h2
      _ = 2 ^ lo * 2 ^ (hi - lo + 1) := by ring
  rw [Nat.add_mul_div_right _ _ hp, Nat.div_eq_of_lt hlt, Nat.zero_add]

/-- A field is read from the bits up to its own. -/
theorem bitsOf_mod (x hi lo n : Nat) (h : hi < n) (hl : lo ≤ hi) : bitsOf (x % 2 ^ n) hi lo = bitsOf x hi lo := by
  unfold bitsOf
  have e : 2 ^ n = 2 ^ lo * 2 ^ (n - lo) := by rw [← Nat.pow_add]; congr 1; omega
  rw [e, Nat.mod_mul_right_div_self, Nat.mod_mod_of_dvd]
  exact Nat.pow_dvd_pow 2 (by omega)

/-! ### Register files -/

theorem RegFile.rd_lt (rf : RegFile) (o : Nat) : rf.rd o < 2 ^ 32 := (sparseGet resetWord rf o).isLt

theorem RegFile.rd_wr (rf : RegFile) (o o2 v : Nat) : (rf.wr o v).rd o2 = if o2 = o then v % 2 ^ 32 else rf.rd o2 := by
  unfold RegFile.rd RegFile.wr
  rw [sparseGet_set]
  split <;> simp

/-- The fields of one 32-bit register. -/
theorem RegFile.get_put_same (rf : RegFile) (f : Fld) (v : Nat) (h : f.hi < 32) (hl : f.lo ≤ f.hi) :
    (rf.put f v).get f = v % 2 ^ (f.hi - f.lo + 1) := by
  have h31 : ¬ 31 < f.hi := by omega
  simp only [RegFile.get, RegFile.put, h31, if_false, RegFile.rd_wr, if_true]
  rw [bitsOf_mod _ _ _ 32 h hl, bitsOf_withBits_same _ _ _ _ hl]

/-- Two fields that share no bit. -/
def Fld.apart (f g : Fld) : Bool :=
  decide (f.lo ≤ f.hi) && decide (g.lo ≤ g.hi) && decide (f.hi < 32) && decide (g.hi < 32) &&
  (decide (f.off ≠ g.off) || decide (f.hi < g.lo) || decide (g.hi < f.lo))

/-- A field that shares no bit with the field written keeps its value. -/
theorem RegFile.get_put_apart (rf : RegFile) (f g : Fld) (v : Nat) (h : f.apart g = true) : (rf.put f v).get g = rf.get g := by
  simp only [Fld.apart, Bool.and_eq_true, Bool.or_eq_true, decide_eq_true_eq] at h
  obtain ⟨⟨⟨⟨hf, hg⟩, hf32⟩, hg32⟩, hd⟩ := h
  have h1 : ¬ 31 < f.hi := by omega
  have h2 : ¬ 31 < g.hi := by omega
  simp only [RegFile.get, RegFile.put, h1, h2, if_false, RegFile.rd_wr]
  by_cases he : g.off = f.off
  · rw [if_pos he, bitsOf_mod _ _ _ 32 hg32 hg, he]
    rcases hd with (hd | hd) | hd
    · exact absurd he.symm hd
    · exact bitsOf_withBits_above _ _ _ _ _ _ hd hf
    · exact bitsOf_withBits_below _ _ _ _ _ _ hd hg hf
  · rw [if_neg he]

/-- A word of another register keeps its value. -/
theorem RegFile.rd_put_other (rf : RegFile) (f : Fld) (v o : Nat) (h : o ≠ f.off) (h4 : o ≠ f.off + 4) :
    (rf.put f v).rd o = rf.rd o := by
  unfold RegFile.put
  split <;> simp [RegFile.rd_wr, h, h4]

/-! ### Fields of the state -/

theorem State.get_put_same (s : State) (f : Fld) (v : Nat) (h : f.hi < 32) (hl : f.lo ≤ f.hi) :
    (s.put f v).get f = v % 2 ^ (f.hi - f.lo + 1) := RegFile.get_put_same s.regs f v h hl

theorem State.get_put_apart (s : State) (f g : Fld) (v : Nat) (h : f.apart g = true) : (s.put f v).get g = s.get g :=
  RegFile.get_put_apart s.regs f g v h

theorem State.rd_wr (s : State) (o o2 v : Nat) : (s.wr o v).rd o2 = if o2 = o then v % 2 ^ 32 else s.rd o2 :=
  RegFile.rd_wr s.regs o o2 v

theorem State.flag_put_apart (s : State) (f g : Fld) (v : Nat) (h : f.apart g = true) : (s.put f v).flag g = s.flag g := by
  simp only [State.flag, State.get_put_apart s f g v h]

/-! ### Canonical forms -/

theorem RegFile.wf_wr (rf : RegFile) (o v : Nat) (h : sparseWf resetWord rf = true) : sparseWf resetWord (rf.wr o v) = true :=
  sparseWf_set resetWord rf o _ h

theorem RegFile.wf_put (rf : RegFile) (f : Fld) (v : Nat) (h : sparseWf resetWord rf = true) :
    sparseWf resetWord (rf.put f v) = true := by
  unfold RegFile.put
  split
  · exact RegFile.wf_wr _ _ _ (RegFile.wf_wr _ _ _ h)
  · exact RegFile.wf_wr _ _ _ h

/-- A write of bytes keeps the canonical form of memory. -/
theorem memWrite_wf (m : List Host.Cell) (a : Nat) (bs : List Nat) (h : sparseWf memDefault m = true) :
    sparseWf memDefault (memWrite m a bs) = true := by
  induction bs generalizing m a with
  | nil => exact h
  | cons b r ih =>
    unfold memWrite
    apply ih
    split
    · exact sparseWf_set memDefault m a _ h
    · exact h

/-- What a byte reads after a write of bytes: the byte written inside usable memory, else what it read before (R400). -/
theorem sparseGet_memWrite (m : List Host.Cell) (a : Nat) (bs : List Nat) (x : Nat) :
    sparseGet memDefault (memWrite m a bs) x =
      if a ≤ x ∧ x < a + bs.length ∧ x < memTop then BitVec.ofNat 8 (bs.getD (x - a) 0) else sparseGet memDefault m x := by
  induction bs generalizing m a with
  | nil => simp [memWrite]; omega
  | cons b r ih =>
    unfold memWrite
    rw [ih]
    by_cases hx : x = a
    · subst hx
      by_cases ht : x < memTop
      · have h1 : ¬ (x + 1 ≤ x ∧ x < x + 1 + r.length ∧ x < memTop) := by omega
        rw [if_neg h1, if_pos ht, sparseGet_set_same, if_pos (by simp [ht])]
        simp
      · rw [if_neg (by omega), if_neg ht, if_neg (by omega)]
    · have hother : sparseGet memDefault (if a < memTop then sparseSet memDefault m a (BitVec.ofNat 8 b) else m) x =
          sparseGet memDefault m x := by
        split
        · exact sparseGet_set_other memDefault m a x _ hx
        · rfl
      rw [hother]
      by_cases hin : a + 1 ≤ x ∧ x < a + 1 + r.length ∧ x < memTop
      · rw [if_pos hin, if_pos (by simp only [List.length_cons]; omega)]
        have e : x - a = (x - (a + 1)) + 1 := by omega
        rw [e, List.getD_cons_succ]
      · rw [if_neg hin, if_neg (by simp only [List.length_cons]; omega)]

end Sys2Proof.Machine
end

