-- ==== Sys2Proof/Laws/Nvs.lean ====
section
/-!
SUPPORT. Records of the non-volatile store as bytes (R514, R515): a record that was written whole passes its checks and reads back, and one
that was cut before its commit word does not pass them.
-/

namespace Sys2Proof.Machine

@[simp] theorem leBytes_length (n : Nat) : ∀ v, (leBytes n v).length = n := by
  induction n with
  | zero => intro v; rfl
  | succ n ih => intro v; simp [leBytes, ih]

theorem leNat_leBytes (n : Nat) : ∀ v, leNat (leBytes n v) = v % 256 ^ n := by
  induction n with
  | zero => intro v; simp [leBytes, leNat, Nat.mod_one]
  | succ n ih =>
    intro v
    simp only [leBytes, leNat, ih, Nat.mod_mod]
    rw [Nat.pow_succ, Nat.mul_comm (256 ^ n) 256, Nat.mod_mul]

/-- A slice that lies behind `a` and is `b`. -/
theorem slice_mid (a b c : List Nat) (i n : Nat) (hi : a.length = i) (hn : b.length = n) : slice (a ++ (b ++ c)) i n = b := by
  subst hi hn
  simp [slice]

theorem fieldLE_mid (a b c : List Nat) (i n : Nat) (hi : a.length = i) (hn : b.length = n) : fieldLE (a ++ (b ++ c)) i n = leNat b := by
  subst hi hn
  simp [fieldLE]

theorem crcBit_lt (w poly r : Nat) (b : Bool) : crcBit w poly r b < 2 ^ w := by
  have h := Nat.two_pow_pos w
  simp only [crcBit]
  split
  · exact Nat.xor_lt_two_pow (Nat.mod_lt _ h) (Nat.mod_lt _ h)
  · exact Nat.mod_lt _ h

theorem crcBits_lt (w poly : Nat) (l : List Bool) : ∀ r, r < 2 ^ w → l.foldl (crcBit w poly) r < 2 ^ w := by
  induction l with
  | nil => intro r h; exact h
  | cons b l ih => intro r _; exact ih _ (crcBit_lt w poly r b)

theorem crcFeed_lt (w poly : Nat) (refin : Bool) (bs : List Nat) : ∀ r, r < 2 ^ w → crcFeed w poly refin r bs < 2 ^ w := by
  induction bs with
  | nil => intro r h; exact h
  | cons x bs ih => intro r h; exact ih _ (crcBits_lt w poly _ r h)

theorem crc16_lt (bs : List Nat) : crc16 bs < 256 ^ 2 := by
  simp only [crc16, crcOf, crcEnd]
  exact Nat.xor_lt_two_pow (n := 16) (crcFeed_lt 16 _ _ _ _ (by decide)) (by decide)

/-- The first twelve bytes of a record's header. -/
abbrev recordHead (typ key seq flags len : Nat) : List Nat := leBytes 2 typ ++ leBytes 2 key ++ leBytes 4 seq ++ leBytes 2 len ++ leBytes 2 flags

/-- The zero padding of a record. -/
abbrev recordPad (len : Nat) : List Nat := List.replicate (16 * ((len + 15) / 16) - len) 0

/-- The commit word of a record. -/
abbrev recordCommit : List Nat := [0x43, 0x4F, 0x4D, 0x54] ++ List.replicate 12 0

/-- A record's bytes in their parts: header, payload, padding, CRC word, commit word. -/
theorem recordBytes_parts (typ key seq flags : Nat) (p : List Nat) : recordBytes typ key seq flags p =
    recordHead typ key seq flags p.length ++ (leBytes 2 (crc16 (recordHead typ key seq flags p.length)) ++ ([0, 0] ++ (p ++ (recordPad p.length ++
      ((leBytes 4 (crc32c (recordHead typ key seq flags p.length ++ leBytes 2 (crc16 (recordHead typ key seq flags p.length)) ++ [0, 0] ++ p)) ++
        List.replicate 12 0) ++ recordCommit))))) := by
  simp [recordBytes, List.append_assoc]

theorem recordBytes_length (typ key seq flags : Nat) (p : List Nat) : (recordBytes typ key seq flags p).length = recBytes p.length := by
  rw [recordBytes_parts]
  simp [recBytes]
  omega

theorem NvsRec.typ_written (k typ key seq flags : Nat) (p : List Nat) (h : typ < 65536) :
    (⟨k, recordBytes typ key seq flags p⟩ : NvsRec).typ = typ := by
  have e := recordBytes_parts typ key seq flags p
  simp only [NvsRec.typ]
  rw [e]
  simp only [recordHead, List.append_assoc]
  rw [← List.nil_append (leBytes 2 typ ++ _), fieldLE_mid _ _ _ 0 2 rfl (leBytes_length 2 typ), leNat_leBytes]
  exact Nat.mod_eq_of_lt h

theorem NvsRec.key_written (k typ key seq flags : Nat) (p : List Nat) (h : key < 65536) :
    (⟨k, recordBytes typ key seq flags p⟩ : NvsRec).key = key := by
  have e := recordBytes_parts typ key seq flags p
  simp only [NvsRec.key]
  rw [e]
  simp only [recordHead, List.append_assoc]
  rw [fieldLE_mid _ _ _ 2 2 (leBytes_length 2 typ) (leBytes_length 2 key), leNat_leBytes]
  exact Nat.mod_eq_of_lt h

theorem NvsRec.seq_written (k typ key seq flags : Nat) (p : List Nat) (h : seq < 2 ^ 32) :
    (⟨k, recordBytes typ key seq flags p⟩ : NvsRec).seq = seq := by
  have e := recordBytes_parts typ key seq flags p
  simp only [NvsRec.seq]
  rw [e]
  simp only [recordHead, List.append_assoc]
  rw [← List.append_assoc (leBytes 2 typ), fieldLE_mid _ _ _ 4 4 (by simp) (leBytes_length 4 seq), leNat_leBytes]
  exact Nat.mod_eq_of_lt h

theorem NvsRec.len_written (k typ key seq flags : Nat) (p : List Nat) (h : p.length < 65536) :
    (⟨k, recordBytes typ key seq flags p⟩ : NvsRec).len = p.length := by
  have e := recordBytes_parts typ key seq flags p
  simp only [NvsRec.len]
  rw [e]
  simp only [recordHead, List.append_assoc]
  rw [← List.append_assoc (leBytes 2 typ), ← List.append_assoc (_ ++ _) (leBytes 4 seq),
    fieldLE_mid _ _ _ 8 2 (by simp) (leBytes_length 2 _), leNat_leBytes]
  exact Nat.mod_eq_of_lt h

theorem NvsRec.flags_written (k typ key seq flags : Nat) (p : List Nat) (h : flags < 65536) :
    (⟨k, recordBytes typ key seq flags p⟩ : NvsRec).flags = flags := by
  have e := recordBytes_parts typ key seq flags p
  simp only [NvsRec.flags]
  rw [e]
  simp only [recordHead]
  rw [List.append_assoc (_ ++ _), fieldLE_mid _ _ _ 10 2 (by simp) (leBytes_length 2 _), leNat_leBytes]
  exact Nat.mod_eq_of_lt h

theorem NvsRec.payload_written (k typ key seq flags : Nat) (p : List Nat) (h : p.length < 65536) :
    (⟨k, recordBytes typ key seq flags p⟩ : NvsRec).payload = p := by
  have e := recordBytes_parts typ key seq flags p
  simp only [NvsRec.payload, NvsRec.len_written k typ key seq flags p h]
  rw [e, ← List.append_assoc _ (leBytes 2 _), ← List.append_assoc _ [0, 0]]
  exact slice_mid _ _ _ 16 _ (by simp) rfl

theorem NvsRec.headOk_written (k typ key seq flags : Nat) (p : List Nat) : (⟨k, recordBytes typ key seq flags p⟩ : NvsRec).headOk = true := by
  have e := recordBytes_parts typ key seq flags p
  simp only [NvsRec.headOk]
  rw [e, fieldLE_mid _ _ _ 12 2 (by simp) (leBytes_length 2 _), leNat_leBytes, List.take_left' (by simp), Nat.mod_eq_of_lt (crc16_lt _)]
  simp

/-- A record that was written whole passes its checks (R515). -/
theorem NvsRec.valid_written (k typ key seq flags : Nat) (p : List Nat) (h : p.length < 65536) :
    (⟨k, recordBytes typ key seq flags p⟩ : NvsRec).valid = true := by
  have e := recordBytes_parts typ key seq flags p
  have hh := NvsRec.headOk_written k typ key seq flags p
  simp only [NvsRec.valid, NvsRec.len_written k typ key seq flags p h, hh, Bool.true_and]
  have ht : (recordBytes typ key seq flags p).take (16 + p.length) = recordHead typ key seq flags p.length ++
      leBytes 2 (crc16 (recordHead typ key seq flags p.length)) ++ [0, 0] ++ p := by
    rw [e, ← List.append_assoc _ (leBytes 2 _), ← List.append_assoc _ [0, 0], ← List.append_assoc _ p]
    exact List.take_left' (by simp; omega)
  rw [ht, e, ← List.append_assoc _ (leBytes 2 _), ← List.append_assoc _ [0, 0], ← List.append_assoc _ p, ← List.append_assoc _ (recordPad p.length)]
  rw [slice_mid _ _ _ (16 + 16 * ((p.length + 15) / 16)) 16 (by simp; omega) (by simp)]
  rw [← List.append_assoc, ← List.append_nil recordCommit]
  rw [slice_mid _ recordCommit [] (16 + 16 * ((p.length + 15) / 16) + 16) 16 (by simp; omega) (by simp)]
  simp

theorem slice_head (l : List Nat) (i n : Nat) : (slice l i (n + 1))[0]? = some ((l[i]?).getD 0) := by
  simp only [slice]
  cases h : l.drop i with
  | nil =>
    have := List.drop_eq_nil_iff.mp h
    rw [List.getElem?_eq_none this]
    simp
  | cons a r =>
    have : l[i]? = some a := by
      have := congrArg (fun q : List Nat => q[0]?) h
      simpa using this
    rw [this]
    simp

theorem tornBytes_length (n : Nat) (b : List Nat) : (tornBytes n b).length = b.length := by
  simp [tornBytes]; omega

theorem tornBytes_erased (n i : Nat) (b : List Nat) (h : n ≤ i) (hi : i < b.length) : (tornBytes n b)[i]? = some 0xFF := by
  simp only [tornBytes]
  rw [List.getElem?_append_right (by simp; omega), List.getElem?_replicate]
  simp
  omega

theorem fieldLE_torn (n i : Nat) (b : List Nat) (h : n ≤ i + 1) (hi : i + 1 < b.length) : 65280 ≤ fieldLE (tornBytes n b) i 2 := by
  have e := tornBytes_erased n (i + 1) b h hi
  have hl := tornBytes_length n b
  simp only [fieldLE]
  generalize tornBytes n b = l at e hl
  obtain ⟨a, r, hd⟩ : ∃ a r, l.drop i = a :: 0xFF :: r := by
    refine ⟨l[i]'(by omega), l.drop (i + 2), ?_⟩
    rw [List.drop_eq_getElem_cons (by omega), List.drop_eq_getElem_cons (by omega)]
    have : l[i + 1]'(by omega) = 0xFF := by
      have := List.getElem?_eq_getElem (l := l) (i := i + 1) (by omega)
      rw [e] at this; exact (Option.some.inj this).symm
    rw [this]
  rw [hd]
  simp [leNat]

/-- A record that was cut before its commit word does not pass its checks (R515). -/
theorem NvsRec.valid_torn (k typ key seq flags : Nat) (p : List Nat) (h : p.length ≤ 8192) (n : Nat)
    (hn : n ≤ (recordBytes typ key seq flags p).length - 16) : (⟨k, tornBytes n (recordBytes typ key seq flags p)⟩ : NvsRec).valid = false := by
  have hL := recordBytes_length typ key seq flags p
  simp only [recBytes] at hL
  have hlen : (⟨k, tornBytes n (recordBytes typ key seq flags p)⟩ : NvsRec).len = p.length ∨
      65280 ≤ (⟨k, tornBytes n (recordBytes typ key seq flags p)⟩ : NvsRec).len := by
    by_cases h10 : n ≤ 9
    · right; exact fieldLE_torn n 8 _ h10 (by omega)
    · left
      rw [← NvsRec.len_written k typ key seq flags p (by omega)]
      simp only [NvsRec.len, fieldLE, tornBytes]
      rw [List.drop_append_of_le_length (by simp; omega), List.take_append_of_le_length (by simp; omega), List.drop_take, List.take_take,
        Nat.min_eq_left (by omega)]
  generalize hr : (⟨k, tornBytes n (recordBytes typ key seq flags p)⟩ : NvsRec) = r at hlen
  have hb : r.bytes = tornBytes n (recordBytes typ key seq flags p) := by subst hr; rfl
  have hc : (slice r.bytes (16 + 16 * ((r.len + 15) / 16) + 16) 16 == [0x43, 0x4F, 0x4D, 0x54] ++ List.replicate 12 0) = false := by
    rw [beq_eq_false_iff_ne]
    intro hc
    have h0 := congrArg (fun q : List Nat => q[0]?) hc
    simp only [slice_head] at h0
    rw [hb] at h0
    by_cases hi : 16 + 16 * ((r.len + 15) / 16) + 16 < (recordBytes typ key seq flags p).length
    · rw [tornBytes_erased _ _ _ (by omega) hi] at h0
      simp at h0
    · rw [List.getElem?_eq_none (by rw [tornBytes_length]; omega)] at h0
      simp at h0
  simp only [NvsRec.valid, hc, Bool.and_false]

end Sys2Proof.Machine
end

