-- ==== Sys2Proof/Laws/State.lean ====
section
/-!
SUPPORT. What each plain update of the state leaves unchanged: one lemma per field per update, so that no proof unfolds a
record update; and the same for raising a vector, logging once, and writing memory, which branch.
-/

namespace Sys2Proof.Machine

variable (s : State)

/-! ### tick -/

@[simp] theorem State.tick_now (t : Nat) : (s.tick t).now = max s.now t := rfl
@[simp] theorem State.tick_off (t : Nat) : (s.tick t).off = s.off := rfl
@[simp] theorem State.tick_pending (t : Nat) : (s.tick t).pending = s.pending := rfl
@[simp] theorem State.tick_regs (t : Nat) : (s.tick t).regs = s.regs := rfl
@[simp] theorem State.tick_lowPend (t : Nat) : (s.tick t).lowPend = s.lowPend := rfl
@[simp] theorem State.tick_hiLatch (t : Nat) : (s.tick t).hiLatch = s.hiLatch := rfl
@[simp] theorem State.tick_mem (t : Nat) : (s.tick t).mem = s.mem := rfl
@[simp] theorem State.tick_poison (t : Nat) : (s.tick t).poison = s.poison := rfl
@[simp] theorem State.tick_cnt (t : Nat) : (s.tick t).cnt = s.cnt := rfl
@[simp] theorem State.tick_fresh (t : Nat) : (s.tick t).fresh = s.fresh := rfl
@[simp] theorem State.tick_sys (t : Nat) : (s.tick t).sys = s.sys := rfl
@[simp] theorem State.tick_hst (t : Nat) : (s.tick t).hst = s.hst := rfl
@[simp] theorem State.tick_cmt (t : Nat) : (s.tick t).cmt = s.cmt := rfl
@[simp] theorem State.tick_sho (t : Nat) : (s.tick t).sho = s.sho := rfl
@[simp] theorem State.tick_tlt (t : Nat) : (s.tick t).tlt = s.tlt := rfl
@[simp] theorem State.tick_mc (t : Nat) : (s.tick t).mc = s.mc := rfl
@[simp] theorem State.tick_nvs (t : Nat) : (s.tick t).nvs = s.nvs := rfl
@[simp] theorem State.tick_sec (t : Nat) : (s.tick t).sec = s.sec := rfl
@[simp] theorem State.tick_rrg (t : Nat) : (s.tick t).rrg = s.rrg := rfl
@[simp] theorem State.tick_brd (t : Nat) : (s.tick t).brd = s.brd := rfl
@[simp] theorem State.tick_slt (t : Nat) : (s.tick t).slt = s.slt := rfl
@[simp] theorem State.tick_kln (t : Nat) : (s.tick t).kln = s.kln := rfl
@[simp] theorem State.tick_rok (t : Nat) : (s.tick t).rok = s.rok := rfl
@[simp] theorem State.tick_sve (t : Nat) : (s.tick t).sve = s.sve := rfl
@[simp] theorem State.tick_trw (t : Nat) : (s.tick t).trw = s.trw := rfl
@[simp] theorem State.tick_out (t : Nat) : (s.tick t).out = s.out := rfl
@[simp] theorem State.tick_tlk (t : Nat) : (s.tick t).tlk = s.tlk := rfl
@[simp] theorem State.tick_pnl (t : Nat) : (s.tick t).pnl = s.pnl := rfl
@[simp] theorem State.tick_lbl (t : Nat) : (s.tick t).lbl = s.lbl := rfl
@[simp] theorem State.tick_tim (t : Nat) : (s.tick t).tim = s.tim := rfl
@[simp] theorem State.tick_aud (t : Nat) : (s.tick t).aud = s.aud := rfl
@[simp] theorem State.tick_chk (t : Nat) : (s.tick t).chk = s.chk := rfl
@[simp] theorem State.tick_thm (t : Nat) : (s.tick t).thm = s.thm := rfl
@[simp] theorem State.tick_pwr (t : Nat) : (s.tick t).pwr = s.pwr := rfl
@[simp] theorem State.tick_fw (t : Nat) : (s.tick t).fw = s.fw := rfl
@[simp] theorem State.tick_dmp (t : Nat) : (s.tick t).dmp = s.dmp := rfl
@[simp] theorem State.tick_dbg (t : Nat) : (s.tick t).dbg = s.dbg := rfl

/-! ### wr -/

@[simp] theorem State.wr_now (o v : Nat) : (s.wr o v).now = s.now := rfl
@[simp] theorem State.wr_off (o v : Nat) : (s.wr o v).off = s.off := rfl
@[simp] theorem State.wr_pending (o v : Nat) : (s.wr o v).pending = s.pending := rfl
@[simp] theorem State.wr_regs (o v : Nat) : (s.wr o v).regs = s.regs.wr o v := rfl
@[simp] theorem State.wr_lowPend (o v : Nat) : (s.wr o v).lowPend = s.lowPend := rfl
@[simp] theorem State.wr_hiLatch (o v : Nat) : (s.wr o v).hiLatch = s.hiLatch := rfl
@[simp] theorem State.wr_mem (o v : Nat) : (s.wr o v).mem = s.mem := rfl
@[simp] theorem State.wr_poison (o v : Nat) : (s.wr o v).poison = s.poison := rfl
@[simp] theorem State.wr_cnt (o v : Nat) : (s.wr o v).cnt = s.cnt := rfl
@[simp] theorem State.wr_fresh (o v : Nat) : (s.wr o v).fresh = s.fresh := rfl
@[simp] theorem State.wr_sys (o v : Nat) : (s.wr o v).sys = s.sys := rfl
@[simp] theorem State.wr_hst (o v : Nat) : (s.wr o v).hst = s.hst := rfl
@[simp] theorem State.wr_cmt (o v : Nat) : (s.wr o v).cmt = s.cmt := rfl
@[simp] theorem State.wr_sho (o v : Nat) : (s.wr o v).sho = s.sho := rfl
@[simp] theorem State.wr_tlt (o v : Nat) : (s.wr o v).tlt = s.tlt := rfl
@[simp] theorem State.wr_mc (o v : Nat) : (s.wr o v).mc = s.mc := rfl
@[simp] theorem State.wr_nvs (o v : Nat) : (s.wr o v).nvs = s.nvs := rfl
@[simp] theorem State.wr_sec (o v : Nat) : (s.wr o v).sec = s.sec := rfl
@[simp] theorem State.wr_rrg (o v : Nat) : (s.wr o v).rrg = s.rrg := rfl
@[simp] theorem State.wr_brd (o v : Nat) : (s.wr o v).brd = s.brd := rfl
@[simp] theorem State.wr_slt (o v : Nat) : (s.wr o v).slt = s.slt := rfl
@[simp] theorem State.wr_kln (o v : Nat) : (s.wr o v).kln = s.kln := rfl
@[simp] theorem State.wr_rok (o v : Nat) : (s.wr o v).rok = s.rok := rfl
@[simp] theorem State.wr_sve (o v : Nat) : (s.wr o v).sve = s.sve := rfl
@[simp] theorem State.wr_trw (o v : Nat) : (s.wr o v).trw = s.trw := rfl
@[simp] theorem State.wr_out (o v : Nat) : (s.wr o v).out = s.out := rfl
@[simp] theorem State.wr_tlk (o v : Nat) : (s.wr o v).tlk = s.tlk := rfl
@[simp] theorem State.wr_pnl (o v : Nat) : (s.wr o v).pnl = s.pnl := rfl
@[simp] theorem State.wr_lbl (o v : Nat) : (s.wr o v).lbl = s.lbl := rfl
@[simp] theorem State.wr_tim (o v : Nat) : (s.wr o v).tim = s.tim := rfl
@[simp] theorem State.wr_aud (o v : Nat) : (s.wr o v).aud = s.aud := rfl
@[simp] theorem State.wr_chk (o v : Nat) : (s.wr o v).chk = s.chk := rfl
@[simp] theorem State.wr_thm (o v : Nat) : (s.wr o v).thm = s.thm := rfl
@[simp] theorem State.wr_pwr (o v : Nat) : (s.wr o v).pwr = s.pwr := rfl
@[simp] theorem State.wr_fw (o v : Nat) : (s.wr o v).fw = s.fw := rfl
@[simp] theorem State.wr_dmp (o v : Nat) : (s.wr o v).dmp = s.dmp := rfl
@[simp] theorem State.wr_dbg (o v : Nat) : (s.wr o v).dbg = s.dbg := rfl

/-! ### put -/

@[simp] theorem State.put_now (f : Fld) (v : Nat) : (s.put f v).now = s.now := rfl
@[simp] theorem State.put_off (f : Fld) (v : Nat) : (s.put f v).off = s.off := rfl
@[simp] theorem State.put_pending (f : Fld) (v : Nat) : (s.put f v).pending = s.pending := rfl
@[simp] theorem State.put_regs (f : Fld) (v : Nat) : (s.put f v).regs = s.regs.put f v := rfl
@[simp] theorem State.put_lowPend (f : Fld) (v : Nat) : (s.put f v).lowPend = s.lowPend := rfl
@[simp] theorem State.put_hiLatch (f : Fld) (v : Nat) : (s.put f v).hiLatch = s.hiLatch := rfl
@[simp] theorem State.put_mem (f : Fld) (v : Nat) : (s.put f v).mem = s.mem := rfl
@[simp] theorem State.put_poison (f : Fld) (v : Nat) : (s.put f v).poison = s.poison := rfl
@[simp] theorem State.put_cnt (f : Fld) (v : Nat) : (s.put f v).cnt = s.cnt := rfl
@[simp] theorem State.put_fresh (f : Fld) (v : Nat) : (s.put f v).fresh = s.fresh := rfl
@[simp] theorem State.put_sys (f : Fld) (v : Nat) : (s.put f v).sys = s.sys := rfl
@[simp] theorem State.put_hst (f : Fld) (v : Nat) : (s.put f v).hst = s.hst := rfl
@[simp] theorem State.put_cmt (f : Fld) (v : Nat) : (s.put f v).cmt = s.cmt := rfl
@[simp] theorem State.put_sho (f : Fld) (v : Nat) : (s.put f v).sho = s.sho := rfl
@[simp] theorem State.put_tlt (f : Fld) (v : Nat) : (s.put f v).tlt = s.tlt := rfl
@[simp] theorem State.put_mc (f : Fld) (v : Nat) : (s.put f v).mc = s.mc := rfl
@[simp] theorem State.put_nvs (f : Fld) (v : Nat) : (s.put f v).nvs = s.nvs := rfl
@[simp] theorem State.put_sec (f : Fld) (v : Nat) : (s.put f v).sec = s.sec := rfl
@[simp] theorem State.put_rrg (f : Fld) (v : Nat) : (s.put f v).rrg = s.rrg := rfl
@[simp] theorem State.put_brd (f : Fld) (v : Nat) : (s.put f v).brd = s.brd := rfl
@[simp] theorem State.put_slt (f : Fld) (v : Nat) : (s.put f v).slt = s.slt := rfl
@[simp] theorem State.put_kln (f : Fld) (v : Nat) : (s.put f v).kln = s.kln := rfl
@[simp] theorem State.put_rok (f : Fld) (v : Nat) : (s.put f v).rok = s.rok := rfl
@[simp] theorem State.put_sve (f : Fld) (v : Nat) : (s.put f v).sve = s.sve := rfl
@[simp] theorem State.put_trw (f : Fld) (v : Nat) : (s.put f v).trw = s.trw := rfl
@[simp] theorem State.put_out (f : Fld) (v : Nat) : (s.put f v).out = s.out := rfl
@[simp] theorem State.put_tlk (f : Fld) (v : Nat) : (s.put f v).tlk = s.tlk := rfl
@[simp] theorem State.put_pnl (f : Fld) (v : Nat) : (s.put f v).pnl = s.pnl := rfl
@[simp] theorem State.put_lbl (f : Fld) (v : Nat) : (s.put f v).lbl = s.lbl := rfl
@[simp] theorem State.put_tim (f : Fld) (v : Nat) : (s.put f v).tim = s.tim := rfl
@[simp] theorem State.put_aud (f : Fld) (v : Nat) : (s.put f v).aud = s.aud := rfl
@[simp] theorem State.put_chk (f : Fld) (v : Nat) : (s.put f v).chk = s.chk := rfl
@[simp] theorem State.put_thm (f : Fld) (v : Nat) : (s.put f v).thm = s.thm := rfl
@[simp] theorem State.put_pwr (f : Fld) (v : Nat) : (s.put f v).pwr = s.pwr := rfl
@[simp] theorem State.put_fw (f : Fld) (v : Nat) : (s.put f v).fw = s.fw := rfl
@[simp] theorem State.put_dmp (f : Fld) (v : Nat) : (s.put f v).dmp = s.dmp := rfl
@[simp] theorem State.put_dbg (f : Fld) (v : Nat) : (s.put f v).dbg = s.dbg := rfl

/-! ### putS -/

@[simp] theorem State.putS_now (f : Fld) (v : Int) : (s.putS f v).now = s.now := rfl
@[simp] theorem State.putS_off (f : Fld) (v : Int) : (s.putS f v).off = s.off := rfl
@[simp] theorem State.putS_pending (f : Fld) (v : Int) : (s.putS f v).pending = s.pending := rfl
@[simp] theorem State.putS_regs (f : Fld) (v : Int) : (s.putS f v).regs = s.regs.put f (unsigned (f.hi - f.lo + 1) (satSigned (f.hi - f.lo + 1) v)) := rfl
@[simp] theorem State.putS_lowPend (f : Fld) (v : Int) : (s.putS f v).lowPend = s.lowPend := rfl
@[simp] theorem State.putS_hiLatch (f : Fld) (v : Int) : (s.putS f v).hiLatch = s.hiLatch := rfl
@[simp] theorem State.putS_mem (f : Fld) (v : Int) : (s.putS f v).mem = s.mem := rfl
@[simp] theorem State.putS_poison (f : Fld) (v : Int) : (s.putS f v).poison = s.poison := rfl
@[simp] theorem State.putS_cnt (f : Fld) (v : Int) : (s.putS f v).cnt = s.cnt := rfl
@[simp] theorem State.putS_fresh (f : Fld) (v : Int) : (s.putS f v).fresh = s.fresh := rfl
@[simp] theorem State.putS_sys (f : Fld) (v : Int) : (s.putS f v).sys = s.sys := rfl
@[simp] theorem State.putS_hst (f : Fld) (v : Int) : (s.putS f v).hst = s.hst := rfl
@[simp] theorem State.putS_cmt (f : Fld) (v : Int) : (s.putS f v).cmt = s.cmt := rfl
@[simp] theorem State.putS_sho (f : Fld) (v : Int) : (s.putS f v).sho = s.sho := rfl
@[simp] theorem State.putS_tlt (f : Fld) (v : Int) : (s.putS f v).tlt = s.tlt := rfl
@[simp] theorem State.putS_mc (f : Fld) (v : Int) : (s.putS f v).mc = s.mc := rfl
@[simp] theorem State.putS_nvs (f : Fld) (v : Int) : (s.putS f v).nvs = s.nvs := rfl
@[simp] theorem State.putS_sec (f : Fld) (v : Int) : (s.putS f v).sec = s.sec := rfl
@[simp] theorem State.putS_rrg (f : Fld) (v : Int) : (s.putS f v).rrg = s.rrg := rfl
@[simp] theorem State.putS_brd (f : Fld) (v : Int) : (s.putS f v).brd = s.brd := rfl
@[simp] theorem State.putS_slt (f : Fld) (v : Int) : (s.putS f v).slt = s.slt := rfl
@[simp] theorem State.putS_kln (f : Fld) (v : Int) : (s.putS f v).kln = s.kln := rfl
@[simp] theorem State.putS_rok (f : Fld) (v : Int) : (s.putS f v).rok = s.rok := rfl
@[simp] theorem State.putS_sve (f : Fld) (v : Int) : (s.putS f v).sve = s.sve := rfl
@[simp] theorem State.putS_trw (f : Fld) (v : Int) : (s.putS f v).trw = s.trw := rfl
@[simp] theorem State.putS_out (f : Fld) (v : Int) : (s.putS f v).out = s.out := rfl
@[simp] theorem State.putS_tlk (f : Fld) (v : Int) : (s.putS f v).tlk = s.tlk := rfl
@[simp] theorem State.putS_pnl (f : Fld) (v : Int) : (s.putS f v).pnl = s.pnl := rfl
@[simp] theorem State.putS_lbl (f : Fld) (v : Int) : (s.putS f v).lbl = s.lbl := rfl
@[simp] theorem State.putS_tim (f : Fld) (v : Int) : (s.putS f v).tim = s.tim := rfl
@[simp] theorem State.putS_aud (f : Fld) (v : Int) : (s.putS f v).aud = s.aud := rfl
@[simp] theorem State.putS_chk (f : Fld) (v : Int) : (s.putS f v).chk = s.chk := rfl
@[simp] theorem State.putS_thm (f : Fld) (v : Int) : (s.putS f v).thm = s.thm := rfl
@[simp] theorem State.putS_pwr (f : Fld) (v : Int) : (s.putS f v).pwr = s.pwr := rfl
@[simp] theorem State.putS_fw (f : Fld) (v : Int) : (s.putS f v).fw = s.fw := rfl
@[simp] theorem State.putS_dmp (f : Fld) (v : Int) : (s.putS f v).dmp = s.dmp := rfl
@[simp] theorem State.putS_dbg (f : Fld) (v : Int) : (s.putS f v).dbg = s.dbg := rfl

/-! ### count -/

@[simp] theorem State.count_now (r n : Nat) : (s.count r n).now = s.now := rfl
@[simp] theorem State.count_off (r n : Nat) : (s.count r n).off = s.off := rfl
@[simp] theorem State.count_pending (r n : Nat) : (s.count r n).pending = s.pending := rfl
@[simp] theorem State.count_regs (r n : Nat) : (s.count r n).regs = s.regs := rfl
@[simp] theorem State.count_lowPend (r n : Nat) : (s.count r n).lowPend = s.lowPend := rfl
@[simp] theorem State.count_hiLatch (r n : Nat) : (s.count r n).hiLatch = s.hiLatch := rfl
@[simp] theorem State.count_mem (r n : Nat) : (s.count r n).mem = s.mem := rfl
@[simp] theorem State.count_poison (r n : Nat) : (s.count r n).poison = s.poison := rfl
@[simp] theorem State.count_cnt (r n : Nat) : (s.count r n).cnt = sparseSet (fun _ => 0) s.cnt r (s.counter r + n) := rfl
@[simp] theorem State.count_fresh (r n : Nat) : (s.count r n).fresh = s.fresh := rfl
@[simp] theorem State.count_sys (r n : Nat) : (s.count r n).sys = s.sys := rfl
@[simp] theorem State.count_hst (r n : Nat) : (s.count r n).hst = s.hst := rfl
@[simp] theorem State.count_cmt (r n : Nat) : (s.count r n).cmt = s.cmt := rfl
@[simp] theorem State.count_sho (r n : Nat) : (s.count r n).sho = s.sho := rfl
@[simp] theorem State.count_tlt (r n : Nat) : (s.count r n).tlt = s.tlt := rfl
@[simp] theorem State.count_mc (r n : Nat) : (s.count r n).mc = s.mc := rfl
@[simp] theorem State.count_nvs (r n : Nat) : (s.count r n).nvs = s.nvs := rfl
@[simp] theorem State.count_sec (r n : Nat) : (s.count r n).sec = s.sec := rfl
@[simp] theorem State.count_rrg (r n : Nat) : (s.count r n).rrg = s.rrg := rfl
@[simp] theorem State.count_brd (r n : Nat) : (s.count r n).brd = s.brd := rfl
@[simp] theorem State.count_slt (r n : Nat) : (s.count r n).slt = s.slt := rfl
@[simp] theorem State.count_kln (r n : Nat) : (s.count r n).kln = s.kln := rfl
@[simp] theorem State.count_rok (r n : Nat) : (s.count r n).rok = s.rok := rfl
@[simp] theorem State.count_sve (r n : Nat) : (s.count r n).sve = s.sve := rfl
@[simp] theorem State.count_trw (r n : Nat) : (s.count r n).trw = s.trw := rfl
@[simp] theorem State.count_out (r n : Nat) : (s.count r n).out = s.out := rfl
@[simp] theorem State.count_tlk (r n : Nat) : (s.count r n).tlk = s.tlk := rfl
@[simp] theorem State.count_pnl (r n : Nat) : (s.count r n).pnl = s.pnl := rfl
@[simp] theorem State.count_lbl (r n : Nat) : (s.count r n).lbl = s.lbl := rfl
@[simp] theorem State.count_tim (r n : Nat) : (s.count r n).tim = s.tim := rfl
@[simp] theorem State.count_aud (r n : Nat) : (s.count r n).aud = s.aud := rfl
@[simp] theorem State.count_chk (r n : Nat) : (s.count r n).chk = s.chk := rfl
@[simp] theorem State.count_thm (r n : Nat) : (s.count r n).thm = s.thm := rfl
@[simp] theorem State.count_pwr (r n : Nat) : (s.count r n).pwr = s.pwr := rfl
@[simp] theorem State.count_fw (r n : Nat) : (s.count r n).fw = s.fw := rfl
@[simp] theorem State.count_dmp (r n : Nat) : (s.count r n).dmp = s.dmp := rfl
@[simp] theorem State.count_dbg (r n : Nat) : (s.count r n).dbg = s.dbg := rfl

/-! ### countMax -/

@[simp] theorem State.countMax_now (r n : Nat) : (s.countMax r n).now = s.now := rfl
@[simp] theorem State.countMax_off (r n : Nat) : (s.countMax r n).off = s.off := rfl
@[simp] theorem State.countMax_pending (r n : Nat) : (s.countMax r n).pending = s.pending := rfl
@[simp] theorem State.countMax_regs (r n : Nat) : (s.countMax r n).regs = s.regs := rfl
@[simp] theorem State.countMax_lowPend (r n : Nat) : (s.countMax r n).lowPend = s.lowPend := rfl
@[simp] theorem State.countMax_hiLatch (r n : Nat) : (s.countMax r n).hiLatch = s.hiLatch := rfl
@[simp] theorem State.countMax_mem (r n : Nat) : (s.countMax r n).mem = s.mem := rfl
@[simp] theorem State.countMax_poison (r n : Nat) : (s.countMax r n).poison = s.poison := rfl
@[simp] theorem State.countMax_cnt (r n : Nat) : (s.countMax r n).cnt = sparseSet (fun _ => 0) s.cnt r (max n (s.counter r)) := rfl
@[simp] theorem State.countMax_fresh (r n : Nat) : (s.countMax r n).fresh = s.fresh := rfl
@[simp] theorem State.countMax_sys (r n : Nat) : (s.countMax r n).sys = s.sys := rfl
@[simp] theorem State.countMax_hst (r n : Nat) : (s.countMax r n).hst = s.hst := rfl
@[simp] theorem State.countMax_cmt (r n : Nat) : (s.countMax r n).cmt = s.cmt := rfl
@[simp] theorem State.countMax_sho (r n : Nat) : (s.countMax r n).sho = s.sho := rfl
@[simp] theorem State.countMax_tlt (r n : Nat) : (s.countMax r n).tlt = s.tlt := rfl
@[simp] theorem State.countMax_mc (r n : Nat) : (s.countMax r n).mc = s.mc := rfl
@[simp] theorem State.countMax_nvs (r n : Nat) : (s.countMax r n).nvs = s.nvs := rfl
@[simp] theorem State.countMax_sec (r n : Nat) : (s.countMax r n).sec = s.sec := rfl
@[simp] theorem State.countMax_rrg (r n : Nat) : (s.countMax r n).rrg = s.rrg := rfl
@[simp] theorem State.countMax_brd (r n : Nat) : (s.countMax r n).brd = s.brd := rfl
@[simp] theorem State.countMax_slt (r n : Nat) : (s.countMax r n).slt = s.slt := rfl
@[simp] theorem State.countMax_kln (r n : Nat) : (s.countMax r n).kln = s.kln := rfl
@[simp] theorem State.countMax_rok (r n : Nat) : (s.countMax r n).rok = s.rok := rfl
@[simp] theorem State.countMax_sve (r n : Nat) : (s.countMax r n).sve = s.sve := rfl
@[simp] theorem State.countMax_trw (r n : Nat) : (s.countMax r n).trw = s.trw := rfl
@[simp] theorem State.countMax_out (r n : Nat) : (s.countMax r n).out = s.out := rfl
@[simp] theorem State.countMax_tlk (r n : Nat) : (s.countMax r n).tlk = s.tlk := rfl
@[simp] theorem State.countMax_pnl (r n : Nat) : (s.countMax r n).pnl = s.pnl := rfl
@[simp] theorem State.countMax_lbl (r n : Nat) : (s.countMax r n).lbl = s.lbl := rfl
@[simp] theorem State.countMax_tim (r n : Nat) : (s.countMax r n).tim = s.tim := rfl
@[simp] theorem State.countMax_aud (r n : Nat) : (s.countMax r n).aud = s.aud := rfl
@[simp] theorem State.countMax_chk (r n : Nat) : (s.countMax r n).chk = s.chk := rfl
@[simp] theorem State.countMax_thm (r n : Nat) : (s.countMax r n).thm = s.thm := rfl
@[simp] theorem State.countMax_pwr (r n : Nat) : (s.countMax r n).pwr = s.pwr := rfl
@[simp] theorem State.countMax_fw (r n : Nat) : (s.countMax r n).fw = s.fw := rfl
@[simp] theorem State.countMax_dmp (r n : Nat) : (s.countMax r n).dmp = s.dmp := rfl
@[simp] theorem State.countMax_dbg (r n : Nat) : (s.countMax r n).dbg = s.dbg := rfl

/-! ### countSet -/

@[simp] theorem State.countSet_now (r n : Nat) : (s.countSet r n).now = s.now := rfl
@[simp] theorem State.countSet_off (r n : Nat) : (s.countSet r n).off = s.off := rfl
@[simp] theorem State.countSet_pending (r n : Nat) : (s.countSet r n).pending = s.pending := rfl
@[simp] theorem State.countSet_regs (r n : Nat) : (s.countSet r n).regs = s.regs := rfl
@[simp] theorem State.countSet_lowPend (r n : Nat) : (s.countSet r n).lowPend = s.lowPend := rfl
@[simp] theorem State.countSet_hiLatch (r n : Nat) : (s.countSet r n).hiLatch = s.hiLatch := rfl
@[simp] theorem State.countSet_mem (r n : Nat) : (s.countSet r n).mem = s.mem := rfl
@[simp] theorem State.countSet_poison (r n : Nat) : (s.countSet r n).poison = s.poison := rfl
@[simp] theorem State.countSet_cnt (r n : Nat) : (s.countSet r n).cnt = sparseSet (fun _ => 0) s.cnt r n := rfl
@[simp] theorem State.countSet_fresh (r n : Nat) : (s.countSet r n).fresh = s.fresh := rfl
@[simp] theorem State.countSet_sys (r n : Nat) : (s.countSet r n).sys = s.sys := rfl
@[simp] theorem State.countSet_hst (r n : Nat) : (s.countSet r n).hst = s.hst := rfl
@[simp] theorem State.countSet_cmt (r n : Nat) : (s.countSet r n).cmt = s.cmt := rfl
@[simp] theorem State.countSet_sho (r n : Nat) : (s.countSet r n).sho = s.sho := rfl
@[simp] theorem State.countSet_tlt (r n : Nat) : (s.countSet r n).tlt = s.tlt := rfl
@[simp] theorem State.countSet_mc (r n : Nat) : (s.countSet r n).mc = s.mc := rfl
@[simp] theorem State.countSet_nvs (r n : Nat) : (s.countSet r n).nvs = s.nvs := rfl
@[simp] theorem State.countSet_sec (r n : Nat) : (s.countSet r n).sec = s.sec := rfl
@[simp] theorem State.countSet_rrg (r n : Nat) : (s.countSet r n).rrg = s.rrg := rfl
@[simp] theorem State.countSet_brd (r n : Nat) : (s.countSet r n).brd = s.brd := rfl
@[simp] theorem State.countSet_slt (r n : Nat) : (s.countSet r n).slt = s.slt := rfl
@[simp] theorem State.countSet_kln (r n : Nat) : (s.countSet r n).kln = s.kln := rfl
@[simp] theorem State.countSet_rok (r n : Nat) : (s.countSet r n).rok = s.rok := rfl
@[simp] theorem State.countSet_sve (r n : Nat) : (s.countSet r n).sve = s.sve := rfl
@[simp] theorem State.countSet_trw (r n : Nat) : (s.countSet r n).trw = s.trw := rfl
@[simp] theorem State.countSet_out (r n : Nat) : (s.countSet r n).out = s.out := rfl
@[simp] theorem State.countSet_tlk (r n : Nat) : (s.countSet r n).tlk = s.tlk := rfl
@[simp] theorem State.countSet_pnl (r n : Nat) : (s.countSet r n).pnl = s.pnl := rfl
@[simp] theorem State.countSet_lbl (r n : Nat) : (s.countSet r n).lbl = s.lbl := rfl
@[simp] theorem State.countSet_tim (r n : Nat) : (s.countSet r n).tim = s.tim := rfl
@[simp] theorem State.countSet_aud (r n : Nat) : (s.countSet r n).aud = s.aud := rfl
@[simp] theorem State.countSet_chk (r n : Nat) : (s.countSet r n).chk = s.chk := rfl
@[simp] theorem State.countSet_thm (r n : Nat) : (s.countSet r n).thm = s.thm := rfl
@[simp] theorem State.countSet_pwr (r n : Nat) : (s.countSet r n).pwr = s.pwr := rfl
@[simp] theorem State.countSet_fw (r n : Nat) : (s.countSet r n).fw = s.fw := rfl
@[simp] theorem State.countSet_dmp (r n : Nat) : (s.countSet r n).dmp = s.dmp := rfl
@[simp] theorem State.countSet_dbg (r n : Nat) : (s.countSet r n).dbg = s.dbg := rfl

/-! ### event -/

@[simp] theorem State.event_now (c i a b : Nat) : (s.event c i a b).now = s.now := rfl
@[simp] theorem State.event_off (c i a b : Nat) : (s.event c i a b).off = s.off := rfl
@[simp] theorem State.event_pending (c i a b : Nat) : (s.event c i a b).pending = s.pending := rfl
@[simp] theorem State.event_regs (c i a b : Nat) : (s.event c i a b).regs = s.regs := rfl
@[simp] theorem State.event_lowPend (c i a b : Nat) : (s.event c i a b).lowPend = s.lowPend := rfl
@[simp] theorem State.event_hiLatch (c i a b : Nat) : (s.event c i a b).hiLatch = s.hiLatch := rfl
@[simp] theorem State.event_mem (c i a b : Nat) : (s.event c i a b).mem = s.mem := rfl
@[simp] theorem State.event_poison (c i a b : Nat) : (s.event c i a b).poison = s.poison := rfl
@[simp] theorem State.event_cnt (c i a b : Nat) : (s.event c i a b).cnt = s.cnt := rfl
@[simp] theorem State.event_fresh (c i a b : Nat) : (s.event c i a b).fresh = s.fresh := rfl
@[simp] theorem State.event_hst (c i a b : Nat) : (s.event c i a b).hst = s.hst := rfl
@[simp] theorem State.event_cmt (c i a b : Nat) : (s.event c i a b).cmt = s.cmt := rfl
@[simp] theorem State.event_sho (c i a b : Nat) : (s.event c i a b).sho = s.sho := rfl
@[simp] theorem State.event_tlt (c i a b : Nat) : (s.event c i a b).tlt = s.tlt := rfl
@[simp] theorem State.event_mc (c i a b : Nat) : (s.event c i a b).mc = s.mc := rfl
@[simp] theorem State.event_nvs (c i a b : Nat) : (s.event c i a b).nvs = s.nvs := rfl
@[simp] theorem State.event_sec (c i a b : Nat) : (s.event c i a b).sec = s.sec := rfl
@[simp] theorem State.event_rrg (c i a b : Nat) : (s.event c i a b).rrg = s.rrg := rfl
@[simp] theorem State.event_brd (c i a b : Nat) : (s.event c i a b).brd = s.brd := rfl
@[simp] theorem State.event_slt (c i a b : Nat) : (s.event c i a b).slt = s.slt := rfl
@[simp] theorem State.event_kln (c i a b : Nat) : (s.event c i a b).kln = s.kln := rfl
@[simp] theorem State.event_rok (c i a b : Nat) : (s.event c i a b).rok = s.rok := rfl
@[simp] theorem State.event_sve (c i a b : Nat) : (s.event c i a b).sve = s.sve := rfl
@[simp] theorem State.event_trw (c i a b : Nat) : (s.event c i a b).trw = s.trw := rfl
@[simp] theorem State.event_out (c i a b : Nat) : (s.event c i a b).out = s.out := rfl
@[simp] theorem State.event_tlk (c i a b : Nat) : (s.event c i a b).tlk = s.tlk := rfl
@[simp] theorem State.event_pnl (c i a b : Nat) : (s.event c i a b).pnl = s.pnl := rfl
@[simp] theorem State.event_lbl (c i a b : Nat) : (s.event c i a b).lbl = s.lbl := rfl
@[simp] theorem State.event_tim (c i a b : Nat) : (s.event c i a b).tim = s.tim := rfl
@[simp] theorem State.event_aud (c i a b : Nat) : (s.event c i a b).aud = s.aud := rfl
@[simp] theorem State.event_chk (c i a b : Nat) : (s.event c i a b).chk = s.chk := rfl
@[simp] theorem State.event_thm (c i a b : Nat) : (s.event c i a b).thm = s.thm := rfl
@[simp] theorem State.event_pwr (c i a b : Nat) : (s.event c i a b).pwr = s.pwr := rfl
@[simp] theorem State.event_fw (c i a b : Nat) : (s.event c i a b).fw = s.fw := rfl
@[simp] theorem State.event_dmp (c i a b : Nat) : (s.event c i a b).dmp = s.dmp := rfl
@[simp] theorem State.event_dbg (c i a b : Nat) : (s.event c i a b).dbg = s.dbg := rfl

/-! ### eventK -/

@[simp] theorem State.eventK_now (c i a b : Nat) : (s.eventK c i a b).now = s.now := rfl
@[simp] theorem State.eventK_off (c i a b : Nat) : (s.eventK c i a b).off = s.off := rfl
@[simp] theorem State.eventK_pending (c i a b : Nat) : (s.eventK c i a b).pending = s.pending := rfl
@[simp] theorem State.eventK_regs (c i a b : Nat) : (s.eventK c i a b).regs = s.regs := rfl
@[simp] theorem State.eventK_lowPend (c i a b : Nat) : (s.eventK c i a b).lowPend = s.lowPend := rfl
@[simp] theorem State.eventK_hiLatch (c i a b : Nat) : (s.eventK c i a b).hiLatch = s.hiLatch := rfl
@[simp] theorem State.eventK_mem (c i a b : Nat) : (s.eventK c i a b).mem = s.mem := rfl
@[simp] theorem State.eventK_poison (c i a b : Nat) : (s.eventK c i a b).poison = s.poison := rfl
@[simp] theorem State.eventK_cnt (c i a b : Nat) : (s.eventK c i a b).cnt = s.cnt := rfl
@[simp] theorem State.eventK_fresh (c i a b : Nat) : (s.eventK c i a b).fresh = s.fresh := rfl
@[simp] theorem State.eventK_hst (c i a b : Nat) : (s.eventK c i a b).hst = s.hst := rfl
@[simp] theorem State.eventK_cmt (c i a b : Nat) : (s.eventK c i a b).cmt = s.cmt := rfl
@[simp] theorem State.eventK_sho (c i a b : Nat) : (s.eventK c i a b).sho = s.sho := rfl
@[simp] theorem State.eventK_tlt (c i a b : Nat) : (s.eventK c i a b).tlt = s.tlt := rfl
@[simp] theorem State.eventK_mc (c i a b : Nat) : (s.eventK c i a b).mc = s.mc := rfl
@[simp] theorem State.eventK_nvs (c i a b : Nat) : (s.eventK c i a b).nvs = s.nvs := rfl
@[simp] theorem State.eventK_sec (c i a b : Nat) : (s.eventK c i a b).sec = s.sec := rfl
@[simp] theorem State.eventK_rrg (c i a b : Nat) : (s.eventK c i a b).rrg = s.rrg := rfl
@[simp] theorem State.eventK_brd (c i a b : Nat) : (s.eventK c i a b).brd = s.brd := rfl
@[simp] theorem State.eventK_slt (c i a b : Nat) : (s.eventK c i a b).slt = s.slt := rfl
@[simp] theorem State.eventK_kln (c i a b : Nat) : (s.eventK c i a b).kln = s.kln := rfl
@[simp] theorem State.eventK_rok (c i a b : Nat) : (s.eventK c i a b).rok = s.rok := rfl
@[simp] theorem State.eventK_sve (c i a b : Nat) : (s.eventK c i a b).sve = s.sve := rfl
@[simp] theorem State.eventK_trw (c i a b : Nat) : (s.eventK c i a b).trw = s.trw := rfl
@[simp] theorem State.eventK_out (c i a b : Nat) : (s.eventK c i a b).out = s.out := rfl
@[simp] theorem State.eventK_tlk (c i a b : Nat) : (s.eventK c i a b).tlk = s.tlk := rfl
@[simp] theorem State.eventK_pnl (c i a b : Nat) : (s.eventK c i a b).pnl = s.pnl := rfl
@[simp] theorem State.eventK_lbl (c i a b : Nat) : (s.eventK c i a b).lbl = s.lbl := rfl
@[simp] theorem State.eventK_tim (c i a b : Nat) : (s.eventK c i a b).tim = s.tim := rfl
@[simp] theorem State.eventK_aud (c i a b : Nat) : (s.eventK c i a b).aud = s.aud := rfl
@[simp] theorem State.eventK_chk (c i a b : Nat) : (s.eventK c i a b).chk = s.chk := rfl
@[simp] theorem State.eventK_thm (c i a b : Nat) : (s.eventK c i a b).thm = s.thm := rfl
@[simp] theorem State.eventK_pwr (c i a b : Nat) : (s.eventK c i a b).pwr = s.pwr := rfl
@[simp] theorem State.eventK_fw (c i a b : Nat) : (s.eventK c i a b).fw = s.fw := rfl
@[simp] theorem State.eventK_dmp (c i a b : Nat) : (s.eventK c i a b).dmp = s.dmp := rfl
@[simp] theorem State.eventK_dbg (c i a b : Nat) : (s.eventK c i a b).dbg = s.dbg := rfl

/-! ### setMsixWord -/

@[simp] theorem State.setMsixWord_now (v k x : Nat) : (s.setMsixWord v k x).now = s.now := rfl
@[simp] theorem State.setMsixWord_off (v k x : Nat) : (s.setMsixWord v k x).off = s.off := rfl
@[simp] theorem State.setMsixWord_pending (v k x : Nat) : (s.setMsixWord v k x).pending = s.pending := rfl
@[simp] theorem State.setMsixWord_regs (v k x : Nat) : (s.setMsixWord v k x).regs = s.regs := rfl
@[simp] theorem State.setMsixWord_lowPend (v k x : Nat) : (s.setMsixWord v k x).lowPend = s.lowPend := rfl
@[simp] theorem State.setMsixWord_hiLatch (v k x : Nat) : (s.setMsixWord v k x).hiLatch = s.hiLatch := rfl
@[simp] theorem State.setMsixWord_mem (v k x : Nat) : (s.setMsixWord v k x).mem = s.mem := rfl
@[simp] theorem State.setMsixWord_poison (v k x : Nat) : (s.setMsixWord v k x).poison = s.poison := rfl
@[simp] theorem State.setMsixWord_cnt (v k x : Nat) : (s.setMsixWord v k x).cnt = s.cnt := rfl
@[simp] theorem State.setMsixWord_fresh (v k x : Nat) : (s.setMsixWord v k x).fresh = s.fresh := rfl
@[simp] theorem State.setMsixWord_sys (v k x : Nat) : (s.setMsixWord v k x).sys = s.sys := rfl
@[simp] theorem State.setMsixWord_cmt (v k x : Nat) : (s.setMsixWord v k x).cmt = s.cmt := rfl
@[simp] theorem State.setMsixWord_sho (v k x : Nat) : (s.setMsixWord v k x).sho = s.sho := rfl
@[simp] theorem State.setMsixWord_tlt (v k x : Nat) : (s.setMsixWord v k x).tlt = s.tlt := rfl
@[simp] theorem State.setMsixWord_mc (v k x : Nat) : (s.setMsixWord v k x).mc = s.mc := rfl
@[simp] theorem State.setMsixWord_nvs (v k x : Nat) : (s.setMsixWord v k x).nvs = s.nvs := rfl
@[simp] theorem State.setMsixWord_sec (v k x : Nat) : (s.setMsixWord v k x).sec = s.sec := rfl
@[simp] theorem State.setMsixWord_rrg (v k x : Nat) : (s.setMsixWord v k x).rrg = s.rrg := rfl
@[simp] theorem State.setMsixWord_brd (v k x : Nat) : (s.setMsixWord v k x).brd = s.brd := rfl
@[simp] theorem State.setMsixWord_slt (v k x : Nat) : (s.setMsixWord v k x).slt = s.slt := rfl
@[simp] theorem State.setMsixWord_kln (v k x : Nat) : (s.setMsixWord v k x).kln = s.kln := rfl
@[simp] theorem State.setMsixWord_rok (v k x : Nat) : (s.setMsixWord v k x).rok = s.rok := rfl
@[simp] theorem State.setMsixWord_sve (v k x : Nat) : (s.setMsixWord v k x).sve = s.sve := rfl
@[simp] theorem State.setMsixWord_trw (v k x : Nat) : (s.setMsixWord v k x).trw = s.trw := rfl
@[simp] theorem State.setMsixWord_out (v k x : Nat) : (s.setMsixWord v k x).out = s.out := rfl
@[simp] theorem State.setMsixWord_tlk (v k x : Nat) : (s.setMsixWord v k x).tlk = s.tlk := rfl
@[simp] theorem State.setMsixWord_pnl (v k x : Nat) : (s.setMsixWord v k x).pnl = s.pnl := rfl
@[simp] theorem State.setMsixWord_lbl (v k x : Nat) : (s.setMsixWord v k x).lbl = s.lbl := rfl
@[simp] theorem State.setMsixWord_tim (v k x : Nat) : (s.setMsixWord v k x).tim = s.tim := rfl
@[simp] theorem State.setMsixWord_aud (v k x : Nat) : (s.setMsixWord v k x).aud = s.aud := rfl
@[simp] theorem State.setMsixWord_chk (v k x : Nat) : (s.setMsixWord v k x).chk = s.chk := rfl
@[simp] theorem State.setMsixWord_thm (v k x : Nat) : (s.setMsixWord v k x).thm = s.thm := rfl
@[simp] theorem State.setMsixWord_pwr (v k x : Nat) : (s.setMsixWord v k x).pwr = s.pwr := rfl
@[simp] theorem State.setMsixWord_fw (v k x : Nat) : (s.setMsixWord v k x).fw = s.fw := rfl
@[simp] theorem State.setMsixWord_dmp (v k x : Nat) : (s.setMsixWord v k x).dmp = s.dmp := rfl
@[simp] theorem State.setMsixWord_dbg (v k x : Nat) : (s.setMsixWord v k x).dbg = s.dbg := rfl

/-! ### raiseFatal -/

@[simp] theorem State.raiseFatal_now (c d : Nat) : (s.raiseFatal c d).now = s.now := rfl
@[simp] theorem State.raiseFatal_off (c d : Nat) : (s.raiseFatal c d).off = s.off := rfl
@[simp] theorem State.raiseFatal_pending (c d : Nat) : (s.raiseFatal c d).pending = s.pending := rfl
@[simp] theorem State.raiseFatal_regs (c d : Nat) : (s.raiseFatal c d).regs = s.regs := rfl
@[simp] theorem State.raiseFatal_lowPend (c d : Nat) : (s.raiseFatal c d).lowPend = s.lowPend := rfl
@[simp] theorem State.raiseFatal_hiLatch (c d : Nat) : (s.raiseFatal c d).hiLatch = s.hiLatch := rfl
@[simp] theorem State.raiseFatal_mem (c d : Nat) : (s.raiseFatal c d).mem = s.mem := rfl
@[simp] theorem State.raiseFatal_poison (c d : Nat) : (s.raiseFatal c d).poison = s.poison := rfl
@[simp] theorem State.raiseFatal_cnt (c d : Nat) : (s.raiseFatal c d).cnt = s.cnt := rfl
@[simp] theorem State.raiseFatal_fresh (c d : Nat) : (s.raiseFatal c d).fresh = s.fresh := rfl
@[simp] theorem State.raiseFatal_hst (c d : Nat) : (s.raiseFatal c d).hst = s.hst := rfl
@[simp] theorem State.raiseFatal_cmt (c d : Nat) : (s.raiseFatal c d).cmt = s.cmt := rfl
@[simp] theorem State.raiseFatal_sho (c d : Nat) : (s.raiseFatal c d).sho = s.sho := rfl
@[simp] theorem State.raiseFatal_tlt (c d : Nat) : (s.raiseFatal c d).tlt = s.tlt := rfl
@[simp] theorem State.raiseFatal_mc (c d : Nat) : (s.raiseFatal c d).mc = s.mc := rfl
@[simp] theorem State.raiseFatal_nvs (c d : Nat) : (s.raiseFatal c d).nvs = s.nvs := rfl
@[simp] theorem State.raiseFatal_sec (c d : Nat) : (s.raiseFatal c d).sec = s.sec := rfl
@[simp] theorem State.raiseFatal_rrg (c d : Nat) : (s.raiseFatal c d).rrg = s.rrg := rfl
@[simp] theorem State.raiseFatal_brd (c d : Nat) : (s.raiseFatal c d).brd = s.brd := rfl
@[simp] theorem State.raiseFatal_slt (c d : Nat) : (s.raiseFatal c d).slt = s.slt := rfl
@[simp] theorem State.raiseFatal_kln (c d : Nat) : (s.raiseFatal c d).kln = s.kln := rfl
@[simp] theorem State.raiseFatal_rok (c d : Nat) : (s.raiseFatal c d).rok = s.rok := rfl
@[simp] theorem State.raiseFatal_sve (c d : Nat) : (s.raiseFatal c d).sve = s.sve := rfl
@[simp] theorem State.raiseFatal_trw (c d : Nat) : (s.raiseFatal c d).trw = s.trw := rfl
@[simp] theorem State.raiseFatal_out (c d : Nat) : (s.raiseFatal c d).out = s.out := rfl
@[simp] theorem State.raiseFatal_tlk (c d : Nat) : (s.raiseFatal c d).tlk = s.tlk := rfl
@[simp] theorem State.raiseFatal_pnl (c d : Nat) : (s.raiseFatal c d).pnl = s.pnl := rfl
@[simp] theorem State.raiseFatal_lbl (c d : Nat) : (s.raiseFatal c d).lbl = s.lbl := rfl
@[simp] theorem State.raiseFatal_tim (c d : Nat) : (s.raiseFatal c d).tim = s.tim := rfl
@[simp] theorem State.raiseFatal_aud (c d : Nat) : (s.raiseFatal c d).aud = s.aud := rfl
@[simp] theorem State.raiseFatal_chk (c d : Nat) : (s.raiseFatal c d).chk = s.chk := rfl
@[simp] theorem State.raiseFatal_thm (c d : Nat) : (s.raiseFatal c d).thm = s.thm := rfl
@[simp] theorem State.raiseFatal_pwr (c d : Nat) : (s.raiseFatal c d).pwr = s.pwr := rfl
@[simp] theorem State.raiseFatal_fw (c d : Nat) : (s.raiseFatal c d).fw = s.fw := rfl
@[simp] theorem State.raiseFatal_dmp (c d : Nat) : (s.raiseFatal c d).dmp = s.dmp := rfl
@[simp] theorem State.raiseFatal_dbg (c d : Nat) : (s.raiseFatal c d).dbg = s.dbg := rfl

/-! ### onRing -/

@[simp] theorem State.onRing_now (w : Nat) (f : Ring → Ring) : (s.onRing w f).now = s.now := rfl
@[simp] theorem State.onRing_off (w : Nat) (f : Ring → Ring) : (s.onRing w f).off = s.off := rfl
@[simp] theorem State.onRing_pending (w : Nat) (f : Ring → Ring) : (s.onRing w f).pending = s.pending := rfl
@[simp] theorem State.onRing_regs (w : Nat) (f : Ring → Ring) : (s.onRing w f).regs = s.regs := rfl
@[simp] theorem State.onRing_lowPend (w : Nat) (f : Ring → Ring) : (s.onRing w f).lowPend = s.lowPend := rfl
@[simp] theorem State.onRing_hiLatch (w : Nat) (f : Ring → Ring) : (s.onRing w f).hiLatch = s.hiLatch := rfl
@[simp] theorem State.onRing_mem (w : Nat) (f : Ring → Ring) : (s.onRing w f).mem = s.mem := rfl
@[simp] theorem State.onRing_poison (w : Nat) (f : Ring → Ring) : (s.onRing w f).poison = s.poison := rfl
@[simp] theorem State.onRing_cnt (w : Nat) (f : Ring → Ring) : (s.onRing w f).cnt = s.cnt := rfl
@[simp] theorem State.onRing_fresh (w : Nat) (f : Ring → Ring) : (s.onRing w f).fresh = s.fresh := rfl
@[simp] theorem State.onRing_sys (w : Nat) (f : Ring → Ring) : (s.onRing w f).sys = s.sys := rfl
@[simp] theorem State.onRing_cmt (w : Nat) (f : Ring → Ring) : (s.onRing w f).cmt = s.cmt := rfl
@[simp] theorem State.onRing_sho (w : Nat) (f : Ring → Ring) : (s.onRing w f).sho = s.sho := rfl
@[simp] theorem State.onRing_tlt (w : Nat) (f : Ring → Ring) : (s.onRing w f).tlt = s.tlt := rfl
@[simp] theorem State.onRing_mc (w : Nat) (f : Ring → Ring) : (s.onRing w f).mc = s.mc := rfl
@[simp] theorem State.onRing_nvs (w : Nat) (f : Ring → Ring) : (s.onRing w f).nvs = s.nvs := rfl
@[simp] theorem State.onRing_sec (w : Nat) (f : Ring → Ring) : (s.onRing w f).sec = s.sec := rfl
@[simp] theorem State.onRing_rrg (w : Nat) (f : Ring → Ring) : (s.onRing w f).rrg = s.rrg := rfl
@[simp] theorem State.onRing_brd (w : Nat) (f : Ring → Ring) : (s.onRing w f).brd = s.brd := rfl
@[simp] theorem State.onRing_slt (w : Nat) (f : Ring → Ring) : (s.onRing w f).slt = s.slt := rfl
@[simp] theorem State.onRing_kln (w : Nat) (f : Ring → Ring) : (s.onRing w f).kln = s.kln := rfl
@[simp] theorem State.onRing_rok (w : Nat) (f : Ring → Ring) : (s.onRing w f).rok = s.rok := rfl
@[simp] theorem State.onRing_sve (w : Nat) (f : Ring → Ring) : (s.onRing w f).sve = s.sve := rfl
@[simp] theorem State.onRing_trw (w : Nat) (f : Ring → Ring) : (s.onRing w f).trw = s.trw := rfl
@[simp] theorem State.onRing_out (w : Nat) (f : Ring → Ring) : (s.onRing w f).out = s.out := rfl
@[simp] theorem State.onRing_tlk (w : Nat) (f : Ring → Ring) : (s.onRing w f).tlk = s.tlk := rfl
@[simp] theorem State.onRing_pnl (w : Nat) (f : Ring → Ring) : (s.onRing w f).pnl = s.pnl := rfl
@[simp] theorem State.onRing_lbl (w : Nat) (f : Ring → Ring) : (s.onRing w f).lbl = s.lbl := rfl
@[simp] theorem State.onRing_tim (w : Nat) (f : Ring → Ring) : (s.onRing w f).tim = s.tim := rfl
@[simp] theorem State.onRing_aud (w : Nat) (f : Ring → Ring) : (s.onRing w f).aud = s.aud := rfl
@[simp] theorem State.onRing_chk (w : Nat) (f : Ring → Ring) : (s.onRing w f).chk = s.chk := rfl
@[simp] theorem State.onRing_thm (w : Nat) (f : Ring → Ring) : (s.onRing w f).thm = s.thm := rfl
@[simp] theorem State.onRing_pwr (w : Nat) (f : Ring → Ring) : (s.onRing w f).pwr = s.pwr := rfl
@[simp] theorem State.onRing_fw (w : Nat) (f : Ring → Ring) : (s.onRing w f).fw = s.fw := rfl
@[simp] theorem State.onRing_dmp (w : Nat) (f : Ring → Ring) : (s.onRing w f).dmp = s.dmp := rfl
@[simp] theorem State.onRing_dbg (w : Nat) (f : Ring → Ring) : (s.onRing w f).dbg = s.dbg := rfl

/-! ### raise -/

@[simp] theorem State.raise_now (v : Nat) : (s.raise v).now = s.now := by unfold State.raise; split <;> rfl
@[simp] theorem State.raise_off (v : Nat) : (s.raise v).off = s.off := by unfold State.raise; split <;> rfl
@[simp] theorem State.raise_pending (v : Nat) : (s.raise v).pending = s.pending := by unfold State.raise; split <;> rfl
@[simp] theorem State.raise_regs (v : Nat) : (s.raise v).regs = s.regs := by unfold State.raise; split <;> rfl
@[simp] theorem State.raise_lowPend (v : Nat) : (s.raise v).lowPend = s.lowPend := by unfold State.raise; split <;> rfl
@[simp] theorem State.raise_hiLatch (v : Nat) : (s.raise v).hiLatch = s.hiLatch := by unfold State.raise; split <;> rfl
@[simp] theorem State.raise_mem (v : Nat) : (s.raise v).mem = s.mem := by unfold State.raise; split <;> rfl
@[simp] theorem State.raise_poison (v : Nat) : (s.raise v).poison = s.poison := by unfold State.raise; split <;> rfl
@[simp] theorem State.raise_cnt (v : Nat) : (s.raise v).cnt = s.cnt := by unfold State.raise; split <;> rfl
@[simp] theorem State.raise_fresh (v : Nat) : (s.raise v).fresh = s.fresh := by unfold State.raise; split <;> rfl
@[simp] theorem State.raise_sys (v : Nat) : (s.raise v).sys = s.sys := by unfold State.raise; split <;> rfl
@[simp] theorem State.raise_cmt (v : Nat) : (s.raise v).cmt = s.cmt := by unfold State.raise; split <;> rfl
@[simp] theorem State.raise_sho (v : Nat) : (s.raise v).sho = s.sho := by unfold State.raise; split <;> rfl
@[simp] theorem State.raise_tlt (v : Nat) : (s.raise v).tlt = s.tlt := by unfold State.raise; split <;> rfl
@[simp] theorem State.raise_mc (v : Nat) : (s.raise v).mc = s.mc := by unfold State.raise; split <;> rfl
@[simp] theorem State.raise_nvs (v : Nat) : (s.raise v).nvs = s.nvs := by unfold State.raise; split <;> rfl
@[simp] theorem State.raise_sec (v : Nat) : (s.raise v).sec = s.sec := by unfold State.raise; split <;> rfl
@[simp] theorem State.raise_rrg (v : Nat) : (s.raise v).rrg = s.rrg := by unfold State.raise; split <;> rfl
@[simp] theorem State.raise_brd (v : Nat) : (s.raise v).brd = s.brd := by unfold State.raise; split <;> rfl
@[simp] theorem State.raise_slt (v : Nat) : (s.raise v).slt = s.slt := by unfold State.raise; split <;> rfl
@[simp] theorem State.raise_kln (v : Nat) : (s.raise v).kln = s.kln := by unfold State.raise; split <;> rfl
@[simp] theorem State.raise_rok (v : Nat) : (s.raise v).rok = s.rok := by unfold State.raise; split <;> rfl
@[simp] theorem State.raise_sve (v : Nat) : (s.raise v).sve = s.sve := by unfold State.raise; split <;> rfl
@[simp] theorem State.raise_trw (v : Nat) : (s.raise v).trw = s.trw := by unfold State.raise; split <;> rfl
@[simp] theorem State.raise_out (v : Nat) : (s.raise v).out = s.out := by unfold State.raise; split <;> rfl
@[simp] theorem State.raise_tlk (v : Nat) : (s.raise v).tlk = s.tlk := by unfold State.raise; split <;> rfl
@[simp] theorem State.raise_pnl (v : Nat) : (s.raise v).pnl = s.pnl := by unfold State.raise; split <;> rfl
@[simp] theorem State.raise_lbl (v : Nat) : (s.raise v).lbl = s.lbl := by unfold State.raise; split <;> rfl
@[simp] theorem State.raise_tim (v : Nat) : (s.raise v).tim = s.tim := by unfold State.raise; split <;> rfl
@[simp] theorem State.raise_aud (v : Nat) : (s.raise v).aud = s.aud := by unfold State.raise; split <;> rfl
@[simp] theorem State.raise_chk (v : Nat) : (s.raise v).chk = s.chk := by unfold State.raise; split <;> rfl
@[simp] theorem State.raise_thm (v : Nat) : (s.raise v).thm = s.thm := by unfold State.raise; split <;> rfl
@[simp] theorem State.raise_pwr (v : Nat) : (s.raise v).pwr = s.pwr := by unfold State.raise; split <;> rfl
@[simp] theorem State.raise_fw (v : Nat) : (s.raise v).fw = s.fw := by unfold State.raise; split <;> rfl
@[simp] theorem State.raise_dmp (v : Nat) : (s.raise v).dmp = s.dmp := by unfold State.raise; split <;> rfl
@[simp] theorem State.raise_dbg (v : Nat) : (s.raise v).dbg = s.dbg := by unfold State.raise; split <;> rfl

/-! ### eventOnce -/

@[simp] theorem State.eventOnce_now (c k i a b : Nat) : (s.eventOnce c k i a b).now = s.now := by unfold State.eventOnce; dsimp only; split <;> rfl
@[simp] theorem State.eventOnce_off (c k i a b : Nat) : (s.eventOnce c k i a b).off = s.off := by unfold State.eventOnce; dsimp only; split <;> rfl
@[simp] theorem State.eventOnce_pending (c k i a b : Nat) : (s.eventOnce c k i a b).pending = s.pending := by unfold State.eventOnce; dsimp only; split <;> rfl
@[simp] theorem State.eventOnce_regs (c k i a b : Nat) : (s.eventOnce c k i a b).regs = s.regs := by unfold State.eventOnce; dsimp only; split <;> rfl
@[simp] theorem State.eventOnce_lowPend (c k i a b : Nat) : (s.eventOnce c k i a b).lowPend = s.lowPend := by unfold State.eventOnce; dsimp only; split <;> rfl
@[simp] theorem State.eventOnce_hiLatch (c k i a b : Nat) : (s.eventOnce c k i a b).hiLatch = s.hiLatch := by unfold State.eventOnce; dsimp only; split <;> rfl
@[simp] theorem State.eventOnce_mem (c k i a b : Nat) : (s.eventOnce c k i a b).mem = s.mem := by unfold State.eventOnce; dsimp only; split <;> rfl
@[simp] theorem State.eventOnce_poison (c k i a b : Nat) : (s.eventOnce c k i a b).poison = s.poison := by unfold State.eventOnce; dsimp only; split <;> rfl
@[simp] theorem State.eventOnce_cnt (c k i a b : Nat) : (s.eventOnce c k i a b).cnt = s.cnt := by unfold State.eventOnce; dsimp only; split <;> rfl
@[simp] theorem State.eventOnce_fresh (c k i a b : Nat) : (s.eventOnce c k i a b).fresh = s.fresh := by unfold State.eventOnce; dsimp only; split <;> rfl
@[simp] theorem State.eventOnce_hst (c k i a b : Nat) : (s.eventOnce c k i a b).hst = s.hst := by unfold State.eventOnce; dsimp only; split <;> rfl
@[simp] theorem State.eventOnce_cmt (c k i a b : Nat) : (s.eventOnce c k i a b).cmt = s.cmt := by unfold State.eventOnce; dsimp only; split <;> rfl
@[simp] theorem State.eventOnce_sho (c k i a b : Nat) : (s.eventOnce c k i a b).sho = s.sho := by unfold State.eventOnce; dsimp only; split <;> rfl
@[simp] theorem State.eventOnce_tlt (c k i a b : Nat) : (s.eventOnce c k i a b).tlt = s.tlt := by unfold State.eventOnce; dsimp only; split <;> rfl
@[simp] theorem State.eventOnce_mc (c k i a b : Nat) : (s.eventOnce c k i a b).mc = s.mc := by unfold State.eventOnce; dsimp only; split <;> rfl
@[simp] theorem State.eventOnce_nvs (c k i a b : Nat) : (s.eventOnce c k i a b).nvs = s.nvs := by unfold State.eventOnce; dsimp only; split <;> rfl
@[simp] theorem State.eventOnce_sec (c k i a b : Nat) : (s.eventOnce c k i a b).sec = s.sec := by unfold State.eventOnce; dsimp only; split <;> rfl
@[simp] theorem State.eventOnce_rrg (c k i a b : Nat) : (s.eventOnce c k i a b).rrg = s.rrg := by unfold State.eventOnce; dsimp only; split <;> rfl
@[simp] theorem State.eventOnce_brd (c k i a b : Nat) : (s.eventOnce c k i a b).brd = s.brd := by unfold State.eventOnce; dsimp only; split <;> rfl
@[simp] theorem State.eventOnce_slt (c k i a b : Nat) : (s.eventOnce c k i a b).slt = s.slt := by unfold State.eventOnce; dsimp only; split <;> rfl
@[simp] theorem State.eventOnce_kln (c k i a b : Nat) : (s.eventOnce c k i a b).kln = s.kln := by unfold State.eventOnce; dsimp only; split <;> rfl
@[simp] theorem State.eventOnce_rok (c k i a b : Nat) : (s.eventOnce c k i a b).rok = s.rok := by unfold State.eventOnce; dsimp only; split <;> rfl
@[simp] theorem State.eventOnce_sve (c k i a b : Nat) : (s.eventOnce c k i a b).sve = s.sve := by unfold State.eventOnce; dsimp only; split <;> rfl
@[simp] theorem State.eventOnce_trw (c k i a b : Nat) : (s.eventOnce c k i a b).trw = s.trw := by unfold State.eventOnce; dsimp only; split <;> rfl
@[simp] theorem State.eventOnce_out (c k i a b : Nat) : (s.eventOnce c k i a b).out = s.out := by unfold State.eventOnce; dsimp only; split <;> rfl
@[simp] theorem State.eventOnce_tlk (c k i a b : Nat) : (s.eventOnce c k i a b).tlk = s.tlk := by unfold State.eventOnce; dsimp only; split <;> rfl
@[simp] theorem State.eventOnce_pnl (c k i a b : Nat) : (s.eventOnce c k i a b).pnl = s.pnl := by unfold State.eventOnce; dsimp only; split <;> rfl
@[simp] theorem State.eventOnce_lbl (c k i a b : Nat) : (s.eventOnce c k i a b).lbl = s.lbl := by unfold State.eventOnce; dsimp only; split <;> rfl
@[simp] theorem State.eventOnce_tim (c k i a b : Nat) : (s.eventOnce c k i a b).tim = s.tim := by unfold State.eventOnce; dsimp only; split <;> rfl
@[simp] theorem State.eventOnce_aud (c k i a b : Nat) : (s.eventOnce c k i a b).aud = s.aud := by unfold State.eventOnce; dsimp only; split <;> rfl
@[simp] theorem State.eventOnce_chk (c k i a b : Nat) : (s.eventOnce c k i a b).chk = s.chk := by unfold State.eventOnce; dsimp only; split <;> rfl
@[simp] theorem State.eventOnce_thm (c k i a b : Nat) : (s.eventOnce c k i a b).thm = s.thm := by unfold State.eventOnce; dsimp only; split <;> rfl
@[simp] theorem State.eventOnce_pwr (c k i a b : Nat) : (s.eventOnce c k i a b).pwr = s.pwr := by unfold State.eventOnce; dsimp only; split <;> rfl
@[simp] theorem State.eventOnce_fw (c k i a b : Nat) : (s.eventOnce c k i a b).fw = s.fw := by unfold State.eventOnce; dsimp only; split <;> rfl
@[simp] theorem State.eventOnce_dmp (c k i a b : Nat) : (s.eventOnce c k i a b).dmp = s.dmp := by unfold State.eventOnce; dsimp only; split <;> rfl
@[simp] theorem State.eventOnce_dbg (c k i a b : Nat) : (s.eventOnce c k i a b).dbg = s.dbg := by unfold State.eventOnce; dsimp only; split <;> rfl

/-! ### eccRead -/

@[simp] theorem State.eccRead_now (p n : Nat) : (s.eccRead p n).now = s.now := by unfold State.eccRead; dsimp only; split <;> rfl
@[simp] theorem State.eccRead_off (p n : Nat) : (s.eccRead p n).off = s.off := by unfold State.eccRead; dsimp only; split <;> rfl
@[simp] theorem State.eccRead_pending (p n : Nat) : (s.eccRead p n).pending = s.pending := by unfold State.eccRead; dsimp only; split <;> rfl
@[simp] theorem State.eccRead_lowPend (p n : Nat) : (s.eccRead p n).lowPend = s.lowPend := by unfold State.eccRead; dsimp only; split <;> rfl
@[simp] theorem State.eccRead_hiLatch (p n : Nat) : (s.eccRead p n).hiLatch = s.hiLatch := by unfold State.eccRead; dsimp only; split <;> rfl
@[simp] theorem State.eccRead_mem (p n : Nat) : (s.eccRead p n).mem = s.mem := by unfold State.eccRead; dsimp only; split <;> rfl
@[simp] theorem State.eccRead_poison (p n : Nat) : (s.eccRead p n).poison = s.poison := by unfold State.eccRead; dsimp only; split <;> rfl
@[simp] theorem State.eccRead_fresh (p n : Nat) : (s.eccRead p n).fresh = s.fresh := by unfold State.eccRead; dsimp only; split <;> rfl
@[simp] theorem State.eccRead_hst (p n : Nat) : (s.eccRead p n).hst = s.hst := by unfold State.eccRead; dsimp only; split <;> rfl
@[simp] theorem State.eccRead_cmt (p n : Nat) : (s.eccRead p n).cmt = s.cmt := by unfold State.eccRead; dsimp only; split <;> rfl
@[simp] theorem State.eccRead_sho (p n : Nat) : (s.eccRead p n).sho = s.sho := by unfold State.eccRead; dsimp only; split <;> rfl
@[simp] theorem State.eccRead_tlt (p n : Nat) : (s.eccRead p n).tlt = s.tlt := by unfold State.eccRead; dsimp only; split <;> rfl
@[simp] theorem State.eccRead_nvs (p n : Nat) : (s.eccRead p n).nvs = s.nvs := by unfold State.eccRead; dsimp only; split <;> rfl
@[simp] theorem State.eccRead_sec (p n : Nat) : (s.eccRead p n).sec = s.sec := by unfold State.eccRead; dsimp only; split <;> rfl
@[simp] theorem State.eccRead_rrg (p n : Nat) : (s.eccRead p n).rrg = s.rrg := by unfold State.eccRead; dsimp only; split <;> rfl
@[simp] theorem State.eccRead_brd (p n : Nat) : (s.eccRead p n).brd = s.brd := by unfold State.eccRead; dsimp only; split <;> rfl
@[simp] theorem State.eccRead_slt (p n : Nat) : (s.eccRead p n).slt = s.slt := by unfold State.eccRead; dsimp only; split <;> rfl
@[simp] theorem State.eccRead_kln (p n : Nat) : (s.eccRead p n).kln = s.kln := by unfold State.eccRead; dsimp only; split <;> rfl
@[simp] theorem State.eccRead_rok (p n : Nat) : (s.eccRead p n).rok = s.rok := by unfold State.eccRead; dsimp only; split <;> rfl
@[simp] theorem State.eccRead_sve (p n : Nat) : (s.eccRead p n).sve = s.sve := by unfold State.eccRead; dsimp only; split <;> rfl
@[simp] theorem State.eccRead_trw (p n : Nat) : (s.eccRead p n).trw = s.trw := by unfold State.eccRead; dsimp only; split <;> rfl
@[simp] theorem State.eccRead_out (p n : Nat) : (s.eccRead p n).out = s.out := by unfold State.eccRead; dsimp only; split <;> rfl
@[simp] theorem State.eccRead_tlk (p n : Nat) : (s.eccRead p n).tlk = s.tlk := by unfold State.eccRead; dsimp only; split <;> rfl
@[simp] theorem State.eccRead_pnl (p n : Nat) : (s.eccRead p n).pnl = s.pnl := by unfold State.eccRead; dsimp only; split <;> rfl
@[simp] theorem State.eccRead_lbl (p n : Nat) : (s.eccRead p n).lbl = s.lbl := by unfold State.eccRead; dsimp only; split <;> rfl
@[simp] theorem State.eccRead_tim (p n : Nat) : (s.eccRead p n).tim = s.tim := by unfold State.eccRead; dsimp only; split <;> rfl
@[simp] theorem State.eccRead_aud (p n : Nat) : (s.eccRead p n).aud = s.aud := by unfold State.eccRead; dsimp only; split <;> rfl
@[simp] theorem State.eccRead_chk (p n : Nat) : (s.eccRead p n).chk = s.chk := by unfold State.eccRead; dsimp only; split <;> rfl
@[simp] theorem State.eccRead_thm (p n : Nat) : (s.eccRead p n).thm = s.thm := by unfold State.eccRead; dsimp only; split <;> rfl
@[simp] theorem State.eccRead_pwr (p n : Nat) : (s.eccRead p n).pwr = s.pwr := by unfold State.eccRead; dsimp only; split <;> rfl
@[simp] theorem State.eccRead_fw (p n : Nat) : (s.eccRead p n).fw = s.fw := by unfold State.eccRead; dsimp only; split <;> rfl
@[simp] theorem State.eccRead_dmp (p n : Nat) : (s.eccRead p n).dmp = s.dmp := by unfold State.eccRead; dsimp only; split <;> rfl
@[simp] theorem State.eccRead_dbg (p n : Nat) : (s.eccRead p n).dbg = s.dbg := by unfold State.eccRead; dsimp only; split <;> rfl

/-! ### Memory writes -/

@[simp] theorem State.mergeWord_now (n : Nat) : (s.mergeWord n).now = s.now := by
  unfold State.mergeWord; dsimp only; split <;> split <;> rfl

@[simp] theorem State.mergeWords_now (k : Nat) : ∀ (s : State) (n : Nat), (s.mergeWords n k).now = s.now := by
  induction k with
  | zero => intro s n; rfl
  | succ k ih => intro s n; exact (ih _ _).trans (s.mergeWord_now n)

@[simp] theorem State.setPoison_now (n : Nat) (p : Bool) : (s.setPoison n p).now = s.now := State.mergeWord_now _ n

@[simp] theorem State.mergeWord_off (n : Nat) : (s.mergeWord n).off = s.off := by
  unfold State.mergeWord; dsimp only; split <;> split <;> rfl

@[simp] theorem State.mergeWords_off (k : Nat) : ∀ (s : State) (n : Nat), (s.mergeWords n k).off = s.off := by
  induction k with
  | zero => intro s n; rfl
  | succ k ih => intro s n; exact (ih _ _).trans (s.mergeWord_off n)

@[simp] theorem State.setPoison_off (n : Nat) (p : Bool) : (s.setPoison n p).off = s.off := State.mergeWord_off _ n

@[simp] theorem State.mergeWord_pending (n : Nat) : (s.mergeWord n).pending = s.pending := by
  unfold State.mergeWord; dsimp only; split <;> split <;> rfl

@[simp] theorem State.mergeWords_pending (k : Nat) : ∀ (s : State) (n : Nat), (s.mergeWords n k).pending = s.pending := by
  induction k with
  | zero => intro s n; rfl
  | succ k ih => intro s n; exact (ih _ _).trans (s.mergeWord_pending n)

@[simp] theorem State.setPoison_pending (n : Nat) (p : Bool) : (s.setPoison n p).pending = s.pending := State.mergeWord_pending _ n

@[simp] theorem State.mergeWord_regs (n : Nat) : (s.mergeWord n).regs = s.regs := by
  unfold State.mergeWord; dsimp only; split <;> split <;> rfl

@[simp] theorem State.mergeWords_regs (k : Nat) : ∀ (s : State) (n : Nat), (s.mergeWords n k).regs = s.regs := by
  induction k with
  | zero => intro s n; rfl
  | succ k ih => intro s n; exact (ih _ _).trans (s.mergeWord_regs n)

@[simp] theorem State.setPoison_regs (n : Nat) (p : Bool) : (s.setPoison n p).regs = s.regs := State.mergeWord_regs _ n

@[simp] theorem State.mergeWord_lowPend (n : Nat) : (s.mergeWord n).lowPend = s.lowPend := by
  unfold State.mergeWord; dsimp only; split <;> split <;> rfl

@[simp] theorem State.mergeWords_lowPend (k : Nat) : ∀ (s : State) (n : Nat), (s.mergeWords n k).lowPend = s.lowPend := by
  induction k with
  | zero => intro s n; rfl
  | succ k ih => intro s n; exact (ih _ _).trans (s.mergeWord_lowPend n)

@[simp] theorem State.setPoison_lowPend (n : Nat) (p : Bool) : (s.setPoison n p).lowPend = s.lowPend := State.mergeWord_lowPend _ n

@[simp] theorem State.mergeWord_hiLatch (n : Nat) : (s.mergeWord n).hiLatch = s.hiLatch := by
  unfold State.mergeWord; dsimp only; split <;> split <;> rfl

@[simp] theorem State.mergeWords_hiLatch (k : Nat) : ∀ (s : State) (n : Nat), (s.mergeWords n k).hiLatch = s.hiLatch := by
  induction k with
  | zero => intro s n; rfl
  | succ k ih => intro s n; exact (ih _ _).trans (s.mergeWord_hiLatch n)

@[simp] theorem State.setPoison_hiLatch (n : Nat) (p : Bool) : (s.setPoison n p).hiLatch = s.hiLatch := State.mergeWord_hiLatch _ n

@[simp] theorem State.mergeWord_mem (n : Nat) : (s.mergeWord n).mem = s.mem := by
  unfold State.mergeWord; dsimp only; split <;> split <;> rfl

@[simp] theorem State.mergeWords_mem (k : Nat) : ∀ (s : State) (n : Nat), (s.mergeWords n k).mem = s.mem := by
  induction k with
  | zero => intro s n; rfl
  | succ k ih => intro s n; exact (ih _ _).trans (s.mergeWord_mem n)

@[simp] theorem State.setPoison_mem (n : Nat) (p : Bool) : (s.setPoison n p).mem = s.mem := State.mergeWord_mem _ n

@[simp] theorem State.mergeWord_poison (n : Nat) : (s.mergeWord n).poison = s.poison := by
  unfold State.mergeWord; dsimp only; split <;> split <;> rfl

@[simp] theorem State.mergeWords_poison (k : Nat) : ∀ (s : State) (n : Nat), (s.mergeWords n k).poison = s.poison := by
  induction k with
  | zero => intro s n; rfl
  | succ k ih => intro s n; exact (ih _ _).trans (s.mergeWord_poison n)

@[simp] theorem State.setPoison_poison (n : Nat) (p : Bool) : (s.setPoison n p).poison = sparseSet (lostBlock s.mc.lost) s.poison n p :=
  State.mergeWord_poison _ n

@[simp] theorem State.mergeWord_cnt (n : Nat) : (s.mergeWord n).cnt = s.cnt := by
  unfold State.mergeWord; dsimp only; split <;> split <;> rfl

@[simp] theorem State.mergeWords_cnt (k : Nat) : ∀ (s : State) (n : Nat), (s.mergeWords n k).cnt = s.cnt := by
  induction k with
  | zero => intro s n; rfl
  | succ k ih => intro s n; exact (ih _ _).trans (s.mergeWord_cnt n)

@[simp] theorem State.setPoison_cnt (n : Nat) (p : Bool) : (s.setPoison n p).cnt = s.cnt := State.mergeWord_cnt _ n

@[simp] theorem State.mergeWord_fresh (n : Nat) : (s.mergeWord n).fresh = s.fresh := by
  unfold State.mergeWord; dsimp only; split <;> split <;> rfl

@[simp] theorem State.mergeWords_fresh (k : Nat) : ∀ (s : State) (n : Nat), (s.mergeWords n k).fresh = s.fresh := by
  induction k with
  | zero => intro s n; rfl
  | succ k ih => intro s n; exact (ih _ _).trans (s.mergeWord_fresh n)

@[simp] theorem State.setPoison_fresh (n : Nat) (p : Bool) : (s.setPoison n p).fresh = s.fresh := State.mergeWord_fresh _ n

@[simp] theorem State.mergeWord_sys (n : Nat) : (s.mergeWord n).sys = s.sys := by
  unfold State.mergeWord; dsimp only; split <;> split <;> rfl

@[simp] theorem State.mergeWords_sys (k : Nat) : ∀ (s : State) (n : Nat), (s.mergeWords n k).sys = s.sys := by
  induction k with
  | zero => intro s n; rfl
  | succ k ih => intro s n; exact (ih _ _).trans (s.mergeWord_sys n)

@[simp] theorem State.setPoison_sys (n : Nat) (p : Bool) : (s.setPoison n p).sys = s.sys := State.mergeWord_sys _ n

@[simp] theorem State.mergeWord_hst (n : Nat) : (s.mergeWord n).hst = s.hst := by
  unfold State.mergeWord; dsimp only; split <;> split <;> rfl

@[simp] theorem State.mergeWords_hst (k : Nat) : ∀ (s : State) (n : Nat), (s.mergeWords n k).hst = s.hst := by
  induction k with
  | zero => intro s n; rfl
  | succ k ih => intro s n; exact (ih _ _).trans (s.mergeWord_hst n)

@[simp] theorem State.setPoison_hst (n : Nat) (p : Bool) : (s.setPoison n p).hst = s.hst := State.mergeWord_hst _ n

@[simp] theorem State.mergeWord_cmt (n : Nat) : (s.mergeWord n).cmt = s.cmt := by
  unfold State.mergeWord; dsimp only; split <;> split <;> rfl

@[simp] theorem State.mergeWords_cmt (k : Nat) : ∀ (s : State) (n : Nat), (s.mergeWords n k).cmt = s.cmt := by
  induction k with
  | zero => intro s n; rfl
  | succ k ih => intro s n; exact (ih _ _).trans (s.mergeWord_cmt n)

@[simp] theorem State.setPoison_cmt (n : Nat) (p : Bool) : (s.setPoison n p).cmt = s.cmt := State.mergeWord_cmt _ n

@[simp] theorem State.mergeWord_sho (n : Nat) : (s.mergeWord n).sho = s.sho := by
  unfold State.mergeWord; dsimp only; split <;> split <;> rfl

@[simp] theorem State.mergeWords_sho (k : Nat) : ∀ (s : State) (n : Nat), (s.mergeWords n k).sho = s.sho := by
  induction k with
  | zero => intro s n; rfl
  | succ k ih => intro s n; exact (ih _ _).trans (s.mergeWord_sho n)

@[simp] theorem State.setPoison_sho (n : Nat) (p : Bool) : (s.setPoison n p).sho = s.sho := State.mergeWord_sho _ n

@[simp] theorem State.mergeWord_tlt (n : Nat) : (s.mergeWord n).tlt = s.tlt := by
  unfold State.mergeWord; dsimp only; split <;> split <;> rfl

@[simp] theorem State.mergeWords_tlt (k : Nat) : ∀ (s : State) (n : Nat), (s.mergeWords n k).tlt = s.tlt := by
  induction k with
  | zero => intro s n; rfl
  | succ k ih => intro s n; exact (ih _ _).trans (s.mergeWord_tlt n)

@[simp] theorem State.setPoison_tlt (n : Nat) (p : Bool) : (s.setPoison n p).tlt = s.tlt := State.mergeWord_tlt _ n

@[simp] theorem State.mergeWord_nvs (n : Nat) : (s.mergeWord n).nvs = s.nvs := by
  unfold State.mergeWord; dsimp only; split <;> split <;> rfl

@[simp] theorem State.mergeWords_nvs (k : Nat) : ∀ (s : State) (n : Nat), (s.mergeWords n k).nvs = s.nvs := by
  induction k with
  | zero => intro s n; rfl
  | succ k ih => intro s n; exact (ih _ _).trans (s.mergeWord_nvs n)

@[simp] theorem State.setPoison_nvs (n : Nat) (p : Bool) : (s.setPoison n p).nvs = s.nvs := State.mergeWord_nvs _ n

@[simp] theorem State.mergeWord_sec (n : Nat) : (s.mergeWord n).sec = s.sec := by
  unfold State.mergeWord; dsimp only; split <;> split <;> rfl

@[simp] theorem State.mergeWords_sec (k : Nat) : ∀ (s : State) (n : Nat), (s.mergeWords n k).sec = s.sec := by
  induction k with
  | zero => intro s n; rfl
  | succ k ih => intro s n; exact (ih _ _).trans (s.mergeWord_sec n)

@[simp] theorem State.setPoison_sec (n : Nat) (p : Bool) : (s.setPoison n p).sec = s.sec := State.mergeWord_sec _ n

@[simp] theorem State.mergeWord_rrg (n : Nat) : (s.mergeWord n).rrg = s.rrg := by
  unfold State.mergeWord; dsimp only; split <;> split <;> rfl

@[simp] theorem State.mergeWords_rrg (k : Nat) : ∀ (s : State) (n : Nat), (s.mergeWords n k).rrg = s.rrg := by
  induction k with
  | zero => intro s n; rfl
  | succ k ih => intro s n; exact (ih _ _).trans (s.mergeWord_rrg n)

@[simp] theorem State.setPoison_rrg (n : Nat) (p : Bool) : (s.setPoison n p).rrg = s.rrg := State.mergeWord_rrg _ n

@[simp] theorem State.mergeWord_brd (n : Nat) : (s.mergeWord n).brd = s.brd := by
  unfold State.mergeWord; dsimp only; split <;> split <;> rfl

@[simp] theorem State.mergeWords_brd (k : Nat) : ∀ (s : State) (n : Nat), (s.mergeWords n k).brd = s.brd := by
  induction k with
  | zero => intro s n; rfl
  | succ k ih => intro s n; exact (ih _ _).trans (s.mergeWord_brd n)

@[simp] theorem State.setPoison_brd (n : Nat) (p : Bool) : (s.setPoison n p).brd = s.brd := State.mergeWord_brd _ n

@[simp] theorem State.mergeWord_slt (n : Nat) : (s.mergeWord n).slt = s.slt := by
  unfold State.mergeWord; dsimp only; split <;> split <;> rfl

@[simp] theorem State.mergeWords_slt (k : Nat) : ∀ (s : State) (n : Nat), (s.mergeWords n k).slt = s.slt := by
  induction k with
  | zero => intro s n; rfl
  | succ k ih => intro s n; exact (ih _ _).trans (s.mergeWord_slt n)

@[simp] theorem State.setPoison_slt (n : Nat) (p : Bool) : (s.setPoison n p).slt = s.slt := State.mergeWord_slt _ n

@[simp] theorem State.mergeWord_kln (n : Nat) : (s.mergeWord n).kln = s.kln := by
  unfold State.mergeWord; dsimp only; split <;> split <;> rfl

@[simp] theorem State.mergeWords_kln (k : Nat) : ∀ (s : State) (n : Nat), (s.mergeWords n k).kln = s.kln := by
  induction k with
  | zero => intro s n; rfl
  | succ k ih => intro s n; exact (ih _ _).trans (s.mergeWord_kln n)

@[simp] theorem State.setPoison_kln (n : Nat) (p : Bool) : (s.setPoison n p).kln = s.kln := State.mergeWord_kln _ n

@[simp] theorem State.mergeWord_rok (n : Nat) : (s.mergeWord n).rok = s.rok := by
  unfold State.mergeWord; dsimp only; split <;> split <;> rfl

@[simp] theorem State.mergeWords_rok (k : Nat) : ∀ (s : State) (n : Nat), (s.mergeWords n k).rok = s.rok := by
  induction k with
  | zero => intro s n; rfl
  | succ k ih => intro s n; exact (ih _ _).trans (s.mergeWord_rok n)

@[simp] theorem State.setPoison_rok (n : Nat) (p : Bool) : (s.setPoison n p).rok = s.rok := State.mergeWord_rok _ n

@[simp] theorem State.mergeWord_sve (n : Nat) : (s.mergeWord n).sve = s.sve := by
  unfold State.mergeWord; dsimp only; split <;> split <;> rfl

@[simp] theorem State.mergeWords_sve (k : Nat) : ∀ (s : State) (n : Nat), (s.mergeWords n k).sve = s.sve := by
  induction k with
  | zero => intro s n; rfl
  | succ k ih => intro s n; exact (ih _ _).trans (s.mergeWord_sve n)

@[simp] theorem State.setPoison_sve (n : Nat) (p : Bool) : (s.setPoison n p).sve = s.sve := State.mergeWord_sve _ n

@[simp] theorem State.mergeWord_trw (n : Nat) : (s.mergeWord n).trw = s.trw := by
  unfold State.mergeWord; dsimp only; split <;> split <;> rfl

@[simp] theorem State.mergeWords_trw (k : Nat) : ∀ (s : State) (n : Nat), (s.mergeWords n k).trw = s.trw := by
  induction k with
  | zero => intro s n; rfl
  | succ k ih => intro s n; exact (ih _ _).trans (s.mergeWord_trw n)

@[simp] theorem State.setPoison_trw (n : Nat) (p : Bool) : (s.setPoison n p).trw = s.trw := State.mergeWord_trw _ n

@[simp] theorem State.mergeWord_out (n : Nat) : (s.mergeWord n).out = s.out := by
  unfold State.mergeWord; dsimp only; split <;> split <;> rfl

@[simp] theorem State.mergeWords_out (k : Nat) : ∀ (s : State) (n : Nat), (s.mergeWords n k).out = s.out := by
  induction k with
  | zero => intro s n; rfl
  | succ k ih => intro s n; exact (ih _ _).trans (s.mergeWord_out n)

@[simp] theorem State.setPoison_out (n : Nat) (p : Bool) : (s.setPoison n p).out = s.out := State.mergeWord_out _ n

@[simp] theorem State.mergeWord_tlk (n : Nat) : (s.mergeWord n).tlk = s.tlk := by
  unfold State.mergeWord; dsimp only; split <;> split <;> rfl

@[simp] theorem State.mergeWords_tlk (k : Nat) : ∀ (s : State) (n : Nat), (s.mergeWords n k).tlk = s.tlk := by
  induction k with
  | zero => intro s n; rfl
  | succ k ih => intro s n; exact (ih _ _).trans (s.mergeWord_tlk n)

@[simp] theorem State.setPoison_tlk (n : Nat) (p : Bool) : (s.setPoison n p).tlk = s.tlk := State.mergeWord_tlk _ n

@[simp] theorem State.mergeWord_pnl (n : Nat) : (s.mergeWord n).pnl = s.pnl := by
  unfold State.mergeWord; dsimp only; split <;> split <;> rfl

@[simp] theorem State.mergeWords_pnl (k : Nat) : ∀ (s : State) (n : Nat), (s.mergeWords n k).pnl = s.pnl := by
  induction k with
  | zero => intro s n; rfl
  | succ k ih => intro s n; exact (ih _ _).trans (s.mergeWord_pnl n)

@[simp] theorem State.setPoison_pnl (n : Nat) (p : Bool) : (s.setPoison n p).pnl = s.pnl := State.mergeWord_pnl _ n

@[simp] theorem State.mergeWord_lbl (n : Nat) : (s.mergeWord n).lbl = s.lbl := by
  unfold State.mergeWord; dsimp only; split <;> split <;> rfl

@[simp] theorem State.mergeWords_lbl (k : Nat) : ∀ (s : State) (n : Nat), (s.mergeWords n k).lbl = s.lbl := by
  induction k with
  | zero => intro s n; rfl
  | succ k ih => intro s n; exact (ih _ _).trans (s.mergeWord_lbl n)

@[simp] theorem State.setPoison_lbl (n : Nat) (p : Bool) : (s.setPoison n p).lbl = s.lbl := State.mergeWord_lbl _ n

@[simp] theorem State.mergeWord_tim (n : Nat) : (s.mergeWord n).tim = s.tim := by
  unfold State.mergeWord; dsimp only; split <;> split <;> rfl

@[simp] theorem State.mergeWords_tim (k : Nat) : ∀ (s : State) (n : Nat), (s.mergeWords n k).tim = s.tim := by
  induction k with
  | zero => intro s n; rfl
  | succ k ih => intro s n; exact (ih _ _).trans (s.mergeWord_tim n)

@[simp] theorem State.setPoison_tim (n : Nat) (p : Bool) : (s.setPoison n p).tim = s.tim := State.mergeWord_tim _ n

@[simp] theorem State.mergeWord_aud (n : Nat) : (s.mergeWord n).aud = s.aud := by
  unfold State.mergeWord; dsimp only; split <;> split <;> rfl

@[simp] theorem State.mergeWords_aud (k : Nat) : ∀ (s : State) (n : Nat), (s.mergeWords n k).aud = s.aud := by
  induction k with
  | zero => intro s n; rfl
  | succ k ih => intro s n; exact (ih _ _).trans (s.mergeWord_aud n)

@[simp] theorem State.setPoison_aud (n : Nat) (p : Bool) : (s.setPoison n p).aud = s.aud := State.mergeWord_aud _ n

@[simp] theorem State.mergeWord_chk (n : Nat) : (s.mergeWord n).chk = s.chk := by
  unfold State.mergeWord; dsimp only; split <;> split <;> rfl

@[simp] theorem State.mergeWords_chk (k : Nat) : ∀ (s : State) (n : Nat), (s.mergeWords n k).chk = s.chk := by
  induction k with
  | zero => intro s n; rfl
  | succ k ih => intro s n; exact (ih _ _).trans (s.mergeWord_chk n)

@[simp] theorem State.setPoison_chk (n : Nat) (p : Bool) : (s.setPoison n p).chk = s.chk := State.mergeWord_chk _ n

@[simp] theorem State.mergeWord_thm (n : Nat) : (s.mergeWord n).thm = s.thm := by
  unfold State.mergeWord; dsimp only; split <;> split <;> rfl

@[simp] theorem State.mergeWords_thm (k : Nat) : ∀ (s : State) (n : Nat), (s.mergeWords n k).thm = s.thm := by
  induction k with
  | zero => intro s n; rfl
  | succ k ih => intro s n; exact (ih _ _).trans (s.mergeWord_thm n)

@[simp] theorem State.setPoison_thm (n : Nat) (p : Bool) : (s.setPoison n p).thm = s.thm := State.mergeWord_thm _ n

@[simp] theorem State.mergeWord_pwr (n : Nat) : (s.mergeWord n).pwr = s.pwr := by
  unfold State.mergeWord; dsimp only; split <;> split <;> rfl

@[simp] theorem State.mergeWords_pwr (k : Nat) : ∀ (s : State) (n : Nat), (s.mergeWords n k).pwr = s.pwr := by
  induction k with
  | zero => intro s n; rfl
  | succ k ih => intro s n; exact (ih _ _).trans (s.mergeWord_pwr n)

@[simp] theorem State.setPoison_pwr (n : Nat) (p : Bool) : (s.setPoison n p).pwr = s.pwr := State.mergeWord_pwr _ n

@[simp] theorem State.mergeWord_fw (n : Nat) : (s.mergeWord n).fw = s.fw := by
  unfold State.mergeWord; dsimp only; split <;> split <;> rfl

@[simp] theorem State.mergeWords_fw (k : Nat) : ∀ (s : State) (n : Nat), (s.mergeWords n k).fw = s.fw := by
  induction k with
  | zero => intro s n; rfl
  | succ k ih => intro s n; exact (ih _ _).trans (s.mergeWord_fw n)

@[simp] theorem State.setPoison_fw (n : Nat) (p : Bool) : (s.setPoison n p).fw = s.fw := State.mergeWord_fw _ n

@[simp] theorem State.mergeWord_dmp (n : Nat) : (s.mergeWord n).dmp = s.dmp := by
  unfold State.mergeWord; dsimp only; split <;> split <;> rfl

@[simp] theorem State.mergeWords_dmp (k : Nat) : ∀ (s : State) (n : Nat), (s.mergeWords n k).dmp = s.dmp := by
  induction k with
  | zero => intro s n; rfl
  | succ k ih => intro s n; exact (ih _ _).trans (s.mergeWord_dmp n)

@[simp] theorem State.setPoison_dmp (n : Nat) (p : Bool) : (s.setPoison n p).dmp = s.dmp := State.mergeWord_dmp _ n

@[simp] theorem State.mergeWord_dbg (n : Nat) : (s.mergeWord n).dbg = s.dbg := by
  unfold State.mergeWord; dsimp only; split <;> split <;> rfl

@[simp] theorem State.mergeWords_dbg (k : Nat) : ∀ (s : State) (n : Nat), (s.mergeWords n k).dbg = s.dbg := by
  induction k with
  | zero => intro s n; rfl
  | succ k ih => intro s n; exact (ih _ _).trans (s.mergeWord_dbg n)

@[simp] theorem State.setPoison_dbg (n : Nat) (p : Bool) : (s.setPoison n p).dbg = s.dbg := State.mergeWord_dbg _ n

@[simp] theorem State.cleanBlocks_now (n : Nat) : ∀ (s : State) (b : Nat), (s.cleanBlocks b n).now = s.now := by
  induction n with
  | zero => intro s b; rfl
  | succ n ih => intro s b; exact (ih _ _).trans (s.setPoison_now b false)

@[simp] theorem State.cleanBlocks_off (n : Nat) : ∀ (s : State) (b : Nat), (s.cleanBlocks b n).off = s.off := by
  induction n with
  | zero => intro s b; rfl
  | succ n ih => intro s b; exact (ih _ _).trans (s.setPoison_off b false)

@[simp] theorem State.cleanBlocks_pending (n : Nat) : ∀ (s : State) (b : Nat), (s.cleanBlocks b n).pending = s.pending := by
  induction n with
  | zero => intro s b; rfl
  | succ n ih => intro s b; exact (ih _ _).trans (s.setPoison_pending b false)

@[simp] theorem State.cleanBlocks_regs (n : Nat) : ∀ (s : State) (b : Nat), (s.cleanBlocks b n).regs = s.regs := by
  induction n with
  | zero => intro s b; rfl
  | succ n ih => intro s b; exact (ih _ _).trans (s.setPoison_regs b false)

@[simp] theorem State.cleanBlocks_lowPend (n : Nat) : ∀ (s : State) (b : Nat), (s.cleanBlocks b n).lowPend = s.lowPend := by
  induction n with
  | zero => intro s b; rfl
  | succ n ih => intro s b; exact (ih _ _).trans (s.setPoison_lowPend b false)

@[simp] theorem State.cleanBlocks_hiLatch (n : Nat) : ∀ (s : State) (b : Nat), (s.cleanBlocks b n).hiLatch = s.hiLatch := by
  induction n with
  | zero => intro s b; rfl
  | succ n ih => intro s b; exact (ih _ _).trans (s.setPoison_hiLatch b false)

@[simp] theorem State.cleanBlocks_mem (n : Nat) : ∀ (s : State) (b : Nat), (s.cleanBlocks b n).mem = s.mem := by
  induction n with
  | zero => intro s b; rfl
  | succ n ih => intro s b; exact (ih _ _).trans (s.setPoison_mem b false)

@[simp] theorem State.cleanBlocks_cnt (n : Nat) : ∀ (s : State) (b : Nat), (s.cleanBlocks b n).cnt = s.cnt := by
  induction n with
  | zero => intro s b; rfl
  | succ n ih => intro s b; exact (ih _ _).trans (s.setPoison_cnt b false)

@[simp] theorem State.cleanBlocks_fresh (n : Nat) : ∀ (s : State) (b : Nat), (s.cleanBlocks b n).fresh = s.fresh := by
  induction n with
  | zero => intro s b; rfl
  | succ n ih => intro s b; exact (ih _ _).trans (s.setPoison_fresh b false)

@[simp] theorem State.cleanBlocks_sys (n : Nat) : ∀ (s : State) (b : Nat), (s.cleanBlocks b n).sys = s.sys := by
  induction n with
  | zero => intro s b; rfl
  | succ n ih => intro s b; exact (ih _ _).trans (s.setPoison_sys b false)

@[simp] theorem State.cleanBlocks_hst (n : Nat) : ∀ (s : State) (b : Nat), (s.cleanBlocks b n).hst = s.hst := by
  induction n with
  | zero => intro s b; rfl
  | succ n ih => intro s b; exact (ih _ _).trans (s.setPoison_hst b false)

@[simp] theorem State.cleanBlocks_cmt (n : Nat) : ∀ (s : State) (b : Nat), (s.cleanBlocks b n).cmt = s.cmt := by
  induction n with
  | zero => intro s b; rfl
  | succ n ih => intro s b; exact (ih _ _).trans (s.setPoison_cmt b false)

@[simp] theorem State.cleanBlocks_sho (n : Nat) : ∀ (s : State) (b : Nat), (s.cleanBlocks b n).sho = s.sho := by
  induction n with
  | zero => intro s b; rfl
  | succ n ih => intro s b; exact (ih _ _).trans (s.setPoison_sho b false)

@[simp] theorem State.cleanBlocks_tlt (n : Nat) : ∀ (s : State) (b : Nat), (s.cleanBlocks b n).tlt = s.tlt := by
  induction n with
  | zero => intro s b; rfl
  | succ n ih => intro s b; exact (ih _ _).trans (s.setPoison_tlt b false)

@[simp] theorem State.cleanBlocks_nvs (n : Nat) : ∀ (s : State) (b : Nat), (s.cleanBlocks b n).nvs = s.nvs := by
  induction n with
  | zero => intro s b; rfl
  | succ n ih => intro s b; exact (ih _ _).trans (s.setPoison_nvs b false)

@[simp] theorem State.cleanBlocks_sec (n : Nat) : ∀ (s : State) (b : Nat), (s.cleanBlocks b n).sec = s.sec := by
  induction n with
  | zero => intro s b; rfl
  | succ n ih => intro s b; exact (ih _ _).trans (s.setPoison_sec b false)

@[simp] theorem State.cleanBlocks_rrg (n : Nat) : ∀ (s : State) (b : Nat), (s.cleanBlocks b n).rrg = s.rrg := by
  induction n with
  | zero => intro s b; rfl
  | succ n ih => intro s b; exact (ih _ _).trans (s.setPoison_rrg b false)

@[simp] theorem State.cleanBlocks_brd (n : Nat) : ∀ (s : State) (b : Nat), (s.cleanBlocks b n).brd = s.brd := by
  induction n with
  | zero => intro s b; rfl
  | succ n ih => intro s b; exact (ih _ _).trans (s.setPoison_brd b false)

@[simp] theorem State.cleanBlocks_slt (n : Nat) : ∀ (s : State) (b : Nat), (s.cleanBlocks b n).slt = s.slt := by
  induction n with
  | zero => intro s b; rfl
  | succ n ih => intro s b; exact (ih _ _).trans (s.setPoison_slt b false)

@[simp] theorem State.cleanBlocks_kln (n : Nat) : ∀ (s : State) (b : Nat), (s.cleanBlocks b n).kln = s.kln := by
  induction n with
  | zero => intro s b; rfl
  | succ n ih => intro s b; exact (ih _ _).trans (s.setPoison_kln b false)

@[simp] theorem State.cleanBlocks_rok (n : Nat) : ∀ (s : State) (b : Nat), (s.cleanBlocks b n).rok = s.rok := by
  induction n with
  | zero => intro s b; rfl
  | succ n ih => intro s b; exact (ih _ _).trans (s.setPoison_rok b false)

@[simp] theorem State.cleanBlocks_sve (n : Nat) : ∀ (s : State) (b : Nat), (s.cleanBlocks b n).sve = s.sve := by
  induction n with
  | zero => intro s b; rfl
  | succ n ih => intro s b; exact (ih _ _).trans (s.setPoison_sve b false)

@[simp] theorem State.cleanBlocks_trw (n : Nat) : ∀ (s : State) (b : Nat), (s.cleanBlocks b n).trw = s.trw := by
  induction n with
  | zero => intro s b; rfl
  | succ n ih => intro s b; exact (ih _ _).trans (s.setPoison_trw b false)

@[simp] theorem State.cleanBlocks_out (n : Nat) : ∀ (s : State) (b : Nat), (s.cleanBlocks b n).out = s.out := by
  induction n with
  | zero => intro s b; rfl
  | succ n ih => intro s b; exact (ih _ _).trans (s.setPoison_out b false)

@[simp] theorem State.cleanBlocks_tlk (n : Nat) : ∀ (s : State) (b : Nat), (s.cleanBlocks b n).tlk = s.tlk := by
  induction n with
  | zero => intro s b; rfl
  | succ n ih => intro s b; exact (ih _ _).trans (s.setPoison_tlk b false)

@[simp] theorem State.cleanBlocks_pnl (n : Nat) : ∀ (s : State) (b : Nat), (s.cleanBlocks b n).pnl = s.pnl := by
  induction n with
  | zero => intro s b; rfl
  | succ n ih => intro s b; exact (ih _ _).trans (s.setPoison_pnl b false)

@[simp] theorem State.cleanBlocks_lbl (n : Nat) : ∀ (s : State) (b : Nat), (s.cleanBlocks b n).lbl = s.lbl := by
  induction n with
  | zero => intro s b; rfl
  | succ n ih => intro s b; exact (ih _ _).trans (s.setPoison_lbl b false)

@[simp] theorem State.cleanBlocks_tim (n : Nat) : ∀ (s : State) (b : Nat), (s.cleanBlocks b n).tim = s.tim := by
  induction n with
  | zero => intro s b; rfl
  | succ n ih => intro s b; exact (ih _ _).trans (s.setPoison_tim b false)

@[simp] theorem State.cleanBlocks_aud (n : Nat) : ∀ (s : State) (b : Nat), (s.cleanBlocks b n).aud = s.aud := by
  induction n with
  | zero => intro s b; rfl
  | succ n ih => intro s b; exact (ih _ _).trans (s.setPoison_aud b false)

@[simp] theorem State.cleanBlocks_chk (n : Nat) : ∀ (s : State) (b : Nat), (s.cleanBlocks b n).chk = s.chk := by
  induction n with
  | zero => intro s b; rfl
  | succ n ih => intro s b; exact (ih _ _).trans (s.setPoison_chk b false)

@[simp] theorem State.cleanBlocks_thm (n : Nat) : ∀ (s : State) (b : Nat), (s.cleanBlocks b n).thm = s.thm := by
  induction n with
  | zero => intro s b; rfl
  | succ n ih => intro s b; exact (ih _ _).trans (s.setPoison_thm b false)

@[simp] theorem State.cleanBlocks_pwr (n : Nat) : ∀ (s : State) (b : Nat), (s.cleanBlocks b n).pwr = s.pwr := by
  induction n with
  | zero => intro s b; rfl
  | succ n ih => intro s b; exact (ih _ _).trans (s.setPoison_pwr b false)

@[simp] theorem State.cleanBlocks_fw (n : Nat) : ∀ (s : State) (b : Nat), (s.cleanBlocks b n).fw = s.fw := by
  induction n with
  | zero => intro s b; rfl
  | succ n ih => intro s b; exact (ih _ _).trans (s.setPoison_fw b false)

@[simp] theorem State.cleanBlocks_dmp (n : Nat) : ∀ (s : State) (b : Nat), (s.cleanBlocks b n).dmp = s.dmp := by
  induction n with
  | zero => intro s b; rfl
  | succ n ih => intro s b; exact (ih _ _).trans (s.setPoison_dmp b false)

@[simp] theorem State.cleanBlocks_dbg (n : Nat) : ∀ (s : State) (b : Nat), (s.cleanBlocks b n).dbg = s.dbg := by
  induction n with
  | zero => intro s b; rfl
  | succ n ih => intro s b; exact (ih _ _).trans (s.setPoison_dbg b false)

@[simp] theorem State.write_now (a : Nat) (bs : List Nat) : (s.write a bs).now = s.now := by
  unfold State.write; dsimp only; split <;> simp

@[simp] theorem State.write_off (a : Nat) (bs : List Nat) : (s.write a bs).off = s.off := by
  unfold State.write; dsimp only; split <;> simp

@[simp] theorem State.write_pending (a : Nat) (bs : List Nat) : (s.write a bs).pending = s.pending := by
  unfold State.write; dsimp only; split <;> simp

@[simp] theorem State.write_regs (a : Nat) (bs : List Nat) : (s.write a bs).regs = s.regs := by
  unfold State.write; dsimp only; split <;> simp

@[simp] theorem State.write_lowPend (a : Nat) (bs : List Nat) : (s.write a bs).lowPend = s.lowPend := by
  unfold State.write; dsimp only; split <;> simp

@[simp] theorem State.write_hiLatch (a : Nat) (bs : List Nat) : (s.write a bs).hiLatch = s.hiLatch := by
  unfold State.write; dsimp only; split <;> simp

@[simp] theorem State.write_cnt (a : Nat) (bs : List Nat) : (s.write a bs).cnt = s.cnt := by
  unfold State.write; dsimp only; split <;> simp

@[simp] theorem State.write_fresh (a : Nat) (bs : List Nat) : (s.write a bs).fresh = s.fresh := by
  unfold State.write; dsimp only; split <;> simp

@[simp] theorem State.write_sys (a : Nat) (bs : List Nat) : (s.write a bs).sys = s.sys := by
  unfold State.write; dsimp only; split <;> simp

@[simp] theorem State.write_hst (a : Nat) (bs : List Nat) : (s.write a bs).hst = s.hst := by
  unfold State.write; dsimp only; split <;> simp

@[simp] theorem State.write_cmt (a : Nat) (bs : List Nat) : (s.write a bs).cmt = s.cmt := by
  unfold State.write; dsimp only; split <;> simp

@[simp] theorem State.write_sho (a : Nat) (bs : List Nat) : (s.write a bs).sho = s.sho := by
  unfold State.write; dsimp only; split <;> simp

@[simp] theorem State.write_tlt (a : Nat) (bs : List Nat) : (s.write a bs).tlt = s.tlt := by
  unfold State.write; dsimp only; split <;> simp

@[simp] theorem State.write_nvs (a : Nat) (bs : List Nat) : (s.write a bs).nvs = s.nvs := by
  unfold State.write; dsimp only; split <;> simp

@[simp] theorem State.write_sec (a : Nat) (bs : List Nat) : (s.write a bs).sec = s.sec := by
  unfold State.write; dsimp only; split <;> simp

@[simp] theorem State.write_rrg (a : Nat) (bs : List Nat) : (s.write a bs).rrg = s.rrg := by
  unfold State.write; dsimp only; split <;> simp

@[simp] theorem State.write_brd (a : Nat) (bs : List Nat) : (s.write a bs).brd = s.brd := by
  unfold State.write; dsimp only; split <;> simp

@[simp] theorem State.write_slt (a : Nat) (bs : List Nat) : (s.write a bs).slt = s.slt := by
  unfold State.write; dsimp only; split <;> simp

@[simp] theorem State.write_kln (a : Nat) (bs : List Nat) : (s.write a bs).kln = s.kln := by
  unfold State.write; dsimp only; split <;> simp

@[simp] theorem State.write_rok (a : Nat) (bs : List Nat) : (s.write a bs).rok = s.rok := by
  unfold State.write; dsimp only; split <;> simp

@[simp] theorem State.write_sve (a : Nat) (bs : List Nat) : (s.write a bs).sve = s.sve := by
  unfold State.write; dsimp only; split <;> simp

@[simp] theorem State.write_trw (a : Nat) (bs : List Nat) : (s.write a bs).trw = s.trw := by
  unfold State.write; dsimp only; split <;> simp

@[simp] theorem State.write_out (a : Nat) (bs : List Nat) : (s.write a bs).out = s.out := by
  unfold State.write; dsimp only; split <;> simp

@[simp] theorem State.write_tlk (a : Nat) (bs : List Nat) : (s.write a bs).tlk = s.tlk := by
  unfold State.write; dsimp only; split <;> simp

@[simp] theorem State.write_pnl (a : Nat) (bs : List Nat) : (s.write a bs).pnl = s.pnl := by
  unfold State.write; dsimp only; split <;> simp

@[simp] theorem State.write_lbl (a : Nat) (bs : List Nat) : (s.write a bs).lbl = s.lbl := by
  unfold State.write; dsimp only; split <;> simp

@[simp] theorem State.write_tim (a : Nat) (bs : List Nat) : (s.write a bs).tim = s.tim := by
  unfold State.write; dsimp only; split <;> simp

@[simp] theorem State.write_aud (a : Nat) (bs : List Nat) : (s.write a bs).aud = s.aud := by
  unfold State.write; dsimp only; split <;> simp

@[simp] theorem State.write_chk (a : Nat) (bs : List Nat) : (s.write a bs).chk = s.chk := by
  unfold State.write; dsimp only; split <;> simp

@[simp] theorem State.write_thm (a : Nat) (bs : List Nat) : (s.write a bs).thm = s.thm := by
  unfold State.write; dsimp only; split <;> simp

@[simp] theorem State.write_pwr (a : Nat) (bs : List Nat) : (s.write a bs).pwr = s.pwr := by
  unfold State.write; dsimp only; split <;> simp

@[simp] theorem State.write_fw (a : Nat) (bs : List Nat) : (s.write a bs).fw = s.fw := by
  unfold State.write; dsimp only; split <;> simp

@[simp] theorem State.write_dmp (a : Nat) (bs : List Nat) : (s.write a bs).dmp = s.dmp := by
  unfold State.write; dsimp only; split <;> simp

@[simp] theorem State.write_dbg (a : Nat) (bs : List Nat) : (s.write a bs).dbg = s.dbg := by
  unfold State.write; dsimp only; split <;> simp

@[simp] theorem State.write_mem (a : Nat) (bs : List Nat) : (s.write a bs).mem = memWrite s.mem a bs := by
  unfold State.write; dsimp only; split <;> simp

/-! ### What an access does at the controller -/

@[simp] theorem State.noteWrite_now (p a n : Nat) : (s.noteWrite p a n).now = s.now := by
  unfold State.noteWrite
  have h : ∀ (l : List Nat) (t : State), (l.foldl (fun s b => s.event 0x1011 0 b (memArg1 p b)) t).now = t.now := by
    intro l; induction l with
    | nil => intro t; rfl
    | cons b l ih => intro t; exact ih _
  dsimp only; split <;> simp [h, State.rangeEvent]

@[simp] theorem State.store_now (p a : Nat) (bs : List Nat) : (s.store p a bs).now = s.now := by simp [State.store]

@[simp] theorem State.noteWrite_off (p a n : Nat) : (s.noteWrite p a n).off = s.off := by
  unfold State.noteWrite
  have h : ∀ (l : List Nat) (t : State), (l.foldl (fun s b => s.event 0x1011 0 b (memArg1 p b)) t).off = t.off := by
    intro l; induction l with
    | nil => intro t; rfl
    | cons b l ih => intro t; exact ih _
  dsimp only; split <;> simp [h, State.rangeEvent]

@[simp] theorem State.store_off (p a : Nat) (bs : List Nat) : (s.store p a bs).off = s.off := by simp [State.store]

@[simp] theorem State.noteWrite_pending (p a n : Nat) : (s.noteWrite p a n).pending = s.pending := by
  unfold State.noteWrite
  have h : ∀ (l : List Nat) (t : State), (l.foldl (fun s b => s.event 0x1011 0 b (memArg1 p b)) t).pending = t.pending := by
    intro l; induction l with
    | nil => intro t; rfl
    | cons b l ih => intro t; exact ih _
  dsimp only; split <;> simp [h, State.rangeEvent]

@[simp] theorem State.store_pending (p a : Nat) (bs : List Nat) : (s.store p a bs).pending = s.pending := by simp [State.store]

@[simp] theorem State.noteWrite_regs (p a n : Nat) : (s.noteWrite p a n).regs = s.regs := by
  unfold State.noteWrite
  have h : ∀ (l : List Nat) (t : State), (l.foldl (fun s b => s.event 0x1011 0 b (memArg1 p b)) t).regs = t.regs := by
    intro l; induction l with
    | nil => intro t; rfl
    | cons b l ih => intro t; exact ih _
  dsimp only; split <;> simp [h, State.rangeEvent]

@[simp] theorem State.store_regs (p a : Nat) (bs : List Nat) : (s.store p a bs).regs = s.regs := by simp [State.store]

@[simp] theorem State.noteWrite_lowPend (p a n : Nat) : (s.noteWrite p a n).lowPend = s.lowPend := by
  unfold State.noteWrite
  have h : ∀ (l : List Nat) (t : State), (l.foldl (fun s b => s.event 0x1011 0 b (memArg1 p b)) t).lowPend = t.lowPend := by
    intro l; induction l with
    | nil => intro t; rfl
    | cons b l ih => intro t; exact ih _
  dsimp only; split <;> simp [h, State.rangeEvent]

@[simp] theorem State.store_lowPend (p a : Nat) (bs : List Nat) : (s.store p a bs).lowPend = s.lowPend := by simp [State.store]

@[simp] theorem State.noteWrite_hiLatch (p a n : Nat) : (s.noteWrite p a n).hiLatch = s.hiLatch := by
  unfold State.noteWrite
  have h : ∀ (l : List Nat) (t : State), (l.foldl (fun s b => s.event 0x1011 0 b (memArg1 p b)) t).hiLatch = t.hiLatch := by
    intro l; induction l with
    | nil => intro t; rfl
    | cons b l ih => intro t; exact ih _
  dsimp only; split <;> simp [h, State.rangeEvent]

@[simp] theorem State.store_hiLatch (p a : Nat) (bs : List Nat) : (s.store p a bs).hiLatch = s.hiLatch := by simp [State.store]

@[simp] theorem State.noteWrite_mem (p a n : Nat) : (s.noteWrite p a n).mem = s.mem := by
  unfold State.noteWrite
  have h : ∀ (l : List Nat) (t : State), (l.foldl (fun s b => s.event 0x1011 0 b (memArg1 p b)) t).mem = t.mem := by
    intro l; induction l with
    | nil => intro t; rfl
    | cons b l ih => intro t; exact ih _
  dsimp only; split <;> simp [h, State.rangeEvent]

@[simp] theorem State.store_mem (p a : Nat) (bs : List Nat) : (s.store p a bs).mem = memWrite s.mem a bs := by simp [State.store]

@[simp] theorem State.noteWrite_poison (p a n : Nat) : (s.noteWrite p a n).poison = s.poison := by
  unfold State.noteWrite
  have h : ∀ (l : List Nat) (t : State), (l.foldl (fun s b => s.event 0x1011 0 b (memArg1 p b)) t).poison = t.poison := by
    intro l; induction l with
    | nil => intro t; rfl
    | cons b l ih => intro t; exact ih _
  dsimp only; split <;> simp [h, State.rangeEvent]

@[simp] theorem State.noteWrite_fresh (p a n : Nat) : (s.noteWrite p a n).fresh = s.fresh := by
  unfold State.noteWrite
  have h : ∀ (l : List Nat) (t : State), (l.foldl (fun s b => s.event 0x1011 0 b (memArg1 p b)) t).fresh = t.fresh := by
    intro l; induction l with
    | nil => intro t; rfl
    | cons b l ih => intro t; exact ih _
  dsimp only; split <;> simp [h, State.rangeEvent]

@[simp] theorem State.store_fresh (p a : Nat) (bs : List Nat) : (s.store p a bs).fresh = s.fresh := by simp [State.store]

@[simp] theorem State.noteWrite_hst (p a n : Nat) : (s.noteWrite p a n).hst = s.hst := by
  unfold State.noteWrite
  have h : ∀ (l : List Nat) (t : State), (l.foldl (fun s b => s.event 0x1011 0 b (memArg1 p b)) t).hst = t.hst := by
    intro l; induction l with
    | nil => intro t; rfl
    | cons b l ih => intro t; exact ih _
  dsimp only; split <;> simp [h, State.rangeEvent]

@[simp] theorem State.store_hst (p a : Nat) (bs : List Nat) : (s.store p a bs).hst = s.hst := by simp [State.store]

@[simp] theorem State.noteWrite_cmt (p a n : Nat) : (s.noteWrite p a n).cmt = s.cmt := by
  unfold State.noteWrite
  have h : ∀ (l : List Nat) (t : State), (l.foldl (fun s b => s.event 0x1011 0 b (memArg1 p b)) t).cmt = t.cmt := by
    intro l; induction l with
    | nil => intro t; rfl
    | cons b l ih => intro t; exact ih _
  dsimp only; split <;> simp [h, State.rangeEvent]

@[simp] theorem State.store_cmt (p a : Nat) (bs : List Nat) : (s.store p a bs).cmt = s.cmt := by simp [State.store]

@[simp] theorem State.noteWrite_sho (p a n : Nat) : (s.noteWrite p a n).sho = s.sho := by
  unfold State.noteWrite
  have h : ∀ (l : List Nat) (t : State), (l.foldl (fun s b => s.event 0x1011 0 b (memArg1 p b)) t).sho = t.sho := by
    intro l; induction l with
    | nil => intro t; rfl
    | cons b l ih => intro t; exact ih _
  dsimp only; split <;> simp [h, State.rangeEvent]

@[simp] theorem State.store_sho (p a : Nat) (bs : List Nat) : (s.store p a bs).sho = s.sho := by simp [State.store]

@[simp] theorem State.noteWrite_tlt (p a n : Nat) : (s.noteWrite p a n).tlt = s.tlt := by
  unfold State.noteWrite
  have h : ∀ (l : List Nat) (t : State), (l.foldl (fun s b => s.event 0x1011 0 b (memArg1 p b)) t).tlt = t.tlt := by
    intro l; induction l with
    | nil => intro t; rfl
    | cons b l ih => intro t; exact ih _
  dsimp only; split <;> simp [h, State.rangeEvent]

@[simp] theorem State.store_tlt (p a : Nat) (bs : List Nat) : (s.store p a bs).tlt = s.tlt := by simp [State.store]

@[simp] theorem State.noteWrite_mc (p a n : Nat) : (s.noteWrite p a n).mc = s.mc := by
  unfold State.noteWrite
  have h : ∀ (l : List Nat) (t : State), (l.foldl (fun s b => s.event 0x1011 0 b (memArg1 p b)) t).mc = t.mc := by
    intro l; induction l with
    | nil => intro t; rfl
    | cons b l ih => intro t; exact ih _
  dsimp only; split <;> simp [h, State.rangeEvent]

@[simp] theorem State.noteWrite_nvs (p a n : Nat) : (s.noteWrite p a n).nvs = s.nvs := by
  unfold State.noteWrite
  have h : ∀ (l : List Nat) (t : State), (l.foldl (fun s b => s.event 0x1011 0 b (memArg1 p b)) t).nvs = t.nvs := by
    intro l; induction l with
    | nil => intro t; rfl
    | cons b l ih => intro t; exact ih _
  dsimp only; split <;> simp [h, State.rangeEvent]

@[simp] theorem State.store_nvs (p a : Nat) (bs : List Nat) : (s.store p a bs).nvs = s.nvs := by simp [State.store]

@[simp] theorem State.noteWrite_sec (p a n : Nat) : (s.noteWrite p a n).sec = s.sec := by
  unfold State.noteWrite
  have h : ∀ (l : List Nat) (t : State), (l.foldl (fun s b => s.event 0x1011 0 b (memArg1 p b)) t).sec = t.sec := by
    intro l; induction l with
    | nil => intro t; rfl
    | cons b l ih => intro t; exact ih _
  dsimp only; split <;> simp [h, State.rangeEvent]

@[simp] theorem State.store_sec (p a : Nat) (bs : List Nat) : (s.store p a bs).sec = s.sec := by simp [State.store]

@[simp] theorem State.noteWrite_rrg (p a n : Nat) : (s.noteWrite p a n).rrg = s.rrg := by
  unfold State.noteWrite
  have h : ∀ (l : List Nat) (t : State), (l.foldl (fun s b => s.event 0x1011 0 b (memArg1 p b)) t).rrg = t.rrg := by
    intro l; induction l with
    | nil => intro t; rfl
    | cons b l ih => intro t; exact ih _
  dsimp only; split <;> simp [h, State.rangeEvent]

@[simp] theorem State.store_rrg (p a : Nat) (bs : List Nat) : (s.store p a bs).rrg = s.rrg := by simp [State.store]

@[simp] theorem State.noteWrite_brd (p a n : Nat) : (s.noteWrite p a n).brd = s.brd := by
  unfold State.noteWrite
  have h : ∀ (l : List Nat) (t : State), (l.foldl (fun s b => s.event 0x1011 0 b (memArg1 p b)) t).brd = t.brd := by
    intro l; induction l with
    | nil => intro t; rfl
    | cons b l ih => intro t; exact ih _
  dsimp only; split <;> simp [h, State.rangeEvent]

@[simp] theorem State.store_brd (p a : Nat) (bs : List Nat) : (s.store p a bs).brd = s.brd := by simp [State.store]

@[simp] theorem State.noteWrite_slt (p a n : Nat) : (s.noteWrite p a n).slt = s.slt := by
  unfold State.noteWrite
  have h : ∀ (l : List Nat) (t : State), (l.foldl (fun s b => s.event 0x1011 0 b (memArg1 p b)) t).slt = t.slt := by
    intro l; induction l with
    | nil => intro t; rfl
    | cons b l ih => intro t; exact ih _
  dsimp only; split <;> simp [h, State.rangeEvent]

@[simp] theorem State.store_slt (p a : Nat) (bs : List Nat) : (s.store p a bs).slt = s.slt := by simp [State.store]

@[simp] theorem State.noteWrite_kln (p a n : Nat) : (s.noteWrite p a n).kln = s.kln := by
  unfold State.noteWrite
  have h : ∀ (l : List Nat) (t : State), (l.foldl (fun s b => s.event 0x1011 0 b (memArg1 p b)) t).kln = t.kln := by
    intro l; induction l with
    | nil => intro t; rfl
    | cons b l ih => intro t; exact ih _
  dsimp only; split <;> simp [h, State.rangeEvent]

@[simp] theorem State.store_kln (p a : Nat) (bs : List Nat) : (s.store p a bs).kln = s.kln := by simp [State.store]

@[simp] theorem State.noteWrite_rok (p a n : Nat) : (s.noteWrite p a n).rok = s.rok := by
  unfold State.noteWrite
  have h : ∀ (l : List Nat) (t : State), (l.foldl (fun s b => s.event 0x1011 0 b (memArg1 p b)) t).rok = t.rok := by
    intro l; induction l with
    | nil => intro t; rfl
    | cons b l ih => intro t; exact ih _
  dsimp only; split <;> simp [h, State.rangeEvent]

@[simp] theorem State.store_rok (p a : Nat) (bs : List Nat) : (s.store p a bs).rok = s.rok := by simp [State.store]

@[simp] theorem State.noteWrite_sve (p a n : Nat) : (s.noteWrite p a n).sve = s.sve := by
  unfold State.noteWrite
  have h : ∀ (l : List Nat) (t : State), (l.foldl (fun s b => s.event 0x1011 0 b (memArg1 p b)) t).sve = t.sve := by
    intro l; induction l with
    | nil => intro t; rfl
    | cons b l ih => intro t; exact ih _
  dsimp only; split <;> simp [h, State.rangeEvent]

@[simp] theorem State.store_sve (p a : Nat) (bs : List Nat) : (s.store p a bs).sve = s.sve := by simp [State.store]

@[simp] theorem State.noteWrite_trw (p a n : Nat) : (s.noteWrite p a n).trw = s.trw := by
  unfold State.noteWrite
  have h : ∀ (l : List Nat) (t : State), (l.foldl (fun s b => s.event 0x1011 0 b (memArg1 p b)) t).trw = t.trw := by
    intro l; induction l with
    | nil => intro t; rfl
    | cons b l ih => intro t; exact ih _
  dsimp only; split <;> simp [h, State.rangeEvent]

@[simp] theorem State.store_trw (p a : Nat) (bs : List Nat) : (s.store p a bs).trw = s.trw := by simp [State.store]

@[simp] theorem State.noteWrite_out (p a n : Nat) : (s.noteWrite p a n).out = s.out := by
  unfold State.noteWrite
  have h : ∀ (l : List Nat) (t : State), (l.foldl (fun s b => s.event 0x1011 0 b (memArg1 p b)) t).out = t.out := by
    intro l; induction l with
    | nil => intro t; rfl
    | cons b l ih => intro t; exact ih _
  dsimp only; split <;> simp [h, State.rangeEvent]

@[simp] theorem State.store_out (p a : Nat) (bs : List Nat) : (s.store p a bs).out = s.out := by simp [State.store]

@[simp] theorem State.noteWrite_tlk (p a n : Nat) : (s.noteWrite p a n).tlk = s.tlk := by
  unfold State.noteWrite
  have h : ∀ (l : List Nat) (t : State), (l.foldl (fun s b => s.event 0x1011 0 b (memArg1 p b)) t).tlk = t.tlk := by
    intro l; induction l with
    | nil => intro t; rfl
    | cons b l ih => intro t; exact ih _
  dsimp only; split <;> simp [h, State.rangeEvent]

@[simp] theorem State.store_tlk (p a : Nat) (bs : List Nat) : (s.store p a bs).tlk = s.tlk := by simp [State.store]

@[simp] theorem State.noteWrite_pnl (p a n : Nat) : (s.noteWrite p a n).pnl = s.pnl := by
  unfold State.noteWrite
  have h : ∀ (l : List Nat) (t : State), (l.foldl (fun s b => s.event 0x1011 0 b (memArg1 p b)) t).pnl = t.pnl := by
    intro l; induction l with
    | nil => intro t; rfl
    | cons b l ih => intro t; exact ih _
  dsimp only; split <;> simp [h, State.rangeEvent]

@[simp] theorem State.store_pnl (p a : Nat) (bs : List Nat) : (s.store p a bs).pnl = s.pnl := by simp [State.store]

@[simp] theorem State.noteWrite_lbl (p a n : Nat) : (s.noteWrite p a n).lbl = s.lbl := by
  unfold State.noteWrite
  have h : ∀ (l : List Nat) (t : State), (l.foldl (fun s b => s.event 0x1011 0 b (memArg1 p b)) t).lbl = t.lbl := by
    intro l; induction l with
    | nil => intro t; rfl
    | cons b l ih => intro t; exact ih _
  dsimp only; split <;> simp [h, State.rangeEvent]

@[simp] theorem State.store_lbl (p a : Nat) (bs : List Nat) : (s.store p a bs).lbl = s.lbl := by simp [State.store]

@[simp] theorem State.noteWrite_tim (p a n : Nat) : (s.noteWrite p a n).tim = s.tim := by
  unfold State.noteWrite
  have h : ∀ (l : List Nat) (t : State), (l.foldl (fun s b => s.event 0x1011 0 b (memArg1 p b)) t).tim = t.tim := by
    intro l; induction l with
    | nil => intro t; rfl
    | cons b l ih => intro t; exact ih _
  dsimp only; split <;> simp [h, State.rangeEvent]

@[simp] theorem State.store_tim (p a : Nat) (bs : List Nat) : (s.store p a bs).tim = s.tim := by simp [State.store]

@[simp] theorem State.noteWrite_aud (p a n : Nat) : (s.noteWrite p a n).aud = s.aud := by
  unfold State.noteWrite
  have h : ∀ (l : List Nat) (t : State), (l.foldl (fun s b => s.event 0x1011 0 b (memArg1 p b)) t).aud = t.aud := by
    intro l; induction l with
    | nil => intro t; rfl
    | cons b l ih => intro t; exact ih _
  dsimp only; split <;> simp [h, State.rangeEvent]

@[simp] theorem State.store_aud (p a : Nat) (bs : List Nat) : (s.store p a bs).aud = s.aud := by simp [State.store]

@[simp] theorem State.noteWrite_chk (p a n : Nat) : (s.noteWrite p a n).chk = s.chk := by
  unfold State.noteWrite
  have h : ∀ (l : List Nat) (t : State), (l.foldl (fun s b => s.event 0x1011 0 b (memArg1 p b)) t).chk = t.chk := by
    intro l; induction l with
    | nil => intro t; rfl
    | cons b l ih => intro t; exact ih _
  dsimp only; split <;> simp [h, State.rangeEvent]

@[simp] theorem State.store_chk (p a : Nat) (bs : List Nat) : (s.store p a bs).chk = s.chk := by simp [State.store]

@[simp] theorem State.noteWrite_thm (p a n : Nat) : (s.noteWrite p a n).thm = s.thm := by
  unfold State.noteWrite
  have h : ∀ (l : List Nat) (t : State), (l.foldl (fun s b => s.event 0x1011 0 b (memArg1 p b)) t).thm = t.thm := by
    intro l; induction l with
    | nil => intro t; rfl
    | cons b l ih => intro t; exact ih _
  dsimp only; split <;> simp [h, State.rangeEvent]

@[simp] theorem State.store_thm (p a : Nat) (bs : List Nat) : (s.store p a bs).thm = s.thm := by simp [State.store]

@[simp] theorem State.noteWrite_pwr (p a n : Nat) : (s.noteWrite p a n).pwr = s.pwr := by
  unfold State.noteWrite
  have h : ∀ (l : List Nat) (t : State), (l.foldl (fun s b => s.event 0x1011 0 b (memArg1 p b)) t).pwr = t.pwr := by
    intro l; induction l with
    | nil => intro t; rfl
    | cons b l ih => intro t; exact ih _
  dsimp only; split <;> simp [h, State.rangeEvent]

@[simp] theorem State.store_pwr (p a : Nat) (bs : List Nat) : (s.store p a bs).pwr = s.pwr := by simp [State.store]

@[simp] theorem State.noteWrite_fw (p a n : Nat) : (s.noteWrite p a n).fw = s.fw := by
  unfold State.noteWrite
  have h : ∀ (l : List Nat) (t : State), (l.foldl (fun s b => s.event 0x1011 0 b (memArg1 p b)) t).fw = t.fw := by
    intro l; induction l with
    | nil => intro t; rfl
    | cons b l ih => intro t; exact ih _
  dsimp only; split <;> simp [h, State.rangeEvent]

@[simp] theorem State.store_fw (p a : Nat) (bs : List Nat) : (s.store p a bs).fw = s.fw := by simp [State.store]

@[simp] theorem State.noteWrite_dmp (p a n : Nat) : (s.noteWrite p a n).dmp = s.dmp := by
  unfold State.noteWrite
  have h : ∀ (l : List Nat) (t : State), (l.foldl (fun s b => s.event 0x1011 0 b (memArg1 p b)) t).dmp = t.dmp := by
    intro l; induction l with
    | nil => intro t; rfl
    | cons b l ih => intro t; exact ih _
  dsimp only; split <;> simp [h, State.rangeEvent]

@[simp] theorem State.store_dmp (p a : Nat) (bs : List Nat) : (s.store p a bs).dmp = s.dmp := by simp [State.store]

@[simp] theorem State.noteWrite_dbg (p a n : Nat) : (s.noteWrite p a n).dbg = s.dbg := by
  unfold State.noteWrite
  have h : ∀ (l : List Nat) (t : State), (l.foldl (fun s b => s.event 0x1011 0 b (memArg1 p b)) t).dbg = t.dbg := by
    intro l; induction l with
    | nil => intro t; rfl
    | cons b l ih => intro t; exact ih _
  dsimp only; split <;> simp [h, State.rangeEvent]

@[simp] theorem State.store_dbg (p a : Nat) (bs : List Nat) : (s.store p a bs).dbg = s.dbg := by simp [State.store]

@[simp] theorem State.noteRead_now (p a n : Nat) : (s.noteRead p a n).now = s.now := by
  unfold State.noteRead
  have h : ∀ (l : List Nat) (t : State), (l.foldl (fun s b => s.eccRead p b) t).now = t.now := by
    intro l; induction l with
    | nil => intro t; rfl
    | cons b l ih => intro t; exact (ih _).trans (t.eccRead_now p b)
  dsimp only; split <;> simp [h, State.rangeEvent]

@[simp] theorem State.noteRead_off (p a n : Nat) : (s.noteRead p a n).off = s.off := by
  unfold State.noteRead
  have h : ∀ (l : List Nat) (t : State), (l.foldl (fun s b => s.eccRead p b) t).off = t.off := by
    intro l; induction l with
    | nil => intro t; rfl
    | cons b l ih => intro t; exact (ih _).trans (t.eccRead_off p b)
  dsimp only; split <;> simp [h, State.rangeEvent]

@[simp] theorem State.noteRead_pending (p a n : Nat) : (s.noteRead p a n).pending = s.pending := by
  unfold State.noteRead
  have h : ∀ (l : List Nat) (t : State), (l.foldl (fun s b => s.eccRead p b) t).pending = t.pending := by
    intro l; induction l with
    | nil => intro t; rfl
    | cons b l ih => intro t; exact (ih _).trans (t.eccRead_pending p b)
  dsimp only; split <;> simp [h, State.rangeEvent]

@[simp] theorem State.noteRead_lowPend (p a n : Nat) : (s.noteRead p a n).lowPend = s.lowPend := by
  unfold State.noteRead
  have h : ∀ (l : List Nat) (t : State), (l.foldl (fun s b => s.eccRead p b) t).lowPend = t.lowPend := by
    intro l; induction l with
    | nil => intro t; rfl
    | cons b l ih => intro t; exact (ih _).trans (t.eccRead_lowPend p b)
  dsimp only; split <;> simp [h, State.rangeEvent]

@[simp] theorem State.noteRead_hiLatch (p a n : Nat) : (s.noteRead p a n).hiLatch = s.hiLatch := by
  unfold State.noteRead
  have h : ∀ (l : List Nat) (t : State), (l.foldl (fun s b => s.eccRead p b) t).hiLatch = t.hiLatch := by
    intro l; induction l with
    | nil => intro t; rfl
    | cons b l ih => intro t; exact (ih _).trans (t.eccRead_hiLatch p b)
  dsimp only; split <;> simp [h, State.rangeEvent]

@[simp] theorem State.noteRead_mem (p a n : Nat) : (s.noteRead p a n).mem = s.mem := by
  unfold State.noteRead
  have h : ∀ (l : List Nat) (t : State), (l.foldl (fun s b => s.eccRead p b) t).mem = t.mem := by
    intro l; induction l with
    | nil => intro t; rfl
    | cons b l ih => intro t; exact (ih _).trans (t.eccRead_mem p b)
  dsimp only; split <;> simp [h, State.rangeEvent]

@[simp] theorem State.noteRead_poison (p a n : Nat) : (s.noteRead p a n).poison = s.poison := by
  unfold State.noteRead
  have h : ∀ (l : List Nat) (t : State), (l.foldl (fun s b => s.eccRead p b) t).poison = t.poison := by
    intro l; induction l with
    | nil => intro t; rfl
    | cons b l ih => intro t; exact (ih _).trans (t.eccRead_poison p b)
  dsimp only; split <;> simp [h, State.rangeEvent]

@[simp] theorem State.noteRead_fresh (p a n : Nat) : (s.noteRead p a n).fresh = s.fresh := by
  unfold State.noteRead
  have h : ∀ (l : List Nat) (t : State), (l.foldl (fun s b => s.eccRead p b) t).fresh = t.fresh := by
    intro l; induction l with
    | nil => intro t; rfl
    | cons b l ih => intro t; exact (ih _).trans (t.eccRead_fresh p b)
  dsimp only; split <;> simp [h, State.rangeEvent]

@[simp] theorem State.noteRead_hst (p a n : Nat) : (s.noteRead p a n).hst = s.hst := by
  unfold State.noteRead
  have h : ∀ (l : List Nat) (t : State), (l.foldl (fun s b => s.eccRead p b) t).hst = t.hst := by
    intro l; induction l with
    | nil => intro t; rfl
    | cons b l ih => intro t; exact (ih _).trans (t.eccRead_hst p b)
  dsimp only; split <;> simp [h, State.rangeEvent]

@[simp] theorem State.noteRead_cmt (p a n : Nat) : (s.noteRead p a n).cmt = s.cmt := by
  unfold State.noteRead
  have h : ∀ (l : List Nat) (t : State), (l.foldl (fun s b => s.eccRead p b) t).cmt = t.cmt := by
    intro l; induction l with
    | nil => intro t; rfl
    | cons b l ih => intro t; exact (ih _).trans (t.eccRead_cmt p b)
  dsimp only; split <;> simp [h, State.rangeEvent]

@[simp] theorem State.noteRead_sho (p a n : Nat) : (s.noteRead p a n).sho = s.sho := by
  unfold State.noteRead
  have h : ∀ (l : List Nat) (t : State), (l.foldl (fun s b => s.eccRead p b) t).sho = t.sho := by
    intro l; induction l with
    | nil => intro t; rfl
    | cons b l ih => intro t; exact (ih _).trans (t.eccRead_sho p b)
  dsimp only; split <;> simp [h, State.rangeEvent]

@[simp] theorem State.noteRead_tlt (p a n : Nat) : (s.noteRead p a n).tlt = s.tlt := by
  unfold State.noteRead
  have h : ∀ (l : List Nat) (t : State), (l.foldl (fun s b => s.eccRead p b) t).tlt = t.tlt := by
    intro l; induction l with
    | nil => intro t; rfl
    | cons b l ih => intro t; exact (ih _).trans (t.eccRead_tlt p b)
  dsimp only; split <;> simp [h, State.rangeEvent]

@[simp] theorem State.noteRead_nvs (p a n : Nat) : (s.noteRead p a n).nvs = s.nvs := by
  unfold State.noteRead
  have h : ∀ (l : List Nat) (t : State), (l.foldl (fun s b => s.eccRead p b) t).nvs = t.nvs := by
    intro l; induction l with
    | nil => intro t; rfl
    | cons b l ih => intro t; exact (ih _).trans (t.eccRead_nvs p b)
  dsimp only; split <;> simp [h, State.rangeEvent]

@[simp] theorem State.noteRead_sec (p a n : Nat) : (s.noteRead p a n).sec = s.sec := by
  unfold State.noteRead
  have h : ∀ (l : List Nat) (t : State), (l.foldl (fun s b => s.eccRead p b) t).sec = t.sec := by
    intro l; induction l with
    | nil => intro t; rfl
    | cons b l ih => intro t; exact (ih _).trans (t.eccRead_sec p b)
  dsimp only; split <;> simp [h, State.rangeEvent]

@[simp] theorem State.noteRead_rrg (p a n : Nat) : (s.noteRead p a n).rrg = s.rrg := by
  unfold State.noteRead
  have h : ∀ (l : List Nat) (t : State), (l.foldl (fun s b => s.eccRead p b) t).rrg = t.rrg := by
    intro l; induction l with
    | nil => intro t; rfl
    | cons b l ih => intro t; exact (ih _).trans (t.eccRead_rrg p b)
  dsimp only; split <;> simp [h, State.rangeEvent]

@[simp] theorem State.noteRead_brd (p a n : Nat) : (s.noteRead p a n).brd = s.brd := by
  unfold State.noteRead
  have h : ∀ (l : List Nat) (t : State), (l.foldl (fun s b => s.eccRead p b) t).brd = t.brd := by
    intro l; induction l with
    | nil => intro t; rfl
    | cons b l ih => intro t; exact (ih _).trans (t.eccRead_brd p b)
  dsimp only; split <;> simp [h, State.rangeEvent]

@[simp] theorem State.noteRead_slt (p a n : Nat) : (s.noteRead p a n).slt = s.slt := by
  unfold State.noteRead
  have h : ∀ (l : List Nat) (t : State), (l.foldl (fun s b => s.eccRead p b) t).slt = t.slt := by
    intro l; induction l with
    | nil => intro t; rfl
    | cons b l ih => intro t; exact (ih _).trans (t.eccRead_slt p b)
  dsimp only; split <;> simp [h, State.rangeEvent]

@[simp] theorem State.noteRead_kln (p a n : Nat) : (s.noteRead p a n).kln = s.kln := by
  unfold State.noteRead
  have h : ∀ (l : List Nat) (t : State), (l.foldl (fun s b => s.eccRead p b) t).kln = t.kln := by
    intro l; induction l with
    | nil => intro t; rfl
    | cons b l ih => intro t; exact (ih _).trans (t.eccRead_kln p b)
  dsimp only; split <;> simp [h, State.rangeEvent]

@[simp] theorem State.noteRead_rok (p a n : Nat) : (s.noteRead p a n).rok = s.rok := by
  unfold State.noteRead
  have h : ∀ (l : List Nat) (t : State), (l.foldl (fun s b => s.eccRead p b) t).rok = t.rok := by
    intro l; induction l with
    | nil => intro t; rfl
    | cons b l ih => intro t; exact (ih _).trans (t.eccRead_rok p b)
  dsimp only; split <;> simp [h, State.rangeEvent]

@[simp] theorem State.noteRead_sve (p a n : Nat) : (s.noteRead p a n).sve = s.sve := by
  unfold State.noteRead
  have h : ∀ (l : List Nat) (t : State), (l.foldl (fun s b => s.eccRead p b) t).sve = t.sve := by
    intro l; induction l with
    | nil => intro t; rfl
    | cons b l ih => intro t; exact (ih _).trans (t.eccRead_sve p b)
  dsimp only; split <;> simp [h, State.rangeEvent]

@[simp] theorem State.noteRead_trw (p a n : Nat) : (s.noteRead p a n).trw = s.trw := by
  unfold State.noteRead
  have h : ∀ (l : List Nat) (t : State), (l.foldl (fun s b => s.eccRead p b) t).trw = t.trw := by
    intro l; induction l with
    | nil => intro t; rfl
    | cons b l ih => intro t; exact (ih _).trans (t.eccRead_trw p b)
  dsimp only; split <;> simp [h, State.rangeEvent]

@[simp] theorem State.noteRead_out (p a n : Nat) : (s.noteRead p a n).out = s.out := by
  unfold State.noteRead
  have h : ∀ (l : List Nat) (t : State), (l.foldl (fun s b => s.eccRead p b) t).out = t.out := by
    intro l; induction l with
    | nil => intro t; rfl
    | cons b l ih => intro t; exact (ih _).trans (t.eccRead_out p b)
  dsimp only; split <;> simp [h, State.rangeEvent]

@[simp] theorem State.noteRead_tlk (p a n : Nat) : (s.noteRead p a n).tlk = s.tlk := by
  unfold State.noteRead
  have h : ∀ (l : List Nat) (t : State), (l.foldl (fun s b => s.eccRead p b) t).tlk = t.tlk := by
    intro l; induction l with
    | nil => intro t; rfl
    | cons b l ih => intro t; exact (ih _).trans (t.eccRead_tlk p b)
  dsimp only; split <;> simp [h, State.rangeEvent]

@[simp] theorem State.noteRead_pnl (p a n : Nat) : (s.noteRead p a n).pnl = s.pnl := by
  unfold State.noteRead
  have h : ∀ (l : List Nat) (t : State), (l.foldl (fun s b => s.eccRead p b) t).pnl = t.pnl := by
    intro l; induction l with
    | nil => intro t; rfl
    | cons b l ih => intro t; exact (ih _).trans (t.eccRead_pnl p b)
  dsimp only; split <;> simp [h, State.rangeEvent]

@[simp] theorem State.noteRead_lbl (p a n : Nat) : (s.noteRead p a n).lbl = s.lbl := by
  unfold State.noteRead
  have h : ∀ (l : List Nat) (t : State), (l.foldl (fun s b => s.eccRead p b) t).lbl = t.lbl := by
    intro l; induction l with
    | nil => intro t; rfl
    | cons b l ih => intro t; exact (ih _).trans (t.eccRead_lbl p b)
  dsimp only; split <;> simp [h, State.rangeEvent]

@[simp] theorem State.noteRead_tim (p a n : Nat) : (s.noteRead p a n).tim = s.tim := by
  unfold State.noteRead
  have h : ∀ (l : List Nat) (t : State), (l.foldl (fun s b => s.eccRead p b) t).tim = t.tim := by
    intro l; induction l with
    | nil => intro t; rfl
    | cons b l ih => intro t; exact (ih _).trans (t.eccRead_tim p b)
  dsimp only; split <;> simp [h, State.rangeEvent]

@[simp] theorem State.noteRead_aud (p a n : Nat) : (s.noteRead p a n).aud = s.aud := by
  unfold State.noteRead
  have h : ∀ (l : List Nat) (t : State), (l.foldl (fun s b => s.eccRead p b) t).aud = t.aud := by
    intro l; induction l with
    | nil => intro t; rfl
    | cons b l ih => intro t; exact (ih _).trans (t.eccRead_aud p b)
  dsimp only; split <;> simp [h, State.rangeEvent]

@[simp] theorem State.noteRead_chk (p a n : Nat) : (s.noteRead p a n).chk = s.chk := by
  unfold State.noteRead
  have h : ∀ (l : List Nat) (t : State), (l.foldl (fun s b => s.eccRead p b) t).chk = t.chk := by
    intro l; induction l with
    | nil => intro t; rfl
    | cons b l ih => intro t; exact (ih _).trans (t.eccRead_chk p b)
  dsimp only; split <;> simp [h, State.rangeEvent]

@[simp] theorem State.noteRead_thm (p a n : Nat) : (s.noteRead p a n).thm = s.thm := by
  unfold State.noteRead
  have h : ∀ (l : List Nat) (t : State), (l.foldl (fun s b => s.eccRead p b) t).thm = t.thm := by
    intro l; induction l with
    | nil => intro t; rfl
    | cons b l ih => intro t; exact (ih _).trans (t.eccRead_thm p b)
  dsimp only; split <;> simp [h, State.rangeEvent]

@[simp] theorem State.noteRead_pwr (p a n : Nat) : (s.noteRead p a n).pwr = s.pwr := by
  unfold State.noteRead
  have h : ∀ (l : List Nat) (t : State), (l.foldl (fun s b => s.eccRead p b) t).pwr = t.pwr := by
    intro l; induction l with
    | nil => intro t; rfl
    | cons b l ih => intro t; exact (ih _).trans (t.eccRead_pwr p b)
  dsimp only; split <;> simp [h, State.rangeEvent]

@[simp] theorem State.noteRead_fw (p a n : Nat) : (s.noteRead p a n).fw = s.fw := by
  unfold State.noteRead
  have h : ∀ (l : List Nat) (t : State), (l.foldl (fun s b => s.eccRead p b) t).fw = t.fw := by
    intro l; induction l with
    | nil => intro t; rfl
    | cons b l ih => intro t; exact (ih _).trans (t.eccRead_fw p b)
  dsimp only; split <;> simp [h, State.rangeEvent]

@[simp] theorem State.noteRead_dmp (p a n : Nat) : (s.noteRead p a n).dmp = s.dmp := by
  unfold State.noteRead
  have h : ∀ (l : List Nat) (t : State), (l.foldl (fun s b => s.eccRead p b) t).dmp = t.dmp := by
    intro l; induction l with
    | nil => intro t; rfl
    | cons b l ih => intro t; exact (ih _).trans (t.eccRead_dmp p b)
  dsimp only; split <;> simp [h, State.rangeEvent]

@[simp] theorem State.noteRead_dbg (p a n : Nat) : (s.noteRead p a n).dbg = s.dbg := by
  unfold State.noteRead
  have h : ∀ (l : List Nat) (t : State), (l.foldl (fun s b => s.eccRead p b) t).dbg = t.dbg := by
    intro l; induction l with
    | nil => intro t; rfl
    | cons b l ih => intro t; exact (ih _).trans (t.eccRead_dbg p b)
  dsimp only; split <;> simp [h, State.rangeEvent]

/-! ### What a field of the register file reads after the other updates -/

@[simp] theorem State.tick_get (t : Nat) (f : Fld) : (s.tick t).get f = s.get f := rfl

@[simp] theorem State.tick_fieldOn (t : Nat) : (s.tick t).fieldOn = s.fieldOn := rfl

/-- A command of a field-die unit does its effect where the die is powered. -/
theorem State.whenOn_eq (t : Nat) (f : State → State) (h : s.fieldOn = true) : s.whenOn t f = f (s.tick t) := by
  simp [State.whenOn, h]

/-- With the field die off only time passes. -/
theorem State.whenOn_off (t : Nat) (f : State → State) (h : s.fieldOn = false) : s.whenOn t f = s.tick t := by
  simp [State.whenOn, h]

/-- A host access to the field die does its effect outside D3hot with the die powered. -/
theorem State.whenHost_eq (t : Nat) (f : State → State) (h : s.fieldOn = true) (h3 : s.hst.d3 = false) :
    s.whenHost t f = f (s.tick t) := by
  simp [State.whenHost, State.whenOn, h, h3]

/-- A host access to the keeper does its effect outside D3hot. -/
theorem State.whenBar_eq (t : Nat) (f : State → State) (h3 : s.hst.d3 = false) : s.whenBar t f = f (s.tick t) := by
  simp [State.whenBar, h3]

end Sys2Proof.Machine
end

