-- ==== Sys2Proof/Laws/Ops.lean ====
section
/-!
SUPPORT. What the shared operations of the block can do, said once: host gating, plain register writes, small lists.
-/

namespace Sys2Proof.Machine

variable (s : State)

/-- With nothing held and no other fault, a plain write with held bits is a plain write. -/
theorem State.plainHeld_zero (off v : Nat) : s.plainHeld off v 0 false = s.plain off v := by
  unfold State.plainHeld State.plain
  cases h : rowAt off with
  | none => rfl
  | some q =>
    have hb : ∀ hi lo, bitsOf 0 hi lo = 0 := by intro hi lo; simp [bitsOf]
    have hf : q.1.fields.filter (fun f => bitsOf 0 f.hi f.lo == 0) = q.1.fields := by
      rw [List.filter_eq_self]; intro f _; simp [hb]
    simp only [hf, Bool.or_false]

/-- A host access in D3hot only moves the clock. -/
theorem State.whenBar_d3 (t : Nat) (f : State → State) (h : s.hst.d3 = true) : s.whenBar t f = s.tick t := by
  unfold State.whenBar; simp [h]

/-- A response that is not in hand changes nothing: the mailbox waits for no record. -/
theorem State.secWritten_idle (j : NvsJob) (code : Nat) (h : s.sec.running = none) : s.secWritten j code = s := by
  unfold State.secWritten; rw [h]

/-- Nothing is fetched when no ring has a descriptor that may be taken. -/
theorem State.fetchMany_none (n : Nat) (h : s.fetchChoice = none) : s.fetchMany n = s := by
  cases n <;> simp [State.fetchMany, h]

/-- A ring that is not STALLED counts no stall. -/
theorem State.countStall_of_ne (w : Nat) (h : (s.ring w).st ≠ .stalled) : s.countStall w = s := by
  unfold State.countStall; rw [if_neg h]

/-- A copy of no bytes writes nothing. -/
theorem State.writeCopyBytes_nil (c : CopyDesc) : s.writeCopyBytes c [] = s := rfl

end Sys2Proof.Machine
end

