-- ==== Sys2Proof/WellFormed.lean ====
section
/-!
DEFINITION. Which commands are well formed: register offsets lie in BAR0 and are aligned, words have 32 bits, bytes 8, and an
instance lies in its unit's range. The meanings take an instance number modulo its range or let nothing happen beyond it; this
check says which commands a sender can send.
-/

namespace Sys2Proof

/-- A number below a bound. -/
def below (n x : Nat) : Bool := decide (x < n)

/-- A 32-bit word. -/
def isWord (x : Nat) : Bool := decide (x < 2 ^ 32)

/-- An aligned offset of BAR0 (R551). -/
def isOffset (x : Nat) : Bool := decide (x < 0x800000) && x % 4 == 0

/-- A string of bytes. -/
def isBytes (l : List Nat) : Bool := l.all (fun b => decide (b < 256))

/-- Well-formed commands. -/
def Instr.wellFormed : Instr → Bool
  | .registerWrite _ off v => isOffset off && isWord v
  | .stagedFieldWrite _ off v => isOffset off && isWord v
  | .registerLowWordWrite _ off v => isOffset off && isWord v
  | .registerHighWordWrite _ off v => isOffset off && isWord v
  | .registerLowWordRead _ off => isOffset off
  | .readClear _ off => isOffset off
  | .unmappedAccess _ off _ v => isOffset off && isWord v
  | .narrowAccess _ _ _ _ _ => true
  | .tilthPlaceEntry _ k data => below 512 k && isBytes data
  | .tilthGrant _ u p => below 25 u && below 32 p
  | .epochMarkerConsumed _ u => below 25 u
  | .unitWritesSettled _ u => below 25 u
  | .dieEdgeFifoFault _ u _ => below 25 u
  | .paceWindowEnd _ _ => true
  | .shoashLoad _ => true
  | .imageCopyComplete _ => true
  | .imageSignatureResult _ _ => true
  | .imageDecryptResult _ _ plain => isBytes plain
  | .switchComplete _ => true
  | .overlayCopyStart _ _ _ plain => isBytes plain
  | .commit _ => true
  | .commitChecksComplete _ => true
  | .brdLayerCheck _ => true
  | .latchInstant _ => true
  | .epochPublish _ => true
  | .snapshotFreeze _ _ => true
  | .freezeExpiry _ => true
  | .epochRetire _ => true
  | .discard _ => true
  | .kilnAdmission _ => true
  | .stratumDecoded _ e _ => below 2 e
  | .kilnBandComplete _ => true
  | .loamEncode _ w => below 64 w
  | .loamDecode _ w => below 64 w
  | .kssDecode _ w => below 64 w
  | .loamUnitEncoded _ e => below 2 e
  | .loamUnitDecoded _ e => below 2 e
  | .hostJobEnd _ e => below 2 e
  | .chainHeadWrite _ n v => below 16 n && below 4096 v
  | .chainWaitExpiry _ e => below 2 e
  | .bankRelease _ => true
  | .carryCopyComplete _ => true
  | .flatFetchComplete _ => true
  | .rrgSetLoad _ => true
  | .rrgSetChecked _ _ _ plain => isBytes plain
  | .zoneTempReport _ n temp => below 8 n && below 65536 temp
  | .zoneRun _ n => below 8 n
  | .zoneTempTimeout _ n => below 8 n
  | .zoneRunStart _ => true
  | .zoneRunComplete _ => true
  | .registryStreamBand _ => true
  | .laneLock _ n => below 12 n
  | .laneLockLost _ n => below 12 n
  | .laneIterationEnd _ n _ _ _ => below 12 n
  | .lanePeriodExpiry _ n => below 12 n
  | .laneFomTrigger _ n => below 12 n
  | .laneRun _ n => below 12 n
  | .rokBandStart _ => true
  | .heldBandSkip _ => true
  | .rokSquareComplete _ n _ _ _ => below 16 n
  | .rokBandComplete _ => true
  | .rokBandAbandon _ => true
  | .fileParityFault _ n => below 16 n
  | .brdListBand _ => true
  | .register _ c => below 4096 c
  | .activate _ c => below 4096 c
  | .deactivate _ c => below 4096 c
  | .unregister _ c => below 4096 c
  | .sourceFrameArrival _ => true
  | .sourceFrame _ w => below 64 w
  | .sieveFrameStart _ p => below 4 p
  | .inputReadComplete _ p => below 4 p
  | .sieveFrameWritten _ p => below 4 p
  | .sveApply _ v => isWord v
  | .tableCopy _ p => below 4 p
  | .tblDataAccess _ _ v => isWord v
  | .pipeEnWrite _ v => isWord v
  | .pipeParityFault _ p => below 4 p
  | .copy _ => true
  | .fill _ => true
  | .blend _ => true
  | .reduce _ => true
  | .scratchCopied _ => true
  | .watermark _ => true
  | .trwJobDone _ => true
  | .frameStart _ => true
  | .lineStart _ _ _ => true
  | .syncInEdge _ => true
  | .referenceLoss _ => true
  | .acquireTimeout _ => true
  | .teEdge _ => true
  | .teTimeout _ => true
  | .teDelayedSend _ => true
  | .lineMark _ => true
  | .terminationSensed _ n _ => below 8 n
  | .detectTimeout _ n => below 8 n
  | .detectRetry _ n => below 8 n
  | .backchannelSymbolLock _ n => below 8 n
  | .patternTimeout _ n => below 8 n
  | .lock _ n b => below 8 n && isBytes b
  | .lockTimeout _ n => below 8 n
  | .config _ n => below 8 n
  | .caps _ n b => below 8 n && isBytes b
  | .exchangeTimeout _ n => below 8 n
  | .statusMessage _ n b => below 8 n && isBytes b
  | .retrain _ mask => below 256 mask
  | .backchannelTimeout _ n => below 8 n
  | .dischargeTimeout _ n => below 8 n
  | .readbackPacket _ g _ raw => below 8 g && (isBytes raw || (raw.head? == some 0x109 && isBytes raw.tail))
  | .dcSweepComplete _ => true
  | .powerOff _ => true
  | .powerOn _ => true
  | .dischargePhaseTimeout _ => true
  | .demuraLoad _ => true
  | .demuraChecked _ _ _ plain => isBytes plain
  | .demuraDecoded _ => true
  | .lblUpdateStart _ => true
  | .lblPhaseEnd _ => true
  | .lblBlinkChange _ g => below 4 g
  | .lblBlinkWriteStart _ => true
  | .lblCleanTimer _ => true
  | .lblWaveApply _ => true
  | .lblWaveInstall _ => true
  | .lblWaveDataAccess _ _ v => isWord v
  | .lblEnableWrite _ _ _ => true
  | .lblRecoverDone _ => true
  | .keeperReset _ => true
  | .memRequestAccept _ port _ _ => below 16 port
  | .memPick _ c _ => below 24 c
  | .memReadReturn _ _ err => below 3 err
  | .memWriteAck _ _ off data _ => below 64 off && isBytes data
  | .memRefreshDue _ c b => below 24 c && below 32 b
  | .mr4Poll _ _ => true
  | .oscillatorPoll _ _ => true
  | .memRetrainStart _ c => below 24 c
  | .memRetrainDone _ c _ => below 24 c
  | .channelTrainingDone _ c _ _ => below 24 c
  | .rankIdleTimeout _ c r => below 24 c && below 2 r
  | .patrolScrubRead _ err => below 3 err
  | .ethFrameReceive _ p _ raw => below 4 p && isBytes raw
  | .ethFrameTransmit _ p => below 4 p
  | .portUp _ p => below 4 p
  | .portDown _ p => below 4 p
  | .txRingHeadWrite _ v => below 4096 v
  | .announce _ p _ raw => below 4 p && isBytes raw
  | .sync _ p _ raw => below 4 p && isBytes raw
  | .followUp _ p _ raw => below 4 p && isBytes raw
  | .delayResp _ p _ raw => below 4 p && isBytes raw
  | .delayReqSend _ v => below 2 v
  | .announceTimeout _ v => below 2 v
  | .syncTimeout _ v => below 2 v
  | .servoEnableWrite _ v _ => below 2 v
  | .castle _ d _ => below 2 d
  | .stepTime _ d => below 2 d
  | .revertTimer _ => true
  | .timeRead _ => true
  | .pulse _ _ => true
  | .pulseEnd _ _ => true
  | .setHigh _ _ => true
  | .setLow _ _ => true
  | .slot _ _ => true
  | .captureEdge _ src _ => below 16 src
  | .sampleInstant _ _ => true
  | .blockEnd _ => true
  | .aesInputFrame _ p _ _ _ a b => below 8 p && isWord a && isWord b
  | .inputFrameTimeout _ p => below 8 p
  | .playoutRingHeadWrite _ v => below 4096 v
  | .rateSwitch _ => true
  | .realign _ => true
  | .wclkInEdge _ => true
  | .checkRecord _ n b _ => below 16 n && isBytes b
  | .sensorSample _ _ _ _ => true
  | .dutyPeriodEnd _ => true
  | .criticalTrip _ => true
  | .orderlyDomainsOff _ => true
  | .restart _ => true
  | .governorRun _ _ _ => true
  | .vcoreSettled _ => true
  | .avsTimeout _ => true
  | .vcorePowerGood _ => true
  | .domainStart _ k => below 24 k
  | .domainPowerGood _ k => below 24 k
  | .domainTimeout _ k => below 24 k
  | .railsPowerGood _ => true
  | .powerGoodLoss _ _ => true
  | .brownout _ => true
  | .keeperPowerUp _ => true
  | .nvsStartupScan _ _ => true
  | .recordWriteComplete _ _ => true
  | .eraseComplete _ _ => true
  | .nvsScrub _ _ => true
  | .copyRepair _ => true
  | .counterUpdate _ => true
  | .nvsRead _ => true
  | .nvsWrite _ dup len => below 2 dup && below 16384 len
  | .nvsDelete _ => true
  | .nvsPageRead _ => true
  | .nvsOtpRead _ => true
  | .secStatus _ => true
  | .getNonce _ rnd => isBytes rnd
  | .devicePubkey _ pub => isBytes pub
  | .selfTest _ => true
  | .openUser _ _ => true
  | .close _ _ tag => isBytes tag
  | .attest _ _ sig tag => isBytes sig && isBytes tag
  | .random _ _ rnd tag => isBytes rnd && isBytes tag
  | .raiseMinSerial _ _ => true
  | .provisionKey _ _ _ => true
  | .genDeviceKey _ _ scalar pub => isBytes scalar && isBytes pub
  | .setSettings _ _ => true
  | .rotateRoot _ _ => true
  | .installUserKey _ _ => true
  | .pageWrite _ _ => true
  | .pageLock _ _ => true
  | .zeroise _ _ => true
  | .zeroiseBurnComplete _ => true
  | .selfTestComplete _ _ => true
  | .conditionalTestFail _ => true
  | .tamper _ bit => below 4 bit
  | .sessionTimeout _ => true
  | .componentTimeout _ => true
  | .workDoorbell _ w v => below 64 w && isWord v
  | .cplDoorbell _ w v => below 64 w && isWord v
  | .ingest _ w => below 64 w
  | .ingestComplete _ w _ data => below 64 w && data.all (below 257)
  | .exportCopy _ w => below 64 w
  | .exportComplete _ w _ => below 64 w
  | .nop _ w => below 64 w
  | .ringEnable _ w => below 64 w
  | .ringDisable _ w => below 64 w
  | .functionLevelReset _ cause => below 5 cause
  | .linkUp _ speed width => below 6 speed && below 17 width
  | .powerStateChange _ _ => true
  | .bar2Read _ _ _ => true
  | .bar2Write _ _ bs => isBytes bs
  | .msixUnmask _ v => below 256 v
  | .eventLogWrite _ => true
  | .logTailWrite _ v => isWord v
  | .sysUnitReset _ v => isWord v
  | .dbgTraceEnable _ v => isWord v
  | .dbgTraceRecord _ kind _ b => below 7 kind && isBytes b
  | .firmwareLoad _ => true
  | .firmwareChecked _ _ _ => true
  | .firmwareSwitch _ => true
  | .coreWatchdog _ _ => true
  | .unitWatchdog _ u _ => below 25 u
  | .tilthWatchdog _ k => below 512 k
  | .fatalFreeze _ cause _ => below 8 cause
  | .force _ => true
  | .captureStart _ => true
  | .captureComplete _ _ => true
  | .summaryCommitted _ => true
  | .restoreComplete _ => true
  | .release _ => true
  | .syncInOtherPolarityEdge _ => true
  | .alwaysOnRailLoss _ => true

end Sys2Proof
end

