-- ==== Sys2Proof/Tests/Slice0.lean ====
section
/-!
SUPPORT. The model's own tests: ill-formed commands that WellFormed refuses, worked examples of the spec, and for each clause
of a statement with hypotheses a concrete state and operands that meet them together.
-/

namespace Sys2Proof.Machine

set_option Elab.async false

/-- A state after reset with the field die powered. -/
def onState : State := State.reset.put F.SYS_STATUS_FIELD_ON 1

/-! ### Ill-formed commands, one for each check of WellFormed -/

/-- Each check refuses a term that breaks it: an instance beyond its unit's range, a word of 33 bits, an offset that is not
aligned or lies beyond BAR0, and a byte of 9 bits. -/
theorem test_wellformed_refuses :
    ((Instr.tilthPlaceEntry 0 512 []).wellFormed, (Instr.registerWrite 0 0x110 (2 ^ 32)).wellFormed,
      (Instr.readClear 0 0x111).wellFormed, (Instr.readClear 0 0x800000).wellFormed, (Instr.tilthPlaceEntry 0 511 [256]).wellFormed) =
      (false, false, false, false, false) := by decide

theorem test_wellformed_takes :
    (Instr.tilthPlaceEntry 0 511 [255]).wellFormed = true ∧ (Instr.registerWrite 0 0x110 (2 ^ 32 - 1)).wellFormed = true ∧
    (Instr.readClear 0 0x7FFFFC).wellFormed = true := by decide

/-! ### Worked examples of the spec -/

/-- R124: the checks of "123456789". -/
theorem test_crc_checks : crc16 [49, 50, 51, 52, 53, 54, 55, 56, 57] = 0x29B1 ∧
    crc32c [49, 50, 51, 52, 53, 54, 55, 56, 57] = 0xE3069283 := by decide +kernel

/-- The access unit, header and payload of "decoding one base tile". -/
def exampleAu : KssAu :=
  { refine := false, rows := 8, w := 260, h := 20, stream := 0, colour := 1, maxErr := 1, ptsS := 0, ptsNs := 0, seq := 0, tableset := 0,
    worst := [], length := 0, planes := [], index := [] }

def exampleBlock : List Nat :=
  [0x80, 0x00, 0x03, 0x01, 0x12, 0x00, 0xCD, 0x13, 0x30, 0x41, 0x08, 0x14, 0x24, 0x03, 0x18, 0x0D, 0xD2, 0x8C, 0xB4, 0x7E, 0x8B, 0x62,
    0x61, 0x09, 0x5D, 0x80]

/-- "Decoding one base tile": the samples of its table. -/
theorem test_kss_tile : (readBlock exampleAu [] exampleBlock 0 26 false true ⟨3, 4, 4, 4, 0, 0⟩).toOption =
    some (false, [[401, 404, 395, 410], [200, 200, 200, 200], [101, 101, 98, 101], [1023, 1023, 1023, 1023]]) := by decide +kernel

/-- The same with byte 4 read as 0x13: the base fault with argument word 1 of 0x0003_0004. -/
theorem test_kss_tile_check : (match readBlock exampleAu [] (modAt exampleBlock 4 (fun _ => 0x13)) 0 26 false true ⟨3, 4, 4, 4, 0, 0⟩ with
    | .error f => some f
    | .ok _ => none) = some ⟨0x0553, 0, 3, 4⟩ := by decide +kernel

/-- "Placing one block": A = 0x0001_2345_6780. -/
theorem test_dram_place : dramPlace (0x123456780 / 64) = ⟨15, 0, 13, 6414, 21, 1344, 2026⟩ ∧ sliceOf (0x123456780 / 64) = 0 := by decide +kernel

/-- "A zone warms, and one ray is rebuilt": the entry interpolated at w = 0.675. -/
theorem test_registry_mix :
    packEntry (mixEntry ⟨258048, 7000, -600, 0, 0⟩ ⟨4096, 7100, -604, 0, 0⟩ (27 / 40)) = 0x01668DCE6D280000 := by decide +kernel

/-- "One line of a strip group": the header of the LINE packet of row 8,640, and its block rows. -/
theorem test_link_header : (({ group := 2, typ := 1, alive := 7, row := 8640, payload := List.replicate 17280 0 } : Packet).blockRows, 
    [1 + 16 * 7, 0] ++ leBytes 2 8640 ++ leBytes 2 17280) = (181, [0x71, 0x00, 0xC0, 0x21, 0x80, 0x43]) := by decide +kernel

/-- "Eight horizontal-parallax layers": granules per stratum at levels 0 to 3. -/
theorem test_granules : (List.range 4).map (granulesOf 15 8) = [15, 4, 1, 1] := by decide

/-- "A capture record at 44.1 kHz": the slot of AUD_IN_MASK 0x0203. -/
theorem test_audio_slot : slotBytes 0x0203 = 1216 := by decide

/-- The same example: N_D of the light latency 12,299,000 ns. -/
theorem test_audio_delay : (({ State.reset with aud := { State.reset.aud with rate := 0 } } : State).put F.OUT_LIGHT_NS_LATENCY 12299000).delayTarget = (542, false) := by
  decide +kernel

/-- R434's example: 1,843.5 ns of residence. -/
theorem test_ptp_correction : fieldBE (correctFrame (List.replicate 60 0) ⟨14, none, false, 319, true⟩ (3687 * 128)) 22 8 = 0x07338000 := by
  decide +kernel

/-- "Following one tile group's packets": the word of CHK_CTRL. -/
theorem test_chk_word : ((((((State.reset.put (F.CHK_CTRL_MODE.nth 5) 1).put (F.CHK_CTRL_PRESET.nth 5) 1).put (F.CHK_CTRL_CHECK_EN.nth 5) 1).put
    (F.CHK_CTRL_ALIVE_EN.nth 5) 1)).rd (F.CHK_CTRL_MODE.nth 5).off) = 0x00012085 := by decide

/-- "A route record and the credit limit": record 23. -/
theorem test_route : parseRoute [0x1C, 0, 5, 2, 6, 0, 2, 0, 0, 2, 0, 0, 0, 0, 0, 0] = ⟨28, 5, 2, 6, 0, 2, 512⟩ := by decide

/-- R445: a stamp just before and just after a read that has passed a multiple of 2^32 ns. -/
theorem test_extend : extendStamp (2 ^ 32 - 3) (2 ^ 32 + 5) = 2 ^ 32 - 3 ∧ extendStamp 9 (2 ^ 32 + 5) = 2 ^ 32 + 9 := by decide

/-- R549: while the page is not valid, the subsystem reads 0x1D7C and 0x0000. -/
theorem test_config_ids : State.reset.configIds = [0x1D7C, 0x7440, 0xA1, 0x038000, 0x1D7C, 0] := by decide +kernel

/-- R66: 0 is skipped. -/
theorem test_epoch_wrap : nextEpoch 0xFFFFFFFF = 1 ∧ nextEpoch 500 = 501 := by decide

theorem test_front_witness : ({ State.reset with pending := [.commit 0, .discard 5] } : State).pending = .commit 0 :: [.discard 5] := rfl

theorem test_idle_witness : State.reset.pending = [] := rfl

theorem test_canonical_witness : Memory.wf State.reset.mem = true ∧ step State.reset = .next State.reset := ⟨rfl, rfl⟩

theorem test_write_witness : State.reset.hst.d3 = false ∧ Reg.SYS_LOG_CTRL % 4 = 0 ∧ State.reset.unreachable Reg.SYS_LOG_CTRL = false ∧
    inMsix Reg.SYS_LOG_CTRL = false ∧ (rowAt Reg.SYS_LOG_CTRL).any (fun q => !q.1.wide && q.2.2.2 == 0 &&
      (((State.reset.tick 9).writeBlocked q.1 q.2.1 q.2.2.1 Reg.SYS_LOG_CTRL 5).isNone && State.reset.enableMask q.1 Reg.SYS_LOG_CTRL == 0 &&
        (writeRules.find? (fun p => p.1 == q.1.off)).isNone)) = true := by decide

theorem test_wide_witness : State.reset.unreachable Reg.SYS_FW_ADDR = false ∧ inMsix (Reg.SYS_FW_ADDR + 4) = false ∧
    State.reset.unreachable (Reg.SYS_FW_ADDR + 4) = false ∧ inWindowOf 0x18 Reg.SYS_FW_ADDR = false ∧
    (rowAt Reg.SYS_FW_ADDR).any (fun q => q.1.wide && q.2.2.2 == 0) = true ∧
    (rowAt (Reg.SYS_FW_ADDR + 4)).any (fun q => q.1.wide && q.2.2.2 == 1 &&
      (rowAt Reg.SYS_FW_ADDR).any (fun p => p.1 == q.1) && (writeRules.find? (fun p => p.1 == q.1.off)).isNone &&
      (State.reset.writeBlocked q.1 0 0 (Reg.SYS_FW_ADDR + 4) 1).isNone && State.reset.enableMask q.1 (Reg.SYS_FW_ADDR + 4) == 0 &&
      (State.reset.writeBlocked q.1 0 0 Reg.SYS_FW_ADDR 0x5000).isNone && State.reset.enableMask q.1 Reg.SYS_FW_ADDR == 0 &&
      ((State.reset.plain Reg.SYS_FW_ADDR 0x5000).writeBlocked q.1 0 0 (Reg.SYS_FW_ADDR + 4) 1).isNone &&
      (State.reset.plain Reg.SYS_FW_ADDR 0x5000).enableMask q.1 (Reg.SYS_FW_ADDR + 4) == 0) = true := by decide

theorem test_wide_staged_witness : hasStaged Reg.SYS_FW_ADDR = false ∧ hasStaged Reg.CHK_POLY = true ∧
    (rowAt (Reg.CHK_POLY + 4)).any (fun q => q.1.wide && q.2.2.2 == 1 && (rowAt Reg.CHK_POLY).any (fun p => p.1 == q.1 && p.2.2.2 == 0) &&
      (writeRules.find? (fun p => p.1 == q.1.off)).isNone && (onState.writeBlocked q.1 0 0 (Reg.CHK_POLY + 4) 1).isNone &&
      (onState.writeBlocked q.1 0 0 Reg.CHK_POLY (onState.rd Reg.CHK_POLY)).isNone && onState.enableMask q.1 Reg.CHK_POLY == 0 &&
      ((onState.plain Reg.CHK_POLY (onState.rd Reg.CHK_POLY)).writeBlocked q.1 0 0 (Reg.CHK_POLY + 4) 1).isNone &&
      (onState.plain Reg.CHK_POLY (onState.rd Reg.CHK_POLY)).enableMask q.1 (Reg.CHK_POLY + 4) == 0) = true := by decide

theorem test_wide_blocked_witness : (rowAt (Reg.HST_WRING_BASE + 4)).any (fun q => q.1.wide && q.2.2.2 == 1 &&
      ((onState.setRingSt 0 .running).writeBlocked q.1 0 0 (Reg.HST_WRING_BASE + 4) 0).isSome) = true := by decide

theorem test_debug_unlocked_witness : onState.fieldOn = true ∧ onState.debugLocked = false ∧ onState.hst.d3 = false := by decide

theorem test_unmapped_witness : defined0 0x00000C = false ∧ State.reset.unreachable 0x00000C = false := by decide

theorem test_narrow_witness : State.reset.unreachable (4 * (0x101 / 4)) = false ∧ onState.fieldOn = true ∧ 0x101 % 4 + 2 ≤ 4 ∧
    4 < 0x102 % 4 + 4 ∧ 0x102 % 4 + 4 ≤ 8 := by decide

/-- A queue that joins port 0 of unit 8 to port 1 of unit 7. -/
def aQueue : TiltQueue :=
  { num := 3, prodUnit := 7, prodPort := 1, consUnit := 8, consPort := 0, credits := 4, granted := 4, prio := 2,
    entries := [⟨0, [1], 5⟩] }

/-- The field die on, with one queue. -/
def queueState : State := { onState with tlt := { onState.tlt with queues := [aQueue] } }

theorem test_grant_witness : queueState.cmt.stopped = false ∧ queueState.portHeld 8 0 = false ∧ queueState.grantChoice 8 0 = some (3, 2) ∧
    aQueue.owed = [] ∧ queueState.grantChoice 8 1 = none ∧ aQueue.markerQueue = false ∧ (aQueue.entries.head?).any (fun x => x.marker == 0) = true := by decide

/-- R18: the fifth entry of a queue of four credits waits. -/
theorem test_place_waits : ((({ aQueue with entries := List.replicate 4 ⟨0, [], 0⟩ } : TiltQueue).place [9] 7).entries.length,
    (({ aQueue with entries := List.replicate 4 ⟨0, [], 0⟩ } : TiltQueue).place [9] 7).blocked) = (4, true) := by decide

theorem test_fair_witness : (queueState.tiltPort 8 0).age 3 ≤ TiltPort.lower (fun l => decide ((queueState.tiltPort 8 0).age l <
    (queueState.tiltPort 8 0).age 3)) ∧ ∀ k, k < 4 → TiltPort.lower (fun l => decide (13 + k ≤ (queueState.tiltPort 8 0).age l)) ≤ 3 - k := by
  decide

/-- A port at which level 0 has waited 15 grants. -/
def waitedPort : TiltPort := { unit := 8, port := 0, starve := [(2, 0), (0, 15)] }

theorem test_waited_witness : (({ queueState with tlt := { queueState.tlt with ports := [waitedPort], queues := [aQueue,
    { aQueue with num := 4, prio := 0 }] } } : State).grantChoice 8 0) = some (4, 0) ∧ waitedPort.age 0 = 15 ∧
    0 ∈ readyLevels [aQueue, { aQueue with num := 4, prio := 0 }] := by decide

theorem test_fabric_witness : (queueState.tlt.queues.map TiltQueue.held).sum ≤ tilthEntries ∧ aQueue.granted ≤ aQueue.credits := by decide

/-- A marker queue of unit 20 with marker 1 at its front. -/
def markerState : State := { onState with tlt := { onState.tlt with queues :=
  [{ aQueue with num := 500, prodUnit := 4, consUnit := 20, consPort := 31, entries := [⟨1, [], 2⟩] }] } }

theorem test_marker_witness : markerState.fieldOn = true ∧ markerState.cmt.stopped = false ∧
    (markerState.tlt.queues.find? (fun q => q.markerQueue && q.consUnit == 20)).any (fun q => q.entries == [⟨1, [], 2⟩]) = true := by decide

theorem test_settled_witness : onState.cmt.last = 0 ∧ unitOff onState 8 = false ∧ onState.cmt.stopped = false := by decide

/-- An epoch with one commit that wrote one register of the Rook. -/
def anEpoch : Epoch :=
  { num := 5, frame := 9, target := 0, staged := [], layers := [],
    commits := [{ ring := 0, slot := 0, capture := 1, flags := 0, writes := [(Reg.ROK_CTRL, 0, 7)] }] }

theorem test_epoch_settings_witness : inWindowOf 8 Reg.ROK_CTRL = true ∧ inWindowOf 9 Reg.ROK_CTRL = false ∧
    anEpoch.commits.map (·.writes) = [[] ++ [(Reg.ROK_CTRL, 0, 7)]] := by decide

/-- Firmware runs on a powered field die, with the security module operational. -/
def fwState : State :=
  { ((onState.put F.SYS_FW_STATUS_RUNNING 1).put F.MEM_STATUS_TRAINED 1) with sec := { onState.sec with st := .operational } }

/-- The same with a load at stage `st` and a staged file whose serial is 7. -/
def loadState (st : LoadStage) : State := { fwState with sho := { fwState.sho with stage := st, staging := List.replicate 64 7 } }

theorem test_load_witness : fwState.fieldOn = true ∧ fwState.hst.d3 = false ∧ fwState.loadBusy = false ∧ fwState.trained = true ∧ onState.trained = false ∧
    fwState.flag F.SYS_FW_STATUS_RUNNING = true ∧ (fwState.put F.SYS_IMG_STATUS_BUSY 1).loadBusy = true ∧ fwState.secOk = true ∧
    (loadState .auth).sho.stage = .auth ∧ (loadState .auth).minSerial 0 ≤ fieldLE (loadState .auth).sho.staging 0x10 4 := by decide

/-- A small structure: one group of 16 by 4 pixels, no queue and no region. -/
def anImage : Image :=
  { serial := 7, digest := [], routes := [], regions := [], plans := [],
    panel := { parsePanel (List.replicate 256 0) with
      width := 16, height := 4, groups := (List.replicate 8 ⟨0, 0, 0, 0⟩).set 3 ⟨0, 0, 16, 4⟩ },
    power := parsePower (List.replicate 256 0), memp := parseMemp (List.replicate 64 0), genlock := parseGenlock (List.replicate 64 0) }

theorem test_switch_witness : (({ loadState .switch with sho := { (loadState .switch).sho with next := some anImage } } : State).drained,
    (loadState .switch).sho.run.isNone, (loadState .switch).cmt.stopped, (loadState .switch).fieldOn) = (true, true, false, true) := by decide

/-- A waiting commit descriptor without flags. -/
def aDesc : Desc := { num := 0, bytes := 3 :: List.replicate 63 0, slot := 2, stamp := 1 }

/-- An image runs and a commit descriptor waits on ring 5. -/
def commitState : State :=
  let s : State := { (fwState.put F.SYS_STATUS_IMAGE 1) with sho := { fwState.sho with run := some anImage } }
  { s with hst := { s.hst with rings := s.hst.rings.set 5 { st := .running, taken := [aDesc] } } }

/-- A commit that has been taken. -/
def aCommit : Commit := { ring := 5, slot := 2, num := 0, bytes := aDesc.bytes, capture := 3, flags := 0 }

/-- The same state while `c` is checked. -/
def checkState (c : Commit) : State := { commitState with cmt := { commitState.cmt with checking := some c } }

theorem test_commit_witness : commitState.mayCommit = true ∧ commitState.cmt.recheck = [] ∧ commitState.nextCommit = some (5, aDesc) ∧
    ({ commitState with cmt := { commitState.cmt with recheck := [aCommit] } } : State).mayCommit = true ∧
    (checkState aCommit).sho.switching = false ∧ (checkState aCommit).cmt.stopped = false := by decide

theorem test_commit_code_witness : ((checkState aCommit).tick 9).commitCode aCommit = some (0, 0xFFFF, none) ∧
    ((((checkState aCommit).put F.KLN_CTRL_K0_EN 1).tick 9).commitCode { aCommit with bytes := [3, 0, 0, 0, 0, 0, 0, 0, 32] }) =
      some (0x0410, 0xFFFF, none) := by decide +kernel

theorem test_overlay_witness : ({ aCommit with flags := 2 } : Commit).hasOverlay = true ∧
    (checkState { aCommit with flags := 2 }).loadBusy = false ∧
    ((checkState { aCommit with flags := 2 }).tick 4).commitEarly { aCommit with flags := 2 } = 0 := by decide

theorem test_board_check_witness : ({ aCommit with flags := 1 } : Commit).needsBoard = true ∧
    ((checkState { aCommit with flags := 1 }).tick 4).beforeBoard { aCommit with flags := 1 } = some (0, none) ∧
    ((checkState { aCommit with flags := 1 }).put F.BRD_STATUS_STATE 1).get F.BRD_STATUS_STATE ≠ 0 := by decide

theorem test_landing_witness : ([aCommit] ++ { aCommit with num := 1 } :: [{ aCommit with ring := 6 }]).Nodup := by decide

/-- R77: a commit that completes at the latch instant does not land; the one before it on another ring does. -/
theorem test_landing_edge : landing 100 0 [] [{ aCommit with complete := 100 }, { aCommit with ring := 6, complete := 99 }] =
    ([{ aCommit with ring := 6, complete := 99 }], [{ aCommit with complete := 100 }]) := by decide

/-- Frame 1 of mode 1 is past its latch line. -/
def latchState : State :=
  let s := commitState.put F.CMT_FRAME_FRAME 1
  { s with out := { s.out with running := true, period := 1000000 } }

/-- The state with one epoch sealed, that unit 20 has latched. -/
def epochState : State :=
  { markerState with cmt := { markerState.cmt with epochs := [{ anEpoch with latched := [20], commits := [] }] } }

/-- FREEZE set at stamp 0. -/
def frozenState : State := onState.put F.CMT_SNAP_CTRL_FREEZE 1

theorem test_publish_witness : epochState.cmt.epochs.find? (fun x => !x.published) = some { anEpoch with latched := [20], commits := [] } ∧
    epochState.markerUnits.all ([20].contains) = true ∧ epochState.passedUnits { anEpoch with latched := [20], commits := [] } = true ∧
    epochState.heldLater { anEpoch with latched := [20], commits := [] } = false := by decide

theorem test_freeze_witness : onState.flag F.CMT_SNAP_CTRL_FREEZE = false ∧ frozenState.flag F.CMT_SNAP_CTRL_FREEZE = true ∧
    frozenState.cmt.freezeAt + 250 * tickMs ≤ max frozenState.now 64000000000 ∧ frozenState.fieldOn = true := by decide

theorem test_latch_witness : (latchState.tick 6000000000).latchDue = true ∧ latchState.sho.switching = false ∧
    latchState.cmt.stopped = false ∧ latchState.fieldOn = true := by decide +kernel

/-- R83: one tick before 250 ms the view stays frozen. -/
theorem test_freeze_edge : ((frozenState.tick 63999999999).freezeExpiry.flag F.CMT_SNAP_CTRL_FREEZE,
    (frozenState.tick 64000000000).freezeExpiry.flag F.CMT_SNAP_CTRL_EXPIRED) = (true, true) := by decide

/-- A band that waits for admission, with no stratum to decode. -/
def aBand : Band :=
  { seq := 4, frame := 1, epoch := 1, b := 0, row0 := 0, rows := 64, released := true, d := 9000000 }

/-- The frame of that band, with no layer. -/
def bandFrame : BrdFrame :=
  { epoch := 1, frame := 1, target := 0, plan := ⟨1, 64, 2, 0, 100, 100, 100, 1, 0⟩, mode := 1, row0 := 0, descs := [], shows := [], entries := [] }

/-- The field die on with one band of that frame; the Kiln, Silt and the Rook have taken its epoch. -/
def bandState (b : Band) : State :=
  { onState with
    brd := { onState.brd with bands := [b], frames := [bandFrame] }
    sys := { onState.sys with unitEpoch := [(5, 1), (6, 1), (8, 1)] } }

theorem test_admit_witness : (bandState aBand).brd.bands.find? (fun b => b.released && !b.admitted) = some aBand ∧ aBand.fitStep = 0 ∧
    epochLe aBand.epoch ((bandState aBand).epochAt 5) = true ∧
    ((bandState aBand).tick 5).decodeTime (aBand.strata.map (fun q => ((bandState aBand).tick 5).bandCost aBand q true)) = none ∧
    (((bandState aBand).put F.KLN_STATUS_K0_STATE 0).tick 5).decodeTime [] = some 0 ∧
    (0 : Rat) ≤ (((bandState aBand).put F.KLN_STATUS_K0_STATE 0).tick 5).timeAvail aBand := by decide +kernel

/-- A band whose predicted time is above the time left at every step. -/
theorem test_admit_short_witness :
    (((bandState { aBand with d := 0 }).put F.KLN_STATUS_K0_STATE 0).tick 5).decodeTime [] = some 0 ∧
    (((bandState { aBand with d := 0 }).put F.KLN_STATUS_K0_STATE 0).tick 5).timeAvail { aBand with d := 0 } < (0 : Rat) := by decide +kernel

/-- A band with a stratum that no engine has decoded, on engine 1. -/
def strataBand : Band := { aBand with admitted := true, strata := [{ layer := 0, stratum := 2, started := true }] }

/-- Engine 1 decodes that stratum; layer 0 of the frame is an empty scene at 0x40000. -/
def stratumState : State :=
  let s := bandState strataBand
  { s with
    brd := { s.brd with frames := [{ bandFrame with shows := [{ index := 0, id := 1, kind := 2, shown := true, content := .scene 0x40000 0x50000 }] }] }
    kln := { s.kln with eng := [{}, { cur := some (4, 0) }] } }

theorem test_stratum_witness : (stratumState.engine 1).cur = some (4, 0) ∧ stratumState.bandAt 4 = some strataBand ∧ strataBand.kilnDone = false ∧
    stratumState.sceneOf strataBand 0 = some (0x40000, 0x50000) ∧
    (stratumState.tick 9).readPoison (stratumState.stratumAt 0x40000 2).1 0 = false := by decide +kernel

theorem test_band_done_witness : (bandState { aBand with admitted := true }).brd.bands.find? (fun b => b.admitted && !b.kilnDone &&
    b.strata.all (·.done)) = some { aBand with admitted := true } ∧ (((max 0 7 : Nat) : Rat) < aBand.d) ∧
    aBand.d ≤ ((max 0 9000000 : Nat) : Rat) ∧ aBand.late = false := by decide +kernel

/-- A loam encode of 64 bytes at 0x1000 into a buffer at 0x20000, over once its unit is written. -/
def aJob : KilnJob :=
  { ring := 2, slot := 1, num := 0, bufAddr := 0x20000, bufLen := 16384,
    bytes := [4, 0, 0, 0, 0, 0, 0, 0, 1, 0, 0, 0] ++ leBytes 4 64 ++ leBytes 8 0x1000 ++ leBytes 8 0x20000 ++ leBytes 4 16384 ++ [255, 255, 0, 0] ++
      List.replicate 24 0 }

/-- The same as a waiting descriptor on ring 2. -/
def jobState (st : DescSt) : State :=
  let s := ((fwState.put F.KLN_STATUS_K0_STATE 0).put F.SYS_STATUS_IMAGE 1)
  { s with hst := { s.hst with rings := s.hst.rings.set 2 { st := .running, taken := [{ num := 0, bytes := aJob.bytes, slot := 1, stamp := 1, st := st }] } } }

/-- Engine 0 runs the job in state `st`. -/
def engineState (j : KilnJob) (st : Nat) : State :=
  let s := (jobState .running).put F.KLN_STATUS_K0_STATE st
  { s with kln := { s.kln with eng := [{ job := some j }, {}] } }

theorem test_job_witness : ((jobState .waiting).tick 5).jobCode aJob.bytes = 0 ∧ ((jobState .waiting).tick 5).jobReady 2 1 =
    some { num := 0, bytes := aJob.bytes, slot := 1, stamp := 1 } ∧ [0, 1].find? (fun e => decide ((jobState .waiting).engSt e = 0)) = some 0 ∧
    ((jobState .waiting).tick 5).jobCode (List.replicate 64 0) ≠ 0 := by decide

theorem test_unit_witness : ((engineState aJob 2).engine 0).job = some aJob ∧ (engineState aJob 2).engSt 0 = 2 ∧ aJob.op = 1 ∧ aJob.spent = false ∧
    ((engineState aJob 2).tick 7).readPoison (aJob.src + aJob.inPos) 64 = false ∧ aJob.useIndex = false ∧ aJob.ring ≠ fwRing := by decide

theorem test_chain_witness : ((engineState { aJob with waitAt := some 5, bytes := aJob.bytes.set 0x24 3 |>.set 0x25 0 } 3).tick 7).chainExpired 5 = false ∧
    ((engineState aJob 3).tick (50000 * tickUs * 100)).chainExpired 5 = true ∧ (engineState aJob 3).engSt 0 = 3 ∧
    ((fwState.engine 0).job, (fwState.engine 1).job) = (none, none) := by decide

/-- A band that waits for its bank. -/
def nextSilt (held : Bool) : Band := { aBand with released := false, listed := true, paced := true, held := held }

/-- Both banks free and that band next. -/
def siltState (held : Bool) : State := ((bandState (nextSilt held)).put F.SLT_BANK_A_STATE 0).put F.SLT_BANK_B_STATE 0

theorem test_release_witness : (siltState false).get F.SLT_BANK_NEXT = 0 ∧ (siltState false).bankSt 0 = 0 ∧ (siltState false).bankSt 1 = 0 ∧
    ((siltState false).tick 3).paceNext.brd.bands.find? (fun b => !b.released) = some (nextSilt false) ∧
    ((siltState true).tick 3).paceNext.brd.bands.find? (fun b => !b.released) = some (nextSilt true) ∧
    ((siltState false).tick 3).paceNext.frameOf (nextSilt false) = some bandFrame ∧ epochLe 1 ((siltState false).epochAt 6) = true := by decide +kernel

/-- A band that carries stratum 1 of plane 2 of layer 0 from bank 1, and fetches a tile of entry 0. -/
def carryBand : Band := { aBand with carry := [(0, 2, 1)], fetch := [(0, 3, 0)] }

theorem test_carry_witness : (bandState carryBand).brd.bands.find? (fun b => b.released && !b.carryDone) = some carryBand ∧
    (bandState carryBand).brd.bands.find? (fun b => b.released && !b.flatDone) = some carryBand ∧
    ((bandState carryBand).tick 3).fetchPoison carryBand (0, 3, 0) = none := by decide +kernel

/-- The same with the fetch's layer a pyramid at 0x1000 whose rows are poisoned. -/
def poisonFetch : State :=
  let s := bandState carryBand
  { s with
    poison := [(0x1000 / 64, true)]
    brd := { s.brd with frames := [{ bandFrame with
      entries := [⟨0, 0, false, false, 0, [], 0, 0, 64, 0, 64, 0, 0, 0, false, 8, none⟩]
      descs := [List.replicate 24 0 ++ [64, 0, 64, 0] ++ List.replicate 100 64]
      shows := [{ index := 0, id := 1, kind := 0, shown := true, content := .pyramid 0x1000 512 1 64 64 }] }] } }

theorem test_fetch_poison_witness : ((poisonFetch.tick 3).fetchPoison { carryBand with fetch := [(0, 0, 0)] } (0, 0, 0)).isSome = true := by
  decide +kernel

/-- A structure with a panel of 8 by 4 patches in all eight groups runs. -/
def rrgState : State :=
  { fwState with sho := { fwState.sho with run := some anImage } }

theorem test_set_load_witness : rrgState.flag F.RRG_SET_STATUS_BUSY = false ∧ (rrgState.put F.RRG_SET_STATUS_BUSY 1).flag F.RRG_SET_STATUS_BUSY = true ∧
    rrgState.sho.run.isSome = true ∧ setFormatOk rrgState.rrg.file = false ∧ rrgState.rrg.parked = none ∧
    rrgState.flag (F.RRG_ZONE_STATUS_TEMP_LOST.nth 3) = false ∧ (rrgState.put F.RRG_CTRL_ZONE_TRIM_EN 0).flag F.RRG_CTRL_ZONE_TRIM_EN = false ∧
    rrgState.panel.hasGroup 3 = true ∧ (rrgState.put (F.RRG_ZONE_STATUS_STATE.nth 3) 0).zoneSt 3 = 0 ∧ rrgState.rrg.running = none := by decide

/-- Zone 3 runs, reported at stamp 5. -/
def zoneState : State :=
  { rrgState with rrg := { rrgState.rrg with running := some 3, zones := rrgState.rrg.zones.set 3 { since := some 5, reported := true } } }

theorem test_zone_witness : (zoneState.zone 3).since = some 5 ∧ 5 + 100 * tickMs ≤ max zoneState.now 30000000000 ∧ zoneState.rrg.running = some 3 ∧
    ({ zoneState with cmt := { zoneState.cmt with last := 1 } } : State).cmt.last ≠ 0 ∧ (zoneState.panel.zoneEntries 3).length = 2 ∧ zoneState.rrg.parked = none := by decide

/-- One set is valid in slot 2 and zone 3 is queued. -/
def queuedState : State :=
  let s := rrgState.put (F.RRG_ZONE_STATUS_STATE.nth 3) 1
  { s with rrg := { s.rrg with sets := s.rrg.sets.set 2 { valid := true, temp := 640 } } }

theorem test_zone_start_witness : queuedState.nextZone = some 3 ∧ (queuedState.zone 3).reported = false ∧
    runSets queuedState.usableSets ((queuedState.usableSets.head?.map (·.2.temp)).getD 0) = some (2, 2) := by decide +kernel

/-- Every zone is built and IDLE, and a listed band waits for its entries. -/
def streamState : State :=
  let s := (List.range 8).foldl (fun s n => (s.put (F.RRG_ZONE_STATUS_BUILT.nth n) 1).put (F.RRG_ZONE_STATUS_STATE.nth n) 0) rrgState
  { s with
    brd := { s.brd with bands := [{ aBand with listed := true }] }
    sys := { s.sys with unitEpoch := [(7, 1)] } }

theorem test_stream_witness : streamState.rrgStreams = true ∧ epochLe aBand.epoch (streamState.epochAt 7) = true ∧
    streamState.brd.bands.find? (fun b => b.listed && !b.streamed) = some { aBand with listed := true } := by decide +kernel

/-- Lane 2 in state `st`, with trims enabled. -/
def laneState (st : Nat) : State := (onState.put (F.RRG_LANE_STATUS_STATE.nth 2) st).put F.RRG_CTRL_LANE_TRIM_EN 1

theorem test_lane_witness : (laneState 0).laneSt 2 = 0 ∧ (laneState 1).laneSt 2 = 1 ∧ (laneState 2).laneSt 2 = 2 ∧
    (laneState 1).flag F.RRG_CTRL_LANE_TRIM_EN = true ∧ ((laneState 1).put F.RRG_TRIGGER_LANE_PERIOD 1).get F.RRG_TRIGGER_LANE_PERIOD ≠ 0 ∧
    ((laneState 1).lane 2).lastRun + 1 * tickS ≤ max 0 300000000000 ∧
    ((laneState 1).put F.RRG_FOM_FOM_MIN 9).get (F.RRG_LANE_STATUS_FOM.nth 2) < ((laneState 1).put F.RRG_FOM_FOM_MIN 9).get F.RRG_FOM_FOM_MIN ∧
    (laneSteps ((laneState 2).lane 2).start ((laneState 2).lane 2).aux [(100, 0)] (laneParams 2)).any (·.2) = false ∧
    ((laneState 2).lane 2).iter < 31 := by decide

/-- The Rook's band: released, streamed, in bank 0. -/
def rookBand : Band := { aBand with listed := true, streamed := true, paced := true }

/-- The same with bank 0 READY with it. -/
def rookState (b : Band) : State := (((bandState b).put F.SLT_BANK_A_STATE 2).put F.ROK_STATUS_F_STATE 0).onBank 0 (fun k => { k with band := b.seq })

theorem test_rook_witness : (rookState rookBand).fileSt 2 ≠ 2 ∧ ((rookState rookBand).rok.files.getD 2 {}).faults = [] ∧
    (rookState rookBand).ownsReady rookBand = true ∧ ((rookState rookBand).bank 0).held = false ∧ (rookState rookBand).liveFiles.isEmpty = false ∧
    (rookState rookBand).bufferDue rookBand.seq = false ∧ (rookState rookBand).bandHeld rookBand = false ∧
    (rookState { rookBand with held := true }).bandHeld { rookBand with held := true } = true ∧
    ((rookState rookBand).tick 9000000).lastRowAt rookBand ≤ ((max 0 900000000000 : Nat) : Rat) ∧ epochLe 1 ((rookState rookBand).epochAt 8) = true ∧ (rookState rookBand).nextBand = some rookBand ∧
    (rookState { rookBand with started := true }).runningBand.isSome = true ∧
    max 0 (30 * tickS) < 1 + 60 * tickS ∧ rookBand.squares.length ≤ rookBand.doneSq.length := by decide +kernel

/-- Context 7 in state `st`. -/
def ctxState (st : CtxSt) : State := { onState with brd := { onState.brd with ctxs := [{ num := 7, st := st }] } }

theorem test_ctx_witness : onState.ctx 7 = none ∧ (ctxState .registered).ctx 7 = some { num := 7, st := .registered } ∧
    (ctxState .live).ctx 7 = some { num := 7, st := .live } ∧ (ctxState .registered).ctxNamed 7 = false ∧ onState.hst.d3 = false ∧
    ({ onState with sve := { onState.sve with sent := [(7, 3, 1)] } } : State).sve.sent = (7, 3, 1) :: [] := by decide

/-- Pipe 1 enabled, with a job on its queue and on its current frame. -/
def pipeState (cur : Option SveFrame) (queue : List SveJob) : State :=
  let s := (ctxState .live).setPipe 0 1
  { s with sve := { s.sve with pipes := [{ cur := cur, queue := queue }, {}, {}, {}] } }

/-- A job of context 7. -/
def sveJob : SveJob := ⟨0, 0, 7, 0x1000, 64, 3⟩

theorem test_sieve_witness : ((pipeState none [sveJob]).pipe 0).queue = sveJob :: [] ∧ (pipeState none [sveJob]).pipeSt 0 = 1 ∧
    ((pipeState none [sveJob]).pipe 0).cur.isNone = true ∧ (pipeState none [sveJob]).ctx 7 = some { num := 7, st := .live } ∧
    ((pipeState (some { job := sveJob, desc := [], slot := 0 }) []).pipe 0).cur.isSome = true := by decide

theorem test_tables_witness : onState.get F.SVE_TBL_SEL_INDEX < 896 ∧ (onState.setPipe 0 2).pipeSt 0 = 2 ∧
    badPhase (onState.pipe 0).shadow = none ∧ onState.leftOff 12 = false ∧ (onState.pipe 0).cur.isNone = true ∧ onState.hst.d3 = false := by
  decide +kernel

/-- A fill of one 8-byte row at 0x8000. -/
def trwBytes : List Nat := (5 :: List.replicate 63 0).set 8 2

/-- A Trowel job waits on ring 4, or is current. -/
def trwState (cur : Option TrwJob) (st : Nat) : State :=
  let s := (fwState.put F.SYS_STATUS_IMAGE 1).put F.TRW_STATUS_STATE st
  { s with
    trw := { s.trw with cur := cur }
    hst := { s.hst with rings := s.hst.rings.set 4 { st := .running, taken := [{ num := 0, bytes := trwBytes, slot := 0, stamp := 1 }] } } }

theorem test_trw_witness : (trwState none 0).trwNext = some (4, { num := 0, bytes := trwBytes, slot := 0, stamp := 1 }) ∧ (trwState none 0).trwSt = 0 ∧
    (trwFields trwBytes).op = 2 ∧ (trwState (some { ring := 4, num := 0, bytes := trwBytes, method := 0 }) 1).trwSt = 1 ∧
    (trwState none 2).trwSt = 2 := by decide

/-- A genlock record on SYNC_IN; frames run. -/
def rasterState : State :=
  let s := latchState
  { s with out := { s.out with
      gen := some { anImage.genlock with source := 1, rateNum := 60, rateDen := 1 }
      lastEdge := some 1, lastTe := some 1, teInts := [100] } }

theorem test_raster_witness : rasterState.out.running = true ∧ rasterState.out.line < (modeAt rasterState.out.mode).vtotal ∧
    rasterState.tim.edges.any (fun e => e.1 == 0 && decide (max rasterState.now 9 < e.2 + 50 * tickNs)) = false ∧ rasterState.out.gen.isSome = true ∧
    ({ rasterState with tim := { rasterState.tim with edges := [(0, 5)] } } : State).tim.edges.any (fun e => e.1 == 0 &&
      decide (max rasterState.now 9 < e.2 + 50 * tickNs)) = true ∧
    rasterState.lock = 0 ∧ rasterState.out.sched = false ∧ rasterState.sho.firstAt + 2 * tickS ≤ max rasterState.now (3 * tickS) ∧
    ({ rasterState with out := { rasterState.out with lastEdge := none } } : State).out.teInts ≠ [] ∧
    (rasterState.put F.OUT_TE_TE_EN 1).flag F.OUT_TE_TE_EN = true ∧ rasterState.flag F.OUT_LOCK_TE_LOST = false := by decide +kernel

theorem test_raster_times : rasterState.out.start + (rasterState.out.line : Rat) * rasterState.out.period / ((modeAt rasterState.out.mode).vtotal : Rat) ≤
    ((max rasterState.now 9 : Nat) : Rat) ∧ (((1 : Nat) : Rat) + 3 * rasterState.pTe ≤ ((max rasterState.now 1000000 : Nat) : Rat)) ∧
    rasterState.markAt ⟨0, 1, 0, false, []⟩ ≤ ((max rasterState.now 1000000000 : Nat) : Rat) := by decide +kernel

/-- Group 3 in state `st`. -/
def groupState (st : Nat) : State := rrgState.put (F.TLK_GROUP_STATUS_STATE.nth 3) st

theorem test_group_witness : (groupState 1).tlkSt 3 = 1 ∧ (groupState 2).tlkSt 3 = 2 ∧ (groupState 3).tlkSt 3 = 3 ∧ (groupState 4).tlkSt 3 = 4 ∧
    (groupState 6).tlkSt 3 = 6 ∧ ((groupState 4).tlkGroup 3).mismatchAt = none ∧ ((groupState 4).tlkGroup 3).configAt = none ∧
    ((groupState 1).tlkGroup 3).since + 100 * tickMs ≤ max 0 (100 * tickMs) ∧ ((groupState 1).tlkGroup 3).detectLogged = false ∧
    ((groupState 1).tlkGroup 3).rbLost = false ∧ (groupState 4).flag (F.TLK_GROUP_STATUS_BC_LOST.nth 3) = false ∧ bcParse [] = none ∧
    ((groupState 4).put F.TLK_CTRL_READBACK_EN 0).flag F.TLK_CTRL_READBACK_EN = false ∧
    ((groupState 4).put F.TLK_CTRL_READBACK_EN 1).flag F.TLK_CTRL_READBACK_EN = true ∧ checkOk [] = false ∧
    (groupState 2).flag (F.TLK_GROUP_STATUS_BC_LOCK.nth 3) = false ∧ (groupState 5).tlkSt 3 = 5 ∧
    ((groupState 4).onGroup 3 (fun g => { g with mismatchAt := some 0 })).tlkSt 3 = 4 := by decide

theorem test_readback_witness : ({ group := 3, typ := 1 } : Packet).checksOk [] = false ∧
    ({ groupState 5 with tlk := { (groupState 5).tlk with sent := [{ group := 3, typ := 1 }] } } : State).tlk.sent.find?
      (fun q => q.group == 3 && decide (q.leftAt ≤ ((max 0 5000 : Nat) : Rat))) = some { group := 3, typ := 1 } := by decide +kernel

theorem test_messages_witness : bcParse [3, 2, 0x3F, 0x3F, fieldLE (leBytes 2 (crc16 [3, 2, 0x3F, 0x3F])) 0 1,
      fieldLE (leBytes 2 (crc16 [3, 2, 0x3F, 0x3F])) 1 1] = some (3, [0x3F, 0x3F]) ∧
    (bcParse ([1, 24] ++ List.replicate 24 0 ++ leBytes 2 (crc16 ([1, 24] ++ List.replicate 24 0)))).isSome = true ∧
    (bcParse ([2, 24] ++ List.replicate 24 0 ++ leBytes 2 (crc16 ([2, 24] ++ List.replicate 24 0)))).isSome = true := by decide +kernel

/-- The panel in state `st`, a discharge phase 2 since stamp 0. -/
def panelState (st : Nat) : State :=
  let s := (rrgState.put F.PNL_STATUS_STATE st).put F.SYS_STATUS_IMAGE 1
  { s with pnl := { s.pnl with phase := 2, sweepDue := true, dmr := .check } }

theorem test_panel_witness : (panelState 3).pnlSt = 3 ∧ (panelState 0).pnlSt = 0 ∧ (panelState 4).pnlSt = 4 ∧ (panelState 4).pnl.phaseDue = none ∧
    (panelState 3).flag F.PNL_DMR_STATUS_BUSY = false ∧ ((panelState 3).put F.PNL_DMR_STATUS_BUSY 1).flag F.PNL_DMR_STATUS_BUSY = true ∧
    dmrFormatOk (panelState 3).pnl.dmrFile = false ∧
    [0, 1].any (((panelState 2).onEngine 0 (fun g => { g with job := some (fwJob 2 0 0 0 0) })).runsFw 2) = true ∧
    (panelState 3).get F.LBL_STATUS_STATE = 0 ∧ ((panelState 3).put F.LBL_STATUS_STATE 2).get F.LBL_STATUS_STATE = 2 ∧
    ((panelState 3).put F.LBL_STATUS_STATE 3).get F.LBL_STATUS_STATE = 3 ∧ (panelState 0).imageOn = true ∧
    (panelState 4).pnl.phaseAt + ((panelState 4).phaseMs 2 + 10) * tickMs ≤ max 0 (1000 * tickS) := by decide

/-- The LBL idle, an update and a blink write due or not, one pixel to light. -/
def lblIdle (due blink : Bool) : State :=
  let s := State.reset.put F.LBL_STATUS_STATE 2
  { s with lbl := { s.lbl with due := due, blinkDue := blink, target := [8, 0, 0, 0, 0, 0, 0, 0], dirty := true } }

theorem test_lbl_idle_witness : (lblIdle true false).lbl.due = true ∧
    (lblIdle true false).lblSt = 2 ∧ (lblIdle true false).lbl.diff false = some ⟨0, 0, 3, 1⟩ ∧
    ((lblIdle true false).tick 0).uipCovers [⟨0, 0, 3, 1⟩] = false ∧ ((lblIdle true false).tick 0).lblQueued = false ∧
    (lblIdle true false).lbl.dirty = true ∧ (lblIdle true false).lbl.wroteAt + (lblIdle true false).get F.LBL_CLEAN_CLEAN_S * tickS ≤
      max (lblIdle true false).now (1000000 * tickS) := by decide +kernel

theorem test_lbl_nothing_witness : (State.reset.put F.LBL_STATUS_STATE 2).lbl.diff false = none := by decide +kernel

/-- An open LBL_UIP record that lists the whole strip, and a pixel that generator 1 blinks. -/
def lblCovered (due : Bool) : State :=
  let s := lblIdle due true
  { s with
    lbl := { s.lbl with masks := [[0, 0, 0, 0, 0, 0, 0, 0], [8, 0, 0, 0, 0, 0, 0, 0], [0, 0, 0, 0, 0, 0, 0, 0], [0, 0, 0, 0, 0, 0, 0, 0]] }
    nvs := { s.nvs with recs := [{ sector := 0, bytes := recordBytes 0x0030 0 1 0 [1, 0, 0, 0, 0, 7, 0, 0, 0, 1, 0, 0] }] } }

theorem test_lbl_covered_witness : ((lblCovered true).tick 0).uipCovers [⟨0, 0, 3, 1⟩] = true ∧
    (lblCovered false).lbl.diff true = some ⟨0, 0, 3, 1⟩ ∧ ((lblCovered false).tick 0).uipCovers (lblCovered false).lbl.blinkRows = true ∧
    (lblCovered false).lbl.due = false := by decide +kernel

/-- A run of two phases of 20 ms. -/
def lblWriting (r : Nat) : State :=
  let s := lblIdle false false
  { s with lbl := { s.lbl with run := some ⟨⟨0, 0, 3, 1⟩, [8, 0, 0, 0, 0, 0, 0, 0], [r, r], false, false, 0, 0, 0, false⟩ } }

theorem test_lbl_phase_witness : ((lblWriting 0x07D00000).lbl.run.map (fun u => (u.wave[u.phase]?, decide (u.phase + 1 < u.wave.length)))) =
    some (some 0x07D00000, true) ∧ 0 + phaseDur 0x07D00000 * 10 * tickUs ≤ max (lblWriting 0x07D00000).now (20000 * tickUs) := by
  decide +kernel

/-- Generator 1 with a period of 1 ms and no duty: it is off at every instant. -/
def lblBlinking : State :=
  let s := lblIdle false false
  { s with cmt := { s.cmt with inForce := (s.cmt.inForce.put (F.BRD_BLINK_PERIOD_MS.nth 1) 1).put (F.BRD_BLINK_DUTY.nth 1) 0 } }

theorem test_lbl_generator_witness : (lblBlinking.blinkOn 1 (lblBlinking.full (max lblBlinking.now 0))) = false ∧
    lblBlinking.lbl.gens.getD 1 true ≠ false := by decide +kernel

/-- A clearing run whose last common is written, with another rectangle to clear. -/
def lblClearing : State :=
  let s := State.reset.put F.LBL_STATUS_STATE 1
  { s with lbl := { s.lbl with run := some ⟨⟨0, 7, 0, 256⟩, List.replicate 8 0, [1], false, false, 7, 1, 0, true⟩, clear := [⟨0, 0, 3, 1⟩] } }

theorem test_lbl_clearing_witness : (lblClearing.lbl.run.map (fun u => (decide (u.wave.length ≤ u.phase), u.clear, decide (u.rect.c1 ≤ u.com)))) =
    some (true, true, true) ∧ lblClearing.lbl.stop = false ∧ lblClearing.lbl.clear = ⟨0, 0, 3, 1⟩ :: [] ∧ lblClearing.lbl.run ≠ none ∧
    1 ≤ lblClearing.lblSt ∧ lblClearing.lblSt ≤ 3 ∧ State.reset.lbl.run = none := by decide +kernel

theorem test_lbl_states_witness : State.reset.hst.d3 = false ∧ State.reset.lblSt = 0 ∧
    (State.reset.put F.LBL_STATUS_STATE 4).lblSt = 4 ∧
    (State.reset.put F.LBL_STATUS_STATE 1).lblSt = 1 ∧ (State.reset.put F.LBL_STATUS_STATE 2).lblSt = 2 ∧
    (State.reset.put F.LBL_STATUS_STATE 3).lblSt = 3 ∧ ({ State.reset with lbl := { State.reset.lbl with request := some 6 } } : State).lbl.request = some 6 ∧
    ({ State.reset with lbl := { State.reset.lbl with request := some 6 } } : State).lbl.run.isNone = true ∧ (true && false) = false := by decide +kernel

theorem test_memory_witness : ([7, 9] : List Nat)[1]? = some 9 ∧ 62 + 1 < memTop ∧ memTop ≤ memTop + 3 ∧ 64 ≤ 64 * 1 ∧
    64 * 1 + 64 ≤ 64 + (List.replicate 64 1).length ∧ 64 * 0 < 64 ∧ 64 * 1 ≤ 66 ∧ 66 + ([7, 9] : List Nat).length ≤ 64 * 1 + 64 := by decide +kernel

/-- The field die on, channel 0 active, one request of block 0. -/
def memState (w issued : Bool) : State :=
  let s := onState
  { s with mc := { s.mc with
      chans := modAt s.mc.chans 0 (fun k => { k with st := .active })
      reqs := [{ id := 4, port := 3, block := 0, write := w, stamp := 0, issued := issued }] } }

theorem test_mem_witness : onState.fieldOn = true ∧ (dramPlace 0).chan = 0 ∧
    (onState.put (F.MEM_PORT_MAX_SLOTS.nth 3) 8).slotFree 3 0 = true ∧ (onState.put (F.MEM_PORT_MAX_SLOTS.nth 3) 0).slotFree 3 0 = false ∧
    onState.mc.held = [] ∧ memTop ≤ 64 * 1560281088 ∧ ((memState false false).chan 0).st = .active ∧
    ((memState false false).pick 0 [] false).isSome = true ∧ (memState false true).blockPoison 0 = false ∧
    ((memState false true).mc.reqs.find? (fun q => q.id == 4 && q.issued && !q.write)).isSome = true ∧
    ((memState true false).mc.reqs.find? (fun q => q.id == 4 && q.write && !q.acked)).isSome = true := by decide +kernel

theorem test_mem_pick_witness : (memState false false).drainNow 0 = false ∧
    [((3, 5, true) : Nat × Nat × Bool)].any (fun q => q.1 == 3 && q.2 != (5, false)) = true ∧
    ((memState true false).pick 0 [] false) = none ∧ (memState true false).idleRefresh 0 [] = some 1 ∧ (memState true false).idleRefresh 1 [] = some 1 ∧
    (memState true false).idleRefresh 0 (List.range 32) = none ∧
    (({ memState false false with mc := { (memState false false).mc with reqs := [{ id := 4, port := 3, block := 0, write := true, stamp := 0, acked := true }] } }
      : State).pick 0 [] false).isSome = true ∧ (((memState true false).chan 0).banks.getD (bankIx 0) {}).openRow ≠ some (dramPlace 0).row ∧
    (((memState false false).put (F.MEM_PORT_TARGET_NS.nth 3) 500).tick 0).urgency { id := 4, port := 3, block := 0, write := false, stamp := 0 } ≠ 2 := by
  decide +kernel

/-- Channel 0 of the memory in a state, found drifted, after so many failed trainings. -/
def chanState (st : ChanSt) (d : Option Nat) (n : Nat) : State :=
  let s := onState
  { s with mc := { s.mc with chans := modAt (s.mc.chans.map (fun k => { k with st := .active })) 0 (fun k => { k with st := st, driftAt := d, fails := n }), tol := 2000 } }

theorem test_upkeep_witness : ((chanState .active none 0).rank 0 0).st ≠ .selfRefresh ∧ ((chanState .active none 0).chan 0).driftAt = none ∧
    ((chanState .active (some 1) 0).chan 0).driftAt = some 1 ∧ 2000 ≤ (chanState .active (some 1) 0).mc.tol ∧
    ((chanState .retrain (some 1) 0).chan 0).st = .retrain ∧ ((chanState .training none 2).chan 0).st = .training ∧
    ((((chanState .training none 2).tick 3).onChan 0 (fun k => { k with fails := 0, lostInService := false, driftAt := none })).setChan 0 .active).mc.chans.all
      (fun k => k.st == .active) = true ∧ (chanState .active none 0).rankIdle 0 1 = true ∧ ((chanState .active none 0).rank 0 1).st = .awake ∧
    ((chanState .active none 0).put F.MEM_POLICY0_MODE 1).get F.MEM_POLICY0_MODE = 1 ∧
    ((chanState .active none 0).put F.MEM_POLICY0_IDLE_US 5).get F.MEM_POLICY0_IDLE_US * tickUs ≤ max 0 (9 * tickUs) - 0 ∧
    (((chanState .active none 0).put F.MEM_SCRUB_HOURS 24).tick 9).scrubDueNow 0 = true ∧ (onState.tick 9).scrubDueNow 0 = false ∧
    ((chanState .active none 0).put F.MEM_POLICY0_MODE 2).get F.MEM_POLICY0_MODE = 2 := by decide +kernel

theorem test_postpone_witness : (((memState false false).chan 0).banks.getD 0 {}).early = 0 ∧ 0 < ({ early := 2 } : Bank).early ∧
    (((memState false false).put (F.MEM_PORT_TARGET_NS.nth 3) 1).tick 5000).urgency
    { id := 4, port := 3, block := 0, write := false, stamp := 0 } = 2 ∧
    (((((memState false false).put (F.MEM_PORT_TARGET_NS.nth 3) 1).tick 5000).wakeRank 0 0).chanReqs 0).length = 1 := by decide +kernel

/-- The field die on, port 1 up or down. -/
def portState (up : Nat) : State := (onState.put (F.TIM_PORT_CTRL_ENABLE.nth 1) 1).put F.TIM_STATUS_PORT_UP up

/-- A minimal frame for nobody, with its FCS. -/
def aFrame (mac typ : List Nat) : List Nat := mac ++ [2, 0, 0, 0, 0, 9] ++ typ ++ List.replicate 46 0

theorem test_port_witness : (portState 0).portUp 1 = false ∧ (portState 0).flag (F.TIM_PORT_CTRL_ENABLE.nth 1) = true ∧ (portState 2).portUp 1 = true ∧
    (aFrame [1, 2, 3, 4, 5, 6] [8, 0]).length < 9000 ∧ pauseFrame (aFrame [1, 0x80, 0xC2, 0, 0, 1] [0x88, 0x08, 0, 1]) = true ∧
    pauseFrame (aFrame [1, 2, 3, 4, 5, 6] [8, 0]) = false := by decide +kernel

theorem test_fcs_witness : ((aFrame [1, 2, 3, 4, 5, 6] [8, 0]) ++ fcsOf (aFrame [1, 2, 3, 4, 5, 6] [8, 0])).drop 60 = fcsOf (aFrame [1, 2, 3, 4, 5, 6] [8, 0]) ∧
    ((aFrame [1, 2, 3, 4, 5, 6] [8, 0]) ++ fcsOf (aFrame [1, 2, 3, 4, 5, 6] [8, 0])).length = 64 := by decide +kernel

/-- A Sync over Ethernet: a PTP event message. -/
def aSync : List Nat :=
  aFrame [1, 0x1B, 0x19, 0, 0, 0] [0x88, 0xF7] |>.set 14 0 |>.set 15 2 |>.set 17 44

/-- Port 1 up with one frame waiting. -/
def sendState (f : EthFrame) : State := (portState 2).onPort 1 (fun z => { z with queue := [f] })

theorem test_send_witness : nextFrame ((sendState ⟨aSync, 1, some 4, none, none⟩).tim.ports.getD 1 {}).queue = some ⟨aSync, 1, some 4, none, none⟩ ∧
    ((ptpAt aSync).map (fun q => isEvent aSync q)) = some true ∧
    nextFrame ((sendState ⟨aSync, 3, none, some 2, none⟩).tim.ports.getD 1 {}).queue = some ⟨aSync, 3, none, some 2, none⟩ ∧
    ((onState.put (F.TIM_RING_SIZE_ENTRIES.nth 1) 8).get (F.TIM_RING_SIZE_ENTRIES.nth 1)) = 8 ∧ onState.hst.d3 = false := by decide +kernel

/-- A PTP message over Ethernet for servo 0: type, sequence number 7, interval 0, from clock 9 port 1. -/
def aPtp (ty ctl : Nat) (body : List Nat) : List Nat :=
  [1, 0x1B, 0x19, 0, 0, 0, 2, 0, 0, 0, 0, 9, 0x88, 0xF7, ty, 2, 0, 64, 0, 0, ctl, 0] ++ List.replicate 12 0 ++
    [9, 9, 9, 9, 9, 9, 9, 9, 0, 1] ++ [0, 7, 0, 0] ++ body ++ List.replicate 20 0

/-- Servo 0 on Ethernet in a state, with the master of `aPtp` selected or not. -/
def srvTest (st : Nat) (sel : Bool) : State :=
  let s := (((onState.put (F.TIM_SRV_CFG_ENABLE.nth 0) 1).put (F.TIM_SRV_CFG_TRANSPORT.nth 0) 1).put (F.TIM_SRV_CFG_DOMAIN.nth 0) 0).setSrv 0 st
  let m : Master := { ident := [9, 9, 9, 9, 9, 9, 9, 9, 0, 1], port := 0, mac := [2, 0, 0, 0, 0, 9], ip := [0, 0, 0, 0], key := [1], gm := [9], steps := 0, logInt := 0, seen := [1, 0] }
  if sel then s.onSrv 0 (fun w => { w with
    masters := [m]
    sel := some m.name
    twoStep := some (7, 3, 0)
    sentDreq := some (7, 2)
    lastSync := some 0
    down := some 5 }) else s

theorem test_servo_witness : ((srvTest 1 false).srvMsg 0 0xB (aPtp 0xB 0 (List.replicate 30 0))).isSome = true ∧
    ((srvTest 2 true).srvMsg 0 0 (aPtp 0 0 (List.replicate 10 0))).isSome = true ∧ ((srvTest 2 true).srvMsg 0 8 (aPtp 8 0 (List.replicate 10 0))).isSome = true ∧
    ((srvTest 2 true).srvMsg 0 9 (aPtp 9 0 (List.replicate 10 0 ++ (srvTest 2 true).srvIdent 0))).isSome = true ∧
    (((srvTest 2 true).tick 0).srvWindows 0 0 |>.srv 0).down = some 5 ∧ (srvTest 2 true).srvState 0 = 2 ∧
    ((srvTest 2 true).srv 0).selected.isSome = true ∧ ((srvTest 2 true).srv 0).nextDreq ≤ max (srvTest 2 true).now 0 ∧
    (srvTest 2 true).flag (F.TIM_SRV_CFG_TRANSPORT.nth 0) = true ∧ ((srvTest 2 true).annEnd 0).isSome = true ∧
    ((srvTest 2 true).syncEnd 0).isSome = true ∧ (onState.put (F.TIM_SRV_CFG_ENABLE.nth 0) 1).srvState 0 = 0 := by decide +kernel

theorem test_servo_sel_witness : (((srvTest 2 true).tick 0).srvWindows 0 0).fromSel 0 0 (aPtp 0 0 (List.replicate 10 0)) ⟨14, none, false, 319, true⟩ = true ∧
    ptpAt (aPtp 0 0 (List.replicate 10 0)) = some ⟨14, none, false, 319, true⟩ ∧ ptpLog (aPtp 0 0 (List.replicate 10 0)) ⟨14, none, false, 319, true⟩ ≤ 1 ∧
    -7 ≤ ptpLog (aPtp 0 0 (List.replicate 10 0)) ⟨14, none, false, 319, true⟩ ∧ (((srvTest 1 false).tick 0).srvWindows 0 0 |>.srv 0).sel ≠ some [9] ∧
    slice (aPtp 9 0 (List.replicate 10 0 ++ (srvTest 2 true).srvIdent 0)) (14 + 44) 10 = (((srvTest 2 true).tick 0).srvWindows 0 0).srvIdent 0 ∧
    fieldBE (aPtp 0xB 0 (List.replicate 30 0)) (14 + 61) 2 < 255 := by decide +kernel

/-- Both servos LOCKED, the time base DISCIPLINED by domain 0, castling on. -/
def lockedState : State :=
  let s := (((((onState.setSrv 0 3).setSrv 1 3).tbEnter 1 0).put F.TIM_CTRL_PREFER 1).put F.TIM_CTRL_REVERT_S 5)
  { s with out := { s.out with gen := some ⟨0, 0, 1, 1, 0, 1, 1, 0⟩ } }

theorem test_castle_witness : lockedState.tbState = 1 ∧ 1 ≠ lockedState.tbSource ∧ lockedState.srvLocked 1 = true ∧ lockedState.castling = true ∧
    (lockedState.offsetsNear || false) = true ∧ lockedState.get F.TIM_CTRL_PREFER = 1 ∧ 0 < lockedState.get F.TIM_CTRL_REVERT_S ∧
    (lockedState.srv 1).lockedAt + lockedState.get F.TIM_CTRL_REVERT_S * tickS ≤ max lockedState.now (9 * tickS) := by decide +kernel

/-- One armed trigger, and a pulse that it began. -/
def trigState (a : Nat) : State :=
  { onState with tim := { onState.tim with
      triggers := [{ id := 3, action := a, pin := 1, at_ := 0, period := 0, count := 0, width := 10, next := 0 }]
      pulses := [(1, 3, 5)]
      edges := [(1, 0)] } }

theorem test_trigger_witness : ((trigState 1).tim.triggers.find? (fun z => z.id == 3 && z.action == 1)).isSome = true ∧
    ((trigState 2).tim.triggers.find? (fun z => z.id == 3 && z.action == 2)).isSome = true ∧
    ((trigState 3).tim.triggers.find? (fun z => z.id == 3 && z.action == 3)).isSome = true ∧
    ((trigState 4).tim.triggers.find? (fun z => z.id == 3 && z.action == 4)).isSome = true ∧
    (trigState 1).tim.pulses.find? (fun q => q.2.1 == 3) = some (1, 3, 5) ∧ 5 ≤ (trigState 1).full (max (trigState 1).now 9) ∧
    (((trigState 1).tick 9).dueActions).tim.edges.any (fun e => e.1 == 1 && decide (max (trigState 1).now 9 < e.2 + 50 * tickNs)) = true ∧
    (trigState 1).tim.edges.any (fun e => e.1 == 8 && decide (max (trigState 1).now 9 < e.2 + 50 * tickNs)) = false ∧
    ({ id := 3, action := 1, pin := 1, at_ := 0, period := 0, count := 0, width := 10, next := 0 } : Trigger).instant 0 ≤
      (trigState 1).full (max (trigState 1).now 9) := by decide +kernel

theorem test_full_time_witness : onState.hst.d3 = false ∧ onState.fieldOn = true := by decide

/-- AES3 port 2 in a state with so many good frames, its last at 0. -/
def aesState (st good : Nat) : State := (onState.setAes 2 st).onAes 2 (fun q => { q with last := some 0, good := good })

theorem test_aes_witness : (aesState 0 0).aesSt 2 = 0 ∧ (aesState 1 3).aesSt 2 = 1 ∧ (aesState 2 20).aesSt 2 = 2 ∧
    max 1 (divNear (5333333 * (aesState 1 3).fs) tickS) = 1 ∧ 5333333 * (aesState 1 3).fs < 3 * tickS ∧
    5333333 * (aesState 1 3).fs * 999 ≤ 1 * tickS * 1000 ∧ 1 * tickS * 1000 ≤ 5333333 * (aesState 1 3).fs * 1001 ∧
    3 * tickS ≤ 99999999 * (aesState 1 3).fs ∧
    ((aesState 1 15).aes 2).good + 1 = 16 ∧ 5333333 = 5333333 - (((aesState 1 3).aes 2).last.getD 5333333) ∧
    5 * (aesState 1 3).fs * 1001 < 1 * tickS * 1000 ∧ max 1 (divNear (5 * (aesState 1 3).fs) tickS) = 1 ∧
    0 + ceilDiv (3 * tickS) (aesState 1 3).fs ≤ max (aesState 1 3).now tickS := by decide +kernel

theorem test_audio_witness : (onState.tick tickS).instantNow = some 48000 ∧ onState.aud.sent ≠ some 48000 ∧ (onState.tick 1000000).instantNow = none ∧
    ((0 : Nat) : Int) - onState.portLag 0 = (0 : Nat) ∧ onState.aesSt 0 ≠ 2 ∧ (onState.aes 0).fade.fout = false ∧
    ({ onState with aud := { onState.aud with sent := some 48000 } } : State).aud.sent = some 48000 ∧ onState.full (max onState.now 5) / tickMs = 0 ∧
    onState.full (max onState.now (3 * tickMs)) / tickMs ≠ 0 ∧
    onState.aud.lastBlock ≠ some (onState.full (max onState.now (3 * tickMs)) / tickMs - 1) ∧
    ({ onState with aud := { onState.aud with rate := 3 } } : State).live F.AUD_CTRL_RATE ≠ 3 ∧
    (onState.tick tickS).past10ms 0 = true ∧
    ({ onState with tim := { onState.tim with steppedAt := some 0 } } : State).tim.steppedAt.any (onState.tick tickS).past10ms = true ∧
    ((onState.put F.AUD_CTRL_PLAY_EN 1).put F.AUD_PLAY_SIZE_SLOTS 8).get F.AUD_PLAY_SIZE_SLOTS = 8 ∧
    ((onState.put F.AUD_CTRL_PLAY_EN 1).put F.AUD_PLAY_SIZE_SLOTS 8).flag F.AUD_CTRL_PLAY_EN = true ∧ slotsTo 0 3 8 ≠ [] ∧
    ((((onState.put F.AUD_CTRL_PLAY_EN 1).put F.AUD_PLAY_SIZE_SLOTS 8).tick 0).put F.AUD_PLAY_HEAD_HEAD 3).get F.AUD_PLAY_TAIL_TAIL = 0 := by
  decide +kernel

/-- Check unit 3 in a state, its settings in force. -/
def chkState (st : Nat) (fs : List (Fld × Nat)) : State :=
  let s := onState.put (F.CHK_STATUS_STATE.nth 3) st
  { s with cmt := { s.cmt with inForce := ((F.CHK_TAP_KIND, 3) :: fs).foldl (fun rf q => rf.put (q.1.nth 3) q.2) s.cmt.inForce } }

theorem test_check_witness : tapRecord ((chkState 1 [(F.CHK_CTRL_CHECK_EN, 1)]).live (F.CHK_TAP_KIND.nth 3)) (List.replicate 32 7) = true ∧
    tapRecord ((chkState 1 [(F.CHK_TAP_KIND, 2)]).live (F.CHK_TAP_KIND.nth 3)) (List.replicate 32 7) = false ∧
    (chkState 0 []).chkSt 3 ≠ 1 ∧ (chkState 0 []).chkSt 3 ≠ 2 ∧ (chkState 1 []).chkSt 3 = 1 ∧ (chkState 2 []).chkSt 3 = 2 ∧
    (chkState 1 [(F.CHK_CTRL_CHECK_EN, 1), (F.CHK_FIELD_CHECK_OFF, 2)]).chkShort 3 [] = true ∧
    (chkState 1 [(F.CHK_CTRL_CHECK_EN, 1), (F.CHK_FIELD_CHECK_OFF, 2)]).chkShort 3 (List.replicate 32 7) = false ∧
    (chkState 1 [(F.CHK_CTRL_CHECK_EN, 1)]).live (F.CHK_CTRL_CHECK_EN.nth 3) = 1 ∧ (chkState 1 [(F.CHK_CTRL_CHECK_EN, 1)]).live (F.CHK_CTRL_MODE.nth 3) ≠ 2 ∧
    (chkState 1 [(F.CHK_CTRL_MODE, 2)]).live (F.CHK_CTRL_MODE.nth 3) = 2 ∧ (chkState 1 []).live (F.CHK_CTRL_CHECK_EN.nth 3) ≠ 1 ∧
    (chkState 1 [(F.CHK_CTRL_CHECK_EN, 1), (F.CHK_CTRL_WIDTH, 8)]).chkShort 3 (List.replicate 32 7) = false ∧
    (chkState 1 [(F.CHK_CTRL_ALIVE_EN, 1)]).live (F.CHK_CTRL_ALIVE_EN.nth 3) = 1 ∧ (chkState 1 []).live (F.CHK_CTRL_ALIVE_EN.nth 3) ≠ 1 := by decide +kernel

theorem test_sample_witness : max onState.now 5 < onState.thm.periodAt + 10 * tickMs ∧ State.reset.fieldOn = false ∧ onState.fieldOn = true ∧
    hottest (([5120, 5130].take 6 : List Int).zipIdx.map (fun q => (0x48 + q.2, q.1))) = some (0x49, 5130) ∧ (5130 : Int) < degC 95 ∧ (40 : Int) < degC 110 ∧
    dieOf (([((5000 : Int), true)] ++ List.replicate 32 (0, false)).take 32) = some (0, 5000 + degC 5) ∧
    dieOf (List.replicate 32 ((99 * 256 : Int), true)) = some (0, 99 * 256) ∧ onState.flag F.THM_STATUS_WARN = false ∧ onState.flag F.THM_STATUS_THROTTLE = false ∧
    onState.flag F.THM_STATUS_STACK_THROTTLE = false ∧ onState.thm.changed.getD 1 none = none ∧ onState.thm.changed.getD 3 none = none ∧
    State.reset.flag F.THM_STATUS_ORDERLY = false ∧
    onState.thm.periodAt + 10 * tickMs ≤ max onState.now (10 * tickMs) ∧ (onState.put F.THM_STATUS_THROTTLE 1).throttled = true ∧
    (onState.put F.THM_CTRL_WARN_C 100).get F.THM_CTRL_WARN_C = 100 := by decide +kernel

theorem test_trip_witness : (State.reset.put F.THM_PD_ON 1).domainOn 0 = true ∧ State.reset.domainOn 0 = false ∧ State.reset.pwr.pwrCut = false ∧ State.reset.pwr.vcorePg = false ∧ onState.fieldOn = true ∧ onState.pnlSt = 0 ∧ onState.hst.d3 = false ∧
    ({ onState with thm := { onState.thm with tripAt := some 0 } } : State).thm.tripAt = some 0 ∧ max State.reset.now 5 < 0 + 10 * tickS ∧
    State.reset.thm.tripAt = none ∧ (State.reset.putS F.THM_KEEPER_TEMP (degC 109)).restartBlock = some (0x40, degC 109) ∧ State.reset.restartBlock = none ∧
    State.reset.fieldOn = false ∧ ({ State.reset with pwr := { State.reset.pwr with railsPg := true, vcorePg := true } } : State).pwr.railsPg = true := by
  decide +kernel

/-- The sequencer running, domain k next or waiting for its power-good. -/
def seqState (k : Nat) (w : Option (Nat × Nat)) : State :=
  { State.reset with pwr := { State.reset.pwr with running := true, railsPg := true, early := true, next := k, waitGood := w } }

theorem test_sequence_witness : (seqState 0 none).pwr.pwrCut = false ∧ ({ State.reset with pwr := { State.reset.pwr with pwrCut := true } } : State).pwr.pwrCut = true ∧ (({ (seqState 0 none) with pwr := { (seqState 0 none).pwr with running := false } } : State).tick 4).vcoreAsked = true ∧
    State.reset.fieldOn = false ∧ (seqState 5 none).pwr.running = true ∧ (seqState 5 none).pwr.waitGood = none ∧ (seqState 5 none).pwr.next = 5 ∧
    (seqState 5 none).pwr.lastStart + ((seqState 5 none).domainPlan 5).1 * tickUs ≤ max 0 (50 * tickUs) ∧ ((seqState 5 none).domainPlan 5).2 = false ∧
    (seqState 24 (some (23, 0))).pwr.waitGood = some (23, 0) ∧ 0 + tickMs ≤ max (seqState 24 (some (23, 0))).now tickMs ∧
    ({ onState with thm := { onState.thm with settling := true } } : State).thm.settling = true ∧ onState.thm.askedAt + tickMs ≤ max onState.now tickMs := by decide +kernel

/-- The store READY with one write queued, one erase waiting and one record that lacks its copy. -/
def storeState (w : NvsWho) : State :=
  let s := State.reset.put F.NVS_STATUS_READY 1
  { s with nvs := { s.nvs with
      queue := [⟨w, 3, 0x8001, 1, 1, 0, [1, 2, 3, 4], none⟩]
      erasing := [7]
      recs := [⟨0, recordBytes 0x8002 0 1 1 [5]⟩] } }

theorem test_store_witness : State.reset.flag F.NVS_STATUS_READY = false ∧ (storeState .store).flag F.NVS_STATUS_READY = true ∧
    (storeState .store).nvs.stopped = false ∧ (((storeState .repair).tick 0).placeIn false (((storeState .repair).tick 0).jobSecond
      ⟨.repair, 3, 0x8001, 1, 1, 0, [1, 2, 3, 4], none⟩) 4).isSome = true ∧
    ((((storeState .repair).tick 0).failedTries ⟨.repair, 3, 0x8001, 1, 1, 0, [1, 2, 3, 4], none⟩ 2).placeIn false
      (((storeState .repair).tick 0).jobSecond ⟨.repair, 3, 0x8001, 1, 1, 0, [1, 2, 3, 4], none⟩) 4).isSome = true ∧
    ((storeState .repair).recordWriteComplete 0).nvs.collecting = none ∧ ((storeState .scrub).recordWriteComplete 0).nvs.collecting = none ∧
    ((storeState .host).recordWriteComplete 0).nvs.collecting = none ∧
    ({ (storeState .store) with nvs := { (storeState .store).nvs with queue := [⟨.security, 2, 0x10, 0, 1, 5, [1, 0, 0, 0], none⟩] } } : State).nvs.stopped = false ∧
    (({ (storeState .store) with nvs := { (storeState .store).nvs with queue := [⟨.security, 2, 0x10, 0, 1, 5, [1, 0, 0, 0], none⟩] } } : State).recordWriteComplete
      0).nvs.collecting = none ∧ (storeState .store).flag F.NVS_STATUS_SCRUB = false ∧ (storeState .store).nvs.collecting = none ∧
    ({ (storeState .store) with nvs := { (storeState .store).nvs with queue := [] } } : State).nvsWriting = false ∧ (storeState .store).nvsWriting = true ∧
    (storeState .store).nvs.recs.findIdx (fun r => !r.headOk) = 1 ∧ ([⟨0, tornBytes 13 (recordBytes 0x8002 0 1 1 [5])⟩] : List NvsRec).findIdx (fun r => !r.headOk) = 0 ∧
    ({ head := [0x4E, 1] } : Sector).blank = false ∧ ({ head := [0x4E, 1] } : Sector).headOk = false ∧
    ((storeState .store).nvs.sectors.getD 7 {}).erases + 1 < 100000 ∧ ((storeState .store).tick 0).nvsSingles.contains ⟨0, recordBytes 0x8002 0 1 1 [5]⟩ = true ∧
    State.reset.nvsSingles.contains ⟨0, recordBytes 0x8002 0 1 1 [5]⟩ = false ∧ ((storeState .store).tick 0).nvsSingles.length = 1 ∧
    ((storeState .store).tick (90000 * tickS)).scrubDue = true ∧
    ({ (storeState .store) with nvs := { (storeState .store).nvs with operating := [90000, 0, 0, 0] } } : State).scrubDue = true ∧
    (storeState .store).nvs.lastCounter + 3600 * tickS ≤ max (storeState .store).now (3600 * tickS) := by decide +kernel

/-- The store READY, a request of a type and key, no operation in progress. -/
def reqState (typ key : Nat) : State :=
  let s := ((storeState .store).put F.NVS_REQ_ID_TYPE typ).put F.NVS_REQ_ID_KEY key
  { s with nvs := { s.nvs with queue := [] } }

theorem test_nvs_host_witness : (reqState 0x8002 0).hst.d3 = false ∧ (reqState 0x8002 0).flag F.NVS_STATUS_BUSY = false ∧
    ((reqState 0x8002 0).put F.NVS_STATUS_BUSY 1).flag F.NVS_STATUS_BUSY = true ∧ (reqState 0x8002 0).flag F.NVS_STATUS_READY = true ∧
    ((reqState 0x8002 0).nvsCurrent 0x8002 0).isSome = true ∧ (reqState 0x8002 0).get F.NVS_REQ_ID_TYPE = 0x8002 ∧
    (reqState 0x0060 0).get F.NVS_REQ_ID_TYPE = 0x0060 ∧ (reqState 0x8002 0).hostRate + recBytes 0 ≤ 1048576 ∧
    ((reqState 0x8002 0).nvsWrite .host 3 0x8002 0 false true []).1 = 0 ∧ (reqState 0 0x700).get F.NVS_REQ_ID_KEY / 256 = 7 ∧
    State.reset.flag F.NVS_STATUS_READY = false := by decide +kernel

theorem test_nvs_counter_witness : ({ (reqState 0x20 1) with nvs := { (reqState 0x20 1).nvs with recs := [
      ⟨0, recordBytes 0x20 1 4 1 [0, 0, 0, 0, 9, 0, 0, 0, 0, 0, 0, 0]⟩,
      ⟨0, recordBytes 0x21 1 4 1 ([1, 0, 0, 0] ++ leBytes 4 (crc32c (leBytes 8 9)))⟩] } } : State).nvsCounter 1 =
    some (4, [9]) := by decide +kernel

/-- An OPERATIONAL module with a mailbox request of `cmd` and `body`, an officer's nonce, a KEK, a device key, a user key and
a session. -/
def secState (cmd : Nat) (body : List Nat) : State :=
  let tl := trailerLen (roleOf cmd)
  let nonce : List Nat := List.replicate 32 6
  let b := leBytes 2 cmd ++ [0, 0] ++ leBytes 4 9 ++ leBytes 4 body.length ++ leBytes 4 3 ++ body ++ slice nonce 0 tl
  let s := (((State.reset.setSec .operational).put F.SEC_MB_LEN_LEN b.length).put F.SEC_MB_RESP_LEN_RESP_CAP 8192).write 0 b
  { s with
    sec := { s.sec with
      session := some ⟨9, 2, 0⟩
      nonces := [{ bytes := nonce, at_ := 0 }] }
    nvs := { s.nvs with
      otp := modAt (modAt s.nvs.otp 1 (programGroup (List.replicate 32 1))) 6 (programGroup (List.replicate 64 2))
      recs := [⟨0, recordBytes 0x0060 0 1 1 (List.replicate 76 1)⟩] } }

set_option maxRecDepth 100000 in
theorem test_sec_open_witness : (secState 1 []).hst.d3 = false ∧ (secState 1 []).sec.burning = false ∧ (secState 1 []).flag F.SEC_MB_CTRL_BUSY = false ∧
    (((secState 1 []).tick 0).secRequest).cmd = 1 ∧ ((secState 1 []).tick 0).secAuth ((secState 1 []).tick 0).secRequest true = 0 ∧
    ((secState 2 []).tick 0).secAuth ((secState 2 []).tick 0).secRequest true = 0 ∧ ((secState 3 []).tick 0).secAuth ((secState 3 []).tick 0).secRequest true = 0 ∧
    (((secState 4 []).tick 0).secRequest).okForm = true ∧ ((secState 0x10 []).tick 0).secAuth ((secState 0x10 []).tick 0).secRequest true = 0x1621 ∧
    ((secState 0x10 (List.replicate 48 1)).tick 0).secAuth ((secState 0x10 (List.replicate 48 1)).tick 0).secRequest true = 0 ∧
    (secState 1 []).sec.running = none ∧ (secState 1 []).respFits 1 (secState 1 []).secStatusBody = true ∧ (secState 0x10 []).respFits 0x10 [1, 0, 0, 0] = true ∧
    (secState 0x11 []).respFits 0x11 [] = true ∧ (secState 0x12 []).respFits 0x12 (List.replicate 300 0) = true ∧ (secState 0x13 []).respFits 0x13 (List.replicate 4096 0) = true ∧
    ((secState 0x10 []).nvsValue 0x60 0).isSome = true ∧ ((secState 0x10 []).otpValue 1).isSome = true ∧ ((secState 0x10 []).otpValue 6).isSome = true ∧
    ((secState 0x11 []).tick 0).secAuth ((secState 0x11 []).tick 0).secRequest true = 0 ∧
    (((secState 0x11 []).tick 0).noteRequest).secAuth ((secState 0x11 []).tick 0).secRequest true = 0 ∧
    (((secState 0x13 [7, 0, 0, 0]).tick 0).noteRequest).secAuth ((secState 0x13 [7, 0, 0, 0]).tick 0).secRequest true = 0 ∧
    ((secState 0x12 (List.replicate 48 1)).tick 0).secAuth ((secState 0x12 (List.replicate 48 1)).tick 0).secRequest true = 0 ∧
    ((secState 0x13 [7, 0, 0, 0]).tick 0).secAuth ((secState 0x13 [7, 0, 0, 0]).tick 0).secRequest true = 0 ∧
    fieldLE (((secState 0x13 [7, 0, 0, 0]).tick 0).secRequest).body 0 4 = 7 := by decide +kernel

set_option maxRecDepth 100000 in
theorem test_sec_officer_witness : ((secState 0x20 [0, 0, 0, 0, 9, 0, 0, 0]).tick 0).secAuth ((secState 0x20 [0, 0, 0, 0, 9, 0, 0, 0]).tick 0).secRequest true = 0 ∧
    (((secState 0x20 [0, 0, 0, 0, 9, 0, 0, 0]).tick 0).secRequest).len = 8 ∧ (secState 0x20 [0, 0, 0, 0, 9, 0, 0, 0]).minSerial 0 ≤ 9 ∧
    ((secState 0x20 []).nvsWrite .security 2 0x0010 0 true false (leBytes 4 9)).1 = 0 ∧ (secState 0x21 []).otpSpare 2 = true ∧
    (secState 0x22 []).otpSpare 6 = true ∧ (secState 0x23 []).otpSpare 7 = true ∧ (secState 0x24 []).otpSpare 0 = true ∧ (secState 0x27 []).otpSpare 8 = true ∧
    (secState 0x26 []).pageLocked = false ∧ ((secState 0x28 []).tick 0).secAuth ((secState 0x28 []).tick 0).secRequest true = 0 ∧
    ((secState 0x28 []).tick 0).secAuth ((secState 0x28 []).tick 0).secRequest false = 0x1622 ∧
    ((secState 0x25 []).nvsWrite .security 2 0x0060 0 true false (List.replicate 76 1)).1 = 0 ∧
    ([(0x21, 64), (0x22, 0), (0x23, 16), (0x24, 48), (0x25, 76), (0x27, 0)].all (fun p => ((secState p.1 (List.replicate p.2 0)).tick 0).secAuth
      ((secState p.1 (List.replicate p.2 0)).tick 0).secRequest true == 0 && (secState p.1 (List.replicate p.2 0)).respFits p.1 [])) = true ∧
    ((secState 0x28 []).event 0x1613 0 0x28 0).zeroise.sec.running = none := by decide +kernel

set_option maxRecDepth 100000 in
theorem test_sec_page_witness : ((secState 0x26 (List.replicate 4096 0)).tick 0).secAuth ((secState 0x26 (List.replicate 4096 0)).tick 0).secRequest true = 0 := by
  decide +kernel

theorem test_sec_states_witness : State.reset.sec.st = .selfTest ∧ State.reset.sec.burning = false ∧ State.reset.sec.running = none ∧
    (secState 1 []).hst.d3 = false ∧ (secState 1 []).flag F.SEC_MB_CTRL_BUSY = false ∧ (((secState 1 []).tick 0).secRequest).cmd = 1 ∧ (secState 1 []).sec.st = .operational ∧
    (secState 1 []).sec.session = some ⟨9, 2, 0⟩ ∧ 0 + 60 * tickS ≤ max (secState 1 []).now (60 * tickS) ∧
    ({ State.reset with nvs := { State.reset.nvs with otp := modAt State.reset.nvs.otp 7 (programGroup [0, 0, 0, 0, 4, 0, 0, 0, 0, 0, 0, 0, 0, 0, 0, 0]) } }
      : State).tamperMask = 4 ∧ bitAt 4 2 = true ∧ State.reset.fieldOn = false ∧ State.reset.fw.load = none ∧
    ({ State.reset with sec := { State.reset.sec with component := some (1, [], 0), burning := true } } : State).sec.burning = true := by decide +kernel

/-- An image whose one region, the first 4 KiB, is PROTECTED, with every table empty. -/
def imageState (prot : Nat) : State :=
  let s := onState.put F.SYS_STATUS_MEM_TRAINED 1 |>.put F.MEM_STATUS_TRAINED 1
  { s with sho := { s.sho with run := some { anImage with regions := [{ id := 0x300, owner := 0, flags := prot, base := 0, size := 4096 }] } } }

/-- An INGEST of 64 bytes to address 64. -/
def ingestBytes : List Nat := [1, 0, 0, 0, 0, 0, 0, 0] ++ leBytes 8 0 ++ leBytes 8 64 ++ leBytes 4 64 ++ leBytes 4 1 ++ List.replicate 32 0

/-- Ring 2 running with one descriptor taken. -/
def ringState (s : State) (b : List Nat) (st : DescSt) : State :=
  let y := s.setRingSt 2 .running
  y.onRing 2 (fun r => { r with taken := [{ slot := 0, num := 5, bytes := b, stamp := 0, st := st }], next := 6 })

theorem test_protected_witness : (imageState 1).hst.d3 = false ∧ (imageState 1).bar2On = true ∧ 100 + 4 ≤ memTop ∧
    (imageState 1).protectedHit 100 1 = true ∧ (imageState 1).protectedHit 103 1 = true ∧ (imageState 0).protectedHit 100 1 = false ∧
    (ringState (imageState 1) ingestBytes .waiting).fieldOn = true ∧ ((ringState (imageState 1) ingestBytes .waiting).nextDesc 2 1).isSome = true ∧
    copyFormatOk ingestBytes = true ∧ copyOf ingestBytes = ⟨0, 64, 64, 1, 0, 0⟩ ∧ (ringState (imageState 1) ingestBytes .waiting).protectedHit 64 1 = true := by
  decide +kernel

theorem test_named_witness : (ringState onState ingestBytes .waiting).fieldOn = true ∧
    (({ (ringState onState ingestBytes .waiting) with cmt := { onState.cmt with waiting := [{ ring := 0, slot := 0, capture := 0, flags := 0, names := [(0, 100)] }] } } : State).nextDesc
      2 1).isSome = true ∧ ((List.range 1).flatMap (fun i => upFrom ((64 + i * 0) / 4096) ((64 + i * 0 + 64 - 1) / 4096 - (64 + i * 0) / 4096 + 1))).find?
      (fun p => ([(0, 100)] : List (Nat × Nat)).any (fun q => overlaps (p * 4096) 4096 q.1 q.2)) = some 0 ∧
    64 + 0 * 0 + 64 ≤ memTop ∧ (ringState onState ingestBytes .waiting).protectedHit 64 64 = false := by decide +kernel

/-- Ring 2 with 8 work and 16 completion entries at 4096 and 8192, in a state. -/
def twoRings (st : RingSt) : State :=
  let s := (((onState.put (F.HST_WRING_BASE_BASE.nth 2) 64).put (F.HST_WRING_SIZE_ENTRIES.nth 2) 8).put (F.HST_CRING_BASE_BASE.nth 2) 256).put
    (F.HST_CRING_SIZE_ENTRIES.nth 2) 16
  (s.write 4096 ([6] ++ List.replicate 63 0)).onRing 2 (fun r => { r with st := st })

theorem test_rings_witness : (twoRings .disabled).fetchChoice = none ∧ ((twoRings .running).onRing 2 (fun r => { r with avail := [(0, 0)] })).fetchChoice = some (2, 0) ∧ (twoRings .disabled).fieldOn = true ∧ (twoRings .disabled).hst.d3 = false ∧ ((twoRings .disabled).ring 2).st = .disabled ∧
    (twoRings .disabled).ringConfigOk 2 = true ∧ (onState.ringConfigOk 2) = false ∧ ((twoRings .running).ring 2).st = .running ∧
    ((twoRings .stalled).ring 2).st = .stalled ∧ (twoRings .running).get (F.HST_WRING_SIZE_ENTRIES.nth 2) ≤ 8 ∧
    3 < (twoRings .running).get (F.HST_WRING_SIZE_ENTRIES.nth 2) ∧ 3 < (twoRings .running).get (F.HST_CRING_SIZE_ENTRIES.nth 2) ∧
    (twoRings .running).mayTake 2 = true ∧ (twoRings .running).readPoison (64 * 64) 64 = false ∧
    headerOk ((twoRings .running).read 4096 64) = true ∧ resvOf ((twoRings .running).read 4096 64) ≤ (twoRings .running).freeEntries 2 ∧
    (onState.onRing 2 (fun r => { r with st := .running })).freeEntries 2 < 1 ∧
    ((ringState onState ([6] ++ List.replicate 63 0) .waiting).nextDesc 2 6).isSome = true := by decide +kernel

/-- Ring 2 with one running copy, the descriptor of the given bytes. -/
def copyState (b : List Nat) : State :=
  let s := ringState onState b .running
  { s with hst := { s.hst with copies := [(2, 5)] } }

theorem test_copy_witness : ((ringState onState ingestBytes .waiting).nextDesc 2 1).isSome = true ∧ onState.copyCheck ingestBytes true = (0, 0) ∧
    ((ringState onState (ingestBytes.set 0 7) .waiting).nextDesc 2 7).isSome = true ∧ onState.copyCheck (ingestBytes.set 0 7) false = (0, 0) ∧
    copyFormatOk (ingestBytes.set 24 0) = false ∧ (copySpans (copyOf (ingestBytes.set 22 1))).any (fun q => decide (memTop < q.1 + q.2)) = true ∧
    copyFormatOk (ingestBytes.set 22 1) = true ∧ ((copyState ingestBytes).descAt 2 5).isSome = true ∧ (copyState ingestBytes).hst.copies.contains (2, 5) = true ∧
    (readBytes ((List.replicate 64 1).take (64 * 1))).length = 64 * 1 ∧ (readBytes ((List.replicate 5 1).take (64 * 1))).length ≠ 64 * 1 ∧
    readBytes [7, 8, 256, 9] = [7, 8] ∧ readBeyond [7, 8, 256, 9] = [(3, 9)] ∧
    (copyState ingestBytes).exportClean (copyOf ingestBytes) 0 64 = 64 := by decide +kernel

theorem test_link_witness : onState.hst.downAt = false ∧ ({ onState with hst := { onState.hst with downAt := true } } : State).fieldOn = true ∧ onState.fieldOn = true ∧ onState.hst.d3 = false ∧ onState.hst.pba.contains 3 = false ∧
    ({ onState with hst := { onState.hst with pba := [3] } } : State).hst.pba.contains 3 = true ∧ 1 ≤ 5 ∧ 4 ≤ 4 := by decide +kernel

theorem test_window_witness : memTop < (memTop - 2) + 4 ∧ memTop - 2 < memTop ∧ (imageState 0).protectedHit (memTop - 2) 4 = false ∧
    (imageState 0).anyPoison ((memTop - 2) / 64) (blockCount (memTop - 2) 4) = false ∧ (imageState 0).partPoison 100 4 = [] ∧ (imageState 0).blockPoison 1 = false ∧
    ((imageState 0).setPoison 1 true).blockPoison 1 = true ∧ ((imageState 0).setPoison 1 true).partPoison 100 4 = [1] ∧ (imageState 0).partPoison memTop 4 = [] ∧
    (100 + 4 - 1) / 64 = 1 ∧ memTop / 64 ≤ (memTop + 3) / 64 ∧ (imageState 0).protectedHit (memTop + 5) 4 = false ∧ blockCount 100 4 = 1 ∧ onState.hst.d3 = false ∧ onState.bar2On = false ∧ (imageState 0).bar2On = true ∧ memTop ≤ memTop + 5 ∧
    (imageState 0).protectedHit 100 4 = false ∧ (imageState 0).anyPoison (100 / 64) 1 = false ∧
    ((imageState 0).setPoison 1 true).anyPoison (100 / 64) 1 = true ∧ 100 + 4 ≤ memTop := by decide +kernel

theorem test_staged_witness : State.reset.hst.d3 = false ∧ onState.unreachable F.OUT_MODE_MODE.off = false ∧ inMsix F.OUT_MODE_MODE.off = false ∧
    hasStaged (F.OUT_MODE_MODE.off) = true ∧ (rowAt (F.OUT_MODE_MODE.off)).map (fun q => (q.1.wide, q.2.2.2)) = some (false, 0) ∧
    onState.fieldOn = true ∧ resettable.contains 5 = true := by decide +kernel

/-- One event pending, an image in force or not, a MODE and so many unread entries and dropped ones. -/
def logState (im : Bool) (mode head drop : Nat) : State :=
  let s := (((if im then imageState 0 else onState).put F.SYS_STATUS_IMAGE (b2n im)).put F.SYS_LOG_CTRL_MODE mode).put F.SYS_LOG_HEAD_SEQ head
  { s with sys := { s.sys with logPend := [⟨0, false, 1, 0, 0, 0x0110, 5, 0, 0⟩], logDropRun := drop } }

theorem test_log_witness : 0 + 10 * tickUs ≤ max (logState true 0 1 0).now (10 * tickUs) ∧ (logState false 0 1 0).imageOn = false ∧
    (logState true 0 1 0).imageOn = true ∧ (logState true 1 1 0).flag F.SYS_LOG_CTRL_MODE = true ∧ (logState true 0 1 0).flag F.SYS_LOG_CTRL_MODE = false ∧
    (logState true 0 4000 0).logUnread < 4095 ∧ 4096 ≤ (logState true 0 4200 0).logUnread ∧ (logState true 0 4200 3).sys.logDropRun ≠ 0 ∧
    onState.hst.d3 = false ∧ onState.debugLocked = false ∧ onState.traceRingOk = false ∧ bitAt (2 ^ 31 + 2 ^ 24) 31 = true ∧
    bitsOf (2 ^ 31 + 2 ^ 24) 26 24 = 1 ∧ ((onState.put F.DBG_TRACE_SIZE_ENTRIES 8).traceRingOk) = true ∧ 0 < tapIndices 1 ∧
    ((onState.put F.DBG_TRACE_SIZE_ENTRIES 8).put F.DBG_TRACE_CTRL_EN 1).traceUnread + 1 < 8 ∧
    ({ onState with nvs := { onState.nvs with otp := modAt onState.nvs.otp 7 (programGroup [1, 0, 0, 0, 0, 0, 0, 0, 0, 0, 0, 0, 0, 0, 0, 0]) } }
      : State).debugLocked = true := by decide +kernel

/-- A running firmware, a load, and a queue 3 of the Kiln whose front has waited since 0. -/
def watchState : State :=
  let s := ((onState.put F.SYS_FW_STATUS_RUNNING 1).put F.DMP_WDOG_UNIT_MS 10).put F.KLN_STATUS_K0_STATE 1
  { s with
    fw := { s.fw with load := some [] }
    tlt := { s.tlt with queues := [{ aQueue with num := 3, consUnit := 5, entries := [⟨0, [], 0⟩] }] } }

theorem test_watch_witness : (imageState 0).trained = true ∧ onState.trained = false ∧
    (imageState 0).fieldOn = true ∧ (imageState 0).flag F.SYS_FW_STATUS_BUSY = false ∧ ((imageState 0).put F.SYS_FW_STATUS_BUSY 1).trained = true ∧ onState.hst.d3 = false ∧ onState.flag F.SYS_FW_STATUS_BUSY = false ∧
    (onState.put F.SYS_FW_STATUS_BUSY 1).flag F.SYS_FW_STATUS_BUSY = true ∧ watchState.fwCode [] true true ≠ 0 ∧
    watchState.flag F.SYS_FW_STATUS_RUNNING = true ∧ onState.flag F.SYS_FW_STATUS_RUNNING = false ∧
    (watchState.get F.DMP_WDOG_UNIT_MS = 10 ∧ resettable.contains 5 = true) ∧
    watchState.tlt.queues.any (fun q => q.consUnit == 5 && q.waits && decide (q.frontSince + 10 * tickMs ≤ max watchState.now (10 * tickMs + 9999))) = true ∧
    (assocGet 5 0 watchState.tlt.paceLast = 0 ∧ watchState.instHalted 5 0 = false ∧ watchState.unitWaits 5 0 = false ∧ watchState.watching = true) ∧
    (10 * tickMs ≤ (watchState.tick (10 * tickMs + 9999)).watchedFor 5 0 ∧
      (({ watchState with tlt := { watchState.tlt with watched := [(1280, 4 * tickMs)], windowAt := 4 * tickMs } } : State).put
        F.KLN_STATUS_K0_STATE 3).watchCounts [] = [(1280, 4 * tickMs)]) ∧
    (watchState.dmp.hung.any (fun q => q.1 == 5) = false ∧
      ({ watchState with dmp := { watchState.dmp with hung := [(5, 0, 7)] } } : State).dmp.hung.any
        (fun q => q.1 == 5 && q.2.1 == 0 && decide (max watchState.now 9 < q.2.2 + tickS)) = true) ∧
    ((watchState.queue 3).isSome = true ∧ watchState.get F.DMP_STATUS_STATE = 0 ∧ watchState.sho.switching = false ∧
      watchState.get F.DMP_WDOG_TILTH_MS * tickMs ≤ 10 ^ 12) := by decide +kernel

/-- A freeze in the given state of the DMP, with a firmware that runs and so many waiting causes. -/
def dumpState (st : Nat) (im : Bool) : State :=
  let s := ((if im then imageState 0 else onState).put F.SYS_FW_STATUS_RUNNING 1).put F.DMP_STATUS_STATE st
  { s with sys := { s.sys with fatal := [(6, 0)] } }

/-- A freeze with a DUMP region, region 5. -/
def captureState : State :=
  let s := ((dumpState 1 true).put F.KLN_STATUS_K0_STATE 1).put F.KLN_STATUS_K1_STATE 1
  { s with sho := { s.sho with run := some { anImage with regions := [{ id := 5, owner := 23, flags := 0, base := 4096, size := 4096 }] } } }

/-- A restore with one channel lost in service. -/
def lostState (st : ChanSt) : State :=
  let s := dumpState 4 true
  { s with mc := { s.mc with chans := modAt s.mc.chans 2 (fun c => { c with lostInService := true, st := st }) } }

/-- A restore with an applied structure. -/
def appliedState : State :=
  let s := dumpState 4 true
  { s with dmp := { s.dmp with applied := some anImage } }

theorem test_restore_witness : ((lostState .failed).mc.chans.filter (fun c => c.lostInService)).any (fun c => c.st == .failed) = true ∧
    ((lostState .failed).mc.chans.filter (fun c => c.lostInService)).any (fun c => c.st == .training) = false ∧
    (([0, 1].foldl (fun q e => if q.engSt e = 5 then q.engineStop e true else q) (frozenUnits.foldl State.resetUnit (appliedState.tick 7))).dmp.applied).isSome = true ∧ appliedState.get F.DMP_STATUS_STATE = 4 ∧
    appliedState.fieldOn = true := by decide +kernel

theorem test_fatal_witness : onState.fieldOn = true ∧ (dumpState 0 false).structureBusy = false ∧ (dumpState 0 true).structureBusy = false ∧ (dumpState 0 true).fieldOn = true ∧ (dumpState 0 false).sys.fatal = [(6, 0)] ∧
    (dumpState 0 false).get F.DMP_STATUS_STATE = 0 ∧ (dumpState 1 false).get F.DMP_STATUS_STATE = 1 ∧
    (dumpState 1 false).flag F.SYS_FW_STATUS_RUNNING = true ∧ (dumpState 1 false).region 5 = none ∧ (dumpState 1 true).fieldOn = true ∧ (captureState.region 5).isSome = true ∧
    (captureState.get F.DMP_STATUS_STATE = 1 ∧ captureState.flag F.SYS_FW_STATUS_RUNNING = true) ∧ captureState.engSt 0 ≠ 4 ∧ captureState.engSt 1 ≠ 4 ∧
    (dumpState 1 false).flag F.DMP_CTRL_KEEP = false ∧
    (((dumpState 1 false).put F.DMP_CTRL_KEEP 1).put F.DMP_STATUS_VALID 1).flag F.DMP_CTRL_KEEP = true ∧
    (((dumpState 1 false).put F.DMP_CTRL_KEEP 1).put F.DMP_STATUS_VALID 1).flag F.DMP_STATUS_VALID = true ∧
    (dumpState 3 false).nvs.queue.any (fun j => j.who == NvsWho.dump) = false ∧ (dumpState 4 false).dmp.restored = false ∧
    (dumpState 4 false).mc.chans.filter (fun c => c.lostInService) = [] ∧ onState.hst.d3 = false := by decide +kernel

end Sys2Proof.Machine
end

section
/-!
SUPPORT. Host accesses to the register file: what one field, one register word and one plain write become, and what an access
of a 32-bit register or of one word of a 64-bit register runs. With them the obligations of the overview chapter are settled.
-/

namespace Sys2Proof.Machine

/-! ### Rows of the register map -/

theorem findRow_mem {rows : List RegRow} {off : Nat} {r : RegRow} {p : Nat × Nat × Nat}
    (h : findRow rows off = some (r, p)) : r ∈ rows := by
  induction rows with
  | nil => cases h
  | cons q qs ih =>
    simp only [findRow] at h
    split at h
    · cases h
      exact List.mem_cons_self
    · exact List.mem_cons_of_mem q (ih h)

theorem rowAt_mem {off : Nat} {r : RegRow} {p : Nat × Nat × Nat} (h : rowAt off = some (r, p)) : r ∈ regRows :=
  findRow_mem h

/-- The field lies within one 32-bit register. -/
def RegField.fits (f : RegField) : Prop := f.lo ≤ f.hi ∧ f.hi ≤ 31

/-- No bit of `g` is a bit of `f`. -/
def RegField.clearOf (g f : RegField) : Prop := g.hi < f.lo ∨ f.hi < g.lo

theorem fields_fit {r : RegRow} (hr : r ∈ regRows) (hw : r.wide = false) : ∀ f ∈ r.fields, f.fits := by
  have table : ∀ r ∈ regRows, r.wide = false → ∀ f ∈ r.fields, f.lo ≤ f.hi ∧ f.hi ≤ 31 := by decide +kernel
  exact table r hr hw

/-- The tables list the fields of a register from the highest bits down. -/
theorem fields_fall {r : RegRow} (hr : r ∈ regRows) : r.fields.Pairwise (fun f g => g.hi < f.lo) := by
  have table : ∀ r ∈ regRows, r.fields.Pairwise (fun f g => g.hi < f.lo) := by decide +kernel
  exact table r hr

/-- No register whose read has an effect of its own is 64 bits wide. -/
theorem wide_not_read_port {r : RegRow} (hr : r ∈ regRows) (hw : r.wide = true) :
    r.off ≠ Reg.SVE_TBL_DATA ∧ r.off ≠ Reg.LBL_WAVE_DATA ∧ r.off ≠ Reg.TIM_TIME_NS := by
  have table : ∀ r ∈ regRows, r.wide = true →
      r.off ≠ Reg.SVE_TBL_DATA ∧ r.off ≠ Reg.LBL_WAVE_DATA ∧ r.off ≠ Reg.TIM_TIME_NS := by decide +kernel
  exact table r hr hw

/-! ### Bits -/

theorem withBits_bitsOf (w hi lo : Nat) (h : lo ≤ hi) : withBits w hi lo (bitsOf w hi lo) = w := by
  unfold withBits bitsOf
  have high : w / 2 ^ (hi + 1) = w / 2 ^ lo / 2 ^ (hi - lo + 1) := by
    rw [two_pow_succ_split hi lo h, Nat.div_div_eq_div_mul]
  rw [Nat.mod_mod, high, two_pow_succ_split hi lo h]
  calc w % 2 ^ lo + w / 2 ^ lo % 2 ^ (hi - lo + 1) * 2 ^ lo + w / 2 ^ lo / 2 ^ (hi - lo + 1) * (2 ^ lo * 2 ^ (hi - lo + 1))
      = w % 2 ^ lo + 2 ^ lo * (w / 2 ^ lo % 2 ^ (hi - lo + 1) + 2 ^ (hi - lo + 1) * (w / 2 ^ lo / 2 ^ (hi - lo + 1))) := by ring
    _ = w := by rw [Nat.mod_add_div, Nat.mod_add_div]

theorem clearBits_lt {v n : Nat} (m : Nat) (h : v < 2 ^ n) : clearBits v m < 2 ^ n :=
  Nat.xor_lt_two_pow h (Nat.lt_of_le_of_lt Nat.and_le_left h)

/-! ### One field of a written word (R10, R11) -/

/-- What the field reads after a write of the word `v` over the word `old`. -/
def RegField.after (f : RegField) (old v : Nat) : Nat :=
  match f.acc with
  | .rw => if f.allows (bitsOf v f.hi f.lo) then bitsOf v f.hi f.lo else bitsOf old f.hi f.lo
  | .w1c => clearBits (bitsOf old f.hi f.lo) (bitsOf v f.hi f.lo)
  | _ => bitsOf old f.hi f.lo

/-- The word `v` holds a reserved value of the field, which a write keeps out. -/
def RegField.keepsOut (f : RegField) (v : Nat) : Bool :=
  decide (f.acc = .rw) && !f.allows (bitsOf v f.hi f.lo)

theorem RegField.keepsOut_iff (f : RegField) (v : Nat) :
    f.keepsOut v = true ↔ f.acc = .rw ∧ f.allows (bitsOf v f.hi f.lo) = false := by
  simp [RegField.keepsOut]

theorem RegField.after_lt (f : RegField) (old v : Nat) : f.after old v < 2 ^ (f.hi - f.lo + 1) := by
  unfold RegField.after
  split
  · split
    · exact bitsOf_lt _ _ _
    · exact bitsOf_lt _ _ _
  · exact clearBits_lt _ (bitsOf_lt _ _ _)
  · exact bitsOf_lt _ _ _

theorem RegField.after_congr (f : RegField) {a b : Nat} (v : Nat) (h : bitsOf a f.hi f.lo = bitsOf b f.hi f.lo) :
    f.after a v = f.after b v := by
  simp only [RegField.after, h]

/-- A write of a field puts in what the field then reads, whatever its access type. -/
theorem RegField.write_eq (f : RegField) (old v : Nat) (hf : f.fits) :
    f.write 0 old v = (withBits old f.hi f.lo (f.after old v), f.keepsOut v) := by
  obtain ⟨hle, h31⟩ := hf
  have hhi : min f.hi 31 = f.hi := Nat.min_eq_left h31
  have hlo : f.lo ≤ 31 := Nat.le_trans hle h31
  have hkeep := withBits_bitsOf old f.hi f.lo hle
  cases hacc : f.acc with
  | rw =>
    by_cases hok : f.allows (bitsOf v f.hi f.lo) = true
    · simp [RegField.write, RegField.after, RegField.keepsOut, hacc, hhi, hlo, hok]
    · simp [RegField.write, RegField.after, RegField.keepsOut, hacc, hhi, hlo, hok, hkeep]
  | w1c => simp [RegField.write, RegField.after, RegField.keepsOut, hacc, hhi, hlo]
  | ro | wo | rc => simp [RegField.write, RegField.after, RegField.keepsOut, hacc, hlo, hkeep]

theorem RegField.bitsOf_write_self (f : RegField) (old v : Nat) (hf : f.fits) :
    bitsOf (f.write 0 old v).1 f.hi f.lo = f.after old v := by
  rw [RegField.write_eq f old v hf, bitsOf_withBits_same _ _ _ _ hf.1, Nat.mod_eq_of_lt (f.after_lt old v)]

theorem RegField.bitsOf_write_other (f g : RegField) (old v : Nat) (hf : f.fits) (hg : g.lo ≤ g.hi) (h : g.clearOf f) :
    bitsOf (f.write 0 old v).1 g.hi g.lo = bitsOf old g.hi g.lo := by
  rw [RegField.write_eq f old v hf]
  rcases h with hbelow | habove
  · exact bitsOf_withBits_below _ _ _ _ _ _ hbelow hg hf.1
  · exact bitsOf_withBits_above _ _ _ _ _ _ habove hf.1

/-! ### All fields of a written word -/

/-- The fields `fs` written one after the other over a word, with whether a reserved value was kept out so far. -/
def writeFields (fs : List RegField) (v : Nat) (a : Nat × Bool) : Nat × Bool :=
  fs.foldl (fun a f => ((f.write 0 a.1 v).1, a.2 || (f.write 0 a.1 v).2)) a

theorem RegRow.write_eq_writeFields (r : RegRow) (old v : Nat) : r.write 0 old v = writeFields r.fields v (old, false) := rfl

theorem writeFields_cons (f : RegField) (fs : List RegField) (v : Nat) (a : Nat × Bool) :
    writeFields (f :: fs) v a = writeFields fs v ((f.write 0 a.1 v).1, a.2 || (f.write 0 a.1 v).2) := rfl

/-- Bits that no field written has keep their value. -/
theorem bitsOf_writeFields_other (g : RegField) (fs : List RegField) (v : Nat) (a : Nat × Bool) (hg : g.lo ≤ g.hi)
    (hfit : ∀ f ∈ fs, f.fits) (hclear : ∀ f ∈ fs, g.clearOf f) :
    bitsOf (writeFields fs v a).1 g.hi g.lo = bitsOf a.1 g.hi g.lo := by
  induction fs generalizing a with
  | nil => rfl
  | cons f fs ih =>
    obtain ⟨hf, hfs⟩ := List.forall_mem_cons.mp hfit
    obtain ⟨hc, hcs⟩ := List.forall_mem_cons.mp hclear
    rw [writeFields_cons, ih _ hfs hcs]
    exact RegField.bitsOf_write_other f g a.1 v hf hg hc

/-- Each field of a written word reads as if it were written alone. -/
theorem bitsOf_writeFields_mem (g : RegField) (fs : List RegField) (v : Nat) (a : Nat × Bool) (hfit : ∀ f ∈ fs, f.fits)
    (hfall : fs.Pairwise (fun f g => g.hi < f.lo)) (hg : g ∈ fs) :
    bitsOf (writeFields fs v a).1 g.hi g.lo = g.after a.1 v := by
  induction fs generalizing a with
  | nil => cases hg
  | cons f fs ih =>
    obtain ⟨hf, hfs⟩ := List.forall_mem_cons.mp hfit
    obtain ⟨hfirst, hrest⟩ := List.pairwise_cons.mp hfall
    rw [writeFields_cons]
    rcases List.mem_cons.mp hg with rfl | hg
    · rw [bitsOf_writeFields_other g fs v _ hf.1 hfs (fun h hh => .inr (hfirst h hh))]
      exact RegField.bitsOf_write_self g a.1 v hf
    · rw [ih _ hfs hrest hg]
      exact g.after_congr v (RegField.bitsOf_write_other f g a.1 v hf (hfs g hg).1 (.inl (hfirst g hg)))

theorem writeFields_keptOut (fs : List RegField) (v : Nat) (a : Nat × Bool) (hfit : ∀ f ∈ fs, f.fits) :
    (writeFields fs v a).2 = (a.2 || fs.any (fun f => f.keepsOut v)) := by
  induction fs generalizing a with
  | nil => simp [writeFields]
  | cons f fs ih =>
    obtain ⟨hf, hfs⟩ := List.forall_mem_cons.mp hfit
    rw [writeFields_cons, ih _ hfs, RegField.write_eq f a.1 v hf, List.any_cons, Bool.or_assoc]

/-! ### A plain write of a register word -/

section
variable {r : RegRow} {i j w : Nat} (s : State) {off : Nat} (v : Nat) (h : rowAt off = some (r, i, j, w))
include h

theorem State.rd_plain (o : Nat) :
    (s.plain off v).rd o = if o = off then (r.write w (s.rd off) v).1 % 2 ^ 32 else s.rd o := by
  have hregs : (s.plain off v).regs = (s.wr off (r.write w (s.rd off) v).1).regs := by
    simp only [State.plain, h]
    split <;> split <;> rfl
  unfold State.rd
  rw [hregs]
  exact State.rd_wr s off o _

/-- Beside registers a plain write changes only the event log and the noted staged writes. -/
theorem State.plain_frame :
    s.plain off v = { s with regs := (s.plain off v).regs, sys := (s.plain off v).sys, cmt := (s.plain off v).cmt } := by
  simp only [State.plain, h]
  split <;> split <;> rfl

theorem State.plain_sys :
    (s.plain off v).sys = if (r.write w (s.rd off) v).2 then (s.event 0x0103 0 off v).sys else s.sys := by
  simp only [State.plain, h]
  split <;> split <;> rfl

theorem State.plain_cmt_of_not_staged (hst : hasStaged off = false) : (s.plain off v).cmt = s.cmt := by
  simp only [State.plain, h, hst]
  split <;> rfl

end

/-- A field of a 32-bit register after a plain write. -/
theorem State.bitsOf_rd_plain (s : State) {off i j : Nat} (v : Nat) {r : RegRow} (h : rowAt off = some (r, i, j, 0))
    (hw : r.wide = false) (f : RegField) (hf : f ∈ r.fields) :
    bitsOf ((s.plain off v).rd off) f.hi f.lo = f.after (s.rd off) v := by
  have hfit := fields_fit (rowAt_mem h) hw
  obtain ⟨hle, h31⟩ := hfit f hf
  rw [s.rd_plain v h, if_pos rfl, bitsOf_mod _ _ _ 32 (by omega) hle, RegRow.write_eq_writeFields]
  exact bitsOf_writeFields_mem f r.fields v _ hfit (fields_fall (rowAt_mem h)) hf

theorem RegRow.write_keptOut (r : RegRow) (old v : Nat) (hfit : ∀ f ∈ r.fields, f.fits) :
    (r.write 0 old v).2 = true ↔ ∃ f ∈ r.fields, f.acc = .rw ∧ f.allows (bitsOf v f.hi f.lo) = false := by
  rw [RegRow.write_eq_writeFields, writeFields_keptOut r.fields v _ hfit, Bool.false_or, List.any_eq_true]
  simp only [RegField.keepsOut_iff]

/-! ### What a host access runs -/

/-- A word that no rule of its own concerns is written plainly. -/
theorem State.writeWord_eq_plain (s : State) {off i j w : Nat} (v : Nat) {r : RegRow} (h : rowAt off = some (r, i, j, w))
    (hrule : writeRules.find? (fun q => q.1 == r.off) = none) (hblock : s.writeBlocked r i j off v = none)
    (hmask : s.enableMask r off = 0) : s.writeWord off v = s.plain off v := by
  simp only [State.writeWord, h, hblock, hrule, hmask]
  exact s.plainHeld_zero off v

/-- The state whose low word below the high word at `off` is no longer pending. -/
def State.takeLow (s : State) (off : Nat) : State := { s with lowPend := withoutOff s.lowPend (off - 4) }

/-- The pending low word below the high word at `off`. -/
def State.pendingLow (s : State) (off : Nat) : Option (Nat × BitVec 32) := s.lowPend.find? (fun q => q.1 == off - 4)

section
variable {r : RegRow} {i j w : Nat} (s : State) {off : Nat} (v : Nat) (h : rowAt off = some (r, i, j, w))
include h

theorem State.writeHigh_of_blocked {b : State} (hblock : (s.takeLow off).writeBlocked r i j off v = some b) :
    s.writeHigh off v = b := by
  have hb : (s.takeLow off).blocked off v = some b := by rw [State.blocked, h]; exact hblock
  unfold State.takeLow at hb
  simp only [State.writeHigh, hb]

variable (hblock : (s.takeLow off).writeBlocked r i j off v = none)
include hblock

/-- R12: with no low word pending the low word in force is written again, which only a staged word notes. -/
theorem State.writeHigh_alone (hlow : s.pendingLow off = none) :
    s.writeHigh off v = (if hasStaged (off - 4) then (s.takeLow off).writeWord (off - 4) ((s.takeLow off).rd (off - 4))
      else s.takeLow off).writeWord off v := by
  have hb : (s.takeLow off).blocked off v = none := by rw [State.blocked, h]; exact hblock
  unfold State.takeLow at hb
  unfold State.pendingLow at hlow
  simp only [State.writeHigh, State.takeLow, hb, hlow, Option.map_none]

/-- R12: a pending low word is written with the high word. -/
theorem State.writeHigh_with_low {o l : Nat} (hl : l < 2 ^ 32) (hlow : s.pendingLow off = some (o, BitVec.ofNat 32 l)) :
    s.writeHigh off v = ((s.takeLow off).writeWord (off - 4) l).writeWord off v := by
  have hb : (s.takeLow off).blocked off v = none := by rw [State.blocked, h]; exact hblock
  unfold State.takeLow at hb
  unfold State.pendingLow at hlow
  simp only [State.writeHigh, State.takeLow, hb, hlow, Option.map_some, BitVec.toNat_ofNat, Nat.mod_eq_of_lt hl]

end

section
variable {r : RegRow} {i j w : Nat} (s : State) (t : Nat) {off : Nat} (hd3 : s.hst.d3 = false)
  (hon : s.unreachable off = false) (hmsix : inMsix off = false) (hrow : rowAt off = some (r, i, j, w))
include hd3 hon hmsix hrow

theorem exec_registerWrite {v : Nat} (hal : off % 4 = 0) (hv : v < 2 ^ 32) (hw : r.wide = false) :
    exec (.registerWrite t off v) s = .next ((s.tick t).writeWord off v) := by
  have hreach : (s.tick t).unreachable off = false := hon
  simp only [exec, execRegisterWrite, s.whenBar_eq t _ hd3, Nat.mod_eq_of_lt hv]
  simp [State.hostWrite, hal, hmsix, hrow, hw, hreach]

theorem exec_registerLowWordWrite {v : Nat} (hv : v < 2 ^ 32) (hw : r.wide = true) (hlow : w = 0) :
    exec (.registerLowWordWrite t off v) s = .next ((s.tick t).writeLow off v) := by
  have hreach : (s.tick t).unreachable off = false := hon
  simp only [exec, execRegisterLowWordWrite, s.whenBar_eq t _ hd3, Nat.mod_eq_of_lt hv]
  simp [State.hostWrite, hmsix, hrow, hw, hreach, hlow]

theorem exec_registerHighWordWrite {v : Nat} (hv : v < 2 ^ 32) (hw : r.wide = true) (hhigh : w = 1) :
    exec (.registerHighWordWrite t off v) s = .next ((s.tick t).writeHigh off v) := by
  have hreach : (s.tick t).unreachable off = false := hon
  simp only [exec, execRegisterHighWordWrite, s.whenBar_eq t _ hd3, Nat.mod_eq_of_lt hv]
  simp [State.hostWrite, hmsix, hrow, hw, hreach, hhigh]

end

/-- R12: a low-word read latches the high word as it then reads. -/
theorem State.readWord_low (s : State) {off i j : Nat} {r : RegRow} (hon : s.unreachable off = false)
    (hmsix : inMsix off = false) (hrow : rowAt off = some (r, i, j, 0)) (hw : r.wide = true)
    (hdbg : inWindowOf 0x18 off = false) :
    s.readWord off = (s.peek off,
      { s with hiLatch := (off + 4, BitVec.ofNat 32 (s.peek (off + 4))) :: withoutOff s.hiLatch (off + 4) }) := by
  obtain ⟨htbl, hwave, htime⟩ := wide_not_read_port (rowAt_mem hrow) hw
  simp [State.readWord, hon, hmsix, hrow, hdbg, htbl, hwave, htime, hw]

theorem exec_registerLowWordRead (s : State) (t : Nat) {off i j : Nat} {r : RegRow} (hd3 : s.hst.d3 = false)
    (hrow : rowAt off = some (r, i, j, 0)) (hw : r.wide = true) :
    exec (.registerLowWordRead t off) s = .next ((s.tick t).hostRead off) := by
  simp only [exec, execRegisterLowWordRead, s.whenBar_eq t _ hd3]
  simp [hrow, hw]

/-! ### The obligations of the overview chapter -/

/-- Settles O5: such a write is a plain write, whose fields, log and noted writes the lemmas above give. -/
theorem registerWriteFields : Obligations.RegisterWriteFields := by
  unfold Obligations.RegisterWriteFields
  intro s t off v r i j hd3 hal hv hon hmsix hrow hw hblock hmask hrule
  have hfit := fields_fit (rowAt_mem hrow) hw
  have hreserved := r.write_keptOut (s.rd off) v hfit
  have hexec : exec (.registerWrite t off v) s = .next ((s.tick t).plain off v) := by
    rw [exec_registerWrite s t hd3 hon hmsix hrow hal hv hw, (s.tick t).writeWord_eq_plain v hrow hrule hblock hmask]
  have hsys := (s.tick t).plain_sys v hrow
  refine ⟨(s.tick t).plain off v, hexec, ?fields, ?others, (s.tick t).plain_frame v hrow, ?quiet, ?logged, ?unnoted⟩
  case fields =>
    intro f hf
    exact (s.tick t).bitsOf_rd_plain v hrow hw f hf
  case others =>
    intro o ho
    rw [(s.tick t).rd_plain v hrow, if_neg ho]
    rfl
  case quiet =>
    intro hall
    refine hsys.trans (if_neg fun hkept => ?_)
    obtain ⟨f, hf, hacc, hbad⟩ := hreserved.mp hkept
    exact absurd (hall f hf hacc) (by simp [hbad])
  case logged =>
    intro hbad
    exact hsys.trans (if_pos (hreserved.mpr hbad))
  case unnoted =>
    exact (s.tick t).plain_cmt_of_not_staged v hrow

/-- No arm of the dispatch faults or refuses. -/
theorem exec_next (i : Instr) (s : State) : ∃ u, exec i s = .next u := by
  cases i <;> exact ⟨_, rfl⟩

theorem step_next (s : State) : ∃ u, step s = .next u := by
  unfold step
  cases s.pending with
  | nil => exact ⟨s, rfl⟩
  | cons c cs => exact exec_next c _

/-- Settles O2: by the commands' arms, and a step runs one of them or idles. -/
theorem everyCommandAnswersNext : Obligations.EveryCommandAnswersNext :=
  ⟨exec_next, step_next⟩

theorem State.reset_ring {w : Nat} (hw : w < 64) : State.reset.ring w = {} :=
  List.getD_replicate ({} : Ring) hw

/-- Settles O4: reset lists nothing in memory, in a register file or for an epoch, so each reads what an unlisted entry does. -/
theorem resetIsWellKept : Obligations.ResetIsWellKept := by
  unfold Obligations.ResetIsWellKept
  have hfield : State.reset.fieldOn = false := by decide
  have hring : ∀ w, w < 64 → (State.reset.ring w).st = .disabled := fun w hw => by rw [State.reset_ring hw]
  exact ⟨rfl, rfl, rfl, rfl, rfl, fun _ => rfl, hfield, fun _ => rfl, fun _ => rfl, hring⟩

/-- R12: a high-word write where no low word waits and the register is not staged writes only the high word. -/
theorem State.writeHigh_unstaged (s : State) {off i j : Nat} (v : Nat) {r : RegRow} (hrow : rowAt off = some (r, i, j, 1))
    (hrule : writeRules.find? (fun q => q.1 == r.off) = none) (hblock : (s.takeLow off).writeBlocked r i j off v = none)
    (hmask : (s.takeLow off).enableMask r off = 0) (hlow : s.pendingLow off = none) (hst : hasStaged (off - 4) = false) :
    s.writeHigh off v = (s.takeLow off).plain off v := by
  rw [s.writeHigh_alone v hrow hblock hlow, hst, if_neg Bool.false_ne_true]
  exact (s.takeLow off).writeWord_eq_plain v hrow hrule hblock hmask

/-- Both words of a 64-bit register without a rule of its own are written plainly, the low word first. -/
theorem State.writeWords_eq_plain (s : State) {off i j : Nat} (l v : Nat) {r : RegRow} (hrow : rowAt off = some (r, i, j, 1))
    (hrowl : rowAt (off - 4) = some (r, i, j, 0)) (hrule : writeRules.find? (fun q => q.1 == r.off) = none)
    (hbl : s.writeBlocked r i j (off - 4) l = none) (hml : s.enableMask r (off - 4) = 0)
    (hbh : (s.plain (off - 4) l).writeBlocked r i j off v = none) (hmh : (s.plain (off - 4) l).enableMask r off = 0) :
    (s.writeWord (off - 4) l).writeWord off v = (s.plain (off - 4) l).plain off v := by
  rw [s.writeWord_eq_plain l hrowl hrule hbl hml]
  exact (s.plain (off - 4) l).writeWord_eq_plain v hrow hrule hbh hmh

/-- Settles O6: a low word waits, a high-word write is one of the cases of `writeHigh`, a low-word read is `readWord_low`. -/
theorem wideRegisterWords : Obligations.WideRegisterWords := by
  unfold Obligations.WideRegisterWords
  refine ⟨?lowWrite, ?highWrite, ?lowRead⟩
  case lowWrite =>
    intro s t off v r i j hd3 hv hon hmsix hrow hw
    exact exec_registerLowWordWrite s t hd3 hon hmsix hrow hv hw rfl
  case highWrite =>
    intro s s1 t off v r i j hd3 hv hon hmsix hrow hw hs1
    have hexec := exec_registerHighWordWrite s t hd3 hon hmsix hrow hv hw rfl
    obtain rfl : s1 = (s.tick t).takeLow off := hs1
    refine ⟨?blocked, fun hrule hblock => ⟨?unstaged, ?staged, ?pending⟩⟩
    case blocked =>
      intro b hblock
      rw [hexec, (s.tick t).writeHigh_of_blocked v hrow hblock]
    case unstaged =>
      intro hmask hlow hst
      rw [hexec, (s.tick t).writeHigh_unstaged v hrow hrule hblock hmask hlow hst]
    case staged =>
      intro hlow hst hrowl hbl hml hbh hmh
      rw [hexec, (s.tick t).writeHigh_alone v hrow hblock hlow, hst, if_pos rfl]
      rw [State.writeWords_eq_plain _ _ v hrow hrowl hrule hbl hml hbh hmh]
    case pending =>
      intro l hl hlow hrowl hbl hml hbh hmh
      rw [hexec, (s.tick t).writeHigh_with_low v hrow hblock hl hlow]
      rw [State.writeWords_eq_plain _ _ v hrow hrowl hrule hbl hml hbh hmh]
  case lowRead =>
    intro s t off r i j hd3 hon hmsix hrow hw hdbg
    have hread := (s.tick t).readWord_low hon hmsix hrow hw hdbg
    rw [exec_registerLowWordRead s t hd3 hrow hw, State.hostRead, hread]
    rfl

end Sys2Proof.Machine
end

section
/-!
SUPPORT. The Tilth fabric (R17 to R22, R42): what queues hold of it, what a grant changes at its port, what settling markers
changes. With them its obligations are settled.
-/

namespace Sys2Proof.Machine

/-! ### Counting among levels 0 to 2 -/

theorem TiltPort.lower_mono {p q : Nat → Bool} (h : ∀ l, l < 3 → p l = true → q l = true) :
    TiltPort.lower p ≤ TiltPort.lower q := by
  simp only [TiltPort.lower, ← List.countP_eq_length_filter]
  exact List.countP_mono_left fun l hl => h l (by simp at hl; omega)

/-- With one level more, the count is larger. -/
theorem TiltPort.lower_lt {p q : Nat → Bool} {x : Nat} (h : ∀ l, l < 3 → p l = true → q l = true) (hx : x < 3)
    (hp : p x = false) (hq : q x = true) : TiltPort.lower p < TiltPort.lower q := by
  have split : ∀ r : Nat → Bool, TiltPort.lower r = (r 0).toNat + (r 1).toNat + (r 2).toNat := by
    intro r
    cases h0 : r 0 <;> cases h1 : r 1 <;> cases h2 : r 2 <;> simp [TiltPort.lower, h0, h1, h2]
  have step : ∀ l, l < 3 → (p l).toNat ≤ (q l).toNat := fun l hl => Bool.toNat_le_toNat (h l hl)
  have h0 := step 0 (by omega)
  have h1 := step 1 (by omega)
  have h2 := step 2 (by omega)
  have hlt : (p x).toNat < (q x).toNat := by simp [hp, hq]
  rw [split, split]
  interval_cases x <;> omega

theorem TiltPort.lower_pos {p : Nat → Bool} {x : Nat} (hx : x < 3) (hp : p x = true) : 0 < TiltPort.lower p :=
  Nat.lt_of_le_of_lt (Nat.zero_le _) (TiltPort.lower_lt (p := fun _ => false) (by simp) hx rfl hp)

/-! ### A fair port (R19) -/

theorem TiltPort.fair.age_three_le {tp : TiltPort} (h : tp.fair) : tp.age 3 ≤ 3 :=
  Nat.le_trans h.1 (List.length_filter_le _ _)

theorem TiltPort.fair.age_le {tp : TiltPort} (h : tp.fair) {l : Nat} (hl : l < 4) : tp.age l ≤ 15 := by
  have h3 := h.age_three_le
  by_contra hlt
  have hl3 : l ≠ 3 := by rintro rfl; omega
  have hpos := TiltPort.lower_pos (p := fun x => decide (13 + 3 ≤ tp.age x)) (x := l) (by omega) (by simp; omega)
  have hnone := h.2 3 (by omega)
  omega

/-- Of a fair port at most one level has waited 15 grants. -/
theorem TiltPort.fair.fifteen_unique {tp : TiltPort} (h : tp.fair) {a b : Nat} (ha : a < 4) (hb : b < 4)
    (h15a : tp.age a = 15) (h15b : tp.age b = 15) : a = b := by
  have h3 := h.age_three_le
  have ha3 : a ≠ 3 := by rintro rfl; omega
  have hb3 : b ≠ 3 := by rintro rfl; omega
  by_contra hne
  have hone := TiltPort.lower_pos (p := fun x => x == a) (x := a) (by omega) (by simp)
  have htwo := TiltPort.lower_lt (p := fun x => x == a) (q := fun x => decide (13 + 2 ≤ tp.age x)) (x := b)
    (by rintro l - hl; obtain rfl : l = a := by simpa using hl
        simp; omega) (by omega) (by simp; omega) (by simp; omega)
  have hmost := h.2 2 (by omega)
  omega

/-- The bookkeeping of a port after a grant of queue `k` at level `l`, of the ready levels `lv`. -/
def TiltPort.granted (tp : TiltPort) (lv : List Nat) (k l : Nat) : TiltPort :=
  { tp with
    last := assocSet l (k + 1) tp.last
    starve := lv.map (fun x => (x, if x = l then 0 else assocGet x 0 tp.starve + 1)) }

theorem assocGet_map (f : Nat → Nat) (x : Nat) (l : List Nat) :
    assocGet x 0 (l.map (fun y => (y, f y))) = if x ∈ l then f x else 0 := by
  induction l with
  | nil => rfl
  | cons y ys ih =>
    by_cases hy : y = x
    · subst hy; simp [assocGet]
    · have hx : x ≠ y := Ne.symm hy
      simp [assocGet, hy, hx, ih]

theorem TiltPort.granted_age (tp : TiltPort) (lv : List Nat) (k l x : Nat) :
    (tp.granted lv k l).age x = if x ∈ lv ∧ x ≠ l then tp.age x + 1 else 0 := by
  unfold TiltPort.age TiltPort.granted
  rw [assocGet_map]
  by_cases hx : x ∈ lv <;> by_cases hl : x = l <;> simp [hx, hl]

/-- R19: level `l` may be granted when `lv` are ready: the highest, unless levels have waited 13 grants, then one of those that has
waited longest. -/
def TiltPort.mayGrant (tp : TiltPort) (lv : List Nat) (l : Nat) : Prop :=
  l ∈ lv ∧ (∀ x ∈ lv, 13 ≤ tp.age x → tp.age x ≤ tp.age l) ∧ (lv.head? = some l ∨ 13 ≤ tp.age l)

section
variable {tp : TiltPort} (h : tp.fair) {lv : List Nat} {l : Nat} (k : Nat) (hl : tp.mayGrant lv l) (hlv : ∀ x ∈ lv, x < 4)
include h hl hlv

/-- Where level 3 was ready and passed over, the level granted had waited 13 grants, and is now one more that has waited less. -/
theorem TiltPort.fair.granted_age_three_le (htop : 3 ∈ lv → lv.head? = some 3) : (tp.granted lv k l).age 3 ≤
    TiltPort.lower (fun x => decide ((tp.granted lv k l).age x < (tp.granted lv k l).age 3)) := by
  have h3 := h.age_three_le
  obtain ⟨hmem, -, hwhich⟩ := hl
  have hl4 := hlv l hmem
  simp only [TiltPort.granted_age]
  by_cases hpassed : 3 ∈ lv ∧ 3 ≠ l
  · obtain ⟨hready, hne⟩ := hpassed
    have hdue : 13 ≤ tp.age l :=
      hwhich.resolve_left fun hhead => hne (Option.some.inj ((htop hready).symm.trans hhead))
    have hmore := TiltPort.lower_lt (p := fun x => decide (tp.age x < tp.age 3))
      (q := fun x => decide ((if x ∈ lv ∧ x ≠ l then tp.age x + 1 else 0) < tp.age 3 + 1)) (x := l)
      (by intro x _ hx
          simp only [decide_eq_true_eq] at hx ⊢
          split <;> omega)
      (by omega) (by simp; omega) (by simp)
    have hold := h.1
    rw [if_pos ⟨hready, hne⟩]
    omega
  · rw [if_neg hpassed]
    exact Nat.zero_le _

/-- What has waited 13 + j + 1 grants had waited 13 + j before, and so had the level granted, which starts anew. -/
theorem TiltPort.fair.granted_waited_le {j : Nat} (hj : j < 3) :
    TiltPort.lower (fun x => decide (13 + (j + 1) ≤ (tp.granted lv k l).age x)) ≤ 3 - (j + 1) := by
  have h3 := h.age_three_le
  obtain ⟨hmem, hlongest, -⟩ := hl
  have hl4 := hlv l hmem
  have hold := h.2 j (by omega)
  simp only [TiltPort.granted_age]
  by_cases hsome : ∃ x, x ∈ lv ∧ 13 + j ≤ tp.age x
  · obtain ⟨y, hready, hy⟩ := hsome
    have hlast := hlongest y hready (by omega)
    have hl3 : l ≠ 3 := by rintro rfl; omega
    have hless := TiltPort.lower_lt (p := fun x => decide (13 + (j + 1) ≤ if x ∈ lv ∧ x ≠ l then tp.age x + 1 else 0))
      (q := fun x => decide (13 + j ≤ tp.age x)) (x := l)
      (by intro x _ hx
          simp only [decide_eq_true_eq] at hx ⊢
          split at hx <;> omega)
      (by omega) (by simp) (by simp; omega)
    omega
  · have hnone := TiltPort.lower_mono
      (p := fun x => decide (13 + (j + 1) ≤ if x ∈ lv ∧ x ≠ l then tp.age x + 1 else 0)) (q := fun _ => false)
      (by intro x _ hx
          simp only [decide_eq_true_eq] at hx
          split at hx
          next hc => exact absurd ⟨x, hc.1, by omega⟩ hsome
          next => omega)
    exact Nat.le_trans hnone (Nat.zero_le _)

theorem TiltPort.fair.granted (htop : 3 ∈ lv → lv.head? = some 3) : (tp.granted lv k l).fair := by
  refine ⟨h.granted_age_three_le k hl hlv htop, fun m hm => ?_⟩
  cases m with
  | zero => exact List.length_filter_le _ _
  | succ j => exact h.granted_waited_le k hl hlv (by omega)

end

/-- At a fair port a ready level that has waited 15 grants is the one granted. -/
theorem TiltPort.fair.granted_fifteen {tp : TiltPort} (h : tp.fair) {lv : List Nat} {l x : Nat} (hl : tp.mayGrant lv l)
    (hlv : ∀ x ∈ lv, x < 4) (hx : x ∈ lv) (h15 : tp.age x = 15) : x = l := by
  obtain ⟨hmem, hlongest, _⟩ := hl
  have hge := hlongest x hx (by omega)
  have hle := h.age_le (hlv l hmem)
  exact h.fifteen_unique (hlv x hx) (hlv l hmem) h15 (by omega)

/-! ### The level and the queue that a port grants (R19) -/

theorem readyLevels_lt {qs : List TiltQueue} {l : Nat} (h : l ∈ readyLevels qs) : l < 4 := by
  have hl : l ∈ [3, 2, 1, 0] := (List.mem_filter.mp h).1
  simp at hl
  omega

theorem readyLevels_head {qs : List TiltQueue} (h : 3 ∈ readyLevels qs) : (readyLevels qs).head? = some 3 := by
  have h3 := (List.mem_filter.mp h).2
  simp [readyLevels, List.filter_cons, h3]

/-- The scan of `grantLevel` keeps the level that has waited longest. -/
theorem longest_foldl (age : Nat → Nat) (due : List Nat) (b : Nat) :
    let r := due.foldl (fun b l => if age b < age l then l else b) b
    (r = b ∨ r ∈ due) ∧ age b ≤ age r ∧ ∀ x ∈ due, age x ≤ age r := by
  induction due generalizing b with
  | nil => simp
  | cons d ds ih =>
    have hpick : ∀ c, c = (if age b < age d then d else b) → (c = b ∨ c = d) ∧ age b ≤ age c ∧ age d ≤ age c := by
      rintro c rfl
      split
      next hlt => exact ⟨.inr rfl, Nat.le_of_lt hlt, Nat.le_refl _⟩
      next hge => exact ⟨.inl rfl, Nat.le_refl _, Nat.not_lt.mp hge⟩
    rw [List.foldl_cons]
    generalize hc : (if age b < age d then d else b) = c
    obtain ⟨hwhich, hbc, hdc⟩ := hpick c hc.symm
    obtain ⟨hmem, hcr, hall⟩ := ih c
    refine ⟨?_, Nat.le_trans hbc hcr, List.forall_mem_cons.mpr ⟨Nat.le_trans hdc hcr, hall⟩⟩
    rcases hmem with hr | hr
    · rw [hr, List.mem_cons]
      exact hwhich.imp_right .inl
    · exact .inr (List.mem_cons_of_mem d hr)

theorem grantLevel_mayGrant {tp : TiltPort} {lv : List Nat} {l : Nat} (h : grantLevel tp.starve lv = some l) :
    tp.mayGrant lv l := by
  cases lv with
  | nil => cases h
  | cons top rest =>
    obtain ⟨hmem, -, hall⟩ := longest_foldl tp.age ((top :: rest).filter (fun l => decide (13 ≤ tp.age l))) top
    have hl : ((top :: rest).filter (fun l => decide (13 ≤ tp.age l))).foldl
        (fun b l => if tp.age b < tp.age l then l else b) top = l := Option.some.inj h
    rw [hl] at hmem hall
    refine ⟨?_, fun x hx h13 => hall x (List.mem_filter.mpr ⟨hx, decide_eq_true h13⟩), ?_⟩
    · rcases hmem with rfl | hdue
      · exact List.mem_cons_self
      · exact (List.mem_filter.mp hdue).1
    · rcases hmem with rfl | hdue
      · exact .inl rfl
      · exact .inr (of_decide_eq_true (List.mem_filter.mp hdue).2)

/-- Sorting numbers as `roundRobin` does keeps all of them, so from one on something is found. -/
theorem roundRobin_isSome (last : Nat) {nums : List Nat} (h : nums ≠ []) : (roundRobin last nums).isSome = true := by
  obtain ⟨ns, n, rfl⟩ := List.eq_nil_or_concat nums |>.resolve_left h
  unfold roundRobin
  dsimp only
  split
  · rfl
  · simp [List.foldl_append]

/-- A port at which an entry is ready has one to grant, at a level that R19 allows. -/
theorem State.grantChoice_isSome (s : State) (u p : Nat) {l : Nat} (h : l ∈ readyLevels (s.feeding u p)) :
    (s.grantChoice u p).isSome = true := by
  unfold State.grantChoice
  dsimp only
  split
  next hnone =>
    unfold grantLevel at hnone
    split at hnone
    next hnil => rw [hnil] at h; cases h
    next => cases hnone
  next g hg =>
    obtain ⟨hready, -, -⟩ := grantLevel_mayGrant hg
    have hany := (List.mem_filter.mp hready).2
    rw [Option.isSome_map]
    refine roundRobin_isSome _ ?_
    obtain ⟨q, hq, hq2⟩ := List.any_eq_true.mp hany
    exact List.ne_nil_of_mem (List.mem_map.mpr ⟨q, List.mem_filter.mpr ⟨hq, hq2⟩, rfl⟩)

theorem State.grantChoice_mayGrant {s : State} {u p k l : Nat} (h : s.grantChoice u p = some (k, l)) :
    (s.tiltPort u p).mayGrant (readyLevels (s.feeding u p)) l := by
  unfold State.grantChoice at h
  dsimp only at h
  split at h
  next => cases h
  next g hg =>
    obtain ⟨n, -, hn⟩ := Option.map_eq_some_iff.mp h
    obtain rfl : g = l := congrArg Prod.snd hn
    exact grantLevel_mayGrant hg

/-! ### Arbitration state by port -/

theorem State.tiltPort_key (s : State) (u p : Nat) : (s.tiltPort u p).unit = u ∧ (s.tiltPort u p).port = p := by
  unfold State.tiltPort
  cases h : s.tlt.ports.find? (fun x => x.unit == u && x.port == p) with
  | none => exact ⟨rfl, rfl⟩
  | some tp => simpa using List.find?_some h

/-- The ports with the state of one of them replaced, as a grant leaves them. -/
def portsWith (tp : TiltPort) (ports : List TiltPort) : List TiltPort :=
  tp :: ports.filter (fun x => !(x.unit == tp.unit && x.port == tp.port))

theorem State.tiltPort_portsWith_same {s w : State} {tp : TiltPort} (h : w.tlt.ports = portsWith tp s.tlt.ports) :
    w.tiltPort tp.unit tp.port = tp := by
  simp [State.tiltPort, h, portsWith]

theorem State.tiltPort_portsWith_other {s w : State} {tp : TiltPort} (h : w.tlt.ports = portsWith tp s.tlt.ports) {u p : Nat}
    (hne : (u, p) ≠ (tp.unit, tp.port)) : w.tiltPort u p = s.tiltPort u p := by
  have hkey : ∀ x : TiltPort, (x.unit == u && x.port == p) = true → (x.unit == tp.unit && x.port == tp.port) = false := by
    intro x hx
    simp only [Bool.and_eq_true, beq_iff_eq] at hx
    obtain ⟨rfl, rfl⟩ := hx
    simpa [Prod.ext_iff] using hne
  have hfirst : (tp.unit == u && tp.port == p) = false := by
    by_contra hcon
    simpa using hkey tp (by simpa using hcon)
  unfold State.tiltPort
  rw [h, portsWith, List.find?_cons_of_neg (by simp [hfirst]), List.find?_filter]
  congr 1
  refine List.find?_congr fun x _ => ?_
  cases hx : (x.unit == u && x.port == p) with
  | false => simp
  | true => simp [hkey x hx]

/-! ### Settling markers (R22, R483) -/

/-- `w` differs from `s` at most in its check units and in the snapshots of epochs. -/
def State.boundaryOnly (s w : State) : Prop :=
  ∃ epochs chk, w = { s with cmt := { s.cmt with epochs := epochs }, chk := chk }

theorem State.boundaryOnly_refl (s : State) : s.boundaryOnly s := ⟨s.cmt.epochs, s.chk, rfl⟩

theorem State.boundaryOnly.trans {s v w : State} (h : s.boundaryOnly v) (h' : v.boundaryOnly w) : s.boundaryOnly w := by
  obtain ⟨e, c, rfl⟩ := h
  obtain ⟨e', c', rfl⟩ := h'
  exact ⟨e', c', rfl⟩

theorem State.boundaryOnly_foldl {α : Type} {f : State → α → State} (hf : ∀ (v : State) (a : α), v.boundaryOnly (f v a)) (s : State)
    (l : List α) : s.boundaryOnly (l.foldl f s) :=
  List.foldlRecOn l f s.boundaryOnly_refl fun v hv a _ => hv.trans (hf v a)

theorem State.runBoundary_boundaryOnly (s : State) (e n : Nat) : s.boundaryOnly (s.runBoundary e n) := by
  unfold State.runBoundary
  split
  · exact s.boundaryOnly_refl
  · exact ⟨_, _, rfl⟩

theorem State.tilthBoundary_boundaryOnly (s : State) (e : Nat) (qs : List Nat) : s.boundaryOnly (s.tilthBoundary e qs) := by
  refine State.boundaryOnly_foldl (fun v n => ?_) s _
  split
  · exact v.runBoundary_boundaryOnly e n
  · exact v.boundaryOnly_refl

/-- A queue with the markers taken that its unit may take, and their epochs. -/
def State.takeFront (s : State) (q : TiltQueue) : TiltQueue × List Nat :=
  if q.markerQueue then (q, []) else q.takeMarkers (s.maySee q.consUnit) s.now (q.entries.length + q.owed.length)

/-- The queues after settling markers. -/
def State.settledQueues (s : State) : List TiltQueue := settleQueues s.now (s.tlt.queues.map (fun q => (s.takeFront q).1))

theorem State.settleMarkers_boundaryOnly (s : State) :
    ({ s with tlt := { s.tlt with queues := s.settledQueues } } : State).boundaryOnly s.settleMarkers := by
  have hqueues : s.settledQueues = settleQueues s.now ((s.tlt.queues.map s.takeFront).map (·.1)) := by
    rw [List.map_map]; rfl
  rw [hqueues]
  refine State.boundaryOnly_foldl (fun v x => ?_) _ _
  exact State.boundaryOnly_foldl (fun v e => v.tilthBoundary_boundaryOnly _ _) v _

theorem State.settleMarkers_tlt (s : State) : s.settleMarkers.tlt = { s.tlt with queues := s.settledQueues } := by
  obtain ⟨e, c, h⟩ := s.settleMarkers_boundaryOnly
  rw [h]

/-! ### A grant (R18, R19) -/

/-- The state with queue `k` popped and its port's bookkeeping advanced, before markers move up. -/
def State.afterGrant (s : State) (u p k l : Nat) : State :=
  { s with tlt := { s.tlt with
      queues := s.tlt.queues.map (fun q => if q.num = k then q.pop s.now else q)
      ports := portsWith ((s.tiltPort u p).granted (readyLevels (s.feeding u p)) k l) s.tlt.ports } }

theorem State.tilthGrant_idle {s : State} {u p : Nat} (h : s.cmt.stopped = true ∨ s.portHeld u p = true ∨ s.grantChoice u p = none) :
    s.tilthGrant u p = s := by
  have hnone : (if s.cmt.stopped || s.portHeld u p then none else s.grantChoice u p) = none := by
    rcases h with h | h | h <;> simp [h]
  unfold State.tilthGrant
  rw [hnone]

theorem State.tilthGrant_some {s : State} {u p k l : Nat} (hrun : s.cmt.stopped = false) (hfree : s.portHeld u p = false)
    (h : s.grantChoice u p = some (k, l)) : s.tilthGrant u p = (s.afterGrant u p k l).settleMarkers := by
  obtain ⟨hu, hp⟩ := s.tiltPort_key u p
  have hsome : (if s.cmt.stopped || s.portHeld u p then none else s.grantChoice u p) = some (k, l) := by
    simp [hrun, hfree, h]
  unfold State.tilthGrant
  rw [hsome]
  simp only [State.afterGrant, portsWith, TiltPort.granted, hu, hp]
  rfl

/-- A grant finds nothing to do, or pops the queue chosen and settles the markers. -/
theorem State.tilthGrant_cases (s : State) (u p : Nat) :
    ((s.cmt.stopped = true ∨ s.portHeld u p = true ∨ s.grantChoice u p = none) ∧ s.tilthGrant u p = s) ∨
    ∃ k l, s.grantChoice u p = some (k, l) ∧ s.tilthGrant u p = (s.afterGrant u p k l).settleMarkers := by
  by_cases hidle : s.cmt.stopped = true ∨ s.portHeld u p = true ∨ s.grantChoice u p = none
  · exact .inl ⟨hidle, State.tilthGrant_idle hidle⟩
  · simp only [not_or, Bool.not_eq_true] at hidle
    obtain ⟨hrun, hfree, hchoice⟩ := hidle
    obtain ⟨⟨k, l⟩, hkl⟩ := Option.ne_none_iff_exists'.mp hchoice
    exact .inr ⟨k, l, hkl, State.tilthGrant_some hrun hfree hkl⟩

theorem State.afterGrant_settled_ports (s : State) (u p k l : Nat) : (s.afterGrant u p k l).settleMarkers.tlt.ports =
    portsWith ((s.tiltPort u p).granted (readyLevels (s.feeding u p)) k l) s.tlt.ports := by
  rw [State.settleMarkers_tlt]
  rfl

theorem State.tiltPort_afterGrant_same (s : State) (u p k l : Nat) : (s.afterGrant u p k l).settleMarkers.tiltPort u p =
    (s.tiltPort u p).granted (readyLevels (s.feeding u p)) k l := by
  obtain ⟨hu, hp⟩ := s.tiltPort_key u p
  have h := State.tiltPort_portsWith_same (s.afterGrant_settled_ports u p k l)
  rwa [show ((s.tiltPort u p).granted (readyLevels (s.feeding u p)) k l).unit = u from hu,
    show ((s.tiltPort u p).granted (readyLevels (s.feeding u p)) k l).port = p from hp] at h

theorem State.tiltPort_afterGrant_other (s : State) {u p u' p' : Nat} (k l : Nat) (hne : (u', p') ≠ (u, p)) :
    (s.afterGrant u p k l).settleMarkers.tiltPort u' p' = s.tiltPort u' p' := by
  obtain ⟨hu, hp⟩ := s.tiltPort_key u p
  refine State.tiltPort_portsWith_other (s.afterGrant_settled_ports u p k l) ?_
  rwa [show ((s.tiltPort u p).granted (readyLevels (s.feeding u p)) k l).unit = u from hu,
    show ((s.tiltPort u p).granted (readyLevels (s.feeding u p)) k l).port = p from hp]

/-- Settles O9: the levels that have waited longest are granted, so one that has waited 15 grants is alone and is next. -/
theorem noLevelWaitsPastSixteenGrants : Obligations.NoLevelWaitsPastSixteenGrants := by
  unfold Obligations.NoLevelWaitsPastSixteenGrants
  intro s w t u p hfair hexec
  obtain rfl : (s.tick t).tilthGrant u p = w := Host.Outcome.next.inj hexec
  rcases (s.tick t).tilthGrant_cases u p with ⟨hidle, hw⟩ | ⟨k, l, hchoice, hw⟩
  · rw [hw]
    refine ⟨hfair, fun l hl => hfair.age_le hl, ?_, fun _ _ _ => rfl⟩
    intro l hl h15 hrun hfree
    have hsome := (s.tick t).grantChoice_isSome u p hl
    rcases hidle with h | h | h
    · exact absurd (hrun.symm.trans h) Bool.false_ne_true
    · exact absurd (hfree.symm.trans h) Bool.false_ne_true
    · rw [h] at hsome; cases hsome
  · have hmay := State.grantChoice_mayGrant hchoice
    have hkept : ((s.tiltPort u p).granted (readyLevels (s.feeding u p)) k l).fair :=
      hfair.granted k hmay (fun _ => readyLevels_lt) readyLevels_head
    rw [hw, State.tiltPort_afterGrant_same]
    refine ⟨hkept, fun x hx => hkept.age_le hx, ?_, fun u' p' hne => (s.tick t).tiltPort_afterGrant_other k l hne⟩
    intro x hx h15 _ _
    obtain rfl : x = l := hfair.granted_fifteen hmay (fun _ => readyLevels_lt) hx h15
    exact (TiltPort.granted_age _ _ _ _ _).trans (if_neg fun h => h.2 rfl)

end Sys2Proof.Machine
end

section
/-!
SUPPORT. What the queues hold of the Tilth fabric (R20, R42): no operation on a queue makes it hold more, and credits granted
after a change come from entries that no queue holds. With them the obligations of R18, R20 and R42 are settled.
-/

namespace Sys2Proof.Machine

/-! ### One queue -/

theorem TiltQueue.held_recredit_le (q : TiltQueue) (c prio : Nat) : (q.recredit c prio).held ≤ q.held :=
  max_le_max (Nat.min_le_left _ _) (Nat.le_refl _)

theorem TiltQueue.held_changed_le (q : TiltQueue) (e : Nat) : (q.changed e).held ≤ q.held := by
  unfold TiltQueue.changed
  dsimp only
  split
  · exact TiltQueue.held_recredit_le _ _ _
  · exact Nat.le_refl _

/-- An entry placed against a credit is held already. -/
theorem TiltQueue.held_push (q : TiltQueue) (e : TiltEntry) (now : Nat) (h : q.entries.length < q.granted) :
    (q.push e now).held = q.held := by
  simp only [TiltQueue.held, TiltQueue.push, List.length_append, List.length_singleton]
  omega

theorem TiltQueue.held_place (q : TiltQueue) (data : List Nat) (now : Nat) : (q.place data now).held = q.held := by
  unfold TiltQueue.place
  split
  next h => exact q.held_push _ now h.2
  next => rfl

theorem TiltQueue.held_pushOwed_le (now n : Nat) (q : TiltQueue) : (q.pushOwed now n).held ≤ q.held := by
  induction n generalizing q with
  | zero => exact Nat.le_refl _
  | succ n ih =>
    unfold TiltQueue.pushOwed
    split
    next => exact Nat.le_refl _
    next e r howed =>
      split
      next hcredit =>
        calc _ ≤ _ := ih _
          _ ≤ _ := TiltQueue.held_changed_le _ e
          _ = q.held := TiltQueue.held_push { q with owed := r } _ now hcredit
      next => exact Nat.le_refl _

theorem TiltQueue.held_pop_le (q : TiltQueue) (now : Nat) : (q.pop now).held ≤ q.held := by
  refine Nat.le_trans (TiltQueue.held_pushOwed_le now _ _) ?_
  simp only [TiltQueue.held, List.length_drop]
  omega

theorem TiltQueue.held_takeMarkers_le (ok : Nat → Bool) (now n : Nat) (q : TiltQueue) :
    (q.takeMarkers ok now n).1.held ≤ q.held := by
  induction n generalizing q with
  | zero => exact Nat.le_refl _
  | succ n ih =>
    unfold TiltQueue.takeMarkers
    split
    next => exact Nat.le_refl _
    next e es hes =>
      split
      next => exact Nat.le_trans (ih _) (q.held_pop_le now)
      next => exact Nat.le_refl _

/-- Without a waiting marker a pop only removes the front entry. -/
theorem TiltQueue.pop_entries (q : TiltQueue) (now : Nat) (h : q.owed = []) : (q.pop now).entries = q.entries.drop 1 := by
  simp [TiltQueue.pop, h, TiltQueue.pushOwed]

theorem TiltQueue.takeMarkers_of_data (q : TiltQueue) (ok : Nat → Bool) (now n : Nat)
    (h : ∀ x ∈ q.entries.head?, x.marker = 0) : q.takeMarkers ok now n = (q, []) := by
  cases n with
  | zero => rfl
  | succ n =>
    unfold TiltQueue.takeMarkers
    split
    next => rfl
    next e es hes =>
      have hdata : e.marker = 0 := h e (by simp [hes])
      exact if_neg fun hmark => hmark.1 hdata

/-! ### All queues -/

/-- The entries of the fabric that queues hold. -/
def heldSum (qs : List TiltQueue) : Nat := (qs.map TiltQueue.held).sum

theorem heldSum_cons (q : TiltQueue) (qs : List TiltQueue) : heldSum (q :: qs) = q.held + heldSum qs := List.sum_cons

theorem heldSum_map_le {f : TiltQueue → TiltQueue} (hf : ∀ q, (f q).held ≤ q.held) (qs : List TiltQueue) :
    heldSum (qs.map f) ≤ heldSum qs := by
  unfold heldSum
  rw [List.map_map]
  exact List.sum_le_sum fun q _ => hf q

theorem foldl_held (qs : List TiltQueue) : qs.foldl (fun a q => a + q.held) 0 = heldSum qs := by
  rw [heldSum, List.sum_eq_foldl, List.foldl_map]

/-- Credits granted after a change come from what no queue holds. -/
theorem heldSum_regrant_le (free : Nat) (qs : List TiltQueue) : heldSum (regrant free qs) ≤ heldSum qs + free := by
  induction qs generalizing free with
  | nil => simp [regrant, heldSum]
  | cons q qs ih =>
    unfold regrant
    split
    next hless =>
      have hrest := ih (free + q.held - max (q.granted + min (q.credits - q.granted) (free + (q.held - q.granted))) q.entries.length)
      rw [heldSum_cons, heldSum_cons]
      simp only [TiltQueue.held] at hrest ⊢
      omega
    next =>
      have hrest := ih free
      rw [heldSum_cons, heldSum_cons]
      omega

theorem regrant_granted_le {free : Nat} {qs : List TiltQueue} (h : ∀ q ∈ qs, q.granted ≤ q.credits) :
    ∀ q ∈ regrant free qs, q.granted ≤ q.credits := by
  induction qs generalizing free with
  | nil => simp [regrant]
  | cons q qs ih =>
    obtain ⟨hq, hqs⟩ := List.forall_mem_cons.mp h
    unfold regrant
    split
    next hless => exact List.forall_mem_cons.mpr ⟨by dsimp only; omega, ih hqs⟩
    next => exact List.forall_mem_cons.mpr ⟨hq, ih hqs⟩

theorem fabricFits_settleCredits {qs : List TiltQueue} (h : fabricFits qs) : fabricFits (settleCredits qs) := by
  have hsum : heldSum qs ≤ tilthEntries := h
  have hle := heldSum_regrant_le (tilthEntries - heldSum qs) qs
  unfold fabricFits settleCredits
  rw [foldl_held]
  exact Nat.le_trans hle (by omega)

theorem fabricFits_map {f : TiltQueue → TiltQueue} (hf : ∀ q, (f q).held ≤ q.held) {qs : List TiltQueue} (h : fabricFits qs) :
    fabricFits (qs.map f) :=
  Nat.le_trans (heldSum_map_le hf qs) h

theorem fabricFits_settleQueues (now : Nat) {qs : List TiltQueue} (h : fabricFits qs) : fabricFits (settleQueues now qs) :=
  fabricFits_settleCredits (fabricFits_map (fun q => q.held_pushOwed_le now _) (fabricFits_settleCredits h))

theorem fabricFits_setCredits (k c prio : Nat) {qs : List TiltQueue} (h : fabricFits qs) : fabricFits (setCredits k c prio qs) := by
  refine fabricFits_settleCredits (fabricFits_map (fun q => ?_) h)
  split
  · exact q.held_recredit_le c prio
  · exact Nat.le_refl _

theorem setCredits_granted_le (k c prio : Nat) {qs : List TiltQueue} (h : ∀ q ∈ qs, q.granted ≤ q.credits) :
    ∀ q ∈ setCredits k c prio qs, q.granted ≤ q.credits := by
  refine regrant_granted_le fun q hq => ?_
  obtain ⟨p, hp, rfl⟩ := List.mem_map.mp hq
  split
  · exact Nat.min_le_right _ _
  · exact h p hp

/-! ### Placing, granting and settling -/

theorem State.takeFront_held_le (s : State) (q : TiltQueue) : (s.takeFront q).1.held ≤ q.held := by
  unfold State.takeFront
  split
  · exact Nat.le_refl _
  · exact TiltQueue.held_takeMarkers_le _ _ _ q

theorem State.fabricFits_settleMarkers {s : State} (h : fabricFits s.tlt.queues) : fabricFits s.settleMarkers.tlt.queues := by
  rw [State.settleMarkers_tlt]
  exact fabricFits_settleQueues s.now (fabricFits_map s.takeFront_held_le h)

theorem fabricFits_mapQueue {f : TiltQueue → TiltQueue} (hf : ∀ q, (f q).held ≤ q.held) (k : Nat) {qs : List TiltQueue}
    (h : fabricFits qs) : fabricFits (qs.map (fun q => if q.num = k then f q else q)) := by
  refine fabricFits_map (fun q => ?_) h
  split
  · exact hf q
  · exact Nat.le_refl _

/-- Settles O10: an operation on a queue makes it hold no more, and `regrant` gives out only what is free. -/
theorem fabricNeverOverfilled : Obligations.FabricNeverOverfilled := by
  unfold Obligations.FabricNeverOverfilled
  refine ⟨?place, ?grant, fun k c prio qs h => fabricFits_setCredits k c prio h,
    fun k c prio qs h => setCredits_granted_le k c prio h⟩
  case place =>
    intro s w t k data h hexec
    obtain rfl := Host.Outcome.next.inj hexec
    exact fabricFits_mapQueue (fun q => Nat.le_of_eq (q.held_place data _)) k h
  case grant =>
    intro s w t u p h hexec
    obtain rfl : (s.tick t).tilthGrant u p = w := Host.Outcome.next.inj hexec
    rcases (s.tick t).tilthGrant_cases u p with ⟨-, hw⟩ | ⟨k, l, -, hw⟩
    · rw [hw]
      exact h
    · rw [hw]
      exact State.fabricFits_settleMarkers (fabricFits_mapQueue (fun q => q.held_pop_le _) k h)

/-- With data at the front of every data queue no marker is taken. -/
theorem State.settleMarkers_of_data {s : State}
    (h : ∀ q ∈ s.tlt.queues, q.markerQueue = false → ∀ x ∈ q.entries.head?, x.marker = 0) :
    s.settleMarkers = { s with tlt := { s.tlt with queues := settleQueues s.now s.tlt.queues } } := by
  have hnone : s.tlt.queues.map s.takeFront = s.tlt.queues.map (fun q => (q, [])) := by
    refine List.map_congr_left fun q hq => ?_
    unfold State.takeFront
    split
    next => rfl
    next hdata => exact q.takeMarkers_of_data _ _ _ (h q hq (Bool.eq_false_iff.mpr hdata))
  unfold State.takeFront at hnone
  unfold State.settleMarkers
  dsimp only
  rw [hnone, List.map_map, List.foldl_map]
  simp [Function.comp_def]

/-- What placing an entry does to a queue, with the conditions as propositions. -/
theorem TiltQueue.place_eq (q : TiltQueue) (data : List Nat) (now : Nat) : q.place data now =
    if q.owed = [] ∧ q.entries.length < q.granted then
      { q with entries := q.entries ++ [⟨0, data, now⟩], blocked := false,
               frontSince := if q.entries = [] then now else q.frontSince }
    else { q with blocked := true } := by
  simp only [TiltQueue.place, TiltQueue.push, List.isEmpty_iff]

/-- Settles O8: placing by the queue, a grant by its two cases, settling by what it may change. -/
theorem tilthPlaceAndGrant : Obligations.TilthPlaceAndGrant := by
  unfold Obligations.TilthPlaceAndGrant
  refine ⟨?place, ?grant, ?idle, fun s h => State.settleMarkers_of_data h, ?settle, fun q now h => q.pop_entries now h⟩
  case place =>
    intro s t k data
    simp only [exec, execTilthPlaceEntry, State.onQueue, TiltQueue.place_eq]
    rfl
  case grant =>
    intro s t u p k l hrun hfree hchoice
    have hgrant := State.tilthGrant_some (s := s.tick t) hrun hfree hchoice
    refine ⟨((s.tick t).afterGrant u p k l).tlt.ports, _, congrArg Host.Outcome.next hgrant, rfl, ?_, ?_⟩
    · rw [State.tiltPort_afterGrant_same]
      simp [TiltPort.granted, assocSet, assocGet]
    · rw [State.tiltPort_afterGrant_same, TiltPort.granted_age]
      exact if_neg fun h => h.2 rfl
  case idle =>
    intro s t u p h
    exact congrArg Host.Outcome.next (State.tilthGrant_idle (s := s.tick t) h)
  case settle =>
    intro s
    obtain ⟨e, c, h⟩ := s.settleMarkers_boundaryOnly
    refine ⟨s.settledQueues, e, ?_⟩
    rw [h]

end Sys2Proof.Machine
end

section
/-!
SUPPORT. Markers at units, releases before the first epoch, die-edge FIFO faults and pace windows (R22, R23, R25, R94, R588).
-/

namespace Sys2Proof.Machine

/-! ### Markers taken and units released -/

theorem State.consume_stopped {s : State} (u : Nat) (h : s.cmt.stopped = true) : s.consume u = s := by
  unfold State.consume
  exact if_pos h

theorem State.consume_marker {s : State} {u : Nat} {q : TiltQueue} {x : TiltEntry} {es : List TiltEntry}
    (hrun : s.cmt.stopped = false) (hq : s.tlt.queues.find? (fun q => q.markerQueue && q.consUnit == u) = some q)
    (hes : q.entries = x :: es) (hx : x.marker ≠ 0) (hahead : s.behind u x.marker = false) :
    s.consume u = ({ s with tlt := { s.tlt with
      queues := settleQueues s.now (s.tlt.queues.map (fun p => if p.num = q.num then p.pop s.now else p)) } } :
        State).markerTaken u x.marker [q.num] := by
  unfold State.consume
  simp only [hrun, Bool.false_eq_true, if_false, hq, hes, hx, hahead, or_self]
  rfl

theorem exec_epochMarkerConsumed (s : State) (t u : Nat) (hon : s.fieldOn = true) :
    exec (.epochMarkerConsumed t u) s = .next ((s.tick t).consume u) := by
  simp only [exec, execEpochMarkerConsumed, s.whenOn_eq t _ hon]

theorem exec_epochMarkerConsumed_stopped (s : State) (t u : Nat) (h : s.cmt.stopped = true) :
    exec (.epochMarkerConsumed t u) s = .next (s.tick t) := by
  cases hon : s.fieldOn with
  | true => exact (exec_epochMarkerConsumed s t u hon).trans (congrArg Host.Outcome.next (State.consume_stopped (s := s.tick t) u h))
  | false => simp only [exec, execEpochMarkerConsumed, s.whenOn_off t _ hon]

theorem State.writesSettled_of_first {s : State} {u : Nat} (hfirst : s.cmt.last = 0) (hin : unitOff s u = false)
    (hrun : s.cmt.stopped = false) (hon : s.fieldOn = true ∨ u = 15) : s.writesSettled u = (s.releaseUnit u).rejoin u := by
  unfold State.writesSettled
  refine if_neg ?_
  rintro (h | h | h | ⟨hoff, hu⟩)
  · exact h hfirst
  · exact absurd (hin.symm.trans h) Bool.false_ne_true
  · exact absurd (hrun.symm.trans h) Bool.false_ne_true
  · exact hon.elim (fun hon => absurd (hoff.symm.trans hon) Bool.false_ne_true) hu

/-! ### Pace windows -/

/-- The unit watchdog keeps only counts above 0 (R588; log entry 14). -/
theorem State.watchCounts_pos {s : State} {counts : List (Nat × Nat)} {k n : Nat} (h : (k, n) ∈ s.watchCounts counts) : 0 < n := by
  unfold State.watchCounts at h
  obtain ⟨q, -, hq⟩ := List.mem_filterMap.mp h
  dsimp only at hq
  obtain ⟨hne, hpair⟩ := Option.ite_none_left_eq_some.mp hq
  obtain rfl := congrArg Prod.snd (Option.some.inj hpair)
  exact Nat.pos_of_ne_zero hne

/-- Settles O11: each clause is what its command's operation does to the state at the command's time. -/
theorem markersSettleAndFifoFaults : Obligations.MarkersSettleAndFifoFaults := by
  unfold Obligations.MarkersSettleAndFifoFaults
  refine ⟨?marker, fun s t u h => exec_epochMarkerConsumed_stopped s t u h, ?settled, ?fifo, ?pace,
    fun s counts u i n h => State.watchCounts_pos h⟩
  case marker =>
    intro s t u q x es hon hrun hq hes hx hahead
    rw [exec_epochMarkerConsumed s t u hon]
    exact congrArg Host.Outcome.next (State.consume_marker (s := s.tick t) hrun hq hes hx hahead)
  case settled =>
    intro s t u hfirst hin hrun hon
    exact congrArg Host.Outcome.next (State.writesSettled_of_first (s := s.tick t) hfirst hin hrun hon)
  case fifo =>
    intro s t u i hon
    simp only [exec, execDieEdgeFifoFault, s.whenOn_eq t _ hon]
    rfl
  case pace =>
    intro s t counts
    rfl

end Sys2Proof.Machine
end

section
/-!
SUPPORT. BAR2 and what an access does at the memory controller (R16, R400, R403, R405, R426, R552).
-/

namespace Sys2Proof.Machine

/-! ### Addresses, blocks and regions -/

theorem mem_upFrom {a n x : Nat} : x ∈ upFrom a n ↔ a ≤ x ∧ x < a + n := by
  induction n generalizing a with
  | zero => simp [upFrom]
  | succ n ih => rw [upFrom, List.mem_cons, ih]; omega

theorem State.anyPoison_eq_false {s : State} {b k : Nat} :
    s.anyPoison b k = false ↔ ∀ x, b ≤ x → x < b + k → s.blockPoison x = false := by
  induction k generalizing b with
  | zero => simp [State.anyPoison]; omega
  | succ k ih =>
    rw [State.anyPoison, Bool.or_eq_false_iff, ih]
    constructor
    · rintro ⟨hb, hrest⟩ x hx hlt
      rcases Nat.eq_or_lt_of_le hx with rfl | hgt
      · exact hb
      · exact hrest x hgt (by omega)
    · intro h
      exact ⟨h b (Nat.le_refl b) (by omega), fun x hx hlt => h x (by omega) (by omega)⟩

@[simp] theorem State.tick_anyPoison (s : State) (t b k : Nat) : (s.tick t).anyPoison b k = s.anyPoison b k := by
  induction k generalizing b with
  | zero => rfl
  | succ k ih => rw [State.anyPoison, State.anyPoison, ih]; rfl

/-- Every byte of a span that meets no poisoned block lies in a block that is not poisoned. -/
theorem State.blockPoison_of_span {s : State} {o n a : Nat} (h : s.anyPoison (o / 64) (blockCount o n) = false)
    (ha : a ∈ upFrom o n) : s.blockPoison (a / 64) = false := by
  obtain ⟨hle, hlt⟩ := mem_upFrom.mp ha
  refine State.anyPoison_eq_false.mp h _ (Nat.div_le_div_right hle) ?_
  unfold blockCount
  split <;> omega

/-- A span clear of the PROTECTED regions is clear of them byte by byte. -/
theorem State.protectedHit_byte {s : State} {o n a : Nat} (h : s.protectedHit o n = false) (ha : a ∈ upFrom o n) :
    s.protectedHit a 1 = false := by
  obtain ⟨hle, hlt⟩ := mem_upFrom.mp ha
  unfold State.protectedHit at h ⊢
  split
  next => rfl
  next im hrun =>
    rw [hrun] at h
    rw [Bool.eq_false_iff] at h ⊢
    intro hit
    refine h ?_
    obtain ⟨r, hr, hboth⟩ := List.any_eq_true.mp hit
    refine List.any_eq_true.mpr ⟨r, hr, ?_⟩
    simp only [overlaps, Bool.and_eq_true, decide_eq_true_eq] at hboth ⊢
    obtain ⟨hflag, ⟨⟨-, hsize⟩, hlow⟩, hhigh⟩ := hboth
    exact ⟨hflag, by omega⟩

/-! ### At the controller -/

theorem upFrom_oneBlock {a m b : Nat} (hm : 0 < m) (hfirst : a / 64 = b) (hlast : (a + m - 1) / 64 = b) :
    upFrom (a / 64) (blockCount a m) = [b] := by
  have hcount : blockCount a m = 1 := by
    unfold blockCount
    rw [if_neg (by omega), hfirst, hlast, Nat.sub_self]
  rw [hcount, hfirst]
  rfl

section
variable (s : State) (p : Nat) {a m b : Nat} (hm : 0 < m) (hfirst : a / 64 = b) (hlast : (a + m - 1) / 64 = b)
include hm hfirst hlast

theorem State.noteRead_clean (hin : b < memTop / 64) (hclean : s.blockPoison b = false) :
    s.noteRead p a m = s.count Reg.MEM_SNAP_READ 64 := by
  have hfar : ¬ memTop / 64 ≤ b := by omega
  simp [State.noteRead, upFrom_oneBlock hm hfirst hlast, hin, hfar, hclean]

theorem State.noteRead_poisoned (hin : b < memTop / 64) (hbad : s.blockPoison b = true) :
    s.noteRead p a m = (s.count Reg.MEM_SNAP_READ 64).eccRead p b := by
  have hfar : ¬ memTop / 64 ≤ b := by omega
  simp [State.noteRead, upFrom_oneBlock hm hfirst hlast, hin, hfar, hbad]

theorem State.noteRead_beyond (hout : memTop / 64 ≤ b) : s.noteRead p a m =
    ((s.count Reg.MEM_SNAP_READ 0).eventOnce 0x1012 p 0 b (p * 2 ^ 24)).count Reg.MEM_SNAP_ECC_UNCORR 1 := by
  have hnear : ¬ b < memTop / 64 := by omega
  simp [State.noteRead, upFrom_oneBlock hm hfirst hlast, hout, hnear, State.rangeEvent]

end

theorem State.noteWrite_inside (s : State) (p : Nat) {a m : Nat} (hin : a + m ≤ memTop) : s.noteWrite p a m =
    (s.partPoison a m).foldl (fun s b => s.event 0x1011 0 b (memArg1 p b)) (s.count Reg.MEM_SNAP_WRITE m) := by
  have hmin : min m (memTop - a) = m := Nat.min_eq_left (by omega)
  unfold State.noteWrite
  rw [if_neg (by omega), hmin]

theorem State.noteWrite_beyond (s : State) (p : Nat) {a m : Nat} (hclean : s.partPoison a m = []) (hout : memTop ≤ a) (hm : 0 < m) :
    s.noteWrite p a m = (s.count Reg.MEM_SNAP_WRITE 0).eventOnce 0x1012 p 0 (a / 64) (p * 2 ^ 24) := by
  have hmin : min m (memTop - a) = 0 := by omega
  have hmax : max a memTop = a := Nat.max_eq_left hout
  unfold State.noteWrite
  rw [if_pos (by omega), hmin, hmax, hclean]
  rfl

/-- Bytes beyond usable memory are dropped. -/
theorem memWrite_beyond (m : List Host.Cell) {a : Nat} (bs : List Nat) (h : memTop ≤ a) : memWrite m a bs = m := by
  induction bs generalizing a with
  | nil => rfl
  | cons b bs ih => rw [memWrite, if_neg (by omega), ih (by omega)]

/-! ### BAR2 -/

/-- A byte as a BAR2 read answers it: all ones beyond usable memory, 0 where protected. -/
def State.windowByte (s : State) (a : Nat) : Nat := if memTop ≤ a then 0xFF else if s.protectedHit a 1 then 0 else s.byte a

/-- The answer of a BAR2 read. -/
def State.bar2Answer (s : State) (bs : List Nat) (ep : Bool) : State := { s with hst := { s.hst with readData := bs, readEp := ep } }

section
variable {s : State} {o n : Nat} (hd3 : s.hst.d3 = false)
include hd3

theorem State.bar2Read_off (hoff : s.bar2On = false) : s.bar2Read o n = s.bar2Answer (List.replicate n 0xFF) false := by
  simp [State.bar2Read, hd3, hoff, State.bar2Answer]

theorem State.bar2Write_off (bs : List Nat) (hoff : s.bar2On = false) : s.bar2Write o bs = s := by
  simp [State.bar2Write, hd3, hoff]

theorem State.bar2Write_eq_store {bs : List Nat} (hon : s.bar2On = true) (hbs : bs ≠ []) (hopen : ¬ (o < memTop ∧ s.protectedHit o bs.length = true)) :
    s.bar2Write o bs = s.store 0 o bs := by
  unfold State.bar2Write
  rw [if_neg (by simp [hd3, hon, hbs]), if_neg hopen]

variable (hon : s.bar2On = true) (hopen : s.protectedHit o n = false)
include hon hopen

theorem State.bar2Read_beyond (hout : memTop ≤ o) : s.bar2Read o n =
    ((s.count Reg.HST_SNAP_BAR2_READS 1).noteRead 0 o n).bar2Answer (List.replicate n 0xFF) false := by
  unfold State.bar2Read
  simp only [hd3, hon, hopen, Bool.not_true, Bool.false_eq_true, if_false, if_true, if_pos hout]
  rfl

theorem State.bar2Read_poisoned (hin : o < memTop) (hbad : s.anyPoison (o / 64) (blockCount o n) = true) : s.bar2Read o n =
    (((s.count Reg.HST_SNAP_BAR2_READS 1).noteRead 0 o n).eventOnce 0x0240 0 0 0 0).bar2Answer
      (List.replicate n (if s.flag F.HST_CTRL_EP_POISON then 0 else 0xFF)) (s.flag F.HST_CTRL_EP_POISON) := by
  unfold State.bar2Read
  simp only [hd3, hon, hopen, hbad, Bool.not_true, Bool.false_eq_true, if_false, if_true, if_neg (Nat.not_le.mpr hin)]
  cases s.flag F.HST_CTRL_EP_POISON <;> rfl

theorem State.bar2Read_clean (hin : o < memTop) (hclean : s.anyPoison (o / 64) (blockCount o n) = false) : s.bar2Read o n =
    ((s.count Reg.HST_SNAP_BAR2_READS 1).noteRead 0 o n).bar2Answer
      ((upFrom o n).map (fun a => if memTop ≤ a then 0xFF else s.byte a)) false := by
  have hbytes : (upFrom o n).map s.windowByte = (upFrom o n).map (fun a => if memTop ≤ a then 0xFF else s.byte a) := by
    refine List.map_congr_left fun a ha => ?_
    simp only [State.windowByte, State.protectedHit_byte hopen ha, Bool.false_eq_true, if_false]
  rw [← hbytes]
  unfold State.bar2Read
  simp only [hd3, hon, hopen, hclean, Bool.not_true, Bool.false_eq_true, if_false, if_true, if_neg (Nat.not_le.mpr hin)]
  rfl

end

/-- Within usable memory and clear of poison the window answers the bytes themselves. -/
theorem State.read_clean {s : State} {o n : Nat} (hin : o + n ≤ memTop) (hclean : s.anyPoison (o / 64) (blockCount o n) = false) :
    (upFrom o n).map (fun a => if memTop ≤ a then 0xFF else s.byte a) = s.read o n := by
  refine List.map_congr_left fun a ha => ?_
  have hblock := State.blockPoison_of_span hclean ha
  have hlt := (mem_upFrom.mp ha).2
  rw [if_neg (by omega), if_pos ⟨by omega, hblock⟩]

theorem exec_bar2Read (s : State) (t o n : Nat) : exec (.bar2Read t o n) s = .next ((s.tick t).bar2Read o n) := rfl

theorem exec_bar2Write (s : State) (t o : Nat) (bs : List Nat) : exec (.bar2Write t o bs) s = .next ((s.tick t).bar2Write o bs) := rfl

/-- Settles O56: the clauses on reads and writes by the cases of BAR2, those on counts and events by the controller's. -/
theorem memoryWindow : Obligations.MemoryWindow := by
  unfold Obligations.MemoryWindow
  rintro s x t o n bs hd3 rfl
  rw [exec_bar2Read, exec_bar2Write]
  refine ⟨?off, ?beyond, ?inside, ?write, ?straddle, ?noteRead, ?noteWrite, ?partWrite, fun p a => rfl, ?dropped⟩
  case off =>
    intro hoff
    rw [State.bar2Read_off (s := s.tick t) hd3 hoff, State.bar2Write_off (s := s.tick t) hd3 bs hoff]
    exact ⟨rfl, rfl⟩
  case beyond =>
    rintro y hon hout hbs - hopen rfl
    rw [State.bar2Read_beyond (s := s.tick t) hd3 hon hopen hout,
      State.bar2Write_eq_store (s := s.tick t) hd3 hon hbs fun h => absurd h.1 (Nat.not_lt.mpr hout)]
    exact ⟨rfl, rfl⟩
  case inside =>
    rintro y hon hend hin hopen rfl
    constructor
    · intro hclean
      have hcleanx := (s.tick_anyPoison t _ _).trans hclean
      rw [State.bar2Read_clean (s := s.tick t) hd3 hon hopen hin hcleanx, State.read_clean hend hcleanx]
      rfl
    · rintro hbad z rfl
      rw [State.bar2Read_poisoned (s := s.tick t) hd3 hon hopen hin ((s.tick_anyPoison t _ _).trans hbad)]
      rfl
  case write =>
    intro hon hbs hopen
    rw [State.bar2Write_eq_store (s := s.tick t) hd3 hon hbs fun h => absurd (hopen.symm.trans h.2) Bool.false_ne_true]
  case straddle =>
    rintro y hon hin - hopen hclean rfl
    rw [State.bar2Read_clean (s := s.tick t) hd3 hon hopen hin ((s.tick_anyPoison t _ _).trans hclean)]
    rfl
  case noteRead =>
    intro p a m b hm hfirst hlast
    exact ⟨s.noteRead_clean p hm hfirst hlast, s.noteRead_poisoned p hm hfirst hlast, s.noteRead_beyond p hm hfirst hlast⟩
  case noteWrite =>
    intro p a m hclean
    refine ⟨fun hin => ?_, s.noteWrite_beyond p hclean⟩
    rw [s.noteWrite_inside p hin, hclean]
    rfl
  case partWrite =>
    intro p a m b hpart hin
    rw [s.noteWrite_inside p hin, hpart]
    rfl
  case dropped =>
    intro hout
    rw [State.write_mem]
    exact memWrite_beyond _ bs hout

end Sys2Proof.Machine
end

section
/-!
SUPPORT. Accesses that meet PROTECTED regions: BAR2 reads and writes and copies (R45, R552, R563).
-/

namespace Sys2Proof.Machine

/-- A span that holds a protected byte meets a PROTECTED region. -/
theorem State.protectedHit_of_byte {s : State} {o n a : Nat} (hle : o ≤ a) (hlt : a < o + n) (hhit : s.protectedHit a 1 = true) :
    s.protectedHit o n = true := by
  cases h : s.protectedHit o n with
  | true => rfl
  | false => exact absurd ((State.protectedHit_byte h (mem_upFrom.mpr ⟨hle, hlt⟩)).symm.trans hhit) Bool.false_ne_true

theorem upFrom_length (a n : Nat) : (upFrom a n).length = n := by
  induction n generalizing a with
  | zero => rfl
  | succ n ih => rw [upFrom, List.length_cons, ih]

/-! ### BAR2 -/

section
variable {s : State} {o n : Nat} (hd3 : s.hst.d3 = false) (hon : s.bar2On = true)
include hd3 hon

/-- A BAR2 read of protected bytes alone answers zeros; what it does not read is not noted at the controller. -/
theorem State.bar2Read_protected (hin : o + n ≤ memTop) (hn : 0 < n) (hall : ∀ a, o ≤ a → a < o + n → s.protectedHit a 1 = true) :
    s.bar2Read o n = ((s.count Reg.HST_SNAP_BAR2_READS 1).protectedEvent o).bar2Answer (List.replicate n 0) false := by
  have hspan : s.protectedHit o n = true := State.protectedHit_of_byte (Nat.le_refl o) (by omega) (hall o (Nat.le_refl o) (by omega))
  have hzeros : (upFrom o n).map s.windowByte = List.replicate n 0 := by
    refine List.eq_replicate_iff.mpr ⟨by rw [List.length_map, upFrom_length], fun b hb => ?_⟩
    obtain ⟨a, ha, rfl⟩ := List.mem_map.mp hb
    obtain ⟨hle, hlt⟩ := mem_upFrom.mp ha
    unfold State.windowByte
    rw [if_neg (by omega), if_pos (hall a hle hlt)]
  have hend : ¬ memTop < o + n := by omega
  have hstart : ¬ memTop ≤ o := by omega
  rw [← hzeros]
  unfold State.bar2Read
  simp only [hd3, hon, hspan, hend, hstart, Bool.not_true, Bool.false_eq_true, Bool.true_eq_false, if_false, if_true]
  rfl

/-- A BAR2 write that touches a protected byte is dropped. -/
theorem State.bar2Write_protected {bs : List Nat} {a : Nat} (hin : o + bs.length ≤ memTop) (hle : o ≤ a) (hlt : a < o + bs.length)
    (hhit : s.protectedHit a 1 = true) : s.bar2Write o bs = s.protectedEvent o := by
  have hbs : bs ≠ [] := by rintro rfl; simp at hlt; omega
  unfold State.bar2Write
  rw [if_neg (by simp [hd3, hon, hbs]), if_pos ⟨by omega, State.protectedHit_of_byte hle hlt hhit⟩, if_neg (by omega)]

end

/-! ### Copies -/

/-- The first failed check of a well-formed copy within usable memory that touches a protected byte (R563). -/
theorem State.copyCheck_protected {s : State} {b : List Nat} {c : CopyDesc} {i a : Nat} (ingest : Bool) (hformat : copyFormatOk b = true)
    (hc : c = copyOf b) (hin : ∀ i, i < c.rows → c.dev + i * c.devPitch + c.len ≤ memTop) (hi : i < c.rows)
    (hle : c.dev + i * c.devPitch ≤ a) (hlt : a < c.dev + i * c.devPitch + c.len) (hhit : s.protectedHit a 1 = true) :
    s.copyCheck b ingest = (0x0111, 0) := by
  subst hc
  have hrange : (copySpans (copyOf b)).any (fun q => decide (memTop < q.1 + q.2)) = false := by
    refine List.any_eq_false.mpr fun q hq => ?_
    obtain ⟨k, hk, rfl⟩ := List.mem_map.mp hq
    simpa using hin k (List.mem_range.mp hk)
  have hprot : (copySpans (copyOf b)).any (fun q => s.protectedHit q.1 q.2) = true :=
    List.any_eq_true.mpr ⟨_, List.mem_map.mpr ⟨i, List.mem_range.mpr hi, rfl⟩, State.protectedHit_of_byte hle hlt hhit⟩
  simp only [State.copyCheck, hformat, hrange, hprot, Bool.not_true, Bool.false_eq_true, if_false, if_true]

/-- A copy refused for a PROTECTED region is logged with its device address and ends with that code. -/
theorem State.copyStart_protected {s : State} {w ty : Nat} {d : Desc} (hd : s.nextDesc w ty = some d)
    (hcheck : s.copyCheck d.bytes (ty == 1) = (0x0111, 0)) : s.copyStart w ty =
      (s.protectedEvent (copyOf d.bytes).dev).endDesc w d.num 0x0111 (copyBody 0x0111 0 0 0) := by
  unfold State.copyStart
  simp [hd, hcheck]

/-- Settles O51: a span with a protected byte meets a region, so each access takes its PROTECTED branch. -/
theorem protectedRegionsAnswerZero : Obligations.ProtectedRegionsAnswerZero := by
  unfold Obligations.ProtectedRegionsAnswerZero
  refine ⟨?read, ?write, ?ingest⟩
  case read =>
    rintro s _ t o n rfl hd3 hon hin hn hall
    rw [exec_bar2Read, State.bar2Read_protected (s := s.tick t) hd3 hon hin hn hall]
    rfl
  case write =>
    rintro s _ t o bs rfl hd3 hon hin - ⟨a, hle, hlt, hhit⟩
    rw [exec_bar2Write, State.bar2Write_protected (s := s.tick t) hd3 hon hin hle hlt hhit]
    rfl
  case ingest =>
    rintro s _ t w d c rfl hon hd hformat hc hin ⟨i, a, hi, hle, hlt, hhit⟩
    have hcheck : (s.tick t).copyCheck d.bytes true = (0x0111, 0) :=
      State.copyCheck_protected true hformat hc hin hi hle hlt hhit
    simp only [exec, execIngest, hon, if_true]
    rw [State.copyStart_protected (s := s.tick t) hd hcheck, ← hc]
    rfl

end Sys2Proof.Machine
end

section
/-!
SUPPORT. A commit taken and checked: its capture, its overlay, the Board's answer and the end of its checks (R57, R70, R72, R252).
-/

namespace Sys2Proof.Machine

/-! ### Reads noted, and BUSY of a load -/

@[simp] theorem State.noteReads_cmt (s : State) (p : Nat) (l : List (Nat × Nat)) : (s.noteReads p l).cmt = s.cmt := by
  unfold State.noteReads
  induction joinSpans l generalizing s with
  | nil => rfl
  | cons q l ih => exact (ih _).trans (s.noteRead_cmt p q.1 q.2)

@[simp] theorem State.loadBusy_put (s : State) : (s.put F.SYS_IMG_STATUS_BUSY 1).loadBusy = true := by
  unfold State.loadBusy State.flag
  rw [State.get_put_same s _ _ (by decide) (by decide)]
  rfl

/-! ### Taking (R70, R96) -/

/-- The commit made of descriptor `d` of ring `w`, which captures at this instant. -/
def State.captured (s : State) (w : Nat) (d : Desc) : Commit :=
  { ring := w, slot := d.slot, num := d.num, bytes := d.bytes, capture := s.now, flags := fieldLE d.bytes 8 4,
    writes := captureOf s.now s.cmt.writes }

/-- The staged writes that a capture at this instant leaves in the shadow's list. -/
def State.uncaptured (s : State) : List (Nat × Nat × Nat) := s.cmt.writes.filter (fun q => decide (s.now ≤ q.2.1))

theorem State.takeCommit_next {s : State} {w : Nat} {d : Desc} (hmay : s.mayCommit = true) (hrecheck : s.cmt.recheck = [])
    (hnext : s.nextCommit = some (w, d)) : s.takeCommit =
      ({ s.startDesc w d.num with cmt := { s.cmt with
        checking := some (s.captured w d), writes := s.uncaptured, since := s.uncaptured.map (·.1) } } : State).cmtShow := by
  unfold State.takeCommit
  rw [if_neg (by simp [hmay]), hrecheck, hnext]
  rfl

theorem State.takeCommit_recheck {s : State} {c : Commit} {r : List Commit} (hmay : s.mayCommit = true) (hrecheck : s.cmt.recheck = c :: r) :
    s.takeCommit = ({ s with cmt := { s.cmt with checking := some c, recheck := r } } : State).cmtShow := by
  unfold State.takeCommit
  rw [if_neg (by simp [hmay]), hrecheck]

theorem exec_commit {s : State} (t : Nat) (hon : s.fieldOn = true) : exec (.commit t) s = .next (s.tick t).takeCommit :=
  congrArg Host.Outcome.next (s.whenOn_eq t _ hon)

/-! ### The overlay (R57) -/

/-- The overlay that a commit names, as it lies in memory. -/
def State.overlayBytes (s : State) (c : Commit) : List Nat := s.read (fieldLE c.bytes 0x18 8) (min (fieldLE c.bytes 0x20 4) stagingSize)

/-- A commit with its overlay copied and checked. -/
def State.withOverlay (s : State) (c : Commit) (sigOk tagOk : Bool) (plain : List Nat) : Commit :=
  let payload := slice plain 0 (shoPayloadLen (s.overlayBytes c))
  { c with overlay := s.overlayBytes c, plain := payload,
           overlayCode := some (s.overlayCheck (s.overlayBytes c) (fieldLE c.bytes 0x20 4) sigOk tagOk payload) }

theorem State.overlayCopy_starts {s : State} {c : Commit} (sigOk tagOk : Bool) (plain : List Nat) (hc : s.cmt.checking = some c)
    (hover : c.hasOverlay = true) (hcode : c.overlayCode = none) (hfree : s.loadBusy = false) (hearly : s.commitEarly c = 0) :
    ∃ u : State, s.overlayCopy sigOk tagOk plain = u.put F.SYS_IMG_STATUS_BUSY 1 ∧
      u.cmt.checking = some (s.withOverlay c sigOk tagOk plain) ∧ u.sho.overlay = true := by
  unfold State.overlayCopy
  simp only [hc, hover, hcode, hfree, hearly, Option.isSome_none, Bool.true_eq_false, Bool.false_eq_true, ne_eq, not_true_eq_false, or_self, if_false]
  exact ⟨_, rfl, rfl, rfl⟩

theorem exec_overlayCopyStart {s : State} (t : Nat) (sigOk tagOk : Bool) (plain : List Nat) (hon : s.fieldOn = true) :
    exec (.overlayCopyStart t sigOk tagOk plain) s = .next ((s.tick t).overlayCopy sigOk tagOk plain) :=
  congrArg Host.Outcome.next (s.whenOn_eq t _ hon)

/-! ### The Board's answer (R252) -/

theorem State.layerCheck_answers {s : State} {c : Commit} (hc : s.cmt.checking = some c) (hswitch : s.sho.switching = false)
    (hneeds : c.needsBoard = true) (hboard : c.board = none) (hbefore : s.beforeBoard c = some (0, none))
    (hrun : s.get F.BRD_STATUS_STATE ≠ 0) : s.layerCheck =
      { (if c.hasLayers then s.noteReads 10 (s.layersReads 0 [] (s.listFor c)) else s) with
        cmt := { s.cmt with checking := some { c with board := some (s.boardCheck c) } } } := by
  have hcmt : (if c.hasLayers then s.noteReads 10 (s.layersReads 0 [] (s.listFor c)) else s).cmt = s.cmt := by
    split
    · exact s.noteReads_cmt _ _
    · rfl
  unfold State.layerCheck
  simp only [hc]
  rw [if_pos ⟨hswitch, hneeds, by simp [hboard], hbefore, hrun⟩, hcmt]

theorem exec_brdLayerCheck {s : State} (t : Nat) (hon : s.fieldOn = true) : exec (.brdLayerCheck t) s = .next (s.tick t).layerCheck :=
  congrArg Host.Outcome.next (s.whenOn_eq t _ hon)

/-! ### The end of the checks (R72, R73) -/

theorem State.checksComplete_eq {s : State} {c : Commit} {k l : Nat} {d : Option Nat} (hc : s.cmt.checking = some c)
    (hswitch : s.sho.switching = false) (hrun : s.cmt.stopped = false) (hcode : s.commitCode c = some (k, l, d)) : s.checksComplete =
      if k = 0 then (s.noteReads 1 (c.reads 0)).commitAccept c else (s.noteReads 1 (c.reads k)).commitRefuse c k l d := by
  unfold State.checksComplete
  simp only [hc, hswitch, hrun, hcode, Bool.false_eq_true, or_self, if_false]
  cases k with
  | zero => rfl
  | succ k => rfl

theorem exec_commitChecksComplete {s : State} (t : Nat) (hon : s.fieldOn = true) :
    exec (.commitChecksComplete t) s = .next (s.tick t).checksComplete :=
  congrArg Host.Outcome.next (s.whenOn_eq t _ hon)

/-- Settles O15: each command is one step of the commit unit or the Board at the command's time. -/
theorem commitIsTakenAndChecked : Obligations.CommitIsTakenAndChecked := by
  unfold Obligations.CommitIsTakenAndChecked
  refine ⟨?take, ?recheck, ?overlay, ?board, ?complete⟩
  case take =>
    intro s t w d hon hmay hrecheck hnext
    rw [exec_commit t hon, State.takeCommit_next (s := s.tick t) hmay hrecheck hnext]
    exact ⟨_, rfl, rfl, rfl, rfl, rfl⟩
  case recheck =>
    intro s t c r hon hmay hrecheck
    rw [exec_commit t hon, State.takeCommit_recheck (s := s.tick t) hmay hrecheck]
    rfl
  case overlay =>
    intro s t sigOk tagOk plain c hon hc hover hcode hfree hearly
    obtain ⟨u, hu, hchecking, hoverlay⟩ := State.overlayCopy_starts (s := s.tick t) sigOk tagOk plain hc hover hcode hfree hearly
    rw [exec_overlayCopyStart t sigOk tagOk plain hon, hu]
    exact ⟨_, rfl, hchecking, u.loadBusy_put, hoverlay⟩
  case board =>
    intro s t c hon hc hneeds hboard hswitch hbefore hrun
    rw [exec_brdLayerCheck t hon, State.layerCheck_answers (s := s.tick t) hc hswitch hneeds hboard hbefore hrun]
    rfl
  case complete =>
    intro s t k l c d hon hc hswitch hrun hcode
    rw [exec_commitChecksComplete t hon, State.checksComplete_eq (s := s.tick t) hc hswitch hrun hcode]

end Sys2Proof.Machine
end

section
/-!
SUPPORT. The keeper's power-up, the domain sequencer and the core voltage's governor (R499, R500, R503, R504, R531, R586, R610).
-/

namespace Sys2Proof.Machine

/-! ### The sequencer (R504) -/

theorem State.vcoreGood_begins {s : State} (hasked : s.vcoreAsked = true) (hcut : s.pwr.pwrCut = false) (hidle : s.pwr.running = false)
    (hoff : s.fieldOn = false) : s.vcoreGood =
      { s with pwr := { s.pwr with vcorePg := true, running := true, next := 0, lastStart := s.now, waitGood := none } } := by
  unfold State.vcoreGood
  exact if_pos ⟨hasked, hcut, hidle, hoff⟩

theorem State.vcoreGood_cut {s : State} (hcut : s.pwr.pwrCut = true) : s.vcoreGood = { s with pwr := { s.pwr with vcorePg := true } } := by
  unfold State.vcoreGood
  exact if_neg fun h => Bool.false_ne_true (h.2.1.symm.trans hcut)

/-- The next domain, due after its gap, is started or passed over. -/
theorem State.domainStart_due {s : State} {k : Nat} (hnext : k = s.pwr.next) (hk : k < 24) (hrun : s.pwr.running = true)
    (hfree : s.pwr.waitGood = none) (hgap : k = 0 ∨ s.pwr.lastStart + (s.domainPlan k).1 * tickUs ≤ s.now) : s.domainStart k =
      if (s.domainPlan k).2 then { s with pwr := { s.pwr with next := k + 1, lastStart := s.now } }
      else { s.put F.THM_PD_ON (s.get F.THM_PD_ON + 2 ^ k) with
        pwr := { s.pwr with next := k + 1, lastStart := s.now, waitGood := some (k, s.now) } } := by
  have hdue : ¬ (s.pwr.running = false ∨ k ≠ s.pwr.next ∨ 24 ≤ k ∨ s.pwr.waitGood.isSome = true ∨
      (k ≠ 0 ∧ s.now < s.pwr.lastStart + (s.domainPlan k).1 * tickUs)) := by
    rintro (h | h | h | h | ⟨hk0, hearly⟩)
    · exact Bool.false_ne_true (h.symm.trans hrun)
    · exact h hnext
    · omega
    · simp [hfree] at h
    · exact hgap.elim hk0 fun hle => absurd hearly (Nat.not_lt.mpr hle)
  unfold State.domainStart
  exact if_neg hdue

theorem State.domainGood_eq {s : State} {k a : Nat} (hwait : s.pwr.waitGood = some (k, a)) : s.domainGood k =
    if k = 23 then ({ s with pwr := { s.pwr with waitGood := none } } : State).fieldUp
    else { s with pwr := { s.pwr with waitGood := none } } := by
  unfold State.domainGood
  rw [hwait]
  exact if_neg fun h => h rfl

theorem State.domainTimeout_eq {s : State} {k a : Nat} (hwait : s.pwr.waitGood = some (k, a)) (hlate : a + tickMs ≤ s.now) :
    s.domainTimeout k = { (s.eventK 0x1430 0 k 0).fieldOff with
      pwr := { (s.eventK 0x1430 0 k 0).fieldOff.pwr with bootAt := none, early := false } } := by
  unfold State.domainTimeout
  rw [hwait]
  exact if_neg fun h => h.elim (fun hne => hne rfl) (Nat.not_lt.mpr hlate)

theorem State.avsTimeout_late {s : State} (hsettling : s.thm.settling = true) (hlate : s.thm.askedAt + tickMs ≤ s.now) :
    s.avsTimeout = s.avsFault := by
  unfold State.avsTimeout
  exact if_pos ⟨hsettling, hlate⟩

/-! ### The governor (R499, R500) -/

/-- The governor's threshold of slack for a setting in 64ths of the band period. -/
def State.slackBound (s : State) (f : Fld) : Rat := s.tau * (s.get f : Rat) / 64

/-- The least slack of the last 1 ms lies above SLACK_HI. -/
def State.slackHigh (s : State) : Bool :=
  match s.slackNow.1 with
  | some q => decide (s.slackBound F.THM_GOV_SLACK_HI < (q : Rat))
  | none => false

/-- The least slack of the last 1 ms lies below SLACK_LO. -/
def State.slackLow (s : State) : Bool :=
  match s.slackNow.1 with
  | some q => decide ((q : Rat) < s.slackBound F.THM_GOV_SLACK_LO)
  | none => false

/-- The state with power and voltage as a run of the governor read them, and the calm runs counted. -/
def State.governed (s : State) (core mv : Nat) : State :=
  let y := ((s.countEnergy).put F.THM_POWER_CORE_DW core).put F.THM_VCORE_MEAS_MV mv
  { y with thm := { y.thm with calm := if s.slackHigh then y.thm.calm + 1 else 0 } }

/-- One step down, not below the least voltage of the structure. -/
def State.lowerVolts (s : State) (im : Image) : Nat := max (s.thm.volts - s.get F.THM_GOV_STEP_MV) im.power.vMin

/-- The governor's move on what it read, with the voltage settled: by power, then by slack. -/
def State.governorMove (s : State) (im : Image) (core mv : Nat) : State :=
  let z := s.governed core mv
  let v := s.thm.volts
  let up := v + s.get F.THM_GOV_STEP_MV
  let other := s.get F.THM_GOV2_OTHER_DW
  if im.power.budget ≤ core + other ∨ z.flag F.THM_STATUS_ORDERLY = true then z.askVolts (s.lowerVolts im)
  else if (s.slackLow || s.slackNow.2) ∧ z.throttled = false then
    if im.power.vMax < up then (z.eventOnce 0x1423 0 0 0 v).count Reg.THM_SNAP_BUDGET_HELD 1
    else if im.power.budget * v * v ≤ core * up * up + other * v * v then
      (z.eventOnce 0x1422 0 0 0 v).count Reg.THM_SNAP_BUDGET_HELD 1
    else z.askVolts up
  else if 16 ≤ z.thm.calm then z.askVolts (s.lowerVolts im)
  else z

section
variable {s : State} {im : Image} {core vout : Nat} (hen : s.flag F.THM_GOV_GOV_EN = true) (himage : s.imageOn = true)
  (hrun : s.sho.run = some im)
include hen himage hrun

/-- A run of the governor reads power and voltage, stops on a fault, and moves where no request is under way. -/
theorem State.governorRun_eq : s.governorRun core vout =
    let z := s.governed core (vout % 65536)
    if voutFault vout = true ∧ z.thm.stopped = false then z.avsFault
    else if z.thm.settling = true ∨ z.thm.stopped = true ∨ z.cmt.stopped = true then z
    else s.governorMove im core (vout % 65536) := by
  have hacts : ¬ (s.flag F.THM_GOV_GOV_EN = false ∨ s.imageOn = false) := by simp [hen, himage]
  unfold State.governorRun
  rw [if_neg hacts, hrun]
  rfl

theorem State.governorRun_fault (hvout : vout < 65536) (hgoing : (s.governed core vout).thm.stopped = false) :
    s.governorRun core (vout + 65536) = (s.governed core vout).avsFault := by
  have hmv : (vout + 65536) % 65536 = vout := by omega
  have hfault : voutFault (vout + 65536) = true := decide_eq_true (by omega)
  rw [State.governorRun_eq hen himage hrun, hmv]
  exact if_pos ⟨hfault, hgoing⟩

theorem State.governorRun_moves (hvout : vout < 65536) (hsettled : (s.governed core vout).thm.settling = false)
    (hgoing : (s.governed core vout).thm.stopped = false) (hthawed : (s.governed core vout).cmt.stopped = false) :
    s.governorRun core vout = s.governorMove im core vout := by
  have hfault : voutFault vout = false := decide_eq_false (by omega)
  rw [State.governorRun_eq hen himage hrun, Nat.mod_eq_of_lt hvout]
  dsimp only
  rw [if_neg (by simp [hfault]), if_neg (by simp [hsettled, hgoing, hthawed])]

end

section
variable {s : State} {im : Image} {core mv : Nat}

theorem State.governorMove_budget (hpower : im.power.budget ≤ core + s.get F.THM_GOV2_OTHER_DW) :
    s.governorMove im core mv = (s.governed core mv).askVolts (s.lowerVolts im) := by
  unfold State.governorMove
  exact if_pos (.inl hpower)

variable (hpower : core + s.get F.THM_GOV2_OTHER_DW < im.power.budget) (hcool : (s.governed core mv).flag F.THM_STATUS_ORDERLY = false)
include hpower hcool

theorem State.governorMove_raises (hfast : (s.governed core mv).throttled = false) (hlow : s.slackLow = true)
    (hmax : s.thm.volts + s.get F.THM_GOV_STEP_MV ≤ im.power.vMax)
    (hbudget : core * (s.thm.volts + s.get F.THM_GOV_STEP_MV) * (s.thm.volts + s.get F.THM_GOV_STEP_MV) +
      s.get F.THM_GOV2_OTHER_DW * s.thm.volts * s.thm.volts < im.power.budget * s.thm.volts * s.thm.volts) :
    s.governorMove im core mv = (s.governed core mv).askVolts (s.thm.volts + s.get F.THM_GOV_STEP_MV) := by
  unfold State.governorMove
  dsimp only
  rw [if_neg (by simp [hcool, hpower]), if_pos ⟨by simp [hlow], hfast⟩, if_neg (Nat.not_lt.mpr hmax), if_neg (Nat.not_le.mpr hbudget)]

/-- With slack enough only calm runs lower the voltage. -/
theorem State.governorMove_enough (hlow : s.slackLow = false) (hstep : s.slackNow.2 = false) : s.governorMove im core mv =
    if 16 ≤ (s.governed core mv).thm.calm then (s.governed core mv).askVolts (s.lowerVolts im) else s.governed core mv := by
  unfold State.governorMove
  dsimp only
  rw [if_neg (by simp [hcool, hpower]), if_neg (by simp [hlow, hstep])]

end

theorem State.slackLow_of_some {s : State} {q : Int} (h : s.slackNow.1 = some q) :
    s.slackLow = decide ((q : Rat) < s.slackBound F.THM_GOV_SLACK_LO) := by
  unfold State.slackLow
  rw [h]

theorem exec_governorRun {s : State} (t core vout : Nat) (hon : s.fieldOn = true) :
    exec (.governorRun t core vout) s = .next ((s.tick t).governorRun core vout) :=
  congrArg Host.Outcome.next (s.whenOn_eq t _ hon)

/-- Settles O46: each command is one step of the keeper, the sequencer or the governor at the command's time. -/
theorem powerSequenceAndGovernor : Obligations.PowerSequenceAndGovernor := by
  unfold Obligations.PowerSequenceAndGovernor
  rintro s _ t rfl
  refine ⟨?powerUp, rfl, ?begins, ?cut, ?start, ?good, ?governor, rfl, ?timeout⟩
  case powerUp =>
    rintro _ rfl
    rfl
  case begins =>
    intro hasked hcut hidle hoff
    exact congrArg Host.Outcome.next (State.vcoreGood_begins (s := s.tick t) hasked hcut hidle hoff)
  case cut =>
    intro hcut
    exact congrArg Host.Outcome.next (State.vcoreGood_cut (s := s.tick t) hcut)
  case start =>
    rintro k _ hnext hk hrun hfree hgap rfl
    have hstart := State.domainStart_due (s := s.tick t) hnext hk hrun hfree hgap
    exact ⟨fun hplan => congrArg Host.Outcome.next (hstart.trans (if_neg (Bool.eq_false_iff.mp hplan))),
      fun hplan => congrArg Host.Outcome.next (hstart.trans (if_pos hplan))⟩
  case good =>
    intro k a hwait
    have hgood := State.domainGood_eq (s := s.tick t) hwait
    refine ⟨fun hk => congrArg Host.Outcome.next (hgood.trans (if_neg hk)),
      fun hk => congrArg Host.Outcome.next (hgood.trans (if_pos hk)), ?_⟩
    rintro _ hlate rfl
    exact congrArg Host.Outcome.next (State.domainTimeout_eq (s := s.tick t) hwait hlate)
  case governor =>
    rintro core vout im _ _ z _ hvout hon hen himage hrun rfl rfl rfl hz
    obtain rfl : z = (s.tick t).governed core vout := hz
    rw [exec_governorRun t core _ hon, exec_governorRun t core _ hon]
    refine ⟨fun hgoing => congrArg Host.Outcome.next (State.governorRun_fault hen himage hrun hvout hgoing), ?_⟩
    intro hsettled hgoing hthawed
    rw [State.governorRun_moves (s := s.tick t) hen himage hrun hvout hsettled hgoing hthawed]
    refine ⟨fun hpower => congrArg Host.Outcome.next (State.governorMove_budget (s := s.tick t) hpower), ?_, ?_⟩
    · intro q hpower hcool hfast hq hlow hmax hbudget
      have hslack : (s.tick t).slackLow = true := (State.slackLow_of_some hq).trans (decide_eq_true hlow)
      exact congrArg Host.Outcome.next (State.governorMove_raises (s := s.tick t) hpower hcool hfast hslack hmax hbudget)
    · intro q hpower hcool hq hlow
      have hslack : (s.tick t).slackLow = false :=
        (State.slackLow_of_some (congrArg Prod.fst hq)).trans (decide_eq_false (not_lt.mpr hlow))
      exact congrArg Host.Outcome.next (State.governorMove_enough (s := s.tick t) hpower hcool hslack (congrArg Prod.snd hq))
  case timeout =>
    rintro _ hsettling hlate rfl
    exact congrArg Host.Outcome.next (State.avsTimeout_late (s := s.tick t) hsettling hlate)

end Sys2Proof.Machine
end

section
/-!
SUPPORT. Ingests that would write a page of a named buffer (R87, R563).
-/

namespace Sys2Proof.Machine

/-- The 4 KiB pages that a span of bytes meets, lowest first. -/
def spanPages (a n : Nat) : List Nat := upFrom (a / 4096) ((a + n - 1) / 4096 - a / 4096 + 1)

/-- The 4 KiB page `p` overlaps a named buffer. -/
def State.namedPage (s : State) (p : Nat) : Bool := s.namedBuffers.any (fun q => overlaps (p * 4096) 4096 q.1 q.2)

/-- The first guarded page of a span is the first of its pages that overlaps a named buffer, as an address. -/
theorem State.guardedPage_eq (s : State) (a n : Nat) :
    s.guardedPage a n = ((spanPages a n).find? s.namedPage).map (· * 4096) := by
  have haddress : Option.map (· * 4096) ∘ Option.guard s.namedPage = fun p => if s.namedPage p then some (p * 4096) else none :=
    funext fun p => Option.map_guard
  rw [List.find?_eq_findSome?_guard, List.map_findSome?, haddress]
  rfl

/-- The first guarded page of a copy's rows is the first in the order of the rows. -/
theorem State.guardedPage_rows (s : State) (c : CopyDesc) : (copySpans c).findSome? (fun q => s.guardedPage q.1 q.2) =
    (((List.range c.rows).flatMap (fun i => spanPages (c.dev + i * c.devPitch) c.len)).find? s.namedPage).map (· * 4096) := by
  rw [List.find?_flatMap, List.map_findSome?, copySpans, List.findSome?_map]
  exact congrArg (List.findSome? · (List.range c.rows)) (funext fun i => s.guardedPage_eq (c.dev + i * c.devPitch) c.len)

/-- A well-formed, unprotected ingest whose first page in a named buffer is `k` fails the check of R87 with that page. -/
theorem State.copyCheck_named {s : State} {b : List Nat} {k : Nat} (hformat : copyFormatOk b = true)
    (hopen : ∀ q ∈ copySpans (copyOf b), q.1 + q.2 ≤ memTop ∧ s.protectedHit q.1 q.2 = false)
    (hpage : (copySpans (copyOf b)).findSome? (fun q => s.guardedPage q.1 q.2) = some (k * 4096)) :
    s.copyCheck b true = (0x0230, k * 4096) := by
  have hrange : (copySpans (copyOf b)).any (fun q => decide (memTop < q.1 + q.2)) = false :=
    List.any_eq_false.mpr fun q hq => by simpa using (hopen q hq).1
  have hprot : (copySpans (copyOf b)).any (fun q => s.protectedHit q.1 q.2) = false :=
    List.any_eq_false.mpr fun q hq => by simp [(hopen q hq).2]
  simp only [State.copyCheck, hformat, hrange, hprot, hpage, Bool.not_true, Bool.false_eq_true, if_false, if_true]

/-- A copy refused for a named buffer is logged once per epoch and ends with its code and its first page. -/
theorem State.copyStart_named {s : State} {w ty p : Nat} {d : Desc} (hd : s.nextDesc w ty = some d)
    (hcheck : s.copyCheck d.bytes (ty == 1) = (0x0230, p)) : s.copyStart w ty =
      (s.eventOnce 0x0230 w w w d.slot).endDesc w d.num 0x0230 (copyBody 0x0230 0 0 p) := by
  unfold State.copyStart
  simp [hd, hcheck]

theorem exec_ingest {s : State} (t w : Nat) (hon : s.fieldOn = true) : exec (.ingest t w) s = .next ((s.tick t).copyStart w 1) :=
  congrArg Host.Outcome.next (if_pos hon)

/-- Settles O52: the check of R87 looks for the first page of the rows in a named buffer, after the checks that such an ingest passes. -/
theorem ingestIntoNamedBuffersIsRefused : Obligations.IngestIntoNamedBuffersIsRefused := by
  unfold Obligations.IngestIntoNamedBuffersIsRefused
  rintro s _ t w k d _ _ rfl hon hd hformat rfl hopen rfl hpage
  have hspans : ∀ q ∈ copySpans (copyOf d.bytes), q.1 + q.2 ≤ memTop ∧ (s.tick t).protectedHit q.1 q.2 = false := by
    intro q hq
    obtain ⟨i, hi, rfl⟩ := List.mem_map.mp hq
    exact hopen i (List.mem_range.mp hi)
  have hfirst : (copySpans (copyOf d.bytes)).findSome? (fun q => (s.tick t).guardedPage q.1 q.2) = some (k * 4096) :=
    ((s.tick t).guardedPage_rows _).trans (congrArg (Option.map (· * 4096)) hpage)
  rw [exec_ingest t w hon, State.copyStart_named (s := s.tick t) hd (State.copyCheck_named hformat hspans hfirst)]

end Sys2Proof.Machine
end

section
/-!
SUPPORT. DISCARD: what the staged fields of a register word take back from the sealed values (R103).
-/

namespace Sys2Proof.Machine

/-! ### Staged bits of a register word -/

/-- The field is staged and has a bit in word `w` of its register. -/
def RegField.stagedIn (f : RegField) (w : Nat) : Bool := f.staged && decide (f.lo ≤ 32 * w + 31) && decide (32 * w ≤ f.hi)

/-- The field's highest bit in word `w`. -/
def RegField.wordHi (f : RegField) (w : Nat) : Nat := min f.hi (32 * w + 31) - 32 * w

/-- The field's lowest bit in word `w`. -/
def RegField.wordLo (f : RegField) (w : Nat) : Nat := max f.lo (32 * w) - 32 * w

/-- Bit `i` of word `w` is one of the field's, and staged. -/
def RegField.stagedBit (f : RegField) (w i : Nat) : Bool := f.stagedIn w && (decide (f.wordLo w ≤ i) && decide (i ≤ f.wordHi w))

/-- The word `a` with the field's bits of word `w`, if staged, taken from `new`. -/
def RegField.merge (f : RegField) (w new a : Nat) : Nat :=
  if f.stagedIn w then withBits a (f.wordHi w) (f.wordLo w) (bitsOf new (f.wordHi w) (f.wordLo w)) else a

/-- Bit `i` of the register word at `off` belongs to a staged field. -/
def stagedBit (off i : Nat) : Bool := (rowAt off).any (fun q => q.1.fields.any (fun f => f.stagedBit q.2.2.2 i))

theorem stagedMerge_eq_foldl {off : Nat} {r : RegRow} {i j w : Nat} (h : rowAt off = some (r, i, j, w)) (old new : Nat) :
    stagedMerge off old new = r.fields.foldl (fun a f => f.merge w new a) old := by
  simp only [stagedMerge, h, RegField.merge, RegField.stagedIn, Bool.and_eq_true, decide_eq_true_eq, and_assoc]
  rfl

theorem fields_ordered {r : RegRow} (hr : r ∈ regRows) : ∀ f ∈ r.fields, f.lo ≤ f.hi := by
  have table : ∀ r ∈ regRows, ∀ f ∈ r.fields, f.lo ≤ f.hi := by decide +kernel
  exact table r hr

theorem RegField.wordLo_le_wordHi {f : RegField} {w : Nat} (hf : f.lo ≤ f.hi) (hin : f.stagedIn w = true) : f.wordLo w ≤ f.wordHi w := by
  simp only [RegField.stagedIn, Bool.and_eq_true, decide_eq_true_eq] at hin
  unfold RegField.wordLo RegField.wordHi
  omega

/-- A field written from another word takes that word's bits, and no other bit changes. -/
theorem testBit_withBits_bitsOf (a new : Nat) {hi lo : Nat} (h : lo ≤ hi) (i : Nat) :
    (withBits a hi lo (bitsOf new hi lo)).testBit i = if lo ≤ i ∧ i ≤ hi then new.testBit i else a.testBit i := by
  have hsum : withBits a hi lo (bitsOf new hi lo) = 2 ^ lo * (2 ^ (hi - lo + 1) * (a / 2 ^ (hi + 1)) + bitsOf new hi lo) + a % 2 ^ lo := by
    unfold withBits
    rw [Nat.mod_eq_of_lt (bitsOf_lt new hi lo), two_pow_succ_split hi lo h]
    ring
  rw [hsum, Nat.testBit_two_pow_mul_add _ (Nat.mod_lt _ (Nat.two_pow_pos lo)), Nat.testBit_two_pow_mul_add _ (bitsOf_lt new hi lo)]
  by_cases hbelow : i < lo
  · rw [if_pos hbelow, if_neg (by omega), Nat.testBit_mod_two_pow, decide_eq_true hbelow, Bool.true_and]
  · rw [if_neg hbelow]
    by_cases hupto : i ≤ hi
    · have hoff : i - lo < hi - lo + 1 := by omega
      rw [if_pos hoff, if_pos (by omega), bitsOf, Nat.testBit_mod_two_pow, decide_eq_true hoff, Bool.true_and, Nat.testBit_div_two_pow,
        Nat.sub_add_cancel (by omega)]
    · rw [if_neg (by omega), if_neg (by omega), Nat.testBit_div_two_pow]
      congr 1
      omega

theorem RegField.testBit_merge {f : RegField} (hf : f.lo ≤ f.hi) (w new a i : Nat) :
    (f.merge w new a).testBit i = if f.stagedBit w i then new.testBit i else a.testBit i := by
  unfold RegField.merge RegField.stagedBit
  by_cases hin : f.stagedIn w = true
  · rw [if_pos hin, testBit_withBits_bitsOf a new (RegField.wordLo_le_wordHi hf hin), hin, Bool.true_and]
    simp only [Bool.and_eq_true, decide_eq_true_eq]
  · simp [hin]

theorem testBit_foldl_merge {fs : List RegField} (hfs : ∀ f ∈ fs, f.lo ≤ f.hi) (w new a i : Nat) :
    (fs.foldl (fun a f => f.merge w new a) a).testBit i =
      if fs.any (fun f => f.stagedBit w i) then new.testBit i else a.testBit i := by
  induction fs generalizing a with
  | nil => rfl
  | cons f fs ih =>
    obtain ⟨hf, hrest⟩ := List.forall_mem_cons.mp hfs
    rw [List.foldl_cons, ih hrest, RegField.testBit_merge hf, List.any_cons]
    cases f.stagedBit w i <;> simp

/-- The staged bits of a merged word are those of the new word, the others those of the old. -/
theorem testBit_stagedMerge (off old new i : Nat) :
    (stagedMerge off old new).testBit i = if stagedBit off i then new.testBit i else old.testBit i := by
  unfold stagedBit
  cases hrow : rowAt off with
  | none => simp [stagedMerge, hrow]
  | some q =>
    obtain ⟨r, _, _, w⟩ := q
    rw [stagedMerge_eq_foldl hrow, testBit_foldl_merge (fields_ordered (rowAt_mem hrow))]
    rfl

/-! ### Merging staged fields -/

theorem stagedMerge_self (off a : Nat) : stagedMerge off a a = a :=
  Nat.eq_of_testBit_eq fun i => by rw [testBit_stagedMerge, ite_self]

theorem stagedMerge_idem (off old new : Nat) : stagedMerge off (stagedMerge off old new) new = stagedMerge off old new := by
  refine Nat.eq_of_testBit_eq fun i => ?_
  simp only [testBit_stagedMerge]
  split <;> rfl

theorem stagedMerge_lt (off : Nat) {old new n : Nat} (hold : old < 2 ^ n) (hnew : new < 2 ^ n) : stagedMerge off old new < 2 ^ n := by
  refine Nat.lt_pow_two_of_testBit _ fun i hi => ?_
  have hpow : 2 ^ n ≤ 2 ^ i := Nat.pow_le_pow_right (by decide) hi
  rw [testBit_stagedMerge]
  split
  · exact Nat.testBit_lt_two_pow (by omega)
  · exact Nat.testBit_lt_two_pow (by omega)

/-! ### DISCARD -/

/-- The register word at `off` with its staged fields as last sealed. -/
def State.unstage (s : State) (off : Nat) : State := s.wr off (stagedMerge off (s.rd off) (s.cmt.sealedRegs.rd off))

/-- The words with a staged field that a register file or the sealed settings list. -/
def State.stagedOffs (s : State) : List Nat := (s.regs.map (·.1) ++ s.cmt.sealedRegs.map (·.1)).filter hasStaged

/-- The state with the words at `offs` unstaged. -/
def State.unstageAll (s : State) (offs : List Nat) : State := offs.foldl State.unstage s

theorem State.discard_eq (s : State) :
    s.discard = { s.unstageAll s.stagedOffs with cmt := { (s.unstageAll s.stagedOffs).cmt with writes := [] } } := rfl

theorem State.unstageAll_frame (s : State) (offs : List Nat) : s.unstageAll offs = { s with regs := (s.unstageAll offs).regs } := by
  induction offs generalizing s with
  | nil => rfl
  | cons a offs ih => exact ih (s.unstage a)

theorem State.rd_unstage (s : State) (a o : Nat) :
    (s.unstage a).rd o = if o = a then stagedMerge o (s.rd o) (s.cmt.sealedRegs.rd o) else s.rd o := by
  rw [State.unstage, State.rd_wr]
  split
  next h =>
    rw [h]
    exact Nat.mod_eq_of_lt (stagedMerge_lt a (s.regs.rd_lt a) (s.cmt.sealedRegs.rd_lt a))
  next => rfl

/-- Unstaging words, some perhaps more than once, unstages each of them. -/
theorem State.rd_unstageAll (s : State) (offs : List Nat) (o : Nat) :
    (s.unstageAll offs).rd o = if o ∈ offs then stagedMerge o (s.rd o) (s.cmt.sealedRegs.rd o) else s.rd o := by
  induction offs generalizing s with
  | nil => rfl
  | cons a offs ih =>
    have hstep : (s.unstageAll (a :: offs)).rd o = if o ∈ offs then stagedMerge o ((s.unstage a).rd o) (s.cmt.sealedRegs.rd o)
      else (s.unstage a).rd o := ih (s.unstage a)
    rw [hstep, State.rd_unstage]
    by_cases hoa : o = a
    · simp [hoa, stagedMerge_idem]
    · simp [hoa]

theorem sparseGet_of_not_mem {α : Type} (d : Nat → α) {l : List (Nat × α)} {k : Nat} (h : k ∉ l.map (·.1)) : sparseGet d l k = d k := by
  induction l with
  | nil => rfl
  | cons q l ih =>
    obtain ⟨hq, hl⟩ := not_or.mp (fun hor => h (List.mem_cons.mpr hor))
    rw [sparseGet, if_neg (Ne.symm hq), ih hl, ite_self]

/-- A staged word that neither file lists reads its reset value in both. -/
theorem State.rd_eq_sealed_of_unlisted {s : State} {o : Nat} (ho : hasStaged o = true) (h : o ∉ s.stagedOffs) :
    s.rd o = s.cmt.sealedRegs.rd o := by
  obtain ⟨hregs, hsealed⟩ := not_or.mp fun hor => h (List.mem_filter.mpr ⟨List.mem_append.mpr hor, ho⟩)
  simp only [State.rd, RegFile.rd, sparseGet_of_not_mem resetWord hregs, sparseGet_of_not_mem resetWord hsealed]

/-- R103: each staged field returns to its sealed value. -/
theorem State.rd_discard_staged (s : State) {o : Nat} (ho : hasStaged o = true) :
    s.discard.rd o = stagedMerge o (s.rd o) (s.cmt.sealedRegs.rd o) := by
  refine (s.rd_unstageAll s.stagedOffs o).trans ?_
  split
  next => rfl
  next h => rw [State.rd_eq_sealed_of_unlisted ho h, stagedMerge_self]

theorem State.rd_discard_other (s : State) {o : Nat} (ho : hasStaged o = false) : s.discard.rd o = s.rd o :=
  (s.rd_unstageAll s.stagedOffs o).trans
    (if_neg fun hmem => Bool.false_ne_true (ho.symm.trans (List.of_mem_filter hmem)))

/-- DISCARD changes the registers and the list of staged writes alone. -/
theorem State.discard_frame (s : State) : s.discard = { s with regs := s.discard.regs, cmt := { s.cmt with writes := [] } } := by
  rw [State.discard_eq, State.unstageAll_frame]

theorem exec_discard {s : State} (t : Nat) (hon : s.fieldOn = true) (hd3 : s.hst.d3 = false) :
    exec (.discard t) s = .next (s.tick t).discard :=
  congrArg Host.Outcome.next (s.whenHost_eq t _ hon hd3)

end Sys2Proof.Machine
end

section
/-!
SUPPORT. The latch instant, publication, retirement and the frozen view (R77, R82, R83, R84). With them and DISCARD the life of an
epoch is settled.
-/

namespace Sys2Proof.Machine

/-! ### Latch instants (R77) -/

theorem State.latchInstant_seals {s : State} (hdue : s.latchDue = true) (hswitch : s.sho.switching = false) (hrun : s.cmt.stopped = false) :
    s.latchInstant =
      let x := ({ s with cmt := { s.cmt with latched := s.frameNo } } : State).sealNext
      if x.sho.stage = .switch ∧ x.sho.next.isSome = true ∧ x.sho.run.isSome = true then x.switchStart else x := by
  unfold State.latchInstant
  simp only [hdue, hswitch, hrun, Bool.true_eq_false, Bool.false_eq_true, false_and, if_false]

theorem State.latchInstant_holds {s : State} (hdue : s.latchDue = true) (hswitch : s.sho.switching = true) :
    s.latchInstant = ({ s with cmt := { s.cmt with latched := s.frameNo } } : State).switchHold := by
  unfold State.latchInstant
  simp only [hdue, hswitch, Bool.true_eq_false, if_false, if_true]

theorem exec_latchInstant {s : State} (t : Nat) (hon : s.fieldOn = true) : exec (.latchInstant t) s = .next (s.tick t).latchInstant :=
  congrArg Host.Outcome.next (s.whenOn_eq t _ hon)

/-! ### Frame reports (R571) -/

/-- Of the registers a frame report changes its ring's head, or the count of those dropped, or none. -/
theorem State.postReport_regs (s : State) (b : List Nat) : (s.postReport b).regs = s.regs ∨
    (∃ v, (s.postReport b).regs = s.regs.put F.SYS_FR_DROPPED_COUNT v) ∨ ∃ v, (s.postReport b).regs = s.regs.put F.SYS_FR_HEAD_HEAD v := by
  unfold State.postReport
  dsimp only
  split
  · exact .inl rfl
  · split
    · refine .inr (.inl ⟨sat32 (s.get F.SYS_FR_DROPPED_COUNT + 1), ?_⟩)
      split <;> rfl
    · exact .inr (.inr ⟨(s.get F.SYS_FR_HEAD_HEAD + 1) % s.get F.SYS_FR_SIZE_ENTRIES, by simp⟩)

@[simp] theorem State.postReport_cmt (s : State) (b : List Nat) : (s.postReport b).cmt = s.cmt := by
  unfold State.postReport
  dsimp only
  split
  · rfl
  · split
    · split <;> rfl
    · simp

theorem State.postReport_get {s : State} (b : List Nat) {f : Fld} (hdropped : F.SYS_FR_DROPPED_COUNT.apart f = true)
    (hhead : F.SYS_FR_HEAD_HEAD.apart f = true) : (s.postReport b).get f = s.get f := by
  unfold State.get
  obtain h | ⟨v, h⟩ | ⟨v, h⟩ := s.postReport_regs b
  · rw [h]
  · rw [h, RegFile.get_put_apart _ _ _ _ hdropped]
  · rw [h, RegFile.get_put_apart _ _ _ _ hhead]

/-- A snapshot register keeps its value when a field of another register is written. -/
theorem RegFile.rd_put_of_isSnap (rf : RegFile) {f : Fld} (v : Nat) {o : Nat} (ho : isSnap o = true) (hlow : isSnap f.off = false)
    (hhigh : isSnap (f.off + 4) = false) : (rf.put f v).rd o = rf.rd o := by
  refine RegFile.rd_put_other rf f v o ?_ ?_
  · rintro rfl; exact Bool.false_ne_true (hlow.symm.trans ho)
  · rintro rfl; exact Bool.false_ne_true (hhigh.symm.trans ho)

theorem State.postReport_rd_snap {s : State} (b : List Nat) {o : Nat} (ho : isSnap o = true) : (s.postReport b).rd o = s.rd o := by
  unfold State.rd
  obtain h | ⟨v, h⟩ | ⟨v, h⟩ := s.postReport_regs b
  · rw [h]
  · rw [h, RegFile.rd_put_of_isSnap _ _ ho (by decide +kernel) (by decide +kernel)]
  · rw [h, RegFile.rd_put_of_isSnap _ _ ho (by decide +kernel) (by decide +kernel)]

/-! ### Publication (R82) -/

/-- What an epoch publishes: its counts, and whether a band used stale Rook data. -/
def State.latestSnap (s : State) (e : Epoch) : Counters :=
  sparseSet (fun _ => 0) e.snap Reg.RRG_SNAP_STALE
    (b2n ((s.brd.reports.find? (fun r => r.epoch == e.num)).any (fun r => r.staleZones != 0)))

/-- The state with the frame report of `e` handed over and its counts held as those published last. -/
def State.published (s : State) (e : Epoch) : State :=
  let x := (s.postReport (s.frameReport e)).onEpoch e.num (fun x => { x with published := true })
  { x with
    cmt := { x.cmt with heldEpoch := e.num, heldSnap := s.latestSnap e, heldPace := e.pace }
    brd := { x.brd with
      reports := x.brd.reports.filter (fun r => r.epoch != e.num), late := x.brd.late.filter (fun q => q.1 != e.num) } }

theorem State.publish_eq {s : State} {e : Epoch} (hfirst : s.cmt.epochs.find? (fun x => !x.published) = some e)
    (hlatched : s.markerUnits.all e.latched.contains = true) (hsome : e.latched.isEmpty = false) : s.publish =
      (if (s.published e).flag F.CMT_SNAP_CTRL_FREEZE then s.published e
        else (s.published e).showSnap e.num (s.latestSnap e)).dropEpochs := by
  unfold State.publish
  simp only [hfirst, hlatched, hsome, Bool.not_true, Bool.false_eq_true, or_self, if_false]
  rfl

theorem State.published_regs (s : State) (e : Epoch) : (s.published e).regs = (s.postReport (s.frameReport e)).regs := rfl

theorem State.published_get {s : State} (e : Epoch) {f : Fld} (hdropped : F.SYS_FR_DROPPED_COUNT.apart f = true)
    (hhead : F.SYS_FR_HEAD_HEAD.apart f = true) : (s.published e).get f = s.get f := by
  rw [State.get, State.published_regs]
  exact State.postReport_get _ hdropped hhead

theorem State.published_rd_snap {s : State} (e : Epoch) {o : Nat} (ho : isSnap o = true) : (s.published e).rd o = s.rd o := by
  rw [State.rd, State.published_regs]
  exact State.postReport_rd_snap _ ho

theorem State.dropEpochs_cmt (s : State) :
    s.dropEpochs.cmt = { s.cmt with epochs := s.cmt.epochs.filter (fun x => !(x.published && x.retired)) } := rfl

theorem State.dropEpochs_rd (s : State) (o : Nat) : s.dropEpochs.rd o = s.rd o := rfl

theorem State.foldl_wr_cmt (l : Counters) (g : Nat × Nat → Nat) (s : State) :
    (l.foldl (fun s q => s.wr q.1 (g q)) s).cmt = s.cmt := by
  induction l generalizing s with
  | nil => rfl
  | cons q l ih => exact ih (s.wr q.1 (g q))

theorem State.showSnap_cmt (s : State) (e : Nat) (snap : Counters) :
    (s.showSnap e snap).cmt = { s.cmt with paceView := s.cmt.heldPace } :=
  State.foldl_wr_cmt snap (fun q => snapValue q.1 q.2) _

/-- After a publication `e` is held as published last, and the epochs both published and retired are forgotten. -/
theorem State.publish_cmt {s : State} {e : Epoch} (hfirst : s.cmt.epochs.find? (fun x => !x.published) = some e)
    (hlatched : s.markerUnits.all e.latched.contains = true) (hsome : e.latched.isEmpty = false) :
    s.publish.cmt.heldEpoch = e.num ∧
      s.publish.cmt.epochs = (s.published e).cmt.epochs.filter (fun x => !(x.published && x.retired)) := by
  rw [State.publish_eq hfirst hlatched hsome]
  split
  · exact ⟨rfl, rfl⟩
  · rw [State.dropEpochs_cmt, State.showSnap_cmt]
    exact ⟨rfl, rfl⟩

/-- Whatever epoch bears the published number is marked published. -/
theorem State.published_epochs (s : State) (e : Epoch) : ∀ x ∈ (s.published e).cmt.epochs, x.num = e.num → x.published = true := by
  intro x hx hnum
  obtain ⟨y, -, rfl⟩ := List.mem_map.mp hx
  split at hnum
  next h => rw [if_pos h]
  next h => exact absurd hnum h

/-- While FREEZE is set no snapshot register changes at a publication (R83). -/
theorem State.publish_frozen {s : State} {e : Epoch} (hfirst : s.cmt.epochs.find? (fun x => !x.published) = some e)
    (hlatched : s.markerUnits.all e.latched.contains = true) (hsome : e.latched.isEmpty = false)
    (hfrozen : s.flag F.CMT_SNAP_CTRL_FREEZE = true) {o : Nat} (ho : isSnap o = true) : s.publish.rd o = s.rd o := by
  have hstill : (s.published e).flag F.CMT_SNAP_CTRL_FREEZE = true := by
    rw [State.flag, State.published_get (s := s) e (by decide) (by decide)]
    exact hfrozen
  rw [State.publish_eq hfirst hlatched hsome, if_pos hstill, State.dropEpochs_rd, State.published_rd_snap (s := s) e ho]

theorem exec_epochPublish {s : State} (t : Nat) (hon : s.fieldOn = true) : exec (.epochPublish t) s = .next (s.tick t).publish :=
  congrArg Host.Outcome.next (s.whenOn_eq t _ hon)

/-! ### Retirement (R84) -/

theorem State.retire_eq {s : State} {e : Epoch} (hfirst : s.cmt.epochs.find? (fun x => !x.retired) = some e)
    (hpassed : s.passedUnits e = true) (hfree : s.heldLater e = false) : s.retire =
      (e.commits.foldl (fun s c => if c.silent then s
          else s.postCompletion c.ring c.num (commitBody 3 0 e.num e.frame c.completeShort 0xFFFF))
        ((s.onEpoch e.num (fun x => { x with retired := true })).put F.CMT_EPOCH_RETIRED_EPOCH e.num)).dropEpochs := by
  unfold State.retire
  simp only [hfirst, hpassed, hfree, Bool.true_eq_false, Bool.false_eq_true, or_self, if_false]

theorem exec_epochRetire {s : State} (t : Nat) (hon : s.fieldOn = true) : exec (.epochRetire t) s = .next (s.tick t).retire :=
  congrArg Host.Outcome.next (s.whenOn_eq t _ hon)

/-! ### The frozen view (R83) -/

theorem State.freeze_set {s : State} (hclear : s.flag F.CMT_SNAP_CTRL_FREEZE = false) :
    s.freeze true = ({ s with cmt := { s.cmt with freezeAt := s.now } } : State).put F.CMT_SNAP_CTRL_FREEZE 1 :=
  if_neg (Bool.eq_false_iff.mp hclear)

theorem State.freeze_release {s : State} (hset : s.flag F.CMT_SNAP_CTRL_FREEZE = true) : s.freeze false = s.thaw := if_pos hset

theorem State.freezeExpiry_due {s : State} (hset : s.flag F.CMT_SNAP_CTRL_FREEZE = true) (hdue : s.cmt.freezeAt + 250 * tickMs ≤ s.now) :
    s.freezeExpiry = (s.thaw.put F.CMT_SNAP_CTRL_EXPIRED 1).event 0x0421 0 0 0 := if_pos ⟨hset, hdue⟩

theorem exec_snapshotFreeze {s : State} (t : Nat) (on : Bool) (hon : s.fieldOn = true) (hd3 : s.hst.d3 = false) :
    exec (.snapshotFreeze t on) s = .next ((s.tick t).freeze on) :=
  congrArg Host.Outcome.next (s.whenHost_eq t _ hon hd3)

theorem exec_freezeExpiry {s : State} (t : Nat) (hon : s.fieldOn = true) : exec (.freezeExpiry t) s = .next (s.tick t).freezeExpiry :=
  congrArg Host.Outcome.next (s.whenOn_eq t _ hon)

/-- Settles O18: each command is one step of the commit unit at the command's time, by the case that its conditions meet. -/
theorem latchPublishRetireFreezeDiscard : Obligations.LatchPublishRetireFreezeDiscard := by
  unfold Obligations.LatchPublishRetireFreezeDiscard
  refine ⟨?seals, ?hold, ?publish, ?retire, ?freeze, ?release, ?expiry, ?discard⟩
  case seals =>
    rintro s t _ hon hdue hswitch hrun rfl
    rw [exec_latchInstant t hon, State.latchInstant_seals (s := s.tick t) hdue hswitch hrun]
    rfl
  case hold =>
    intro s t hon hdue hswitch
    rw [exec_latchInstant t hon, State.latchInstant_holds (s := s.tick t) hdue hswitch]
    rfl
  case publish =>
    intro s t e hon hfirst hlatched hsome
    obtain ⟨hheld, hepochs⟩ := State.publish_cmt (s := s.tick t) hfirst hlatched hsome
    refine ⟨_, exec_epochPublish t hon, hheld, ?_, fun hfrozen o ho => State.publish_frozen (s := s.tick t) hfirst hlatched hsome hfrozen ho⟩
    intro x hx hnum
    rw [hepochs] at hx
    exact (s.tick t).published_epochs e x (List.mem_of_mem_filter hx) hnum
  case retire =>
    intro s t e hon hfirst hpassed hfree
    rw [exec_epochRetire t hon, State.retire_eq (s := s.tick t) hfirst hpassed hfree]
  case freeze =>
    intro s t hon hd3 hclear
    rw [exec_snapshotFreeze t true hon hd3, State.freeze_set (s := s.tick t) hclear]
    rfl
  case release =>
    intro s t hon hd3 hset
    rw [exec_snapshotFreeze t false hon hd3, State.freeze_release (s := s.tick t) hset]
  case expiry =>
    intro s t hon hset hdue
    rw [exec_freezeExpiry t hon, State.freezeExpiry_due (s := s.tick t) hset hdue]
  case discard =>
    intro s t hon hd3
    exact ⟨_, exec_discard t hon hd3, rfl, (s.tick t).discard_frame, fun o => (s.tick t).rd_discard_staged,
      fun o => (s.tick t).rd_discard_other⟩

end Sys2Proof.Machine
end

section
/-!
SUPPORT. The Kiln's engines: what one reads after the shared operations, and room in the buffer of its job (R139, R146).
-/

namespace Sys2Proof.Machine

/-! ### Engines and their jobs -/

theorem State.engine_of_kln {s u : State} (h : u.kln = s.kln) (e : Nat) : u.engine e = s.engine e := by
  unfold State.engine
  rw [h]

@[simp] theorem State.put_engine (s : State) (f : Fld) (v e : Nat) : (s.put f v).engine e = s.engine e := rfl

@[simp] theorem State.count_engine (s : State) (r n e : Nat) : (s.count r n).engine e = s.engine e := rfl

@[simp] theorem State.event_engine (s : State) (c i a b e : Nat) : (s.event c i a b).engine e = s.engine e := rfl

@[simp] theorem State.noteRead_engine (s : State) (p a n e : Nat) : (s.noteRead p a n).engine e = s.engine e :=
  State.engine_of_kln (s.noteRead_kln p a n) e

@[simp] theorem State.store_engine (s : State) (p a : Nat) (bs : List Nat) (e : Nat) : (s.store p a bs).engine e = s.engine e :=
  State.engine_of_kln (s.store_kln p a bs) e

@[simp] theorem State.setEng_engine (s : State) (k st e : Nat) : (s.setEng k st).engine e = s.engine e := by
  unfold State.setEng
  split <;> rfl

theorem State.onEngine_engine_other (s : State) {k e : Nat} (f : Engine → Engine) (h : k ≠ e) :
    (s.onEngine k f).engine e = s.engine e := by
  simp [State.onEngine, State.engine, modAt, h]

/-- The engine whose job is changed has the changed job; one that has none still has none. -/
@[simp] theorem State.onJob_job (s : State) (e : Nat) (f : KilnJob → KilnJob) :
    ((s.onJob e f).engine e).job = (s.engine e).job.map f := by
  simp only [State.onJob, State.onEngine, State.engine, modAt, List.getD_eq_getElem?_getD, List.getElem?_modify, if_true]
  cases s.kln.eng[e]? <;> rfl

theorem State.onJob_engine_other (s : State) {k e : Nat} (f : KilnJob → KilnJob) (h : k ≠ e) :
    (s.onJob k f).engine e = s.engine e := s.onEngine_engine_other _ h

theorem State.stopJob_engine_other (s : State) {k e : Nat} (c : Nat) (h : k ≠ e) : (s.stopJob k c).engine e = s.engine e :=
  State.onEngine_engine_other _ _ h

/-- Taking a chain entry for one engine leaves the other engine alone. -/
theorem State.takeLink_engine_other (s : State) {k e : Nat} (j : KilnJob) (h : k ≠ e) : (s.takeLink k j).2.engine e = s.engine e := by
  unfold State.takeLink
  dsimp only
  split_ifs <;> simp [State.onJob_engine_other _ _ h, State.stopJob_engine_other _ _ h]

/-! ### Commands that name an engine -/

theorem State.whenOn_engine {s : State} (t : Nat) {e : Nat} (f : State → Nat → State) (hon : s.fieldOn = true) (he : e < 2) :
    s.whenOn t (fun s => f s (e % 2)) = f (s.tick t) e := by
  rw [s.whenOn_eq t _ hon, Nat.mod_eq_of_lt he]

/-! ### Room and output (R146) -/

theorem State.makeRoom_fits {s : State} {e n : Nat} {j : KilnJob} (hjob : (s.engine e).job = some j) (hfit : j.bufUsed + n ≤ j.bufLen) :
    s.makeRoom e n = (.ok, s) := by
  unfold State.makeRoom
  rw [hjob]
  exact if_pos hfit

/-- Writing bytes for a job moves its place in the buffer on. -/
theorem State.putOut_job {s : State} {e : Nat} {j : KilnJob} (n : Nat) (bs : List Nat) (hjob : (s.engine e).job = some j) :
    ((s.putOut e n bs).engine e).job = some { j with bufUsed := j.bufUsed + n, outPos := j.outPos + n } := by
  simp [State.putOut, hjob]

end Sys2Proof.Machine
end

section
/-!
SUPPORT. Band jobs of the Kiln: admission, the strata of a band and of a KSS_DECODE job, and completion (R131, R136, R137, R140). With
them the obligation on band jobs is settled.
-/

namespace Sys2Proof.Machine

/-! ### Admission (R136) -/

/-- The predicted decode time of a band's strata, with or without refinement. -/
def State.bandTime (s : State) (bd : Band) (refine : Bool) : Option Rat :=
  s.decodeTime (bd.strata.map (fun q => s.bandCost bd q refine))

/-- That time fits the time left. -/
def State.bandFits (s : State) (bd : Band) (refine : Bool) : Bool :=
  match s.bandTime bd refine with
  | some τ => decide (τ ≤ s.timeAvail bd)
  | none => false

/-- The strata of the band's job, those of greatest cost first. -/
def State.bandJob (s : State) (bd : Band) (refine : Bool) : List JobStratum :=
  (bd.strata.map (fun q => { q with cost := s.bandCost bd q refine })).foldl (fun a q => insertStratum q a) []

/-- The band held and counted: nothing of it is decoded. -/
def State.admitHeld (s : State) (bd : Band) : State :=
  ((((s.admitShort bd).count Reg.KLN_SNAP_HELD 1).onBand bd.seq (fun b => { b with
    admitted := true, kilnStep := 4, kilnDone := true, flatDone := true, carryDone := true })).carryOver (1 - bd.bank)).holdBand bd

theorem State.bandFits_of_le {s : State} {bd : Band} {refine : Bool} {τ : Rat} (hτ : s.bandTime bd refine = some τ)
    (hle : τ ≤ s.timeAvail bd) : s.bandFits bd refine = true := by
  simp [State.bandFits, hτ, hle]

theorem State.not_bandFits_iff {s : State} {bd : Band} {refine : Bool} :
    s.bandFits bd refine = false ↔ ∀ τ, s.bandTime bd refine = some τ → s.timeAvail bd < τ := by
  unfold State.bandFits
  cases s.bandTime bd refine <;> simp

theorem State.not_bandFits_of_lt {s : State} {bd : Band} {refine : Bool} {τ : Rat} (hτ : s.bandTime bd refine = some τ)
    (hlt : s.timeAvail bd < τ) : s.bandFits bd refine = false := by
  simp [State.bandFits, hτ, hlt]

section
variable {s : State} {bd : Band} (hfirst : s.brd.bands.find? (fun b => b.released && !b.admitted) = some bd)
  (hepoch : epochLe bd.epoch (s.epochAt 5) = true)
include hfirst hepoch

/-- What admission decides for the band it finds. -/
theorem State.kilnAdmission_eq : s.kilnAdmission =
    if (decide (bd.fitStep = 0) && s.bandFits bd true) = true then
      (s.count Reg.KLN_SNAP_REFINE_DROPPED (b2n (!decide (bd.paceStep = 0)))).admitBand bd 0 (s.bandJob bd (decide (bd.paceStep = 0)))
    else if s.bandFits bd false = true then
      ((if bd.fitStep = 0 then s.admitShort bd else s).count Reg.KLN_SNAP_REFINE_DROPPED 1).admitBand bd (if bd.fitStep = 0 then 1 else 0)
        (s.bandJob bd false)
    else s.admitHeld bd := by
  unfold State.kilnAdmission
  simp only [hfirst, hepoch, Bool.true_eq_false, if_false]
  rfl

theorem State.kilnAdmission_full (hstep : bd.fitStep = 0) (hfits : s.bandFits bd true = true) : s.kilnAdmission =
    (s.count Reg.KLN_SNAP_REFINE_DROPPED (b2n (!decide (bd.paceStep = 0)))).admitBand bd 0
      (s.bandJob bd (decide (bd.paceStep = 0))) := by
  rw [State.kilnAdmission_eq hfirst hepoch, if_pos (by simp [hstep, hfits])]

/-- A band that Silt already cut to its base tier is admitted without a log entry. -/
theorem State.kilnAdmission_base_fitted (hstep : bd.fitStep ≠ 0) (hfits : s.bandFits bd false = true) :
    s.kilnAdmission = (s.count Reg.KLN_SNAP_REFINE_DROPPED 1).admitBand bd 0 (s.bandJob bd false) := by
  rw [State.kilnAdmission_eq hfirst hepoch, if_neg (by simp [hstep]), if_pos hfits, if_neg hstep, if_neg hstep]

theorem State.kilnAdmission_base_short (hstep : bd.fitStep = 0) (hfull : s.bandFits bd true = false) (hfits : s.bandFits bd false = true) :
    s.kilnAdmission = ((s.admitShort bd).count Reg.KLN_SNAP_REFINE_DROPPED 1).admitBand bd 1 (s.bandJob bd false) := by
  rw [State.kilnAdmission_eq hfirst hepoch, if_neg (by simp [hfull]), if_pos hfits, if_pos hstep, if_pos hstep]

theorem State.kilnAdmission_held (hfull : bd.fitStep ≠ 0 ∨ s.bandFits bd true = false) (hbase : s.bandFits bd false = false) :
    s.kilnAdmission = s.admitHeld bd := by
  rw [State.kilnAdmission_eq hfirst hepoch, if_neg (by simpa [or_iff_not_imp_left] using hfull), if_neg (by simp [hbase])]

end

theorem exec_kilnAdmission {s : State} (t : Nat) (hon : s.fieldOn = true) :
    exec (.kilnAdmission t) s = .next (s.tick t).kilnAdmission.rokRefresh :=
  congrArg Host.Outcome.next (s.whenOn_eq t _ hon)

/-! ### A stratum of a band (R131) -/

/-- A stratum that the band still waits for is decoded from its bytes: its tiles are stored, or it is lost where its base tier fails. -/
theorem State.bandStratum_clean {s y : State} {e seq i a ts n : Nat} {intime refine : Bool} {bd : Band} {js : JobStratum} {o : KssOut}
    {b : List Nat} (hjs : bd.strata.getD i { layer := 0, stratum := 0 } = js) (hband : s.bandAt seq = some bd)
    (hopen : bd.kilnDone = false) (hscene : s.sceneOf bd js.layer = some (a, ts))
    (hrefine : refine = (decide (bd.step = 0) && !s.baseOnly bd js.layer))
    (hb : b = s.read (s.stratumAt a js.stratum).1 (s.stratumAt a js.stratum).2)
    (hn : n = stratumReads (s.auAt a) (s.tablesAt ts) js.stratum (s.stratumAt a js.stratum).2 b refine none)
    (hclean : s.readPoison (s.stratumAt a js.stratum).1 n = false) (hy : y = s.noteRead (2 + e) (s.stratumAt a js.stratum).1 n)
    (ho : o = decodeStratum (s.auAt a) (y.tablesAt ts) js.stratum b refine none) :
    s.bandStratum e seq i intime =
      if o.baseFault then
        ((y.kssReport e (s.auAt a) js.stratum o).lostStratum e bd js.layer js.stratum intime).stratumEnd e seq i 0
      else ((y.kssReport e (s.auAt a) js.stratum o).storeAll bd.bank (y.siltTiles bd js.layer js.stratum (s.auAt a).colour
        o.tiles)).stratumEnd e seq i (reconBytes o.tiles) := by
  unfold State.bandStratum
  simp only [hband, hjs, hscene, hopen, ← hrefine, ← hb, ← hn, hclean, ← hy, ← ho, Bool.false_eq_true, if_false]

theorem State.stratumDecoded_band {s : State} {e seq i : Nat} (intime : Bool) (hcur : (s.engine e).cur = some (seq, i)) :
    s.stratumDecoded e intime = s.bandStratum e seq i intime := by
  unfold State.stratumDecoded
  rw [hcur]

theorem State.stratumDecoded_host {s : State} {e : Nat} (intime : Bool) (hcur : (s.engine e).cur = none) :
    s.stratumDecoded e intime = s.kssStratum e := by
  unfold State.stratumDecoded
  rw [hcur]

theorem exec_stratumDecoded {s : State} (t : Nat) {e : Nat} (intime : Bool) (hon : s.fieldOn = true) (he : e < 2) :
    exec (.stratumDecoded t e intime) s = .next ((s.tick t).stratumDecoded e intime) :=
  congrArg Host.Outcome.next (State.whenOn_engine t (fun s e => s.stratumDecoded e intime) hon he)

/-! ### A stratum of a KSS_DECODE job (R140) -/

/-- What the end of a stratum makes of a KSS_DECODE job, `n` source bytes consumed. -/
def KilnJob.nextStratum (n : Nat) (j : KilnJob) : KilnJob :=
  { j with open_ := false, recs := [], strata := j.strata + 1, inPos := j.inPos + n, spent := decide (fieldLE j.bytes 0x32 2 ≤ j.strata + 1) }

theorem State.kssNext_job (s : State) (e n : Nat) :
    ((s.kssNext e n).engine e).job = (s.engine e).job.map (KilnJob.nextStratum n) := s.onJob_job e _

/-- After the end of a stratum no record waits. -/
theorem State.kssNext_recsLeft (s : State) (e n : Nat) : (s.kssNext e n).recsLeft e = 0 := by
  unfold State.recsLeft
  rw [State.kssNext_job]
  cases (s.engine e).job <;> rfl

/-- A stratum whose base tier fails is counted and passed over. -/
theorem State.kssOpen_baseFault {s : State} {e n : Nat} {only : Option Nat} {j : KilnJob} {o : KssOut} {b : List Nat}
    (honly : only = if j.bytes.getD 0x34 0 = 0xFF then none else some (j.bytes.getD 0x34 0))
    (hsome : (s.stratumAt j.src j.stratum).2 ≠ 0) (hb : b = s.read (s.stratumAt j.src j.stratum).1 (s.stratumAt j.src j.stratum).2)
    (hn : n = stratumReads (s.auAt j.src) (s.tablesAt (fieldLE j.bytes 0x38 8)) j.stratum (s.stratumAt j.src j.stratum).2 b true only)
    (hclean : s.readPoison (s.stratumAt j.src j.stratum).1 n = false)
    (ho : o = decodeStratum (s.auAt j.src) (s.tablesAt (fieldLE j.bytes 0x38 8)) j.stratum b true only) (hfault : o.baseFault = true) :
    s.kssOpen e j = ((((s.noteRead (2 + e) (s.stratumAt j.src j.stratum).1 n).kssReport e (s.auAt j.src) j.stratum o).onJob e (fun q =>
      { q with marked := q.marked + 1 })).kssNext e (s.stratumAt j.src j.stratum).2) := by
  unfold State.kssOpen
  simp only [← honly, ← hb, ← hn, hsome, hclean, ← ho, hfault, Bool.false_eq_true, if_false, if_true]

section
variable {s : State} {e : Nat} {j : KilnJob} (hjob : (s.engine e).job = some j) (hst : s.engSt e = 2) (hop : j.op = 3)
  (hspent : j.spent = false)
include hjob hst hop hspent

/-- A stratum that the decoder leaves behind at once writes no record. -/
theorem State.kssStratum_passed {w : State} {n : Nat} (hclosed : j.open_ = false) (hopen : s.kssOpen e j = w.kssNext e n) :
    s.kssStratum e = w.kssNext e n := by
  unfold State.kssStratum
  simp only [hjob, hst, hop, hspent, hclosed, hopen, State.kssNext_recsLeft, State.writeRecs, State.kssNext_job, ne_eq, not_true_eq_false,
    Bool.false_eq_true, or_self, if_false]
  cases (w.engine e).job with
  | none => rfl
  | some k => exact if_neg (by simp [KilnJob.nextStratum])

/-- The last record of a stratum is written, and the stratum ends. -/
theorem State.kssStratum_lastRecord {r : List Nat} (hopen : j.open_ = true) (hrecs : j.recs = [r])
    (hfit : j.bufUsed + r.length ≤ j.bufLen) : s.kssStratum e =
      ((s.putOut e r.length r).onJob e (fun q => { q with recs := q.recs.tail, units := q.units + 1 })).kssNext e
        (s.stratumAt j.src j.stratum).2 := by
  have hleft : s.recsLeft e = 1 := by simp [State.recsLeft, hjob, hrecs]
  have hwritten : s.writeRecs e 1 = (s.putOut e r.length r).onJob e (fun q => { q with recs := q.recs.tail, units := q.units + 1 }) := by
    simp [State.writeRecs, hjob, hrecs, State.makeRoom_fits hjob hfit]
  unfold State.kssStratum
  simp [hjob, hst, hop, hspent, hopen, hleft, hwritten, State.putOut_job r.length r hjob, hrecs]

end

/-! ### Completion (R137) -/

/-- The band that is complete, late or not. -/
def State.bandDone (s : State) (bd : Band) (late : Bool) : State :=
  (s.onBand bd.seq (fun b => { b with kilnDone := true, late := b.late || late })).count Reg.KLN_SNAP_BANDS 1

/-- Once a band job is done, the rates are measured, its bank is ready or not, and host jobs resume. -/
def State.afterBand (s : State) (bd : Band) : State :=
  ((((s.measureEngine 0).measureEngine 1).bankReady bd.seq).resumeHost 0).resumeHost 1

section
variable {s : State} {bd : Band}
  (hfirst : s.brd.bands.find? (fun b => b.admitted && !b.kilnDone && b.strata.all (·.done)) = some bd)
include hfirst

theorem State.kilnBandComplete_intime (hd : (s.now : Rat) < bd.d) : s.kilnBandComplete = (s.bandDone bd false).afterBand bd := by
  have hlate : decide (bd.d ≤ (s.now : Rat)) = false := by simpa using hd
  unfold State.kilnBandComplete
  simp only [hfirst, hlate, Bool.false_and, Bool.false_eq_true, if_false]
  rfl

theorem State.kilnBandComplete_late (hd : bd.d ≤ (s.now : Rat)) (hlate : bd.late = false) : s.kilnBandComplete =
    (((s.bandDone bd true).event 0x0510 0 bd.b bd.seq).count Reg.KLN_SNAP_LATE 1).afterBand bd := by
  have hnow : decide (bd.d ≤ (s.now : Rat)) = true := by simpa using hd
  unfold State.kilnBandComplete
  simp only [hfirst, hnow, hlate, Bool.not_false, Bool.true_and, if_true]
  rfl

end

theorem exec_kilnBandComplete {s : State} (t : Nat) (hon : s.fieldOn = true) :
    exec (.kilnBandComplete t) s = .next (s.tick t).kilnBandComplete :=
  congrArg Host.Outcome.next (s.whenOn_eq t _ hon)

/-- Settles O19: admission by its three outcomes, a stratum by what its bytes decode to, completion by whether D has passed. -/
theorem kilnBandJobs : Obligations.KilnBandJobs := by
  unfold Obligations.KilnBandJobs
  refine ⟨?full, ?fitted, ?short, ?held, ?stratum, ?fault, ?record, ?intime, ?late⟩
  case full =>
    rintro s _ t bd τ hon rfl hfirst hepoch hstep hτ hle
    rw [exec_kilnAdmission t hon, State.kilnAdmission_full (s := s.tick t) hfirst hepoch hstep (State.bandFits_of_le hτ hle)]
    rfl
  case fitted =>
    rintro s _ t bd τ hon rfl hfirst hepoch hstep hτ hle
    rw [exec_kilnAdmission t hon, State.kilnAdmission_base_fitted (s := s.tick t) hfirst hepoch hstep (State.bandFits_of_le hτ hle)]
    rfl
  case short =>
    rintro s _ t bd τ υ hon rfl hfirst hepoch hstep hυ hlt hτ hle
    rw [exec_kilnAdmission t hon, State.kilnAdmission_base_short (s := s.tick t) hfirst hepoch hstep
      (State.not_bandFits_of_lt hυ hlt) (State.bandFits_of_le hτ hle)]
    rfl
  case held =>
    rintro s _ t bd hon rfl hfirst hepoch hfull hbase
    have hfull' : bd.fitStep ≠ 0 ∨ (s.tick t).bandFits bd true = false :=
      or_iff_not_imp_left.mpr fun hstep => State.not_bandFits_iff.mpr fun τ hτ => (hfull τ hτ).resolve_left hstep
    rw [exec_kilnAdmission t hon, State.kilnAdmission_held (s := s.tick t) hfirst hepoch hfull' (State.not_bandFits_iff.mpr hbase)]
    rfl
  case stratum =>
    rintro s _ y t e seq i a ts _ n intime refine bd o b hon rfl he hcur hband hopen rfl hscene hrefine hb hn hclean hy ho
    rw [exec_stratumDecoded t intime hon he, State.stratumDecoded_band (s := s.tick t) intime hcur]
    exact congrArg Host.Outcome.next
      (State.bandStratum_clean (s := s.tick t) rfl hband hopen hscene hrefine hb hn hclean hy ho)
  case fault =>
    rintro s _ t e n only intime j o b hon rfl he honly hcur hjob hst hop hspent hclosed hsome hb hn hclean ho hfault
    rw [exec_stratumDecoded t intime hon he, State.stratumDecoded_host (s := s.tick t) intime hcur]
    exact congrArg Host.Outcome.next (State.kssStratum_passed (s := s.tick t) hjob hst hop hspent hclosed
      (State.kssOpen_baseFault (s := s.tick t) honly hsome hb hn hclean ho hfault))
  case record =>
    rintro s _ _ t e intime j r hon rfl he hcur hjob hst hop hspent hopen hrecs hfit rfl
    rw [exec_stratumDecoded t intime hon he, State.stratumDecoded_host (s := s.tick t) intime hcur]
    exact congrArg Host.Outcome.next (State.kssStratum_lastRecord (s := s.tick t) hjob hst hop hspent hopen hrecs hfit)
  case intime =>
    rintro s _ t bd hon hfirst hd rfl
    rw [exec_kilnBandComplete t hon, State.kilnBandComplete_intime (s := s.tick t) hfirst hd]
    rfl
  case late =>
    rintro s _ t bd hon hfirst hd hlate rfl
    rw [exec_kilnBandComplete t hon, State.kilnBandComplete_late (s := s.tick t) hfirst hd hlate]
    rfl

end Sys2Proof.Machine
end

section
/-!
SUPPORT. Host jobs of the Kiln: their start, their units, the chain and their end (R139 to R148, R150). With them the obligation on host
jobs is settled.
-/

namespace Sys2Proof.Machine

/-! ### Start (R139, R140) -/

/-- The job that a descriptor asks for. -/
def Desc.job (d : Desc) (w : Nat) : KilnJob :=
  { ring := w, slot := d.slot, num := d.num, bytes := d.bytes, bufAddr := fieldLE d.bytes 0x18 8, bufLen := fieldLE d.bytes 0x20 4 }

/-- The first IDLE engine. -/
def State.idleEngine (s : State) : Option Nat := [0, 1].find? (fun e => decide (s.engSt e = 0))

section
variable {s : State} {w op : Nat} {d : Desc} (hready : s.jobReady w op = some d)
include hready

theorem State.jobStart_starts {e : Nat} (hcode : s.jobCode d.bytes = 0) (hidle : s.idleEngine = some e) : s.jobStart w op =
    (((if d.bytes.getD 8 0 = 3 then s.noteReads (2 + e) (s.auReads (fieldLE d.bytes 0x10 8) (fieldLE d.bytes 0x38 8)) else s).startDesc
      w d.num).onEngine e (fun g => { g with job := some (d.job w) })).setEng e 2 := by
  unfold State.idleEngine at hidle
  unfold State.jobStart
  simp only [hready, hcode, hidle, Option.getD_some, true_or, and_true, ne_eq, not_true_eq_false, if_false]
  rfl

theorem State.jobStart_refused (hcode : s.jobCode d.bytes ≠ 0) : s.jobStart w op =
    ((if d.bytes.getD 8 0 = 3 ∧ s.jobAuCode d.bytes = s.jobCode d.bytes then
        s.noteReads (2 + s.idleEngine.getD 0) (s.auReads (fieldLE d.bytes 0x10 8) (fieldLE d.bytes 0x38 8)) else s).eventOnce
      (s.jobCode d.bytes) w 0 w d.slot).endDesc w d.num (s.jobCode d.bytes) (jobBody (d.job w) (s.jobCode d.bytes) 0) := by
  unfold State.jobStart
  simp only [hready, hcode, false_or, ne_eq, not_false_eq_true, if_true]
  rfl

end

theorem exec_jobStart {s : State} {t w op : Nat} {i : Instr} (hon : s.fieldOn = true)
    (hi : (i, op) ∈ [(Instr.loamEncode t w, 1), (Instr.loamDecode t w, 2), (Instr.kssDecode t w, 3)]) :
    exec i s = .next ((s.tick t).jobStart w op) := by
  simp only [List.mem_cons, Prod.mk.injEq, List.not_mem_nil, or_false] at hi
  obtain ⟨rfl, rfl⟩ | ⟨rfl, rfl⟩ | ⟨rfl, rfl⟩ := hi <;> exact congrArg Host.Outcome.next (s.whenOn_eq t _ hon)

/-! ### Loam units (R143 to R145) -/

section
variable {s : State} {e n : Nat} {j : KilnJob} (hjob : (s.engine e).job = some j) (hst : s.engSt e = 2) (hspent : j.spent = false)
  (hring : j.ring ≠ fwRing)
include hjob hst hspent hring

/-- A unit that fits the buffer is written where the job has reached, behind its index entry where the job has an index. -/
theorem State.encodeUnit_fits {x : State} {u : List Nat × Bool} (hop : j.op = 1) (hn : n = min 4096 (j.srcLen - j.inPos))
    (hx : x = s.noteRead (2 + e) (j.src + j.inPos) n) (hclean : s.readPoison (j.src + j.inPos) n = false)
    (hu : u = loamUnit (if n % 2 ^ j.bytes.getD 10 0 = 0 then j.bytes.getD 10 0 else 0) (s.read (j.src + j.inPos) n))
    (hfit : j.bufUsed + u.1.length ≤ j.bufLen) : s.encodeUnit e =
      ((if j.useIndex then x.store (2 + e) (j.index + 8 * j.units) (leBytes 4 j.bufUsed ++ [0, 0, 0, j.links % 256]) else x).putOut e
        u.1.length u.1).onJob e (fun q => { q with
          inPos := q.inPos + n, units := q.units + 1, marked := q.marked + b2n u.2, spent := decide (q.srcLen ≤ q.inPos + n) }) := by
  unfold State.encodeUnit
  simp only [hjob, hst, hop, hspent, hring, ← hn, hclean, ← hu, State.makeRoom_fits hjob hfit, Option.getD_some, ← hx, ne_eq,
    not_true_eq_false, Bool.false_eq_true, or_self, if_false]

/-- A whole unit of a job without an index that decodes is written where the job has reached. -/
theorem State.decodeUnit_whole {x : State} {h : LoamHdr} {o b : List Nat} (hop : j.op = 2) (hindex : j.useIndex = false)
    (hmore : j.inPos < j.srcLen) (hn : n = min 4112 (j.srcLen - j.inPos)) (hb : b = s.read (j.src + j.inPos) n)
    (hx : x = s.noteRead (2 + e) (j.src + j.inPos) (unitReads b)) (hclean : s.readPoison (j.src + j.inPos) (unitReads b) = false)
    (hhead : loamHead b = .ok h) (horig : h.orig = 4096) (hsize : h.size ≤ n) (hfit : j.bufUsed + 4096 ≤ j.bufLen)
    (hbody : loamBody h b = .ok o) : s.decodeUnit e =
      ((x.putOut e 4096 o).onJob e (fun q => { q with units := q.units + 1 })).onJob e (fun q =>
        { q with inPos := j.inPos + h.size, spent := decide (q.srcLen ≤ j.inPos + h.size) }) := by
  have hinside : ¬ j.srcLen ≤ j.inPos := Nat.not_le.mpr hmore
  have hread : s.noteReads (2 + e) [(j.src + j.inPos, unitReads b)] = x := hx.symm
  unfold State.decodeUnit
  simp only [hjob, hst, hop, hspent, hring, hindex, hinside, ← hn, ← hb, hclean, hhead, horig, hsize, hbody, State.makeRoom_fits hjob hfit,
    hread, List.nil_append, ne_eq, not_true_eq_false, Bool.false_eq_true, false_and, or_self, if_false, if_true, Nat.lt_irrefl]

end

theorem exec_loamUnitEncoded {s : State} (t : Nat) {e : Nat} (hon : s.fieldOn = true) (he : e < 2) :
    exec (.loamUnitEncoded t e) s = .next ((s.tick t).encodeUnit e) :=
  congrArg Host.Outcome.next (State.whenOn_engine t State.encodeUnit hon he)

theorem exec_loamUnitDecoded {s : State} (t : Nat) {e : Nat} (hon : s.fieldOn = true) (he : e < 2) :
    exec (.loamUnitDecoded t e) s = .next ((s.tick t).decodeUnit e) :=
  congrArg Host.Outcome.next (State.whenOn_engine t State.decodeUnit hon he)

/-! ### End (R148) -/

theorem State.hostJobEnd_spent {s : State} {e : Nat} {j : KilnJob} (hjob : (s.engine e).job = some j) (hspent : j.spent = true)
    (hring : j.ring ≠ fwRing) : s.hostJobEnd e = s.endJob e j.code := by
  unfold State.hostJobEnd
  rw [hjob]
  exact if_pos ⟨hspent, hring⟩

theorem exec_hostJobEnd {s : State} (t : Nat) {e : Nat} (hon : s.fieldOn = true) (he : e < 2) :
    exec (.hostJobEnd t e) s = .next ((s.tick t).hostJobEnd e) :=
  congrArg Host.Outcome.next (State.whenOn_engine t State.hostJobEnd hon he)

/-! ### Chain rings (R147, R150) -/

/-- A write of HEAD that no job waits for only sets it. -/
theorem State.chainHead_no_job {s : State} (n v : Nat) (h0 : (s.engine 0).job = none) (h1 : (s.engine 1).job = none) :
    s.chainHead n v = s.put (F.KLN_CHAIN_HEAD_HEAD.nth n) v := by
  simp [State.chainHead, h0, h1]

/-- A write of HEAD gives the job that waits on engine 0 its buffer. -/
theorem State.chainHead_waiting {s x : State} {n v a : Nat} {j : KilnJob} (hx : x = s.put (F.KLN_CHAIN_HEAD_HEAD.nth n) v)
    (h0 : (s.engine 0).job = some j) (h1 : (s.engine 1).job = none) (hwait : j.waitAt = some a) (hchain : j.chain = n)
    (hnew : v ≠ x.get (F.KLN_CHAIN_TAIL_TAIL.nth n)) (hintime : x.chainExpired a = false) (hst : x.engSt 0 = 3) :
    s.chainHead n v = (x.takeLink 0 j).2 := by
  have hj0 : (x.engine 0).job = some j := by rw [hx, State.put_engine, h0]
  have hj1 : ((x.takeLink 0 j).2.engine 1).job = none := by
    rw [State.takeLink_engine_other x j Nat.zero_ne_one, hx, State.put_engine, h1]
  unfold State.chainHead
  simp only [← hx, hj0, hwait, hchain, hintime, hst, hj1, Option.isSome_some, Option.getD_some, ne_eq, hnew, not_false_eq_true, and_self,
    if_true]

theorem State.chainExpiry_expired {s : State} {e a : Nat} {j : KilnJob} (hjob : (s.engine e).job = some j) (hwait : j.waitAt = some a)
    (hst : s.engSt e = 3) (hexpired : s.chainExpired a = true) : s.chainExpiry e = s.chainEmpty e (s.chainEnd a) := by
  unfold State.chainExpiry
  simp only [hjob, hst, hwait, hexpired, Option.getD_some, and_self, if_true]

theorem exec_chainHeadWrite {s : State} (t : Nat) {n : Nat} (v : Nat) (hon : s.fieldOn = true) (hd3 : s.hst.d3 = false) (hn : n < 16) :
    exec (.chainHeadWrite t n v) s = .next ((s.tick t).chainHead n v) := by
  have h : exec (.chainHeadWrite t n v) s = .next ((s.tick t).chainHead (n % 16) v) :=
    congrArg Host.Outcome.next (s.whenHost_eq t _ hon hd3)
  rwa [Nat.mod_eq_of_lt hn] at h

theorem exec_chainWaitExpiry {s : State} (t : Nat) {e : Nat} (hon : s.fieldOn = true) (he : e < 2) :
    exec (.chainWaitExpiry t e) s = .next ((s.tick t).chainExpiry e) :=
  congrArg Host.Outcome.next (State.whenOn_engine t State.chainExpiry hon he)

/-- Settles O20: each command is one step of the engine at the command's time, by the case that its conditions meet. -/
theorem kilnHostJobs : Obligations.KilnHostJobs := by
  unfold Obligations.KilnHostJobs
  refine ⟨?starts, ?refused, ?encode, ?decode, ?done, ?noJob, ?waiting, ?expiry⟩
  case starts =>
    rintro s _ _ t w op e i d hi hon rfl hready hcode hidle rfl
    rw [exec_jobStart hon hi, State.jobStart_starts hready hcode hidle]
    rfl
  case refused =>
    rintro s _ _ t w op i d hi hon rfl hready hcode rfl
    rw [exec_jobStart hon hi, State.jobStart_refused hready hcode]
    rfl
  case encode =>
    intro s x t e n j u hon hx he hjob hst hop hspent hring hn hclean hu hfit
    rw [exec_loamUnitEncoded t hon he]
    exact congrArg Host.Outcome.next
      (State.encodeUnit_fits (s := s.tick t) hjob hst hspent hring hop hn hx hclean hu hfit)
  case decode =>
    intro s x t e n j h o hon hx he hjob hst hop hspent hring hindex hmore hn hclean hhead horig hsize hfit hbody
    rw [exec_loamUnitDecoded t hon he]
    exact congrArg Host.Outcome.next
      (State.decodeUnit_whole (s := s.tick t) hjob hst hspent hring hop hindex hmore hn rfl hx hclean hhead horig hsize hfit hbody)
  case done =>
    intro s t e j hon he hjob hspent hring
    rw [exec_hostJobEnd t hon he, State.hostJobEnd_spent (s := s.tick t) hjob hspent hring]
  case noJob =>
    intro s t n v hon hd3 hn h0 h1
    rw [exec_chainHeadWrite t v hon hd3 hn, State.chainHead_no_job (s := s.tick t) n v h0 h1]
  case waiting =>
    intro s x t n v a j hon hd3 hn hx h0 h1 hwait hchain hnew hintime hst
    rw [exec_chainHeadWrite t v hon hd3 hn, State.chainHead_waiting (s := s.tick t) hx h0 h1 hwait hchain hnew hintime hst]
  case expiry =>
    intro s t e a j hon he hjob hwait hst hexpired
    rw [exec_chainWaitExpiry t hon he, State.chainExpiry_expired (s := s.tick t) hjob hwait hst hexpired]

end Sys2Proof.Machine
end

section
/-!
SUPPORT. Silt's part of a band: bank release, the carry copy and the flat fetch (R161, R163, R165, R170, R172). With them the obligation
on Silt's bands is settled.
-/

namespace Sys2Proof.Machine

/-! ### Bank release (R161, R170, R260) -/

/-- Silt has consumed the marker of the frame to be listed next (R22). -/
def State.listDue (s : State) : Bool := s.listFrame.any (fun f => epochLe f.epoch (s.epochAt 6))

/-- The state in which Silt looks for a band to release: the next band's lists are late where no band is left and its frame is due, and
the first band left is predicted. -/
def State.beforeRelease (s : State) : State :=
  (if s.brd.bands.any (fun b => !b.released) || !s.listDue then s else s.listLate).paceNext

/-- The band takes bank k, and the alternation moves on. -/
def State.takeBank (s : State) (k : Nat) (plan : Plan) : State := (s.planShow plan).put F.SLT_BANK_NEXT (1 - k)

/-- A band that the Board holds is held in bank k at once, its release at `now`. -/
def State.releaseHeld (s : State) (bd : Band) (k now : Nat) : State :=
  (((s.onBand bd.seq (fun b => { b with
    bank := k, released := true, s := now, admitted := true, kilnDone := true, flatDone := true, carryDone := true })).onBank k (fun b =>
      { b with band := bd.seq })).setBank k 1).holdBand { bd with bank := k }

/-- What a release makes of the band it finds. -/
theorem State.bankRelease_eq {s x : State} {k : Nat} {bd : Band} {f : BrdFrame} (hk : s.get F.SLT_BANK_NEXT = k) (hfree : s.bankSt k = 0)
    (hother : s.bankSt (1 - k) = 0 ∨ s.bankSt (1 - k) = 3) (hx : s.beforeRelease = x)
    (hfirst : x.brd.bands.find? (fun b => !b.released) = some bd) (hframe : x.frameOf bd = some f)
    (hepoch : epochLe bd.epoch (s.epochAt 6) = true) : s.bankRelease =
      if bd.held = false then (x.takeBank k f.plan).releaseBand bd k f.plan else (x.takeBank k f.plan).releaseHeld bd k s.now := by
  unfold State.beforeRelease State.listDue at hx
  unfold State.bankRelease
  simp only [hk, hfree, hother, ne_eq, not_true_eq_false, or_self, if_false]
  cases hlist : s.listFrame
  -- By rewriting: after `simp` evaluates `any`, the kernel unfolds `epochLe` with its 2 ^ 32.
  case' none => rw [hlist, Option.any_none] at hx
  case' some g => rw [hlist, Option.any_some] at hx
  all_goals
    dsimp only
    rw [hx]
    simp only [hfirst, hframe, hepoch, Bool.true_eq_false, if_false]
    rfl

theorem exec_bankRelease {s : State} (t : Nat) (hon : s.fieldOn = true) :
    exec (.bankRelease t) s = .next (s.tick t).bankRelease.rokRefresh :=
  congrArg Host.Outcome.next (s.whenOn_eq t _ hon)

/-! ### The carry copy (R163) -/

/-- A fetch tile of a bank is one that the band's windows reach (R165). -/
def State.wantsTile (s : State) (bd : Band) (q : SiltTile) : Bool :=
  ((s.flatTiles bd).map (fun z => (((s.entriesOf bd)[z.1]?).map (·.layer), z.2))).contains (some q.layer, q.row, q.col)

/-- The sample rows of a plane-stratum or strip of the band's carry list. -/
def State.carriedRows (s : State) (bd : Band) (c : Nat × Nat × Nat) : Nat :=
  if c.2.1 = 255 then 8 else (((s.entriesOf bd).find? (fun e => e.layer == c.1 && e.scene)).map (·.sr)).getD 8

/-- The new bank with what the band carries of bank `prev`, but for the strips of a layer lost. -/
def State.carryInto (s : State) (bd : Band) (prev b : SiltBank) : SiltBank :=
  (bd.carry.filter (fun c => !(c.2.1 == 255 && bd.lost.contains c.1))).foldl (fun b c =>
    storeTiles b (prev.carried (s.wantsTile bd) [c]) (s.carriedRows bd c)) b

/-- The band is late now for the first time. -/
def State.lateNow (s : State) (bd : Band) : Bool := decide (bd.d ≤ (s.now : Rat)) && !bd.late

/-- The carry of the band is in its bank and counted. -/
def State.carried (s : State) (bd : Band) : State :=
  ((s.onBank bd.bank (s.carryInto bd (s.bank (1 - bd.bank)))).onBand bd.seq (fun b =>
    { b with carryDone := true, late := b.late || s.lateNow bd })).count Reg.SLT_SNAP_CARRIED bd.carry.length

theorem State.carryComplete_eq {s : State} {bd : Band} (hfirst : s.brd.bands.find? (fun b => b.released && !b.carryDone) = some bd) :
    s.carryComplete = ((if s.lateNow bd then ((s.carried bd).event 0x0510 0 bd.b bd.seq).count Reg.KLN_SNAP_LATE 1
      else s.carried bd).carryOver (1 - bd.bank)).bankReady bd.seq := by
  unfold State.carryComplete
  rw [hfirst]
  rfl

theorem exec_carryCopyComplete {s : State} (t : Nat) (hon : s.fieldOn = true) :
    exec (.carryCopyComplete t) s = .next (s.tick t).carryComplete :=
  congrArg Host.Outcome.next (s.whenOn_eq t _ hon)

/-! ### The flat fetch (R165, R172) -/

/-- The spans in memory of a band's fetch tile. -/
def State.tileSpans (s : State) (bd : Band) (q : Nat × Nat × Nat) : List (Nat × Nat) :=
  fetchSpans (s.fetchInfo bd q).desc (s.fetchInfo bd q).content (s.fetchInfo bd q).level q.2.1 q.2.2

/-- The fetch tiles `good` are in the band's bank, all of its fetches counted and their reads noted. -/
def State.fetched (s : State) (bd : Band) (good : List (Nat × Nat × Nat)) : State :=
  ((s.onBank bd.bank (fun b => storeTiles b (good.map (s.fetchedTile bd)) 8)).count Reg.SLT_SNAP_FETCH_BYTES bd.fetch.length).noteReads 4
    (bd.fetch.flatMap (s.tileSpans bd))

/-- The band's flat fetch is complete. -/
def State.flatDone (s : State) (bd : Band) : State := (s.onBand bd.seq (fun b => { b with flatDone := true })).bankReady bd.seq

/-- The layers of which a fetch of the band meets poison. -/
def State.badLayers (s : State) (bd : Band) : List Nat :=
  ((bd.fetch.filter (fun q => (s.fetchPoison bd q).isSome)).map (fun q => (s.fetchInfo bd q).layer)).eraseDups

theorem State.badLayers_clean {s : State} {bd : Band} (hclean : ∀ q ∈ bd.fetch, s.fetchPoison bd q = none) : s.badLayers bd = [] := by
  have hnone : bd.fetch.filter (fun q => (s.fetchPoison bd q).isSome) = [] :=
    List.filter_eq_nil_iff.mpr fun q hq => by simp [hclean q hq]
  rw [State.badLayers, hnone]
  rfl

theorem State.badLayers_single {s : State} {bd : Band} {q : Nat × Nat × Nat} {r : Nat × Nat} (hfetch : bd.fetch = [q])
    (hpoison : s.fetchPoison bd q = some r) : s.badLayers bd = [(s.fetchInfo bd q).layer] := by
  have hbad : bd.fetch.filter (fun q => (s.fetchPoison bd q).isSome) = [q] := by simp [hfetch, hpoison]
  rw [State.badLayers, hbad]
  rfl

section
variable {s : State} {bd : Band} (hfirst : s.brd.bands.find? (fun b => b.released && !b.flatDone) = some bd)
include hfirst

/-- The tiles of the other layers are stored, and each layer that met poison takes its policy. -/
theorem State.flatComplete_eq : s.flatComplete =
    ((s.badLayers bd).foldl (fun s l => s.fetchFault ((s.bandAt bd.seq).getD bd) l)
      (s.fetched bd (bd.fetch.filter (fun q => !(s.badLayers bd).contains (s.fetchInfo bd q).layer)))).flatDone bd := by
  unfold State.flatComplete
  rw [hfirst]
  rfl

theorem State.flatComplete_clean (hclean : ∀ q ∈ bd.fetch, s.fetchPoison bd q = none) :
    s.flatComplete = (s.fetched bd bd.fetch).flatDone bd := by
  simp [State.flatComplete_eq hfirst, State.badLayers_clean hclean]

theorem State.flatComplete_poisoned {q : Nat × Nat × Nat} {r : Nat × Nat} (hfetch : bd.fetch = [q])
    (hpoison : s.fetchPoison bd q = some r) : s.flatComplete =
      ((s.fetched bd []).fetchFault (((s.fetched bd []).bandAt bd.seq).getD bd) (s.fetchInfo bd q).layer).flatDone bd := by
  simp [State.flatComplete_eq hfirst, State.badLayers_single hfetch hpoison, hfetch]

end

theorem exec_flatFetchComplete {s : State} (t : Nat) (hon : s.fieldOn = true) :
    exec (.flatFetchComplete t) s = .next (s.tick t).flatComplete :=
  congrArg Host.Outcome.next (s.whenOn_eq t _ hon)

/-- Settles O21: each command is one step of Silt at the command's time, by the case that its conditions meet. -/
theorem siltBands : Obligations.SiltBands := by
  unfold Obligations.SiltBands
  refine ⟨?release, ?carry, ?clean, ?poisoned⟩
  case release =>
    intro s x t k bd f hon hk hfree hother hx hfirst hframe hepoch
    have hrelease := State.bankRelease_eq (s := s.tick t) hk.symm hfree hother hx.symm hfirst hframe hepoch
    constructor
    · intro hheld
      rw [exec_bankRelease t hon, hrelease, if_pos hheld]
      rfl
    · intro hheld
      rw [exec_bankRelease t hon, hrelease, if_neg (by simp [hheld])]
      rfl
  case carry =>
    rintro s _ _ t bd hon rfl hfirst rfl
    rw [exec_carryCopyComplete t hon, State.carryComplete_eq (s := s.tick t) hfirst]
    rfl
  case clean =>
    rintro s _ t bd hon rfl hfirst hclean
    rw [exec_flatFetchComplete t hon, State.flatComplete_clean (s := s.tick t) hfirst hclean]
    rfl
  case poisoned =>
    rintro s _ _ t _ bd q r hon rfl hfirst hfetch hpoison rfl rfl
    rw [exec_flatFetchComplete t hon, State.flatComplete_poisoned (s := s.tick t) hfirst hfetch hpoison, State.fetched, hfetch,
      List.flatMap_singleton]
    rfl

end Sys2Proof.Machine
end

section
/-!
SUPPORT. Bands in the Rook: their start, the bands passed over, squares, ends and abandonments, and parity faults of files (R161, R230, R232,
R235, R236, R239). With them the obligation on the Rook's bands is settled.
-/

namespace Sys2Proof.Machine

/-- A command of a Rook file does its effect on that file. -/
theorem State.whenOn_file {s : State} (t : Nat) {n : Nat} (f : State → Nat → State) (hon : s.fieldOn = true) (hn : n < 16) :
    s.whenOn t (fun s => f s (n % 16)) = f (s.tick t) n := by
  rw [s.whenOn_eq t _ hon, Nat.mod_eq_of_lt hn]

/-! ### Start (R232, R326, R374) -/

/-- The band is in progress in its bank from now on, its wait over, its step counted and shown. -/
def State.reading (s : State) (bd : Band) : State :=
  ((((s.endWait bd).onBand bd.seq (fun b => { b with started := true, startAt := s.now })).setBank bd.bank 3).stepCounts bd).rokShow bd

/-- The Furrow buffer that band `seq` takes holds nothing of the band before it there. -/
def State.furrowTaken (s : State) (seq : Nat) : State :=
  { s with out := { s.out with
    rows := s.out.rows.filter (fun r => decide (seq < r.seq + 2))
    ready := s.out.ready.filter (fun r => decide (seq < r.seq + 2)) } }

/-- Every file takes a square of the band, which is predicted to end once its work is done. -/
def State.dealBand (s : State) (bd : Band) (now : Nat) : State :=
  s.dealAll.passBand (some ((now : Rat) + (s.workTicks (s.bandWork bd bd.step)).getD 0))

theorem State.rokBandStart_eq {s : State} {bd : Band} (hnext : s.nextBand = some bd) (hready : s.ownsReady bd = true)
    (hheld : bd.held = false) (hbank : (s.bank bd.bank).held = false) (hstreamed : bd.streamed = true)
    (hlive : s.liveFiles.isEmpty = false) (hbuffer : s.bufferDue bd.seq = false) (hepoch : bd.epoch = s.epochAt 8) :
    s.rokBandStart = ((s.reading bd).furrowTaken bd.seq).dealBand bd s.now := by
  unfold State.rokBandStart
  simp only [hnext, hready, hheld, hbank, hstreamed, hlive, hbuffer, hepoch, Bool.true_eq_false, Bool.false_eq_true, ne_eq,
    not_true_eq_false, or_self, if_false]
  rfl

/-- A start that went on to the next band cuts what the updates of its Furrow buffer have not sent. -/
theorem State.bandStart_cuts {s r : State} {b : Band} (hstart : s.rokBandStart = r) (hrunning : r.runningBand = some b)
    (hmoved : r.brd.rookSeq ≠ s.brd.rookSeq) : s.bandStart = r.cutUpdates (fun u => decide (u.seq + 2 ≤ b.seq)) := by
  unfold State.bandStart
  simp only [hstart, hrunning, hmoved, if_false]

theorem exec_rokBandStart {s : State} (t : Nat) (hon : s.fieldOn = true) : exec (.rokBandStart t) s = .next (s.tick t).bandStart :=
  congrArg Host.Outcome.next (s.whenOn_eq t _ hon)

/-! ### Bands passed over (R161) -/

/-- The held band counted at step 4 and gone, its bank free where it has one. -/
def State.heldDropped (s : State) (bd : Band) : State :=
  let y := (s.endWait bd).stepCounts (if bd.step = 4 then bd else { bd with held := true })
  (if s.ownsReady bd then y.freeBank bd.bank else y).dropBand bd.seq

/-- The Rook goes on behind a held band: its rows show what they held. -/
def State.passHeld (s : State) (bd : Band) (now : Nat) : State :=
  (({ s.noteSlack bd none with out := { s.out with held := (bd.frame, bd.b) :: s.out.held } } : State).passBand (some (now : Rat))).rokReady

/-- The Rook has nothing to compute for the band: its bank is gone, or is READY with it held. -/
def State.skips (s : State) (bd : Band) : Prop := s.bankLost bd = true ∨ (s.ownsReady bd = true ∧ s.bandHeld bd = true)

theorem State.not_skips_iff {s : State} {bd : Band} :
    ¬ s.skips bd ↔ s.bankLost bd = false ∧ (s.ownsReady bd = false ∨ s.bandHeld bd = false) := by
  simp only [State.skips, not_or, not_and_or, Bool.not_eq_true]

theorem State.heldSkip_eq {s : State} {bd : Band} (hnext : s.nextBand = some bd) (hepoch : epochLe bd.epoch (s.epochAt 8) = true)
    (hskip : s.skips bd) : s.heldSkip = (s.heldDropped bd).passHeld bd s.now := by
  unfold State.heldSkip
  simp only [hnext, hepoch, ← State.not_skips_iff, hskip, Bool.true_eq_false, not_true_eq_false, or_self, if_false]
  rfl

theorem exec_heldBandSkip {s : State} (t : Nat) (hon : s.fieldOn = true) : exec (.heldBandSkip t) s = .next (s.tick t).heldSkip :=
  congrArg Host.Outcome.next (s.whenOn_eq t _ hon)

/-! ### Squares (R215, R235) -/

/-- The panel codes of the band's square are in the Furrow, and what it cost is counted. -/
def State.squareShown (s : State) (bd : Band) (es : List Entry) (bad : List (Nat × Nat)) (q : SquareList) : State :=
  (s.writeSquare bd es bad q).squareCounts bd es q (s.squareComps bd es bad q)

/-- File n has completed the band's square k at `now`: the groups that this completes are ready, and the file takes the next square. -/
def State.squareOver (s : State) (bd : Band) (n k now : Nat) : State :=
  ((s.onBand bd.seq (fun b => { b with
    busy := b.busy.filter (fun z => z.1 != n), doneSq := b.doneSq ++ [(k, now)] })).groupsReady bd.seq).dealFile n

theorem State.squareDone_eq {s : State} {n corr k : Nat} {bad : List (Nat × Nat)} {luts : List (Nat × Nat × Bool)} {bd : Band}
    {q : SquareList} (hrunning : s.runningBand = some bd) (hbusy : bd.busy.find? (fun q => q.1 == n) = some (n, k))
    (hsquare : bd.squares[k]? = some q) : s.squareDone n corr bad luts =
      ((((luts.foldl State.lutFault s).siltEcc bd corr bad).squareShown bd (s.entriesOf bd) bad q).squareOver bd n k s.now).formUpdates
        s.out.ready := by
  unfold State.squareDone State.squareComplete
  simp only [hrunning, hbusy, hsquare]
  rfl

theorem exec_rokSquareComplete {s : State} (t : Nat) {n : Nat} (corr : Nat) (bad : List (Nat × Nat)) (luts : List (Nat × Nat × Bool))
    (hon : s.fieldOn = true) (hn : n < 16) :
    exec (.rokSquareComplete t n corr bad luts) s = .next ((s.tick t).squareDone n corr bad luts) :=
  congrArg Host.Outcome.next (State.whenOn_file t (fun s n => s.squareDone n corr bad luts) hon hn)

/-! ### The band's end (R230, R235) -/

/-- The rate measured over the band that ends is the newest of the four kept (R230). -/
def State.measureBand (s : State) (bd : Band) : State :=
  { s with rok := { s.rok with
    rates := (bd.slots * tickS / (4 * max 1 (s.now - bd.startAt) * max 1 s.lanes) :: s.rok.rates).take 4 } }

/-- The band is counted, its slack to `deadline` noted, and the Rook leaves it and its bank. -/
def State.bandEnds (s : State) (bd : Band) (deadline : Rat) (now : Nat) : State :=
  ((((s.count Reg.ROK_SNAP_BANDS 1).noteSlack bd (some (slackOf deadline now))).dropBand bd.seq).endReading bd.bank).rokReady

theorem State.rokBandComplete_eq {s : State} {bd : Band} (hrunning : s.runningBand = some bd)
    (hall : bd.squares.length ≤ bd.doneSq.length) :
    s.rokBandComplete = ((s.measureBand bd).bandLateness bd).bandEnds bd (s.furrowDeadline bd) s.now := by
  unfold State.rokBandComplete
  rw [hrunning]
  exact if_neg (Nat.not_lt.mpr hall)

theorem exec_rokBandComplete {s : State} (t : Nat) (hon : s.fieldOn = true) :
    exec (.rokBandComplete t) s = .next (s.tick t).rokBandComplete :=
  congrArg Host.Outcome.next (s.whenOn_eq t _ hon)

/-! ### Abandonment (R236) -/

section
variable {s : State} {bd : Band} (hepoch : epochLe bd.epoch (s.epochAt 8) = true) (hlast : s.lastRowAt bd ≤ (s.now : Rat))
include hepoch hlast

/-- The band in progress is abandoned where a square of it is incomplete. -/
theorem State.rokBandAbandon_running (hrunning : s.runningBand = some bd) (hstarted : bd.started = true)
    (hopen : bd.doneSq.length ≠ bd.squares.length) : s.rokBandAbandon = s.abandon bd := by
  unfold State.rokBandAbandon
  simp only [hrunning, hepoch, not_lt.mpr hlast, hstarted, hopen, Bool.true_eq_false, false_and, and_false, or_self, if_false]

/-- Without a band in progress the first band is abandoned, but for one that is passed over. -/
theorem State.rokBandAbandon_waiting (hrunning : s.runningBand = none) (hhead : s.brd.bands.head? = some bd)
    (hstarted : bd.started = false) (hskip : ¬ s.skips bd) : s.rokBandAbandon = s.abandon bd := by
  unfold State.skips at hskip
  unfold State.rokBandAbandon
  simp only [hrunning, hhead, hepoch, not_lt.mpr hlast, hstarted, hskip, Bool.true_eq_false, Bool.false_eq_true, false_and, and_false,
    or_self, if_false]

end

theorem exec_rokBandAbandon {s : State} (t : Nat) (hon : s.fieldOn = true) :
    exec (.rokBandAbandon t) s = .next (s.tick t).rokBandAbandon :=
  congrArg Host.Outcome.next (s.whenOn_eq t _ hon)

/-! ### Parity faults (R239) -/

/-- A parity fault of file n is logged and counted, and `faults` are those remembered. -/
def State.faultNoted (s : State) (n : Nat) (faults : List Nat) : State :=
  ((s.event 0x0821 n 0 0).count Reg.ROK_SNAP_FILE_FAULTS 1).onFile n (fun f => { f with faults := faults })

/-- File n is retired, and that is logged. -/
def State.retireFile (s : State) (n : Nat) : State := (s.event 0x0822 n 0 0).onFile n (fun f => { f with retired := true })

/-- The faults of file n in the last 60 s, with the one now. -/
def State.recentFaults (s : State) (n : Nat) : List Nat :=
  s.now :: ((s.rok.files.getD n {}).faults.filter (fun a => decide (s.now < a + 60 * tickS)))

theorem State.recentFaults_eq_cons {s : State} {n : Nat} {l : List Nat} (hfaults : (s.rok.files.getD n {}).faults = l)
    (hrecent : ∀ a ∈ l, s.now < a + 60 * tickS) : s.recentFaults n = s.now :: l := by
  rw [State.recentFaults, hfaults, List.filter_eq_self.mpr (fun a ha => decide_eq_true (hrecent a ha))]

section
variable {s : State} {n : Nat} (hlive : s.fileSt n ≠ 2)
include hlive

theorem State.fileFault_eq : s.fileFault n =
    (if 4 ≤ (s.recentFaults n).length then (s.faultNoted n (s.recentFaults n)).retireFile n
      else s.faultNoted n (s.recentFaults n)).fileHalt n :=
  if_neg hlive

theorem State.fileFault_halts (hfew : (s.recentFaults n).length < 4) :
    s.fileFault n = (s.faultNoted n (s.recentFaults n)).fileHalt n := by
  rw [State.fileFault_eq hlive, if_neg (Nat.not_le.mpr hfew)]

theorem State.fileFault_retires (hmany : 4 ≤ (s.recentFaults n).length) :
    s.fileFault n = ((s.faultNoted n (s.recentFaults n)).retireFile n).fileHalt n := by
  rw [State.fileFault_eq hlive, if_pos hmany]

end

theorem exec_fileParityFault {s : State} (t : Nat) {n : Nat} (hon : s.fieldOn = true) (hn : n < 16) :
    exec (.fileParityFault t n) s = .next ((s.tick t).fileFault n) :=
  congrArg Host.Outcome.next (State.whenOn_file t State.fileFault hon hn)

/-- Settles O24: each command is one step of the Rook at the command's time, by the case that its conditions meet. -/
theorem rookBands : Obligations.RookBands := by
  unfold Obligations.RookBands
  rintro s _ t hon rfl
  refine ⟨?start, ?held, ?square, ?complete, ?running, ?waiting, ?fault, ?fourth⟩
  case start =>
    rintro bd _ _ r b hnext hready hheld hbank hstreamed hlive hbuffer hepoch rfl rfl hr hrunning hmoved
    have hstart : (s.tick t).rokBandStart = r :=
      (State.rokBandStart_eq (s := s.tick t) hnext hready hheld hbank hstreamed hlive hbuffer hepoch).trans hr.symm
    rw [exec_rokBandStart t hon, State.bandStart_cuts hstart hrunning hmoved]
  case held =>
    rintro bd _ _ hnext hepoch hskip rfl rfl
    rw [exec_heldBandSkip t hon, State.heldSkip_eq (s := s.tick t) hnext hepoch hskip]
    rfl
  case square =>
    rintro n corr bad luts bd k q _ hn hrunning hbusy hsquare rfl
    rw [exec_rokSquareComplete t corr bad luts hon hn, State.squareDone_eq (s := s.tick t) hrunning hbusy hsquare]
    rfl
  case complete =>
    rintro bd _ _ hrunning hall rfl rfl
    rw [exec_rokBandComplete t hon, State.rokBandComplete_eq (s := s.tick t) hrunning hall]
    rfl
  case running =>
    intro bd hrunning hepoch hlast hstarted hopen
    rw [exec_rokBandAbandon t hon, State.rokBandAbandon_running (s := s.tick t) hepoch hlast hrunning hstarted hopen]
  case waiting =>
    intro bd hrunning hhead hepoch hstarted hlast hbank hready
    rw [exec_rokBandAbandon t hon, State.rokBandAbandon_waiting (s := s.tick t) hepoch hlast hrunning hhead hstarted
      (State.not_skips_iff.mpr ⟨hbank, hready⟩)]
  case fault =>
    intro n hn hlive hfaults
    have hrecent : (s.tick t).recentFaults n = [max s.now t] :=
      State.recentFaults_eq_cons (s := s.tick t) hfaults (List.forall_mem_nil _)
    rw [exec_fileParityFault t hon hn, State.fileFault_halts (s := s.tick t) hlive (by simp [hrecent]), hrecent]
    rfl
  case fourth =>
    intro n a b c hn hlive hfaults ha hb hc
    have hrecent : (s.tick t).recentFaults n = [max s.now t, a, b, c] :=
      State.recentFaults_eq_cons (s := s.tick t) hfaults
        (List.forall_mem_cons.mpr ⟨ha, List.forall_mem_cons.mpr ⟨hb, List.forall_mem_singleton.mpr hc⟩⟩)
    rw [exec_fileParityFault t hon hn, State.fileFault_retires (s := s.tick t) hlive (by simp [hrecent]), hrecent]
    rfl

end Sys2Proof.Machine
end

section
/-!
SUPPORT. The Ray Registry: loads of registry sets, zone reports and runs, and the streaming of a band's entries (R26, R189 to R200, R208).
With them the obligation on registry sets and zones is settled.
-/

namespace Sys2Proof.Machine

/-! ### Commands that name one of `m` instances -/

theorem State.whenOn_instance {s : State} (t : Nat) {n m : Nat} (f : State → Nat → State) (hon : s.fieldOn = true) (hn : n < m) :
    s.whenOn t (fun s => f s (n % m)) = f (s.tick t) n := by
  rw [s.whenOn_eq t _ hon, Nat.mod_eq_of_lt hn]

theorem State.whenHost_instance {s : State} (t : Nat) {n m : Nat} (f : State → Nat → State) (hon : s.fieldOn = true)
    (hd3 : s.hst.d3 = false) (hn : n < m) : s.whenHost t (fun s => f s (n % m)) = f (s.tick t) n := by
  rw [s.whenHost_eq t _ hon hd3, Nat.mod_eq_of_lt hn]

/-! ### Set loads: the copy (R189, R190) -/

/-- The address at which software says the set file lies. -/
def State.setFileAddr (s : State) : Nat := s.get F.RRG_SET_ADDR_ADDR * 4096

/-- The bytes that lie there, as many as software says the file has. -/
def State.setFileBytes (s : State) : List Nat := s.read s.setFileAddr (s.get F.RRG_SET_LEN_LEN)

theorem State.setLoad_busy {s : State} (hbusy : s.flag F.RRG_SET_STATUS_BUSY = true) : s.setLoad = s.event 0x0715 0 0 0 :=
  if_pos hbusy

/-- Once an image runs, a load is in progress with the file as it lies in memory. -/
theorem State.setLoad_copies {s : State} (hidle : s.flag F.RRG_SET_STATUS_BUSY = false) (himage : s.sho.run.isSome = true) :
    s.setLoad = { (s.put F.RRG_SET_STATUS_BUSY 1).noteRead 6 s.setFileAddr (s.get F.RRG_SET_LEN_LEN) with
      rrg := { s.rrg with file := s.setFileBytes } } := by
  have hsome : s.sho.run.isNone = false := by rw [← Option.not_isSome, himage]; rfl
  unfold State.setLoad
  simp only [hidle, hsome, Bool.false_eq_true, if_false, State.noteRead_rrg]
  rfl

theorem exec_rrgSetLoad {s : State} (t : Nat) (hon : s.fieldOn = true) (hd3 : s.hst.d3 = false) :
    exec (.rrgSetLoad t) s = .next (s.tick t).setLoad :=
  congrArg Host.Outcome.next (s.whenHost_eq t _ hon hd3)

/-! ### Set loads: the checks (R187 to R189) -/

/-- The key that follows the padded payload of a set file (R187). -/
def setSignerKey (b : List Nat) : List Nat := slice b (160 + alignUp (fieldLE b 0x64 4) 16) 97

/-- The entries that the decrypted payload holds, decoded where the file's LOAM flag is set; none where the decode fails. -/
def setEntries (b plain : List Nat) : Option (List Nat) :=
  if bitAt (b.getD 7 0) 0 then loamAll 8 ((slice plain 0 (fieldLE b 0x64 4)).length + 1) (slice plain 0 (fieldLE b 0x64 4))
  else some (slice plain 0 (fieldLE b 0x64 4))

/-- The device's own checks of the file under load in the order of R189: the file passes, and its payload `plain` holds the entries `e`. -/
structure State.SetPasses (s : State) (plain e : List Nat) : Prop where
  format : setFormatOk s.rrg.file = true
  patchW : fieldLE s.rrg.file 0x0A 2 = s.panel.patchW
  patchH : fieldLE s.rrg.file 0x0C 2 = s.panel.patchH
  panelHash : slice s.rrg.file 0x10 48 = slice s.nvs.page 0x20 48
  approved : s.secOk = true
  signer : s.panelSigner (setSignerKey s.rrg.file) = true
  slotKey : (s.otpValue (2 + s.rrg.file.getD 6 0)).isSome = true
  decodes : setEntries s.rrg.file plain = some e
  complete : e.length = 8 * s.panel.patchW * s.panel.patchH
  fits : s.setFits (s.rrg.file.getD 5 0) (parseSet s.rrg.file) = true

section
variable {s : State} (hbusy : s.flag F.RRG_SET_STATUS_BUSY = true) (hfree : s.rrg.parked = none)
include hbusy hfree

theorem State.setChecked_badFormat (sigOk tagOk : Bool) (plain : List Nat) (hformat : setFormatOk s.rrg.file = false) :
    s.setChecked sigOk tagOk plain = s.setRefuse 0x0710 := by
  unfold State.setChecked
  simp [hbusy, hfree, hformat]

/-- A file that passes every check takes its slot at once where no run reads it. -/
theorem State.setChecked_passes {plain e : List Nat} (hpass : s.SetPasses plain e) (hrunning : s.rrg.running = none) :
    s.setChecked true true plain = s.installSet (s.rrg.file.getD 5 0) (parseSet s.rrg.file) e := by
  obtain ⟨hformat, hw, hh, hpanel, happroved, hsigner, hkey, hdecodes, hcomplete, hfits⟩ := hpass
  unfold setSignerKey at hsigner
  unfold setEntries at hdecodes
  have hsome : (s.otpValue (2 + s.rrg.file.getD 6 0)).isNone = false := by rw [← Option.not_isSome, hkey]; rfl
  unfold State.setChecked
  simp only [hbusy, hfree, hformat, hw, hh, hpanel, happroved, hsigner, hsome, hdecodes, hcomplete, hfits, hrunning, Option.isSome_none,
    Bool.not_true, Bool.false_eq_true, ne_eq, not_true_eq_false, or_self, if_false]

end

theorem exec_rrgSetChecked {s : State} (t : Nat) (sigOk tagOk : Bool) (plain : List Nat) (hon : s.fieldOn = true) :
    exec (.rrgSetChecked t sigOk tagOk plain) s = .next ((s.tick t).setChecked sigOk tagOk plain) :=
  congrArg Host.Outcome.next (s.whenOn_eq t _ hon)

/-! ### Zone reports and triggers (R191, R192, R208) -/

theorem exec_zoneTempReport {s : State} (t : Nat) {n : Nat} (temp : Nat) (hon : s.fieldOn = true) (hn : n < 8) :
    exec (.zoneTempReport t n temp) s = .next ((s.tick t).zoneReport n temp) :=
  congrArg Host.Outcome.next (State.whenOn_instance t (fun s n => s.zoneReport n temp) hon hn)

theorem State.trigger_idle {s : State} {n : Nat} (hgroup : s.panel.hasGroup n = true) (hidle : s.zoneSt n = 0) :
    s.trigger n = (s.onZone n (fun z => { z with trigAt := s.now })).setZone n 1 := by
  unfold State.trigger
  rw [hgroup, hidle]
  rfl

theorem exec_zoneRun {s : State} (t : Nat) {n : Nat} (hon : s.fieldOn = true) (hd3 : s.hst.d3 = false) (hn : n < 8) :
    exec (.zoneRun t n) s = .next ((s.tick t).trigger n) :=
  congrArg Host.Outcome.next (State.whenHost_instance t State.trigger hon hd3 hn)

theorem State.zoneTempTimeout_lost {s : State} {n t0 : Nat} (hgroup : s.panel.hasGroup n = true) (hsince : (s.zone n).since = some t0)
    (hfirst : s.flag (F.RRG_ZONE_STATUS_TEMP_LOST.nth n) = false) (hdue : t0 + 100 * tickMs ≤ s.now) :
    s.zoneTempTimeout n = (s.put (F.RRG_ZONE_STATUS_TEMP_LOST.nth n) 1).event 0x0720 0 n 0 := by
  unfold State.zoneTempTimeout
  simp only [hsince, hgroup, hfirst, Nat.not_lt.mpr hdue, Bool.true_eq_false, Bool.false_eq_true, or_self, if_false]

theorem exec_zoneTempTimeout {s : State} (t : Nat) {n : Nat} (hon : s.fieldOn = true) (hn : n < 8) :
    exec (.zoneTempTimeout t n) s = .next ((s.tick t).zoneTempTimeout n) :=
  congrArg Host.Outcome.next (State.whenOn_instance t State.zoneTempTimeout hon hn)

/-! ### Zone runs: the start (R193, R194) -/

/-- The temperature of a run of zone n that starts now. -/
def State.zoneTemp (s : State) (n : Nat) : Int :=
  if (s.zone n).reported then s.getS (F.RRG_ZONE_TEMP_TEMP.nth n) else ((s.usableSets.head?.map (·.2.temp)).getD 0)

/-- Zone n runs at temperature T from the sets `lo` and `hi`. -/
def State.takeZone (s : State) (n : Nat) (T : Int) (lo hi : Nat) : State :=
  let y := s.onZone n (fun z => { z with runT := T, lo := lo, hi := hi, pubEpoch := 0 })
  { y.setZone n 2 with rrg := { y.rrg with running := some n } }

theorem State.zoneRunStart_eq {s : State} {n lo hi : Nat} (hrunning : s.rrg.running = none) (hnext : s.nextZone = some n)
    (hsets : runSets s.usableSets (s.zoneTemp n) = some (lo, hi)) : s.zoneRunStart = s.takeZone n (s.zoneTemp n) lo hi := by
  unfold State.zoneTemp at hsets
  unfold State.zoneRunStart
  simp only [hrunning, hnext, hsets]
  rfl

theorem exec_zoneRunStart {s : State} (t : Nat) (hon : s.fieldOn = true) : exec (.zoneRunStart t) s = .next (s.tick t).zoneRunStart :=
  congrArg Host.Outcome.next (s.whenOn_eq t _ hon)

/-! ### Zone runs: the end (R193 to R195, R198) -/

/-- The half of the live registry that zone n does not use. -/
def State.otherHalf (s : State) (n : Nat) : Nat := 1 - s.get (F.RRG_ZONE_STATUS_ACTIVE_HALF.nth n)

/-- What a run of zone n reads of its sets. -/
def State.runSpans (s : State) (n : Nat) (ks : List Nat) : List (Nat × Nat) :=
  ks.map (fun k => (s.setAddr (s.zone n).lo k, 8)) ++
    (if (s.zone n).lo = (s.zone n).hi then [] else ks.map (fun k => (s.setAddr (s.zone n).hi k, 8)))

/-- Every entry of zone n is formed into its half h. -/
def State.formZone (s : State) (n h : Nat) : State :=
  (s.panel.zoneEntries n).foldl (fun s k => s.runEntry n h k) ((s.noteReads 6 (s.runSpans n (s.panel.zoneEntries n))).freshBlocks n h)

/-- The writes of the entries of zone n to half h are noted. -/
def State.formedZone (s : State) (n h : Nat) : State :=
  (joinSpans ((s.panel.zoneEntries n).map (fun k => (s.liveAddr h k, 8)))).foldl (fun s q => s.noteWrite 6 q.1 q.2) (s.formZone n h)

/-- The run of zone n ended at `now`: the engine is free and the zone PENDING. -/
def State.zonePending (s : State) (n now : Nat) : State :=
  let y := s.onZone n (fun z => { z with doneAt := now })
  (State.setZone { y with rrg := { y.rrg with running := none } } n 3).count Reg.RRG_SNAP_ZONE_RUNS 1

/-- The run that ends is pending, or published at once before the first epoch (R94). -/
def State.zoneRan (s : State) (n : Nat) : State :=
  let z := (s.formedZone n (s.otherHalf n)).zonePending n s.now
  if z.cmt.last = 0 then z.zonePublish n else z

section
variable {s : State} {n : Nat} (hrunning : s.rrg.running = some n)
include hrunning

theorem State.zoneRunComplete_eq : s.zoneRunComplete =
    match (s.zoneRan n).rrg.parked with
    | some (i, v, e) => (s.zoneRan n).installSet i v e
    | none => s.zoneRan n := by
  unfold State.zoneRunComplete
  rw [hrunning]
  rfl

theorem State.zoneRunComplete_alone (hfree : (s.zoneRan n).rrg.parked = none) : s.zoneRunComplete = s.zoneRan n := by
  rw [State.zoneRunComplete_eq hrunning, hfree]

/-- A checked set that waited for the run takes its slot (R190). -/
theorem State.zoneRunComplete_installs {i : Nat} {v : RegSet} {e : List Nat} (hparked : (s.zoneRan n).rrg.parked = some (i, v, e)) :
    s.zoneRunComplete = (s.zoneRan n).installSet i v e := by
  rw [State.zoneRunComplete_eq hrunning, hparked]

end

theorem exec_zoneRunComplete {s : State} (t : Nat) (hon : s.fieldOn = true) :
    exec (.zoneRunComplete t) s = .next (s.tick t).zoneRunComplete :=
  congrArg Host.Outcome.next (s.whenOn_eq t _ hon)

/-! ### Streaming (R22, R26, R199, R380) -/

/-- The entries and demura values of the patches `ks` of the band are with the Rook. -/
def State.streamPatches (s : State) (bd : Band) (ks : List Nat) : State :=
  (((s.noteReads 5 (s.liveSpans ks)).liveEcc ks).demuraEcc bd.epoch ks).onBand bd.seq (fun b =>
    { b with streamed := true, rays := ks.map (s.streamOf bd.epoch) })

theorem State.streamBand_eq {s : State} {bd : Band} (hfirst : s.brd.bands.find? (fun b => b.listed && !b.streamed) = some bd)
    (hstreams : s.rrgStreams = true) (hepoch : epochLe bd.epoch (s.epochAt 7) = true) :
    s.streamBand = s.streamPatches bd (s.panel.patchesOf bd.row0 bd.rows) := by
  unfold State.streamBand
  simp only [hfirst, hstreams, hepoch, Bool.true_eq_false, or_self, if_false]
  rfl

theorem exec_registryStreamBand {s : State} (t : Nat) (hon : s.fieldOn = true) :
    exec (.registryStreamBand t) s = .next (s.tick t).streamBand :=
  congrArg Host.Outcome.next (s.whenOn_eq t _ hon)

/-- Settles O22: each command is one step of the Ray Registry at the command's time, by the case that its conditions meet. -/
theorem registrySetsAndZones : Obligations.RegistrySetsAndZones := by
  unfold Obligations.RegistrySetsAndZones
  rintro s _ t hon rfl
  refine ⟨?busy, ?copy, ?badFormat, ?passes, ?report, ?trigger, ?lost, ?start, ?complete, ?stream⟩
  case busy =>
    intro hd3 hbusy
    rw [exec_rrgSetLoad t hon hd3, State.setLoad_busy (s := s.tick t) hbusy]
  case copy =>
    intro hd3 hidle himage
    rw [exec_rrgSetLoad t hon hd3, State.setLoad_copies (s := s.tick t) hidle himage]
    rfl
  case badFormat =>
    intro sigOk tagOk plain hbusy hfree hformat
    rw [exec_rrgSetChecked t sigOk tagOk plain hon, State.setChecked_badFormat (s := s.tick t) hbusy hfree sigOk tagOk plain hformat]
  case passes =>
    intro plain e hbusy hfree hformat hw hh hpanel happroved hsigner hkey hdecodes hcomplete hfits hrunning
    have hpass : (s.tick t).SetPasses plain e :=
      ⟨hformat, hw, hh, hpanel, happroved, hsigner, hkey, hdecodes, hcomplete, hfits⟩
    rw [exec_rrgSetChecked t true true plain hon, State.setChecked_passes (s := s.tick t) hbusy hfree hpass hrunning]
    rfl
  case report =>
    rintro n temp _ _ hn rfl rfl
    rw [exec_zoneTempReport t temp hon hn]
    rfl
  case trigger =>
    intro n hn hd3 hgroup hidle
    rw [exec_zoneRun t hon hd3 hn, State.trigger_idle (s := s.tick t) hgroup hidle]
    rfl
  case lost =>
    intro n t0 hn hgroup hsince hfirst hdue
    rw [exec_zoneTempTimeout t hon hn, State.zoneTempTimeout_lost (s := s.tick t) hgroup hsince hfirst hdue]
  case start =>
    rintro n lo hi _ hrunning hnext rfl hsets
    rw [exec_zoneRunStart t hon, State.zoneRunStart_eq (s := s.tick t) hrunning hnext hsets]
    rfl
  case complete =>
    rintro n _ _ _ _ _ w hrunning rfl rfl rfl rfl rfl hw
    have hran : w = (s.tick t).zoneRan n := hw
    subst hran
    constructor
    · intro hfree
      rw [exec_zoneRunComplete t hon, State.zoneRunComplete_alone (s := s.tick t) hrunning hfree]
    · intro i v e hparked
      rw [exec_zoneRunComplete t hon, State.zoneRunComplete_installs (s := s.tick t) hrunning hparked]
  case stream =>
    rintro bd _ hfirst hstreams hepoch rfl
    rw [exec_registryStreamBand t hon, State.streamBand_eq (s := s.tick t) hfirst hstreams hepoch]
    rfl

end Sys2Proof.Machine
end

section
/-!
SUPPORT. The receiver lanes of the Ray Registry: lock and its loss, the iterations of a trim run, and the triggers (R201 to R206, R208).
With them the obligation on lane trims is settled.
-/

namespace Sys2Proof.Machine

/-! ### Lock (R206) -/

/-- Lane n has locked. -/
def State.lockLane (s : State) (n : Nat) : State := s.onLane n (fun l => { l with locked := true })

/-- Lane n is at its start point for the die temperature, and shows it (R202, R212). -/
def State.placeLane (s : State) (n : Nat) : State := (s.onLane n (fun l => { l with main := s.startPoint n s.dieTemp })).showLane n

theorem State.laneLock_down {s : State} {n : Nat} (hdown : s.laneSt n = 0) : s.laneLock n = ((s.lockLane n).placeLane n).laneRun n :=
  if_neg (not_not_intro hdown)

theorem State.laneLock_up {s : State} {n : Nat} (hup : s.laneSt n ≠ 0) : s.laneLock n = s.lockLane n :=
  if_pos hup

theorem exec_laneLock {s : State} (t : Nat) {n : Nat} (hon : s.fieldOn = true) (hn : n < 12) :
    exec (.laneLock t n) s = .next ((s.tick t).laneLock n) :=
  congrArg Host.Outcome.next (State.whenOn_instance t State.laneLock hon hn)

/-! ### Loss of lock (R206, R207) -/

/-- Lane n has lost its lock; that of a backchannel receiver is the group's symbol lock (R364). -/
def State.unlockLane (s : State) (n : Nat) : State :=
  if n < 8 then (s.onLane n (fun l => { l with locked := false })).put (F.TLK_GROUP_STATUS_BC_LOCK.nth n) 0
  else s.onLane n (fun l => { l with locked := false })

/-- Lane n is DOWN. -/
def State.laneDown (s : State) (n : Nat) : State := s.put (F.RRG_LANE_STATUS_STATE.nth n) 0

/-- The run of lane n is logged as abandoned with the figure of merit last measured, and ends. -/
def State.endLaneRun (s : State) (n : Nat) : State := (s.event 0x0732 0 n (s.get (F.RRG_LANE_STATUS_FOM.nth n))).laneAbandon n

/-- Lane n has lost its lock, and its run, where it has one, ends with it. -/
def State.loseLane (s : State) (n : Nat) : State := if s.laneSt n = 2 then (s.unlockLane n).endLaneRun n else s.unlockLane n

theorem State.laneLost_eq (s : State) (n : Nat) :
    s.laneLost n = if s.laneSt n = 1 ∨ s.laneSt n = 2 then (s.loseLane n).laneDown n else s.loseLane n := rfl

theorem State.laneLost_running {s : State} {n : Nat} (hrunning : s.laneSt n = 2) :
    s.laneLost n = ((s.unlockLane n).endLaneRun n).laneDown n := by
  rw [State.laneLost_eq, if_pos (Or.inr hrunning), State.loseLane, if_pos hrunning]

theorem State.laneLost_idle {s : State} {n : Nat} (hidle : s.laneSt n = 1) : s.laneLost n = (s.unlockLane n).laneDown n := by
  rw [State.laneLost_eq, if_pos (Or.inl hidle), State.loseLane, if_neg (by omega)]

theorem State.laneLost_out {s : State} {n : Nat} (hidle : s.laneSt n ≠ 1) (hrunning : s.laneSt n ≠ 2) : s.laneLost n = s.unlockLane n := by
  rw [State.laneLost_eq, if_neg (not_or_intro hidle hrunning), State.loseLane, if_neg hrunning]

theorem exec_laneLockLost {s : State} (t : Nat) {n : Nat} (hon : s.fieldOn = true) (hn : n < 12) :
    exec (.laneLockLost t n) s = .next ((s.tick t).laneLost n) :=
  congrArg Host.Outcome.next (State.whenOn_instance t State.laneLost hon hn)

/-! ### Iterations (R201, R203) -/

/-- How far the counts (A, B) of a parameter differ. -/
def laneImbalance (c : Nat × Nat) : Nat := if c.1 < c.2 then c.2 - c.1 else c.1 - c.2

/-- The iteration with these counts is the last of the run of lane n: every parameter is balanced, or it is the 32nd. -/
def State.lastIteration (s : State) (n : Nat) (counts : List (Nat × Nat)) : Prop :=
  (List.range (laneParams n)).all (fun i => decide (laneImbalance (counts.getD i (0, 0)) * 256 ≤
    (counts.getD i (0, 0)).1 + (counts.getD i (0, 0)).2)) = true ∨ (s.lane n).iter + 1 = 32

theorem State.lastIteration_iff {s : State} {n : Nat} {counts : List (Nat × Nat)} : s.lastIteration n counts ↔
    (∀ i, i < laneParams n → laneImbalance (counts.getD i (0, 0)) * 256 ≤ (counts.getD i (0, 0)).1 + (counts.getD i (0, 0)).2) ∨
      (s.lane n).iter = 31 := by
  simp only [State.lastIteration, List.all_eq_true, List.mem_range, decide_eq_true_eq, Nat.reduceEqDiff]

/-- The steps of the auxiliary path of lane n for these counts. -/
def State.laneMoves (s : State) (n : Nat) (counts : List (Nat × Nat)) : List (Int × Bool) :=
  laneSteps (s.lane n).start (s.lane n).aux counts (laneParams n)

/-- The auxiliary path of lane n has made the steps `r`. -/
def State.moveLane (s : State) (n : Nat) (r : List (Int × Bool)) : State :=
  s.onLane n (fun l => { l with aux := r.map (·.1), iter := l.iter + 1, limit := l.limit || r.any (·.2) })

/-- Lane n is at its limit, which is logged (R207). -/
def State.markLimit (s : State) (n : Nat) : State :=
  (s.put (F.RRG_LANE_STATUS_AT_LIMIT.nth n) 1).event 0x0730 0 n (s.get (F.RRG_LANE_STATUS_FOM.nth n))

/-- One iteration of lane n, its limit marked at the first step of the run that meets it. -/
def State.iterateLane (s : State) (n : Nat) (counts : List (Nat × Nat)) : State :=
  if (s.laneMoves n counts).any (·.2) = true ∧ (s.lane n).limit = false then (s.moveLane n (s.laneMoves n counts)).markLimit n
  else s.moveLane n (s.laneMoves n counts)

section
variable {s : State} {n : Nat} {counts : List (Nat × Nat)} (h hh : Nat) (hrunning : s.laneSt n = 2)
include hrunning

theorem State.laneIteration_last (hlast : s.lastIteration n counts) :
    s.laneIteration n counts h hh = (s.iterateLane n counts).laneRunEnd n h hh := by
  unfold State.laneIteration
  simp only [hrunning, Bool.and_eq_true, Bool.not_eq_true', ne_eq, not_true_eq_false, if_false]
  exact if_pos hlast

theorem State.laneIteration_next (hnext : ¬ s.lastIteration n counts) : s.laneIteration n counts h hh = s.iterateLane n counts := by
  unfold State.laneIteration
  simp only [hrunning, Bool.and_eq_true, Bool.not_eq_true', ne_eq, not_true_eq_false, if_false]
  exact if_neg hnext

end

theorem exec_laneIterationEnd {s : State} (t : Nat) {n : Nat} (counts : List (Nat × Nat)) (h hh : Nat) (hon : s.fieldOn = true)
    (hn : n < 12) : exec (.laneIterationEnd t n counts h hh) s = .next ((s.tick t).laneIteration n counts h hh) :=
  congrArg Host.Outcome.next (State.whenOn_instance t (fun s n => s.laneIteration n counts h hh) hon hn)

/-! ### Triggers (R205, R206, R208) -/

theorem State.laneTrigger_idle {s : State} {n : Nat} (hidle : s.laneSt n = 1) (hen : s.flag F.RRG_CTRL_LANE_TRIM_EN = true) :
    s.laneTrigger n = s.laneRun n :=
  if_pos ⟨hidle, hen⟩

theorem State.laneQueue_idle {s : State} {n : Nat} (hidle : s.laneSt n = 1) (hen : s.flag F.RRG_CTRL_LANE_TRIM_EN = true) :
    s.laneQueue n = s.laneRun n := by
  rw [State.laneQueue, if_neg (by omega), State.laneTrigger_idle hidle hen]

theorem State.laneQueue_running {s : State} {n : Nat} (hrunning : s.laneSt n = 2) (hen : s.flag F.RRG_CTRL_LANE_TRIM_EN = true) :
    s.laneQueue n = s.onLane n (fun l => { l with queued := true }) :=
  if_pos ⟨hrunning, hen⟩

theorem exec_laneRun {s : State} (t : Nat) {n : Nat} (hon : s.fieldOn = true) (hd3 : s.hst.d3 = false) (hn : n < 12) :
    exec (.laneRun t n) s = .next ((s.tick t).laneQueue n) :=
  congrArg Host.Outcome.next (State.whenHost_instance t State.laneQueue hon hd3 hn)

theorem State.lanePeriod_expired {s : State} {n : Nat} (hperiod : s.get F.RRG_TRIGGER_LANE_PERIOD ≠ 0)
    (hdue : (s.lane n).lastRun + s.get F.RRG_TRIGGER_LANE_PERIOD * tickS ≤ s.now) : s.lanePeriod n = s.laneTrigger n :=
  if_neg (not_or_intro hperiod (Nat.not_lt.mpr hdue))

theorem exec_lanePeriodExpiry {s : State} (t : Nat) {n : Nat} (hon : s.fieldOn = true) (hn : n < 12) :
    exec (.lanePeriodExpiry t n) s = .next ((s.tick t).lanePeriod n) :=
  congrArg Host.Outcome.next (State.whenOn_instance t State.lanePeriod hon hn)

/-- The stamp of the trigger that a low figure of merit makes of lane n now. -/
def State.noteFom (s : State) (n : Nat) : State := s.onLane n (fun l => { l with lastFom := s.now })

theorem State.laneFom_low {s : State} {n : Nat} (hlow : s.get (F.RRG_LANE_STATUS_FOM.nth n) < s.get F.RRG_FOM_FOM_MIN)
    (hfresh : s.flag (F.RRG_LANE_STATUS_FOM_STALE.nth n) = false)
    (hdue : (s.lane n).lastFom = 0 ∨ (s.lane n).lastFom + tickS ≤ s.now) : s.laneFom n = (s.noteFom n).laneTrigger n :=
  if_pos ⟨hlow, hfresh, hdue⟩

theorem exec_laneFomTrigger {s : State} (t : Nat) {n : Nat} (hon : s.fieldOn = true) (hn : n < 12) :
    exec (.laneFomTrigger t n) s = .next ((s.tick t).laneFom n) :=
  congrArg Host.Outcome.next (State.whenOn_instance t State.laneFom hon hn)

/-- Settles O23: each command is one step of the named lane at the command's time, by the case that the lane's state selects. -/
theorem laneTrimRuns : Obligations.LaneTrimRuns := by
  unfold Obligations.LaneTrimRuns
  rintro s _ t n hon rfl hn
  refine ⟨?lockDown, ?lockUp, ?lost, ?iteration, ?softwareIdle, ?softwareRunning, ?period, ?fom⟩
  case lockDown =>
    intro hdown
    rw [exec_laneLock t hon hn, State.laneLock_down (s := s.tick t) hdown]
    rfl
  case lockUp =>
    intro hup
    rw [exec_laneLock t hon hn, State.laneLock_up (s := s.tick t) hup]
    rfl
  case lost =>
    rintro _ rfl
    rw [exec_laneLockLost t hon hn]
    refine ⟨?_, ?_, ?_⟩
    · intro hrunning
      rw [State.laneLost_running (s := s.tick t) hrunning]
      rfl
    · intro hidle
      rw [State.laneLost_idle (s := s.tick t) hidle]
      rfl
    · intro hidle hrunning
      rw [State.laneLost_out (s := s.tick t) hidle hrunning]
      rfl
  case iteration =>
    rintro counts h hh _ _ _ _ hrunning rfl rfl rfl rfl
    rw [exec_laneIterationEnd t counts h hh hon hn]
    by_cases hlast : (s.tick t).lastIteration n counts
    · rw [State.laneIteration_last (s := s.tick t) h hh hrunning hlast]
      exact congrArg Host.Outcome.next (if_pos (State.lastIteration_iff.mp hlast)).symm
    · rw [State.laneIteration_next (s := s.tick t) h hh hrunning hlast]
      exact congrArg Host.Outcome.next (if_neg (mt State.lastIteration_iff.mpr hlast)).symm
  case softwareIdle =>
    intro hidle hen hd3
    rw [exec_laneRun t hon hd3 hn, State.laneQueue_idle (s := s.tick t) hidle hen]
  case softwareRunning =>
    intro hrunning hen hd3
    rw [exec_laneRun t hon hd3 hn, State.laneQueue_running (s := s.tick t) hrunning hen]
  case period =>
    intro hidle hen hperiod hdue
    rw [exec_lanePeriodExpiry t hon hn, State.lanePeriod_expired (s := s.tick t) hperiod hdue, State.laneTrigger_idle (s := s.tick t) hidle hen]
  case fom =>
    intro hidle hen hlow hfresh hdue
    rw [exec_laneFomTrigger t hon hn, State.laneFom_low (s := s.tick t) hlow hfresh hdue,
      State.laneTrigger_idle (s := (s.tick t).noteFom n) hidle hen]
    rfl

end Sys2Proof.Machine
end

section
/-!
SUPPORT. The Board: the commands on source contexts, the arrivals of source frames, and the lists of a band (R254 to R261, R267). With them
the obligation on source contexts and lists is settled.
-/

namespace Sys2Proof.Machine

/-! ### Registration (R254) -/

/-- Context c is registered behind the others. -/
def State.addCtx (s : State) (c : Nat) : State := { s with brd := { s.brd with ctxs := s.brd.ctxs ++ [{ num := c }] } }

/-- Context c is free again. -/
def State.dropCtx (s : State) (c : Nat) : State := { s with brd := { s.brd with ctxs := s.brd.ctxs.filter (fun z => z.num != c) } }

theorem State.ctxRegister_free {s : State} {c : Nat} (hfree : s.ctx c = none) : s.ctxRegister c = (s.addCtx c).ctxResult c 0 := by
  rw [State.ctxRegister, hfree]
  rfl

theorem State.ctxRegister_taken {s : State} {c : Nat} {y : Context} (hctx : s.ctx c = some y) :
    s.ctxRegister c = s.ctxResult c 0x0920 := by
  rw [State.ctxRegister, hctx]

theorem exec_register {s : State} (t : Nat) {c : Nat} (hon : s.fieldOn = true) (hc : c < 4096) (hd3 : s.hst.d3 = false) :
    exec (.register t c) s = .next ((s.tick t).ctxRegister c) :=
  congrArg Host.Outcome.next (State.whenHost_instance t State.ctxRegister hon hd3 hc)

/-! ### Activation (R254, R276, R281) -/

/-- The Board has read the descriptor of context c. -/
def State.readCtx (s : State) (c : Nat) : State := s.noteReads 10 (((s.ctxAddr c).map (fun a => [(a, 128)])).getD [])

/-- What the Board has read of context c when ACTIVATE meets `code`: nothing where too many contexts are live. -/
def State.readUnlessFull (s : State) (c code : Nat) : State := if code = 0x0921 then s else s.readCtx c

/-- A context goes live with descriptor `d`: what it has received stays usable while the descriptor is the same (log entry 44). -/
def Context.activated (z : Context) (d : List Nat) (same : Bool) : Context :=
  { z with st := .live, desc := d, arrivals := if same then z.arrivals else [], lastSlot := if same then z.lastSlot else none }

section
variable {s : State} {c : Nat} {y : Context}

theorem State.ctxActivate_registered (hctx : s.ctx c = some y) (hst : y.st = .registered) :
    s.ctxActivate c =
      if (s.activateCode c).1 ≠ 0 then
        (s.readUnlessFull c (s.activateCode c).1).ctxAnswer c (s.activateCode c).1 ((s.activateCode c).2.getD 2 0)
      else ((s.readUnlessFull c (s.activateCode c).1).onCtx c
        (fun z => z.activated (s.activateCode c).2 (decide (y.desc = (s.activateCode c).2)))).ctxResult c 0 := by
  rw [State.ctxActivate, hctx]
  exact if_neg (not_not_intro hst)

theorem State.ctxActivate_passes {d : List Nat} (hctx : s.ctx c = some y) (hst : y.st = .registered)
    (hcode : s.activateCode c = (0, d)) :
    s.ctxActivate c = ((s.readCtx c).onCtx c (fun z => z.activated d (decide (y.desc = d)))).ctxResult c 0 := by
  rw [State.ctxActivate_registered hctx hst, hcode]
  rfl

theorem State.ctxActivate_fails {k : Nat} {d : List Nat} (hctx : s.ctx c = some y) (hst : y.st = .registered)
    (hcode : s.activateCode c = (k, d)) (hk : k ≠ 0) :
    s.ctxActivate c = (s.readUnlessFull c k).ctxAnswer c k (d.getD 2 0) := by
  rw [State.ctxActivate_registered hctx hst, hcode]
  exact if_pos hk

theorem State.ctxActivate_live (hctx : s.ctx c = some y) (hst : y.st ≠ .registered) : s.ctxActivate c = s.ctxResult c 0x0920 := by
  rw [State.ctxActivate, hctx]
  exact if_pos hst

theorem State.ctxActivate_free (hfree : s.ctx c = none) : s.ctxActivate c = s.ctxResult c 0x0920 := by
  rw [State.ctxActivate, hfree]

end

theorem exec_activate {s : State} (t : Nat) {c : Nat} (hon : s.fieldOn = true) (hc : c < 4096) (hd3 : s.hst.d3 = false) :
    exec (.activate t c) s = .next ((s.tick t).ctxActivate c) :=
  congrArg Host.Outcome.next (State.whenHost_instance t State.ctxActivate hon hd3 hc)

/-! ### Deactivation and release (R254, R285) -/

section
variable {s : State} {c : Nat} {y : Context}

theorem State.ctxDeactivate_live (hctx : s.ctx c = some y) (hst : y.st = .live) :
    s.ctxDeactivate c = ((s.sveDiscard c).onCtx c (fun z => { z with st := .registered })).ctxResult c 0 := by
  rw [State.ctxDeactivate, hctx]
  exact if_neg (not_not_intro hst)

theorem State.ctxDeactivate_registered (hctx : s.ctx c = some y) (hst : y.st ≠ .live) :
    s.ctxDeactivate c = s.ctxResult c 0x0920 := by
  rw [State.ctxDeactivate, hctx]
  exact if_pos hst

theorem State.ctxDeactivate_free (hfree : s.ctx c = none) : s.ctxDeactivate c = s.ctxResult c 0x0920 := by
  rw [State.ctxDeactivate, hfree]

theorem State.ctxUnregister_registered (hctx : s.ctx c = some y) (hst : y.st = .registered) :
    s.ctxUnregister c = if s.ctxNamed c = true then s.ctxResult c 0x0922 else (s.dropCtx c).ctxResult c 0 := by
  rw [State.ctxUnregister, hctx]
  exact if_neg (not_not_intro hst)

theorem State.ctxUnregister_unnamed (hctx : s.ctx c = some y) (hst : y.st = .registered) (hnamed : s.ctxNamed c = false) :
    s.ctxUnregister c = (s.dropCtx c).ctxResult c 0 := by
  rw [State.ctxUnregister_registered hctx hst, if_neg (ne_true_of_eq_false hnamed)]

theorem State.ctxUnregister_named (hctx : s.ctx c = some y) (hst : y.st = .registered) (hnamed : s.ctxNamed c = true) :
    s.ctxUnregister c = s.ctxResult c 0x0922 := by
  rw [State.ctxUnregister_registered hctx hst, if_pos hnamed]

theorem State.ctxUnregister_live (hctx : s.ctx c = some y) (hst : y.st ≠ .registered) : s.ctxUnregister c = s.ctxResult c 0x0920 := by
  rw [State.ctxUnregister, hctx]
  exact if_pos hst

theorem State.ctxUnregister_free (hfree : s.ctx c = none) : s.ctxUnregister c = s.ctxResult c 0x0920 := by
  rw [State.ctxUnregister, hfree]

end

theorem exec_deactivate {s : State} (t : Nat) {c : Nat} (hon : s.fieldOn = true) (hc : c < 4096) (hd3 : s.hst.d3 = false) :
    exec (.deactivate t c) s = .next ((s.tick t).ctxDeactivate c) :=
  congrArg Host.Outcome.next (State.whenHost_instance t State.ctxDeactivate hon hd3 hc)

theorem exec_unregister {s : State} (t : Nat) {c : Nat} (hon : s.fieldOn = true) (hc : c < 4096) (hd3 : s.hst.d3 = false) :
    exec (.unregister t c) s = .next ((s.tick t).ctxUnregister c) :=
  congrArg Host.Outcome.next (State.whenHost_instance t State.ctxUnregister hon hd3 hc)

/-! ### Arrivals (R261, R284) -/

/-- The Board has taken the oldest arrival reported, and `r` are left. -/
def State.takeArrival (s : State) (r : List (Nat × Nat × Nat)) : State := { s with sve := { s.sve with sent := r } }

theorem State.sourceArrival_eq {s : State} {c stamp slot : Nat} {r : List (Nat × Nat × Nat)} (hsent : s.sve.sent = (c, stamp, slot) :: r) :
    s.sourceArrival = (s.takeArrival r).onCtx c (fun z => { z with arrivals := (stamp, slot) :: z.arrivals }) := by
  rw [State.sourceArrival, hsent]
  rfl

theorem exec_sourceFrameArrival {s : State} (t : Nat) (hon : s.fieldOn = true) :
    exec (.sourceFrameArrival t) s = .next (s.tick t).sourceArrival :=
  congrArg Host.Outcome.next (s.whenOn_eq t _ hon)

/-! ### Lists (R255 to R258, R260, R267) -/

/-- The squares of the next band of frame `f`, with their entries. -/
def State.nextLists (s : State) (f : BrdFrame) : List SquareList := s.bandLists f (s.newBand f).row0 (s.newBand f).rows

/-- The squares with more entries than a list holds. -/
def truncatedLists (sq : List SquareList) : List SquareList := sq.filter (fun q => decide (256 < q.full))

/-- The most entries that a square has. -/
def peakEntries (sq : List SquareList) : Nat := sq.foldl (fun a q => max a q.full) 0

/-- The entries culled from all squares. -/
def culledEntries (sq : List SquareList) : Nat := sq.foldl (fun a q => a + q.culled) 0

/-- The next band of frame `f` stands in order with the lists `sq`, the last one listed. -/
def State.placeBand (s : State) (f : BrdFrame) (sq : List SquareList) : State :=
  { s.addBand { s.newBand f with listed := true, squares := sq } with
    brd := { (s.addBand { s.newBand f with listed := true, squares := sq }).brd with lastB := (s.newBand f).b } }

/-- The lists are in the Board's counters (R272). -/
def State.countLists (s : State) (sq : List SquareList) : State :=
  (((s.count Reg.BRD_SNAP_LISTS sq.length).count Reg.BRD_SNAP_CULLED (culledEntries sq)).count Reg.BRD_SNAP_TRUNCATED
    (truncatedLists sq).length).countMax Reg.BRD_SNAP_ENTRY_PEAK (peakEntries sq)

/-- The first of the truncated lists is logged. -/
def State.logTruncated (s : State) : List SquareList → State
  | [] => s
  | q :: _ => s.eventOnce 0x0931 0 0 q.sx q.sy

/-- The lists are in the report of the frame's epoch. -/
def State.reportLists (s : State) (f : BrdFrame) (sq : List SquareList) : State :=
  s.onReport f.epoch (fun r => { r with
    trunc := r.trunc + (truncatedLists sq).length
    peak := max r.peak (peakEntries sq)
    culled := r.culled + culledEntries sq
    overflow := r.overflow + sq.countP (fun q => decide (32 < q.ents.length)) })

/-- The next band of frame `f` is listed with the lists `sq`. -/
def State.listWith (s : State) (f : BrdFrame) (sq : List SquareList) : State :=
  ((((s.placeBand f sq).countLists sq).logTruncated (truncatedLists sq)).reportLists f sq).boardShow

/-- The Board lists the next band where it is not HALTED and the band lies within the lookahead. -/
theorem State.listBand_eq {s : State} {f : BrdFrame} (hst : s.get F.BRD_STATUS_STATE ≠ 0) (hmay : s.mayList = true)
    (hframe : s.listFrame = some f) : s.listBand = s.listWith f (s.nextLists f) := by
  unfold State.listBand
  rw [if_neg (not_or_intro hst (ne_false_of_eq_true hmay)), hframe]
  rfl

theorem exec_brdListBand {s : State} (t : Nat) (hon : s.fieldOn = true) :
    exec (.brdListBand t) s = .next (s.tick t).listBand.rokCheck :=
  congrArg Host.Outcome.next (s.whenOn_eq t _ hon)

/-- Settles O25: each command is one step of the Board at the command's time, by the state of the context it names. -/
theorem sourceContextsAndLists : Obligations.SourceContextsAndLists := by
  unfold Obligations.SourceContextsAndLists
  rintro s _ t c hon rfl hc
  refine ⟨?register, ?registerTaken, ?activate, ?activateFails, ?activateLive, ?free, ?deactivateRegistered, ?unregisterLive, ?deactivate,
    ?unregister, ?unregisterNamed, ?arrival, ?list⟩
  case register =>
    intro hd3 hfree
    rw [exec_register t hon hc hd3, State.ctxRegister_free (s := s.tick t) hfree]
    rfl
  case registerTaken =>
    intro y hd3 hctx
    rw [exec_register t hon hc hd3, State.ctxRegister_taken (s := s.tick t) hctx]
  case activate =>
    rintro y d _ hd3 hctx hst hcode rfl
    rw [exec_activate t hon hc hd3, State.ctxActivate_passes (s := s.tick t) hctx hst hcode]
    simp only [Context.activated, decide_eq_true_eq]
    rfl
  case activateFails =>
    rintro y k d _ hd3 hctx hst hcode hk rfl
    rw [exec_activate t hon hc hd3, State.ctxActivate_fails (s := s.tick t) hctx hst hcode hk]
    rfl
  case activateLive =>
    intro y hd3 hctx hst
    rw [exec_activate t hon hc hd3, State.ctxActivate_live (s := s.tick t) hctx hst]
  case free =>
    intro hd3 hfree
    rw [exec_activate t hon hc hd3, exec_deactivate t hon hc hd3, exec_unregister t hon hc hd3,
      State.ctxActivate_free (s := s.tick t) hfree, State.ctxDeactivate_free (s := s.tick t) hfree,
      State.ctxUnregister_free (s := s.tick t) hfree]
    exact ⟨rfl, rfl, rfl⟩
  case deactivateRegistered =>
    intro y hd3 hctx hst
    rw [exec_deactivate t hon hc hd3, State.ctxDeactivate_registered (s := s.tick t) hctx hst]
  case unregisterLive =>
    intro y hd3 hctx hst
    rw [exec_unregister t hon hc hd3, State.ctxUnregister_live (s := s.tick t) hctx hst]
  case deactivate =>
    intro y hd3 hctx hst
    rw [exec_deactivate t hon hc hd3, State.ctxDeactivate_live (s := s.tick t) hctx hst]
  case unregister =>
    intro y hd3 hctx hst hnamed
    rw [exec_unregister t hon hc hd3, State.ctxUnregister_unnamed (s := s.tick t) hctx hst hnamed]
    rfl
  case unregisterNamed =>
    intro y hd3 hctx hst hnamed
    rw [exec_unregister t hon hc hd3, State.ctxUnregister_named (s := s.tick t) hctx hst hnamed]
  case arrival =>
    intro stamp slot r hsent
    rw [exec_sourceFrameArrival t hon, State.sourceArrival_eq (s := s.tick t) hsent]
    rfl
  case list =>
    rintro f _ _ _ _ _ hst hmay hframe rfl rfl rfl rfl rfl
    rw [exec_brdListBand t hon, State.listBand_eq (s := s.tick t) hst hmay hframe]
    rfl

end Sys2Proof.Machine
end

section
/-!
SUPPORT. The Sieve: source frames from their descriptor to their context, APPLY and the tables, pipe enables and parity faults (R261, R280,
R284, R285, R287, R288, R291, R566). With them the obligations on source frames and on the Sieve's tables and pipes are settled.
-/

namespace Sys2Proof.Machine

/-! ### Source frames reach their pipe (R285, R566) -/

/-- The source frame that a descriptor of ring w brings. -/
def Desc.frame (d : Desc) (w : Nat) : SveJob := ⟨w, d.num, fieldLE d.bytes 8 2, fieldLE d.bytes 0x10 8, fieldLE d.bytes 0x0C 4, d.stamp⟩

/-- The pipe that a live context names; 0 stands for any other's. -/
def State.ctxPipe (s : State) (c : Nat) : Nat := ((s.ctx c).map (fun c => if c.st = .live then c.desc.getD 2 0 else 0)).getD 0

/-- A descriptor that the Sieve refuses with `code` ends with it. -/
def State.refuseFrame (s : State) (d : Desc) (w q code : Nat) : State :=
  s.endDesc w d.num code (sveBody code (d.frame w).ctx 0xFF q 0)

section
variable {s : State} {w : Nat} {d : Desc} (hnext : s.nextDesc w 2 = some d)
include hnext

theorem State.sourceFrame_eq : s.sourceFrame w =
    if s.sourceCode d.bytes = 0 then (s.startDesc w d.num).sourceQueue (s.ctxPipe (d.frame w).ctx) (d.frame w)
    else if s.sourceCode d.bytes = 0x0A22 then
      (s.startDesc w d.num).sveDrop (s.ctxPipe (d.frame w).ctx) (d.frame w) (s.sourceCode d.bytes) 0
    else (if s.sourceCode d.bytes = 0x0111 then (s.startDesc w d.num).protectedEvent (d.frame w).addr
      else (s.startDesc w d.num).eventOnce (s.sourceCode d.bytes) w w w d.slot).refuseFrame d w (s.ctxPipe (d.frame w).ctx)
        (s.sourceCode d.bytes) := by
  unfold State.sourceFrame State.ctxPipe Desc.frame
  rw [hnext]
  dsimp only
  cases s.ctx (fieldLE d.bytes 8 2) <;> rfl

theorem State.sourceFrame_passes (hcode : s.sourceCode d.bytes = 0) :
    s.sourceFrame w = (s.startDesc w d.num).sourceQueue (s.ctxPipe (d.frame w).ctx) (d.frame w) := by
  rw [State.sourceFrame_eq hnext, if_pos hcode]

theorem State.sourceFrame_notLive (hcode : s.sourceCode d.bytes = 0x0A22) :
    s.sourceFrame w = (s.startDesc w d.num).sveDrop (s.ctxPipe (d.frame w).ctx) (d.frame w) 0x0A22 0 := by
  rw [State.sourceFrame_eq hnext, if_neg (by simp [hcode]), if_pos hcode, hcode]

theorem State.sourceFrame_protected (hcode : s.sourceCode d.bytes = 0x0111) : s.sourceFrame w =
    ((s.startDesc w d.num).protectedEvent (d.frame w).addr).refuseFrame d w (s.ctxPipe (d.frame w).ctx) 0x0111 := by
  rw [State.sourceFrame_eq hnext, if_neg (by simp [hcode]), if_neg (by simp [hcode]), if_pos hcode, hcode]

theorem State.sourceFrame_refused (hpass : s.sourceCode d.bytes ≠ 0) (hlive : s.sourceCode d.bytes ≠ 0x0A22)
    (hopen : s.sourceCode d.bytes ≠ 0x0111) : s.sourceFrame w =
      ((s.startDesc w d.num).eventOnce (s.sourceCode d.bytes) w w w d.slot).refuseFrame d w (s.ctxPipe (d.frame w).ctx)
        (s.sourceCode d.bytes) := by
  rw [State.sourceFrame_eq hnext, if_neg hpass, if_neg hlive, if_neg hopen]

end

theorem exec_sourceFrame {s : State} (t w : Nat) (hon : s.fieldOn = true) :
    exec (.sourceFrame t w) s = .next ((s.tick t).sourceFrame w) :=
  congrArg Host.Outcome.next (s.whenOn_eq t _ hon)

/-! ### A pipe takes its next frame (R283, R285) -/

/-- The frames queued at pipe p are `rest`. -/
def State.requeue (s : State) (p : Nat) (rest : List SveJob) : State := s.onPipe p (fun y => { y with queue := rest })

/-- The slot that the next frame of context c is written to. -/
def State.freeSlot (s : State) (c : Context) : Option Nat :=
  (slotOrder (c.desc.getD 7 2) c.lastSlot).find? (fun k => !s.slotSkipped c c.desc k)

theorem State.freeSlot_none {s : State} {c : Context}
    (hskip : ∀ k ∈ slotOrder (c.desc.getD 7 2) c.lastSlot, s.slotSkipped c c.desc k = true) : s.freeSlot c = none :=
  List.find?_eq_none.mpr fun k hk => by simp [hskip k hk]

/-- Pipe p scales the frame of job j into slot k. -/
def State.scaleInto (s : State) (p : Nat) (j : SveJob) (c : Context) (k : Nat) : State :=
  ((s.onCtx j.ctx (fun y => { y with lastSlot := some k, arrivals := y.arrivals.filter (fun (a : Nat × Nat) => a.2 != k) })).onPipe p
    (fun q => { q with cur := some { job := j, desc := c.desc, slot := k } })).setPipe p 1

/-- Pipe p drops job j with `code` and turns to the frames behind it. -/
def State.passFrame (s : State) (p : Nat) (j : SveJob) (rest : List SveJob) (code : Nat) : State :=
  ((s.requeue p rest).sveDrop p j code 0).pipeBoundary p

section
variable {s : State} {p : Nat} {j : SveJob} {rest : List SveJob} (hqueue : (s.pipe p).queue = j :: rest) (hst : s.pipeSt p = 1)
  (hcur : (s.pipe p).cur = none)
include hqueue hst hcur

/-- What a pipe that scales makes of the front of its queue, by the frame's context and the slot free in it. -/
theorem State.sveStart_eq : s.sveStart p = (s.ctx j.ctx).elim (s.passFrame p j rest 0x0A22) (fun c =>
    (s.freeSlot c).elim (s.passFrame p j rest 0x0A20) (fun k => (s.requeue p rest).scaleInto p j c k)) := by
  unfold State.sveStart State.freeSlot
  simp only [hqueue, hst, hcur, Option.isSome_none, Bool.false_eq_true, ne_eq, not_true_eq_false, or_self, if_false]
  cases s.ctx j.ctx with
  | none => rfl
  | some c =>
    dsimp only [Option.elim_some]
    cases (slotOrder (c.desc.getD 7 2) c.lastSlot).find? (fun k => !s.slotSkipped c c.desc k) <;> rfl

theorem State.sveStart_noContext (hctx : s.ctx j.ctx = none) : s.sveStart p = s.passFrame p j rest 0x0A22 := by
  rw [State.sveStart_eq hqueue hst hcur, hctx, Option.elim_none]

theorem State.sveStart_noSlot {c : Context} (hctx : s.ctx j.ctx = some c) (hslot : s.freeSlot c = none) :
    s.sveStart p = s.passFrame p j rest 0x0A20 := by
  rw [State.sveStart_eq hqueue hst hcur, hctx, Option.elim_some, hslot, Option.elim_none]

theorem State.sveStart_scales {c : Context} {k : Nat} (hctx : s.ctx j.ctx = some c) (hslot : s.freeSlot c = some k) :
    s.sveStart p = (s.requeue p rest).scaleInto p j c k := by
  rw [State.sveStart_eq hqueue hst hcur, hctx, Option.elim_some, hslot, Option.elim_some]

end

theorem exec_sieveFrameStart {s : State} (t : Nat) {p : Nat} (hon : s.fieldOn = true) (hp : p < 4) :
    exec (.sieveFrameStart t p) s = .next ((s.tick t).sveStart p) :=
  congrArg Host.Outcome.next (State.whenOn_instance t State.sveStart hon hp)

/-! ### The input is read (R284, R287) -/

/-- Bytes of one input row of a frame. -/
def SveFrame.rowBytes (f : SveFrame) : Nat := sveRowBytes (f.desc.getD 0 0) (fieldLE f.desc 8 2)

/-- Addresses of a frame's input rows. -/
def SveFrame.inputRows (f : SveFrame) : List Nat := (List.range (fieldLE f.desc 10 2)).map (fun y => f.job.addr + f.job.pitch * y)

/-- The input rows of a frame at `rows` are read. -/
def State.readRows (s : State) (f : SveFrame) (rows : List Nat) : State := s.noteReads 7 (rows.map (fun a => (a, f.rowBytes)))

/-- The samples that pipe p makes of its frame's input. -/
def State.scaled (s : State) (p : Nat) (f : SveFrame) : List (List (List Ext)) :=
  sveScale (s.pipe p).live f.desc (f.inputRows.map (fun a => s.read a f.rowBytes))

/-- The samples `px` are level 0 of the frame's slot, and the levels above it are formed from them. -/
def State.writePyramid (s : State) (f : SveFrame) (px : List (List (List Ext))) : State :=
  (s.writeLevel0 (slotAddr f.desc f.slot) (fieldLE f.desc 0x1C 4) 0 px).formLevels (slotAddr f.desc f.slot) (fieldLE f.desc 0x1C 4)
    (fieldLE f.desc 12 2) (fieldLE f.desc 14 2) 0 (f.desc.getD 6 1 - 1)

/-- The frame in progress at pipe p is `cur`. -/
def State.setFrame (s : State) (p : Nat) (cur : Option SveFrame) : State := s.onPipe p (fun y => { y with cur := cur })

section
variable {s : State} {p : Nat} {f : SveFrame} (hcur : (s.pipe p).cur = some f)
include hcur

/-- Rows behind a poisoned one are not read. -/
theorem State.sveRead_poisoned {a : Nat} (hunread : f.readDone = false)
    (hpoison : f.inputRows.find? (fun a => s.readPoison a f.rowBytes) = some a) : s.sveRead p =
      (((s.readRows f (f.inputRows.takeWhile (fun z => !s.readPoison z f.rowBytes) ++ [a])).setFrame p none).sveDrop p f.job 0x0A21
        (s.short s.now)).pipeBoundary p := by
  unfold SveFrame.inputRows SveFrame.rowBytes at hpoison
  unfold State.sveRead
  simp only [hcur, hunread, hpoison, Bool.false_eq_true, if_false]
  rfl

theorem State.sveRead_clean (hunread : f.readDone = false)
    (hclean : f.inputRows.find? (fun a => s.readPoison a f.rowBytes) = none) : s.sveRead p =
      (((s.readRows f f.inputRows).writePyramid f (s.scaled p f)).setFrame p (some { f with readDone := true })).endDesc f.job.ring f.job.num
        0 (sveBody 0 f.job.ctx f.slot p (s.short s.now)) := by
  unfold SveFrame.inputRows SveFrame.rowBytes at hclean
  unfold State.sveRead
  simp only [hcur, hunread, hclean, Bool.false_eq_true, if_false]
  rfl

end

theorem exec_inputReadComplete {s : State} (t : Nat) {p : Nat} (hon : s.fieldOn = true) (hp : p < 4) :
    exec (.inputReadComplete t p) s = .next ((s.tick t).sveRead p) :=
  congrArg Host.Outcome.next (State.whenOn_instance t State.sveRead hon hp)

/-! ### The frame is handed over (R261, R284) -/

/-- A frame was scaled in stripes: its context allows it and the output is wider than one. -/
def SveFrame.striped (f : SveFrame) : Bool := bitAt (f.desc.getD 1 0) 0 && decide (4096 < fieldLE f.desc 0x0C 2)

/-- A written frame is reported to the Board. -/
def State.reportFrame (s : State) (f : SveFrame) : State :=
  { s with sve := { s.sve with sent := s.sve.sent ++ [(f.job.ctx, s.now, f.slot)] } }

theorem State.sveWritten_written {s : State} {p : Nat} {f : SveFrame} (hcur : (s.pipe p).cur = some f) (hread : f.readDone = true) :
    s.sveWritten p = ((((s.count Reg.SVE_SNAP_FRAMES 1).count Reg.SVE_SNAP_STRIPED (b2n f.striped)).reportFrame f).setFrame p
      none).pipeBoundary p := by
  unfold State.sveWritten
  simp only [hcur, hread, Bool.not_true, Bool.false_eq_true, if_false]
  rfl

theorem exec_sieveFrameWritten {s : State} (t : Nat) {p : Nat} (hon : s.fieldOn = true) (hp : p < 4) :
    exec (.sieveFrameWritten t p) s = .next ((s.tick t).sveWritten p) :=
  congrArg Host.Outcome.next (State.whenOn_instance t State.sveWritten hon hp)

/-- Settles O26: each command is one step of the Sieve at the command's time, by the case that its conditions meet. -/
theorem sieveFrames : Obligations.SieveFrames := by
  unfold Obligations.SieveFrames
  rintro s _ t p hon rfl hp
  refine ⟨?passes, ?refused, ?scales, ?noContext, ?noSlot, ?poisoned, ?clean, ?written⟩
  case passes =>
    intro w d hnext hcode
    rw [exec_sourceFrame t w hon, State.sourceFrame_passes (s := s.tick t) hnext hcode]
    rfl
  case refused =>
    rintro w d _ hnext rfl
    refine ⟨fun hcode => ?notLive, fun hcode => ?guarded, fun hpass hlive hopen => ?other⟩
    case notLive =>
      rw [exec_sourceFrame t w hon, State.sourceFrame_notLive (s := s.tick t) hnext hcode]
      rfl
    case guarded =>
      rw [exec_sourceFrame t w hon, State.sourceFrame_protected (s := s.tick t) hnext hcode]
      rfl
    case other =>
      rw [exec_sourceFrame t w hon, State.sourceFrame_refused (s := s.tick t) hnext hpass hlive hopen]
      rfl
  case scales =>
    intro j rest c k hqueue hst hcur hctx hslot
    rw [exec_sieveFrameStart t hon hp, State.sveStart_scales (s := s.tick t) hqueue hst hcur hctx hslot]
    rfl
  case noContext =>
    intro j rest hqueue hst hcur hctx
    rw [exec_sieveFrameStart t hon hp, State.sveStart_noContext (s := s.tick t) hqueue hst hcur hctx]
    rfl
  case noSlot =>
    intro j rest c hqueue hst hcur hctx hskip
    rw [exec_sieveFrameStart t hon hp, State.sveStart_noSlot (s := s.tick t) hqueue hst hcur hctx (State.freeSlot_none hskip)]
    rfl
  case poisoned =>
    rintro f _ a hcur hunread rfl hpoison
    rw [exec_inputReadComplete t hon hp, State.sveRead_poisoned (s := s.tick t) hcur hunread hpoison]
    rfl
  case clean =>
    rintro f _ _ hcur hunread rfl hclean rfl
    rw [exec_inputReadComplete t hon hp, State.sveRead_clean (s := s.tick t) hcur hunread hclean]
    rfl
  case written =>
    intro f hcur hread
    rw [exec_sieveFrameWritten t hon hp, State.sveWritten_written (s := s.tick t) hcur hread]
    rfl

/-! ### APPLY (R280, R291) -/

theorem bitAt_eq_testBit (w i : Nat) : bitAt w i = w.testBit i := by
  rw [Nat.testBit_eq_decide_div_mod_eq]
  rfl

/-- A bit below 4 that is written 1 is requested, whatever was requested before. -/
theorem bitAt_requested {old v p : Nat} (hp : p < 4) (hv : bitAt v p = true) : bitAt (Nat.lor old (v % 16)) p = true := by
  rw [bitAt_eq_testBit] at hv ⊢
  have hlow : (v % 16).testBit p = true := (Nat.testBit_mod_two_pow v 4 p).trans (by rw [hv, decide_eq_true hp, Bool.and_self])
  exact (Nat.testBit_or old (v % 16) p).trans (by rw [hlow, Bool.or_true])

/-- The pipes requested. -/
abbrev State.applyReqs (s : State) : Nat := s.get F.SVE_APPLY_APPLY

theorem State.applyReqs_lt (s : State) : s.applyReqs < 16 := bitsOf_lt _ 3 0

/-- The bits of `v` are added to the requests. -/
def State.request (s : State) (v : Nat) : State := s.put F.SVE_APPLY_APPLY (Nat.lor s.applyReqs (v % 16))

theorem State.request_applyReqs (s : State) (v : Nat) : (s.request v).applyReqs = Nat.lor s.applyReqs (v % 16) := by
  have hlt : Nat.lor s.applyReqs (v % 16) < 2 ^ 4 := Nat.or_lt_two_pow s.applyReqs_lt (Nat.mod_lt v (by decide))
  exact (State.get_put_same s F.SVE_APPLY_APPLY _ (by decide) (by decide)).trans (Nat.mod_eq_of_lt hlt)

theorem State.setPipe_applyReqs (s : State) (p st : Nat) : (s.setPipe p st).applyReqs = s.applyReqs :=
  (State.get_put_apart _ F.SVE_QUEUE_DEPTH F.SVE_APPLY_APPLY _ (by decide)).trans
    (State.get_put_apart s F.SVE_STATUS_P_STATE F.SVE_APPLY_APPLY _ (by decide))

theorem State.pipeBoundary_requested {s : State} {p : Nat} (hreq : bitAt s.applyReqs p = true) : s.pipeBoundary p = s.setPipe p 2 :=
  if_pos hreq

/-- Pipe p begins to apply where `v` requests it and it stands at a frame boundary. -/
def State.applyStep (v : Nat) (s : State) (p : Nat) : State :=
  if s.pipeSt p ≤ 1 ∧ (s.pipe p).cur = none ∧ bitAt v p = true then s.setPipe p 2 else s

theorem State.applyStep_applyReqs (v : Nat) (s : State) (p : Nat) : (s.applyStep v p).applyReqs = s.applyReqs := by
  unfold State.applyStep
  split
  · exact s.setPipe_applyReqs p 2
  · rfl

theorem State.applySteps_applyReqs (v : Nat) (l : List Nat) (s : State) : (l.foldl (State.applyStep v) s).applyReqs = s.applyReqs := by
  induction l generalizing s with
  | nil => rfl
  | cons p l ih => exact (ih _).trans (State.applyStep_applyReqs v s p)

/-- A pipe whose request stands meets its boundary as one that begins to apply. -/
theorem State.applySteps_eq {v : Nat} (l : List Nat) (s : State) (hreq : ∀ p ∈ l, bitAt v p = true → bitAt s.applyReqs p = true) :
    l.foldl (fun s p => if s.pipeSt p ≤ 1 ∧ (s.pipe p).cur.isNone ∧ bitAt v p = true then s.pipeBoundary p else s) s =
      l.foldl (State.applyStep v) s := by
  induction l generalizing s with
  | nil => rfl
  | cons p l ih =>
    obtain ⟨hp, hl⟩ := List.forall_mem_cons.mp hreq
    have hstep : (if s.pipeSt p ≤ 1 ∧ (s.pipe p).cur.isNone ∧ bitAt v p = true then s.pipeBoundary p else s) = s.applyStep v p := by
      simp only [State.applyStep, Option.isNone_iff_eq_none]
      split
      case isTrue hnow =>
        obtain ⟨-, -, hv⟩ := hnow
        exact State.pipeBoundary_requested (hp hv)
      case isFalse => rfl
    rw [List.foldl_cons, List.foldl_cons, hstep]
    exact ih _ (by rwa [State.applyStep_applyReqs])

theorem State.sveApply_eq (s : State) (v : Nat) : s.sveApply v = [0, 1, 2, 3].foldl (State.applyStep v) (s.request v) := by
  refine State.applySteps_eq [0, 1, 2, 3] (s.request v) fun p hp hv => ?_
  have hlt : p < 4 := by
    simp only [List.mem_cons, List.not_mem_nil, or_false] at hp
    omega
  rw [State.request_applyReqs]
  exact bitAt_requested hlt hv

theorem State.sveApply_applyReqs (s : State) (v : Nat) : (s.sveApply v).applyReqs = Nat.lor s.applyReqs (v % 16) := by
  rw [State.sveApply_eq, State.applySteps_applyReqs, State.request_applyReqs]

theorem exec_sveApply {s : State} (t v : Nat) (hon : s.fieldOn = true) (hd3 : s.hst.d3 = false) :
    exec (.sveApply t v) s = .next ((s.tick t).sveApply v) :=
  congrArg Host.Outcome.next (s.whenHost_eq t _ hon hd3)

/-! ### The tables are copied (R280) -/

/-- The request of pipe p is met. -/
def State.dropRequest (s : State) (p : Nat) : State := s.put F.SVE_APPLY_APPLY (withBits s.applyReqs p p 0)

section
variable {s : State} {p : Nat} (hst : s.pipeSt p = 2)
include hst

theorem State.tableCopy_copies (hok : badPhase (s.pipe p).shadow = none) :
    s.tableCopy p = ((s.dropRequest p).onPipe p (fun y => { y with live := y.shadow })).pipeBoundary p := by
  unfold State.tableCopy
  simp only [hst, hok, ne_eq, not_true_eq_false, if_false]
  rfl

theorem State.tableCopy_refused {q : Nat × Nat} (hbad : badPhase (s.pipe p).shadow = some q) :
    s.tableCopy p = (((s.dropRequest p).event 0x0A12 p q.1 q.2).count Reg.SVE_SNAP_APPLY_REFUSED 1).pipeBoundary p := by
  unfold State.tableCopy
  simp only [hst, hbad, ne_eq, not_true_eq_false, if_false]
  rfl

end

theorem exec_tableCopy {s : State} (t : Nat) {p : Nat} (hon : s.fieldOn = true) (hp : p < 4) :
    exec (.tableCopy t p) s = .next ((s.tick t).tableCopy p) :=
  congrArg Host.Outcome.next (State.whenOn_instance t State.tableCopy hon hp)

/-! ### Table entries are read and written (R291) -/

/-- Entries of a table of a kind: a LUT's nodes of three components, or a bank's coefficients. -/
def tableSize (kind : Nat) : Nat := if kind = 0 then 3075 else 896

/-- The entry selected lies in its table. -/
abbrev State.inTable (s : State) : Prop := s.get F.SVE_TBL_SEL_INDEX < tableSize (s.get F.SVE_TBL_SEL_KIND)

/-- The entry selected, in the pipe's shadow table, holds the low 16 bits of `v`. -/
def State.keepEntry (s : State) (v : Nat) : State :=
  s.onPipe (s.get F.SVE_TBL_SEL_PIPE) (fun y => { y with
    shadow := sparseSet (fun _ => none) y.shadow
      (sveKey (s.get F.SVE_TBL_SEL_KIND) (s.get F.SVE_TBL_SEL_TABLE) (s.get F.SVE_TBL_SEL_INDEX)) (some (v % 65536)) })

/-- The entry selected, in the pipe's shadow table. -/
def State.entry (s : State) : Nat :=
  sveEntry (s.pipe (s.get F.SVE_TBL_SEL_PIPE)).shadow (s.get F.SVE_TBL_SEL_KIND) (s.get F.SVE_TBL_SEL_TABLE) (s.get F.SVE_TBL_SEL_INDEX)

/-- INDEX of `s` advances in `y`. -/
def State.stepIndex (s y : State) : State := y.put F.SVE_TBL_SEL_INDEX ((s.get F.SVE_TBL_SEL_INDEX + 1) % 4096)

theorem State.tblAccess_write (s : State) (v : Nat) : s.tblAccess true v = s.stepIndex (if s.inTable then s.keepEntry v else s) := by
  simp only [State.tblAccess, decide_eq_true_eq, if_true]
  rfl

theorem State.tblAccess_read (s : State) (v : Nat) :
    s.tblAccess false v = s.stepIndex (s.answer (leBytes 4 (if s.inTable then s.entry else 0))) := by
  simp only [State.tblAccess, decide_eq_true_eq, Bool.false_eq_true, if_false]
  rfl

theorem exec_tblDataAccess {s : State} (t : Nat) (write : Bool) (v : Nat) (hon : s.fieldOn = true) (hd3 : s.hst.d3 = false) :
    exec (.tblDataAccess t write v) s = .next ((s.tick t).tblAccess write v) :=
  congrArg Host.Outcome.next (s.whenHost_eq t _ hon hd3)

/-! ### Pipe enables and parity faults (R287, R288, R505) -/

/-- Pipe p follows its bit of the enables `v`: released, left HALTED, or halted. -/
def State.enableStep (v : Nat) (s : State) (p : Nat) : State :=
  if bitAt v p then s.pipeRelease p else if s.pipeSt p = 3 then s else s.pipeHalt p

/-- PIPE_EN is `v`, and every pipe follows it. -/
def State.enablePipes (s : State) (v : Nat) : State := [0, 1, 2, 3].foldl (State.enableStep v) (s.put F.SVE_CTRL_PIPE_EN v)

theorem State.pipeEnWrite_whole {s : State} {v : Nat} (hv : v < 16) (hdomain : s.leftOff 12 = false) :
    s.pipeEnWrite v = s.enablePipes v := by
  simp only [State.pipeEnWrite, hdomain, Bool.false_eq_true, if_false, Nat.mod_eq_of_lt hv]
  rfl

/-- With the second field tile's domain left off, pipes 2 and 3 stay disabled. -/
theorem State.pipeEnWrite_half {s : State} (v : Nat) (hdomain : s.leftOff 12 = true) : s.pipeEnWrite v = s.enablePipes (v % 4) := by
  have hlt : v % 4 < 16 := by omega
  simp only [State.pipeEnWrite, hdomain, if_true, Nat.mod_eq_of_lt hlt]
  rfl

theorem exec_pipeEnWrite {s : State} (t v : Nat) (hon : s.fieldOn = true) (hd3 : s.hst.d3 = false) :
    exec (.pipeEnWrite t v) s = .next ((s.tick t).pipeEnWrite v) :=
  congrArg Host.Outcome.next (s.whenHost_eq t _ hon hd3)

theorem State.pipeParity_idle {s : State} {p : Nat} (hcur : (s.pipe p).cur = none) : s.pipeParity p = s.event 0x0A30 p 0 0 := by
  simp [State.pipeParity, hcur]

theorem State.pipeParity_scaling {s : State} {p : Nat} (hcur : (s.pipe p).cur ≠ none) :
    s.pipeParity p = (s.dropCurrent p 0x0A30).pipeBoundary p :=
  if_pos (Option.isSome_iff_ne_none.mpr hcur)

theorem exec_pipeParityFault {s : State} (t : Nat) {p : Nat} (hon : s.fieldOn = true) (hp : p < 4) :
    exec (.pipeParityFault t p) s = .next ((s.tick t).pipeParity p) :=
  congrArg Host.Outcome.next (State.whenOn_instance t State.pipeParity hon hp)

/-- Settles O27: each command is one step of the Sieve at the command's time, by the case that its conditions meet; no pipe that begins to
apply takes a request away. -/
theorem sieveTablesAndPipes : Obligations.SieveTablesAndPipes := by
  unfold Obligations.SieveTablesAndPipes
  rintro s _ t p hon rfl hp
  refine ⟨?apply, ?requests, ?copies, ?copyRefused, ?write, ?read, ?enables, ?enablesHalf, ?parityIdle, ?parity⟩
  case apply =>
    intro v hd3
    rw [exec_sveApply t v hon hd3, State.sveApply_eq]
    rfl
  case requests =>
    intro v y hd3 hy
    rw [exec_sveApply t v hon hd3] at hy
    cases hy
    exact (s.tick t).sveApply_applyReqs v
  case copies =>
    intro hst hok
    rw [exec_tableCopy t hon hp, State.tableCopy_copies (s := s.tick t) hst hok]
    rfl
  case copyRefused =>
    intro q hst hbad
    rw [exec_tableCopy t hon hp, State.tableCopy_refused (s := s.tick t) hst hbad]
    rfl
  case write =>
    rintro v _ _ _ _ hd3 rfl rfl rfl rfl
    rw [exec_tblDataAccess t true v hon hd3, State.tblAccess_write]
    rfl
  case read =>
    rintro v _ _ _ _ hd3 rfl rfl rfl rfl
    rw [exec_tblDataAccess t false v hon hd3, State.tblAccess_read]
    rfl
  case enables =>
    rintro v _ hd3 hv hdomain rfl
    rw [exec_pipeEnWrite t v hon hd3, State.pipeEnWrite_whole (s := s.tick t) hv hdomain]
    rfl
  case enablesHalf =>
    rintro v _ hd3 _ hdomain rfl
    rw [exec_pipeEnWrite t v hon hd3, State.pipeEnWrite_half (s := s.tick t) v hdomain]
    rfl
  case parityIdle =>
    intro hcur
    rw [exec_pipeParityFault t hon hp, State.pipeParity_idle (s := s.tick t) hcur]
  case parity =>
    intro hcur
    rw [exec_pipeParityFault t hon hp, State.pipeParity_scaling (s := s.tick t) hcur]

end Sys2Proof.Machine
end

section
/-!
SUPPORT. The Trowel: jobs taken, copied through scratch, watermarked and ended (R293 to R300, R302). With them the obligation on Trowel jobs
is settled.
-/

namespace Sys2Proof.Machine

/-! ### Taking a job (R293 to R297) -/

/-- The next job's descriptor runs on ring w, and fences know its tag as taken now. -/
def State.takeJob (s : State) (w : Nat) (d : Desc) : State :=
  ({ s with trw := { s.trw with taken := ⟨(trwFields d.bytes).tag, s.now, none⟩ :: s.trw.taken } } : State).startDesc w d.num

/-- The checks of R295 read the image and the buffers named, which taking a job leaves alone. -/
theorem State.takeJob_trwCode (s : State) (w : Nat) (d : Desc) (b : List Nat) : (s.takeJob w d).trwCode b = s.trwCode b := rfl

/-- A job taken is refused with `code`. -/
def State.refuseJob (s : State) (w : Nat) (d : Desc) (code : Nat) : State :=
  ((s.count Reg.TRW_SNAP_REFUSED 1).event code 0 (trwFields d.bytes).tag 0).endDesc w d.num code
    (trwBody 3 0 code (trwFields d.bytes).tag (s.short s.now) 0)

/-- A job taken is the current one, its method shown and no row of it written. -/
def State.runJob (s : State) (w : Nat) (d : Desc) : State :=
  ((({ s with trw := { s.trw with cur := some { ring := w, num := d.num, bytes := d.bytes, method := (trwFields d.bytes).method } } }
    : State).put F.TRW_STATUS_STATE (if (trwFields d.bytes).method = 2 then 2 else 1)).put F.TRW_STATUS_METHOD
      (trwFields d.bytes).method).put F.TRW_STATUS_ROWS 0

/-- An idle Trowel takes the next job with the command of its OP, and one whose OP is reserved with any. -/
theorem State.trwTake_idle {s : State} {op w : Nat} {d : Desc} (hnext : s.trwNext = some (w, d)) (hidle : s.trwSt = 0)
    (hop : (trwFields d.bytes).op = op ∨ ¬ (1 ≤ (trwFields d.bytes).op ∧ (trwFields d.bytes).op ≤ 4)) : s.trwTake op =
      if (s.takeJob w d).trwCode d.bytes ≠ 0 then (s.takeJob w d).refuseJob w d ((s.takeJob w d).trwCode d.bytes)
      else (s.takeJob w d).runJob w d := by
  have hmine : ¬ (s.trwSt ≠ 0 ∨ ((trwFields d.bytes).op ≠ op ∧ 1 ≤ (trwFields d.bytes).op ∧ (trwFields d.bytes).op ≤ 4)) := by
    rintro (hst | ⟨hother, hrange⟩)
    · exact hst hidle
    · exact hop.elim hother (· hrange)
  rw [State.takeJob_trwCode]
  unfold State.trwTake
  simp only [hnext, hmine, if_false]
  rfl

theorem exec_trwTake {s : State} {t op : Nat} {i : Instr} (hon : s.fieldOn = true)
    (hi : (i, op) ∈ [(Instr.copy t, 1), (Instr.fill t, 2), (Instr.blend t, 3), (Instr.reduce t, 4)]) :
    exec i s = .next ((s.tick t).trwTake op) := by
  simp only [List.mem_cons, Prod.mk.injEq, List.not_mem_nil, or_false] at hi
  obtain ⟨rfl, rfl⟩ | ⟨rfl, rfl⟩ | ⟨rfl, rfl⟩ | ⟨rfl, rfl⟩ := hi <;> exact congrArg Host.Outcome.next (s.whenOn_eq t _ hon)

/-! ### The copy to scratch (R296, R300) -/

/-- The spans of a job's source rows. -/
def TrwJob.sourceRows (j : TrwJob) : List (Nat × Nat) :=
  (List.range (trwFields j.bytes).h).map (fun r =>
    ((trwFields j.bytes).src + (trwFields j.bytes).spitch * r, (trwFields j.bytes).elem * (trwFields j.bytes).w))

section
variable {s : State} {j : TrwJob} (hcur : s.trw.cur = some j)
include hcur

section
variable (hst : s.trwSt = 2)
include hst

theorem State.trwScratch_clean (hclean : j.sourceRows.find? (fun q => s.readPoison q.1 q.2) = none) : s.trwScratch =
    (((s.noteReads 8 j.sourceRows).store 8 (s.regionBase 0x0130) (j.sourceRows.flatMap (fun q => s.read q.1 q.2))).trwShow
      { j with copied := true }).put F.TRW_STATUS_STATE 1 := by
  unfold TrwJob.sourceRows at hclean
  unfold State.trwScratch
  simp only [hcur, hst, hclean, ne_eq, not_true_eq_false, if_false]
  rfl

theorem State.trwScratch_poisoned {q : Nat × Nat} (hpoison : j.sourceRows.find? (fun q => s.readPoison q.1 q.2) = some q) :
    s.trwScratch = (s.noteReads 8 (j.sourceRows.takeWhile (fun q => !s.readPoison q.1 q.2) ++ [q])).trwEnd j 0x0B20 := by
  unfold TrwJob.sourceRows at hpoison
  unfold State.trwScratch
  simp only [hcur, hst, hpoison, ne_eq, not_true_eq_false, if_false]
  rfl

end

/-! ### The watermark and the end (R297, R298, R300) -/

variable {y : State} {j1 : TrwJob} {bad : Bool} (hst : s.trwSt = 1)
include hst

theorem State.trwWatermarkEv_eq (hunmarked : j.marked = false) (hmark : (trwFields j.bytes).mark ≠ 0xFFFF)
    (hrun : s.trwRun j (j.markRows - j.rows) = (y, j1, bad)) :
    s.trwWatermarkEv = if bad then (y.trwShow j1).trwEnd j1 0x0B20 else y.trwMark j1 := by
  unfold State.trwWatermarkEv
  simp only [hcur, hst, hunmarked, hmark, hrun, ne_eq, not_true_eq_false, Bool.false_eq_true, or_self, if_false]

theorem State.trwDone_eq (hrun : s.trwRun j ((trwFields j.bytes).rows.length - j.rows) = (y, j1, bad)) :
    s.trwDone = ((y.trwMarkIf j1).trwShow j1).trwEnd j1 (if bad then 0x0B20 else 0) := by
  unfold State.trwDone
  simp only [hcur, hst, hrun, ne_eq, not_true_eq_false, if_false]

end

theorem exec_scratchCopied {s : State} (t : Nat) (hon : s.fieldOn = true) : exec (.scratchCopied t) s = .next (s.tick t).trwScratch :=
  congrArg Host.Outcome.next (s.whenOn_eq t _ hon)

theorem exec_watermark {s : State} (t : Nat) (hon : s.fieldOn = true) : exec (.watermark t) s = .next (s.tick t).trwWatermarkEv :=
  congrArg Host.Outcome.next (s.whenOn_eq t _ hon)

theorem exec_trwJobDone {s : State} (t : Nat) (hon : s.fieldOn = true) : exec (.trwJobDone t) s = .next (s.tick t).trwDone :=
  congrArg Host.Outcome.next (s.whenOn_eq t _ hon)

/-- Settles O28: each command is one step of the Trowel at the command's time, by the case that its conditions meet. -/
theorem trowelJobs : Obligations.TrowelJobs := by
  unfold Obligations.TrowelJobs
  refine ⟨?take, ?scratch, ?scratchPoisoned, ?watermark, ?done⟩
  case take =>
    rintro s _ t op w i d hi hon hnext hidle hop rfl
    rw [exec_trwTake hon hi, State.trwTake_idle (s := s.tick t) hnext hidle hop]
    rfl
  case scratch =>
    rintro s _ t j _ _ hon rfl hcur rfl rfl hst hclean
    rw [exec_scratchCopied t hon, State.trwScratch_clean (s := s.tick t) hcur hst hclean]
    rfl
  case scratchPoisoned =>
    rintro s _ t j _ q _ hon rfl hcur rfl hst rfl hpoison
    rw [exec_scratchCopied t hon, State.trwScratch_poisoned (s := s.tick t) hcur hst hpoison]
    rfl
  case watermark =>
    rintro s _ y t j j1 bad hon rfl hcur hst hunmarked hmark hrun
    rw [exec_watermark t hon, State.trwWatermarkEv_eq (s := s.tick t) hcur hst hunmarked hmark hrun]
  case done =>
    rintro s _ y t j j1 bad hon rfl hcur hst hrun
    rw [exec_trwJobDone t hon, State.trwDone_eq (s := s.tick t) hcur hst hrun]
    rfl

end Sys2Proof.Machine
end

section
/-!
SUPPORT. The raster's timing: frame starts, lines and the marks that follow them, stamped edges, and the timeouts of the reference and of TE
(R306 to R325, R349, R350, R450). With them the obligation on raster timing is settled.
-/

namespace Sys2Proof.Machine

/-! ### What leaves the raster and its lines as they are -/

/-- `u` has the raster of `s`, the lines of `s` that wait for their marks, and the latest mark and the grid of `s`. -/
structure State.sameLines (s u : State) : Prop where
  out : u.out = s.out
  lines : u.tlk.lines = s.tlk.lines
  mark : u.tlk.mark = s.tlk.mark
  grid : u.tlk.grid = s.tlk.grid

theorem State.sameLines_refl (s : State) : s.sameLines s := ⟨rfl, rfl, rfl, rfl⟩

theorem State.sameLines.trans {s u v : State} (h : s.sameLines u) (h' : u.sameLines v) : s.sameLines v :=
  ⟨h'.out.trans h.out, h'.lines.trans h.lines, h'.mark.trans h.mark, h'.grid.trans h.grid⟩

/-- A step that touches neither the raster nor the link. -/
theorem State.sameLines_of_tlk {s u : State} (hout : u.out = s.out) (htlk : u.tlk = s.tlk) : s.sameLines u :=
  ⟨hout, by rw [htlk], by rw [htlk], by rw [htlk]⟩

theorem State.sameLines_foldl {α : Type} {f : State → α → State} (hf : ∀ (v : State) (a : α), v.sameLines (f v a))
    (s : State) (l : List α) : s.sameLines (l.foldl f s) :=
  List.foldlRecOn l f s.sameLines_refl fun v hv a _ => hv.trans (hf v a)

theorem State.sameLines_ite {s u v : State} {p : Prop} [Decidable p] (hu : s.sameLines u) (hv : s.sameLines v) :
    s.sameLines (if p then u else v) := by
  split
  · exact hu
  · exact hv

/-! ### Groups and segments -/

theorem State.onGroup_sameLines (s : State) (n : Nat) (f : TlkGroup → TlkGroup) : s.sameLines (s.onGroup n f) := ⟨rfl, rfl, rfl, rfl⟩

theorem State.setGroup_sameLines (s : State) (n st : Nat) : s.sameLines (s.setGroup n st) := ⟨rfl, rfl, rfl, rfl⟩

theorem State.setSeg_sameLines (s : State) (st k sig pol : Nat) (valid : Bool) : s.sameLines (s.setSeg st k sig pol valid) := by
  unfold State.setSeg
  split
  · exact State.sameLines_of_tlk (s.store_out _ _ _) (s.store_tlk _ _ _)
  · exact ⟨rfl, rfl, rfl, rfl⟩

theorem State.clearSeg_sameLines (s : State) (st k : Nat) : s.sameLines (s.clearSeg st k) := s.setSeg_sameLines st k _ _ false

theorem State.put_sameLines (s : State) (f : Fld) (v : Nat) : s.sameLines (s.put f v) := ⟨rfl, rfl, rfl, rfl⟩

theorem State.count_sameLines (s : State) (reg n : Nat) : s.sameLines (s.count reg n) := ⟨rfl, rfl, rfl, rfl⟩

theorem State.event_sameLines (s : State) (c i a b : Nat) : s.sameLines (s.event c i a b) := ⟨rfl, rfl, rfl, rfl⟩

theorem State.eventOnce_sameLines (s : State) (c k i a b : Nat) : s.sameLines (s.eventOnce c k i a b) :=
  State.sameLines_of_tlk (s.eventOnce_out c k i a b) (s.eventOnce_tlk c k i a b)

/-! ### The memory's tolerance (R328) -/

theorem State.countSleep_sameLines (s : State) (c r : Nat) : s.sameLines (s.countSleep c r) := by
  unfold State.countSleep
  dsimp only
  cases (s.rank c r).st <;> exact ⟨rfl, rfl, rfl, rfl⟩

theorem State.wakeRank_sameLines (s : State) (c r : Nat) : s.sameLines (s.wakeRank c r) := by
  unfold State.wakeRank
  exact State.sameLines_ite s.sameLines_refl ((s.countSleep_sameLines c r).trans ⟨rfl, rfl, rfl, rfl⟩)

theorem State.wakeBelow_sameLines (ns : Nat) (l : List (Nat × Nat)) (s : State) : s.sameLines (s.wakeBelow ns l) := by
  induction l generalizing s with
  | nil => exact s.sameLines_refl
  | cons q l ih => exact (State.sameLines_ite (s.wakeRank_sameLines q.1 q.2) s.sameLines_refl).trans (ih _)

theorem State.setTolerance_sameLines (s : State) (ns : Nat) : s.sameLines (s.setTolerance ns) := by
  unfold State.setTolerance
  refine State.sameLines.trans ?_ (State.wakeBelow_sameLines ns allRanks _)
  exact ⟨rfl, rfl, rfl, rfl⟩

theorem State.fullTolerance_sameLines (s : State) : s.sameLines s.fullTolerance := by
  unfold State.fullTolerance
  exact (s.put_sameLines _ _).trans (State.setTolerance_sameLines _ _)

theorem State.stateTolerance_sameLines (s : State) (b : Nat) : s.sameLines (s.stateTolerance b) := by
  unfold State.stateTolerance
  dsimp only
  refine State.sameLines.trans (State.sameLines.trans ?_ (State.put_sameLines _ _ _)) (State.setTolerance_sameLines _ _)
  split <;> exact ⟨rfl, rfl, rfl, rfl⟩

/-! ### The packets of a line (R346, R350, R351) -/

theorem State.noteHold_sameLines (s : State) (n g : Nat) : s.sameLines (s.noteHold n g) := by
  unfold State.noteHold
  exact State.sameLines_ite (s.onGroup_sameLines g _) s.sameLines_refl

theorem State.directRow_sameLines (s : State) (n : Nat) (x : Rat) (bad : List (Nat × Nat)) (g : Nat) :
    s.sameLines (s.directRow n x bad g).2 := by
  unfold State.directRow
  dsimp only
  split
  · exact s.sameLines_refl
  · split
    · exact s.eventOnce_sameLines _ _ _ _ _
    · split <;> exact ⟨rfl, rfl, rfl, rfl⟩

theorem State.setTeBand_sameLines (s : State) (b : TeBand) : s.sameLines (s.setTeBand b) := ⟨rfl, rfl, rfl, rfl⟩

theorem State.teTear_sameLines (s : State) (b : TeBand) (row : Nat) : s.sameLines (s.teTear b row) := by
  unfold State.teTear
  exact State.sameLines_ite s.sameLines_refl
    (((s.count_sameLines _ _).trans (State.eventOnce_sameLines _ _ _ _ _ _)).trans (State.setTeBand_sameLines _ _))

theorem State.teDelay_sameLines (s : State) (b : TeBand) : s.sameLines (s.teDelay b) := by
  unfold State.teDelay
  exact State.sameLines_ite s.sameLines_refl ((s.count_sameLines _ _).trans (State.setTeBand_sameLines _ _))

theorem State.teCheck_sameLines (s : State) (u : Update) : s.sameLines (s.teCheck u).2 := by
  unfold State.teCheck
  dsimp only
  split
  · exact s.sameLines_refl
  · split
    · exact s.teTear_sameLines _ _
    · split
      · exact s.sameLines_refl
      · split
        · exact s.setTeBand_sameLines _
        · split
          · exact s.teDelay_sameLines _
          · exact s.teTear_sameLines _ _

theorem State.sendUpdate_sameLines (bad : List (Nat × Nat)) (u : Update) (l : List (Nat × Nat × Nat × Nat)) (s : State) (skip : Option Nat)
    (cap : Nat) : s.sameLines (s.sendUpdate bad u skip l cap).2.2.2.2 := by
  induction l generalizing s skip cap with
  | nil => exact s.sameLines_refl
  | cons q l ih =>
    have clear (v : State) (k : List Nat) : v.sameLines (k.foldl (fun s k => s.clearSeg u.state k) v) :=
      State.sameLines_foldl (fun w k => w.clearSeg_sameLines u.state k) v k
    unfold State.sendUpdate
    dsimp only
    split
    · exact s.sameLines_refl
    · split
      · exact (clear s _).trans (ih _ _ _)
      · split
        · split
          · exact s.sameLines_refl
          · exact (((s.count_sameLines _ _).trans (State.event_sameLines _ _ _ _ _)).trans (clear _ _)).trans (ih _ _ _)
        · split
          · exact s.sameLines_refl
          · exact ih _ _ _

theorem State.sendUpdates_sameLines (bad : List (Nat × Nat)) (g : Nat) (l : List Update) (s : State) (held : List Update) (cap : Nat)
    (full : Bool) : s.sameLines (s.sendUpdates bad g l held cap full).2.2 := by
  induction l generalizing s held cap full with
  | nil => exact s.sameLines_refl
  | cons u l ih =>
    unfold State.sendUpdates
    dsimp only
    split
    · exact ih _ _ _ _
    · split
      · exact ih _ _ _ _
      · split
        · exact (s.teCheck_sameLines u).trans (ih _ _ _ _)
        · exact ((s.teCheck_sameLines u).trans (State.sendUpdate_sameLines bad _ _ _ _ _)).trans (ih _ _ _ _)

theorem State.changedRows_sameLines (s : State) (bad : List (Nat × Nat)) (cap g : Nat) : s.sameLines (s.changedRows bad cap g).2 :=
  (State.sendUpdates_sameLines bad g s.pnl.updates s [] cap false).trans ⟨rfl, rfl, rfl, rfl⟩

theorem State.groupLine_sameLines (s : State) (n : Nat) (x : Rat) (bad : List (Nat × Nat)) (g : Nat) :
    s.sameLines (s.groupLine n x bad g).2 := by
  unfold State.groupLine
  dsimp only
  split
  · exact s.sameLines_refl
  · split
    · exact s.sameLines_refl
    · dsimp only
      split
      · exact s.changedRows_sameLines bad _ g
      · split
        · exact s.directRow_sameLines n x bad g
        · exact s.sameLines_refl

theorem State.groupLines_sameLines (n : Nat) (x : Rat) (bad : List (Nat × Nat)) (l : List Nat) (s : State) :
    s.sameLines (s.groupLines n x bad l).2 := by
  induction l generalizing s with
  | nil => exact s.sameLines_refl
  | cons g l ih => exact (s.groupLine_sameLines n x bad g).trans (ih _)

/-! ### A line begins (R346, R349, R350) -/

/-- When the next line of the frame in progress begins. -/
def State.nextLineAt (s : State) : Rat := s.out.start + (s.out.line : Rat) * s.out.period / ((modeAt s.out.mode).vtotal : Rat)

/-- The raster goes on to its next line. -/
def State.beginLine (s : State) : State := { s with out := { s.out with line := s.out.line + 1 } }

/-- A line with its packets waits for its mark. -/
def State.queueLine (s : State) (l : LinkLine) : State := { s with tlk := { s.tlk with lines := s.tlk.lines ++ [l] } }

/-- The next line as it is decided when it begins. -/
def State.decidedLine (s : State) (ps : List Packet) : LinkLine := ⟨s.out.line, s.frameNo, s.nextLineAt, s.holdAll, ps⟩

theorem State.lineStart_early {s : State} (corr : Nat) (bad : List (Nat × Nat)) (h : (s.now : Rat) < s.nextLineAt ∨ s.out.running = false) :
    s.lineStart corr bad = s := by
  unfold State.lineStart
  exact if_pos (h.elim (fun hearly => .inr (.inr hearly)) .inl)

/-- A line that is due begins: the raster counts it, and it waits for its mark as it was decided. -/
theorem State.lineStart_due {s : State} (corr : Nat) (bad : List (Nat × Nat)) (hrun : s.out.running = true)
    (hline : s.out.line < (modeAt s.out.mode).vtotal) (hdue : s.nextLineAt ≤ (s.now : Rat)) :
    ∃ ps, (s.beginLine.queueLine (s.decidedLine ps)).sameLines (s.lineStart corr bad) := by
  unfold State.lineStart
  extract_lets n v x q rows out s0 s1 s1' s1'' r old line due tlk s2 s3 pnl
  have hgo : ¬ (s.out.running = false ∨ v ≤ n ∨ (s.now : Rat) < x) := by
    rintro (hoff | hlast | hearly)
    · simp [hrun] at hoff
    · exact absurd hline hlast.not_gt
    · exact absurd hdue hearly.not_ge
  have htol : s0.sameLines s1 := (State.sameLines_ite (s0.stateTolerance_sameLines _) s0.sameLines_refl).trans (State.count_sameLines _ _ _)
  have hext : s1.sameLines s1' := State.sameLines_ite s1.fullTolerance_sameLines s1.sameLines_refl
  have hhold : s1'.sameLines s1'' :=
    State.sameLines_ite (State.sameLines_foldl (fun u g => u.noteHold_sameLines n g) s1' _) s1'.sameLines_refl
  have hformed : s0.sameLines old := ((htol.trans hext).trans hhold).trans (State.groupLines_sameLines n x bad _ s1'')
  -- How the packets were formed no longer matters: only `hformed` is used of it.
  clear_value r
  have hqueued : (s0.queueLine line).sameLines s2 :=
    ⟨hformed.out, congrArg (· ++ [line]) hformed.lines, hformed.mark, hformed.grid⟩
  have hgroups : s2.sameLines s3 :=
    State.sameLines_foldl (fun u g => State.sameLines_ite (u.setGroup_sameLines g 6) u.sameLines_refl) s2 _
  have hissued := hqueued.trans hgroups
  refine ⟨r.1, ?_⟩
  rw [if_neg hgo]
  clear_value due s3
  cases due with
  | none => exact hqueued
  | some ph => exact ⟨hissued.out, hissued.lines, hissued.mark, hissued.grid⟩

/-! ### A line's mark leaves (R340, R342, R349) -/

/-- The oldest line's mark leaves at `w` and no line but `rest` waits: T_PIPE shows the delay. -/
def State.markLine (s : State) (l : LinkLine) (rest : List LinkLine) (w : Rat) : State :=
  ({ s with tlk := { s.tlk with lines := rest, mark := some (l.line, l.frame % 2 ^ 32, b2n l.holdAll), sent := [], grid := some w } }
    : State).put F.TLK_DELAY_T_PIPE (min 0xFFFF ((w - l.start) / 16).floor.toNat)

/-- The mark's row, the line's packets and the IDLE rows behind them go out on the groups `on`. -/
def State.sendLine (s : State) (l : LinkLine) (w : Rat) (on : List Nat) : State :=
  on.foldl State.sendIdle ((on.foldl (fun s n => s.sendMark l.line (l.frame % 2 ^ 32) (b2n l.holdAll) w n) s).sendPackets
    (l.packets.filter (fun p => on.contains p.group)))

theorem State.lineMark_due {s : State} {l : LinkLine} {rest : List LinkLine} (hlines : s.tlk.lines = l :: rest)
    (hdue : s.markAt l ≤ (s.now : Rat)) : s.lineMark =
      ((((s.markLine l rest (s.markAt l)).sendLine l (s.markAt l) s.markGroups).tlk.sent).foldl State.packetLeft
        ((s.markLine l rest (s.markAt l)).sendLine l (s.markAt l) s.markGroups)).settleUpdates := by
  unfold State.lineMark
  rw [hlines]
  exact if_neg hdue.not_gt

theorem State.sendPackets_sameLines (l : List Packet) (s : State) : s.sameLines (s.sendPackets l) := by
  induction l generalizing s with
  | nil => exact s.sameLines_refl
  | cons p l ih =>
    unfold State.sendPackets
    refine State.sameLines.trans ?_ (ih _)
    exact ⟨rfl, rfl, rfl, rfl⟩

theorem State.sendMark_sameLines (s : State) (line frame flags : Nat) (x : Rat) (n : Nat) : s.sameLines (s.sendMark line frame flags x n) :=
  ⟨rfl, rfl, rfl, rfl⟩

theorem State.sendLine_sameLines (s : State) (l : LinkLine) (w : Rat) (on : List Nat) : s.sameLines (s.sendLine l w on) := by
  have hmarks : s.sameLines (on.foldl (fun s n => s.sendMark l.line (l.frame % 2 ^ 32) (b2n l.holdAll) w n) s) :=
    State.sameLines_foldl (fun v n => v.sendMark_sameLines _ _ _ _ n) s on
  exact (hmarks.trans (State.sendPackets_sameLines _ _)).trans (State.sameLines_foldl (fun v n => v.onGroup_sameLines n _) _ on)

theorem State.packetLeft_sameLines (s : State) (p : Packet) : s.sameLines (s.packetLeft p) := by
  unfold State.packetLeft
  split
  · dsimp only
    have hsegs : ∀ (v : State) (q : Nat × Nat), v.sameLines (match p.sigs[q.2]? with
        | some sig => v.setSeg (bitsOf p.flags 1 1) q.1 sig (p.flags % 2) true
        | none => v.setSeg (bitsOf p.flags 1 1) q.1 0 (p.flags % 2) false) := by
      intro v q
      split <;> exact v.setSeg_sameLines _ _ _ _ _
    have hleft := (s.count_sameLines Reg.TLK_SNAP_LINES 1).trans (State.sameLines_foldl hsegs _ (upFrom p.seg0 p.nseg).zipIdx)
    exact State.sameLines_ite hleft ((hleft.trans (State.count_sameLines _ _ _)).trans (State.count_sameLines _ _ _))
  all_goals exact ⟨rfl, rfl, rfl, rfl⟩

/-- A mark that is due leaves: the lines behind it wait, and the grid runs through it. -/
theorem State.lineMark_marks {s : State} {l : LinkLine} {rest : List LinkLine} (hlines : s.tlk.lines = l :: rest)
    (hdue : s.markAt l ≤ (s.now : Rat)) : (s.markLine l rest (s.markAt l)).sameLines s.lineMark := by
  rw [State.lineMark_due hlines hdue]
  exact ((State.sendLine_sameLines _ l _ _).trans (State.sameLines_foldl State.packetLeft_sameLines _ _)).trans ⟨rfl, rfl, rfl, rfl⟩

/-! ### Stamped edges (R450) -/

/-- An edge at input `src` falls within 50 ns of an accepted one. -/
def State.deadTime (s : State) (src : Nat) : Bool := s.tim.edges.any (fun e => e.1 == src && decide (s.now < e.2 + 50 * tickNs))

/-- The accepted edge at input `src` is remembered. -/
def State.noteEdge (s : State) (src : Nat) : State := { s with tim := { s.tim with edges := assocSet src s.now s.tim.edges } }

/-- The edge is captured where the capture of input `src` is on. -/
def State.captureEdge (s : State) (src : Nat) (rising : Bool) : State :=
  if s.capOn src then s.capture src (b2n rising) 0 (s.full s.now) else s

theorem State.stampEdge_dead {s : State} {src : Nat} (rising : Bool) (take : State → State) (h : s.dueActions.deadTime src = true) :
    s.stampEdge src rising take = s.dueActions.count Reg.TIM_SNAP_CAP_DEAD 1 := if_pos h

theorem State.stampEdge_live {s : State} {src : Nat} (rising : Bool) (take : State → State) (h : s.dueActions.deadTime src = false) :
    s.stampEdge src rising take = take ((s.dueActions.noteEdge src).captureEdge src rising) :=
  if_neg (Bool.eq_false_iff.mp h)

theorem exec_syncInEdge {s : State} (t : Nat) (hon : s.fieldOn = true) : exec (.syncInEdge t) s =
    .next ((s.tick t).stampEdge 0 (s.tick t).syncRising (fun s => s.syncEdge s.now)) :=
  congrArg Host.Outcome.next (s.whenOn_eq t _ hon)

theorem exec_syncInOtherPolarityEdge {s : State} (t : Nat) (hon : s.fieldOn = true) : exec (.syncInOtherPolarityEdge t) s =
    .next ((s.tick t).stampEdge 0 (!(s.tick t).syncRising) id) :=
  congrArg Host.Outcome.next (s.whenOn_eq t _ hon)

theorem exec_teEdge {s : State} (t : Nat) (hon : s.fieldOn = true) : exec (.teEdge t) s =
    .next ((s.tick t).stampEdge 2 true (fun s => s.teEdge s.now)) :=
  congrArg Host.Outcome.next (s.whenOn_eq t _ hon)

/-! ### Frame starts (R306, R368) -/

/-- A frame ends with a sweep where the panel is in black, running or discharging. -/
def State.sweepAtEnd (s : State) : Bool := s.out.running && !s.pnl.sweepOff && (s.pnlSt == 1 || s.pnlSt == 2 || s.pnlSt == 4)

theorem State.frameStart_due {s : State} {g : Genlock} (hgen : s.out.gen = some g) (hdue : s.frameDue = true) : s.frameStart =
    (({ (if s.sweepAtEnd then s.sweep 1 else s) with
      pnl := { (if s.sweepAtEnd then s.sweep 1 else s).pnl with sweepDue := s.sweepAtEnd } } : State).frameBegin g).panelFrame := by
  unfold State.frameStart
  rw [hgen]
  exact if_neg (by simp [hdue])

/-! ### The reference and TE are missed (R314, R319, R325) -/

theorem State.referenceLoss_due {s : State} {g : Genlock} {a : Nat} (hgen : s.out.gen = some g) (hsync : g.sync = true)
    (hlock : s.lock = 1 ∨ s.lock = 2) (hedge : s.out.lastEdge = some a) (hdue : (a : Rat) + 2 * g.tref + g.win ≤ (s.now : Rat)) :
    s.referenceLoss = s.refLost := by
  unfold State.referenceLoss
  rw [hgen, hedge]
  exact if_pos ⟨hsync, hlock, decide_eq_true hdue⟩

theorem State.acquireTimeout_due {s : State} {g : Genlock} (hgen : s.out.gen = some g) (hlock : s.lock = 0) (hfree : s.out.sched = false)
    (hdue : s.sho.firstAt + 2 * tickS ≤ s.now) : s.acquireTimeout =
      { s with out := { s.out with sched := true, next := (s.ptpGrid g s.out.nmode 0).from (s.now : Rat) } } := by
  unfold State.acquireTimeout
  rw [hgen]
  exact if_pos ⟨hlock, hfree, hdue⟩

theorem State.teTimeout_due {s : State} {a : Nat} (hlast : s.out.lastTe = some a) (hen : s.flag F.OUT_TE_TE_EN = true)
    (hints : s.out.teInts ≠ []) (hlost : s.flag F.OUT_LOCK_TE_LOST = false) (hdue : (a : Rat) + 3 * s.pTe ≤ (s.now : Rat)) :
    s.teTimeout = { (s.put F.OUT_LOCK_TE_LOST 1).event 0x0C20 0 0 0 with out := { s.out with teGood := 0 } } := by
  unfold State.teTimeout
  rw [hlast]
  exact if_pos ⟨hen, hints, hlost, hdue⟩

/-- Settles O29: each command is one step of the raster, the link or the time unit at the command's time, by the case that its conditions
meet. -/
theorem rasterTiming : Obligations.RasterTiming := by
  unfold Obligations.RasterTiming
  rintro s _ t hon rfl
  refine ⟨?frame, ?early, ?line, ?mark, ?packets, ?edge, ?dead, ?loss, ?acquire, ?te, ?delayed⟩
  case frame =>
    rintro g _ _ hgen hdue rfl rfl
    exact congrArg Host.Outcome.next ((s.whenOn_eq t _ hon).trans (State.frameStart_due (s := s.tick t) hgen hdue))
  case early =>
    rintro corr bad h
    exact congrArg Host.Outcome.next ((s.whenOn_eq t _ hon).trans (State.lineStart_early (s := s.tick t) corr bad h))
  case line =>
    rintro corr bad hrun hline hdue
    obtain ⟨ps, hqueued⟩ := State.lineStart_due (s := s.tick t) corr bad hrun hline hdue
    exact ⟨_, (s.tick t).decidedLine ps, congrArg Host.Outcome.next (s.whenOn_eq t _ hon), congrArg OutState.line hqueued.out, hqueued.lines,
      rfl, rfl, rfl, rfl⟩
  case mark =>
    rintro l rest hlines hdue
    have hmarked := State.lineMark_marks (s := s.tick t) hlines hdue
    exact ⟨_, congrArg Host.Outcome.next (s.whenOn_eq t _ hon), hmarked.lines, hmarked.mark, hmarked.grid⟩
  case packets =>
    rintro l rest _ _ _ hlines rfl hdue rfl rfl
    exact congrArg Host.Outcome.next ((s.whenOn_eq t _ hon).trans (State.lineMark_due (s := s.tick t) hlines hdue))
  case edge =>
    rintro src rising _ _ _ _ rfl hlive rfl rfl
    refine ⟨?_, ?_, ?_⟩
    · rintro rfl rfl
      rw [exec_syncInEdge t hon, State.stampEdge_live _ _ hlive]
      rfl
    · rintro rfl rfl
      rw [exec_syncInOtherPolarityEdge t hon, State.stampEdge_live _ _ hlive]
      rfl
    · rintro rfl rfl
      rw [exec_teEdge t hon, State.stampEdge_live _ _ hlive]
      rfl
  case dead =>
    rintro _ rfl hdead
    exact ⟨(exec_syncInEdge t hon).trans (congrArg Host.Outcome.next (State.stampEdge_dead _ _ hdead)),
      (exec_syncInOtherPolarityEdge t hon).trans (congrArg Host.Outcome.next (State.stampEdge_dead _ _ hdead))⟩
  case loss =>
    rintro g a hgen hsync hlock hedge hdue
    exact congrArg Host.Outcome.next
      ((s.whenOn_eq t _ hon).trans (State.referenceLoss_due (s := s.tick t) hgen hsync hlock hedge hdue))
  case acquire =>
    rintro g hgen hlock hfree hdue
    exact congrArg Host.Outcome.next ((s.whenOn_eq t _ hon).trans (State.acquireTimeout_due (s := s.tick t) hgen hlock hfree hdue))
  case te =>
    rintro a hlast hen hints hlost hdue
    exact congrArg Host.Outcome.next ((s.whenOn_eq t _ hon).trans (State.teTimeout_due (s := s.tick t) hlast hen hints hlost hdue))
  case delayed =>
    rw [show exec (.teDelayedSend t) s = .next (s.tick t).teDelayed from congrArg Host.Outcome.next (s.whenOn_eq t _ hon)]
    rfl

end Sys2Proof.Machine
end

section
/-!
SUPPORT. The link's groups: detection, training, the exchange, the backchannel's messages, retraining and discharge, and pad read-back
(R354 to R361). With them the obligation on the groups of the link is settled.
-/

namespace Sys2Proof.Machine

/-! ### Commands that name a group -/

theorem State.groupCommand_next {s u : State} (t : Nat) {n : Nat} (f : State → Nat → State) (hon : s.fieldOn = true) (hn : n < 8)
    (hu : f (s.tick t) n = u) : (Host.Outcome.next (s.whenOn t (fun s => f s (n % 8))) : Out) = .next u :=
  congrArg Host.Outcome.next ((State.whenOn_instance t f hon hn).trans hu)

/-! ### Detection (R354) -/

section
variable {s : State} {n : Nat}

/-- Group n shows the lanes that sense their terminations. -/
def State.showDetected (s : State) (n mask : Nat) : State := s.put (F.TLK_GROUP_STATUS_LANE_DETECT.nth n) mask

theorem State.terminationSensed_all (hdetect : s.tlkSt n = 1) : s.terminationSensed n 0x3F = (s.showDetected n 0x3F).toPattern n :=
  if_pos ⟨hdetect, rfl⟩

theorem State.terminationSensed_other (mask : Nat) (hother : s.tlkSt n ≠ 1) : s.terminationSensed n mask = s.showDetected n mask :=
  if_neg fun ⟨hdetect, _⟩ => hother hdetect

theorem State.detectTimeout_due (hdetect : s.tlkSt n = 1) (hdue : (s.tlkGroup n).since + 10 * tickMs ≤ s.now)
    (hfirst : (s.tlkGroup n).detectLogged = false) :
    s.detectTimeout n = (s.event 0x0D10 0 n 0).onGroup n (fun g => { g with detectLogged := true }) :=
  if_pos ⟨hdetect, hdue, hfirst⟩

theorem State.detectRetry_due (hdetect : s.tlkSt n = 1) (hdue : (s.tlkGroup n).since + 100 * tickMs ≤ s.now) :
    s.detectRetry n = s.setGroup n 1 :=
  if_pos ⟨hdetect, hdue⟩

/-! ### Training (R354) -/

theorem State.symbolLock_pattern (hpattern : s.tlkSt n = 2) :
    s.symbolLock n = ((s.put (F.TLK_GROUP_STATUS_BC_LOCK.nth n) 1).laneLock n).setGroup n 3 :=
  if_pos hpattern

theorem State.patternTimeout_due (hpattern : s.tlkSt n = 2) (hunlocked : s.flag (F.TLK_GROUP_STATUS_BC_LOCK.nth n) = false)
    (hdue : (s.tlkGroup n).since + 5 * tickMs ≤ s.now) : s.patternTimeout n = (s.event 0x0D11 0 n 0).toPattern n :=
  if_pos ⟨hpattern, hunlocked, hdue⟩

theorem State.lockTimeout_due (hlock : s.tlkSt n = 3) (hdue : (s.tlkGroup n).since + 10 * tickMs ≤ s.now) :
    s.lockTimeout n = (s.event 0x0D11 0 n 0).toPattern n :=
  if_pos ⟨hlock, hdue⟩

/-! ### The exchange (R354, R355) -/

/-- CONFIG is due when 100 µs have passed since the last one, or none has been sent in this exchange. -/
theorem State.sendConfig_due (hexchange : s.tlkSt n = 4) (hmatch : (s.tlkGroup n).mismatchAt = none)
    (hdue : ∀ a, (s.tlkGroup n).configAt = some a → a + 100 * tickUs ≤ s.now ∨ a < (s.tlkGroup n).exchangeAt) :
    s.sendConfig n =
      (((({ s with tlk := { s.tlk with sent := s.tlk.sent.filter (fun p => p.group != n) } } : State).sendRows n (s.now : Rat)
        [idleRow n]).onGroup n (fun g => { g with configAt := some s.now, rowAt := ((s.now + rowTicks : Nat) : Rat) })).sendPackets
          [{ group := n, typ := 7, payload := s.configPayload n }]).sendIdle n := by
  refine if_pos ⟨hexchange, hmatch, ?_⟩
  cases hsent : (s.tlkGroup n).configAt with
  | none => rfl
  | some a => simpa using hdue a hsent

/-- What a tile says of itself in CAPS is shown. -/
def State.showTile (s : State) (n : Nat) (b : List Nat) : State :=
  (((s.put (F.TLK_TILE_ID_TILE_ID.nth n) (fieldLE b 0 8)).put (F.TLK_TILE_INFO_CODE_BITS.nth n) (b.getD 9 0)).put
    (F.TLK_TILE_INFO_MEMORY.nth n) (b.getD 14 0)).put (F.TLK_TILE_INFO_D_PANEL_US.nth n) (fieldLE b 16 4)

theorem State.caps_match {b : List Nat} (hexchange : s.tlkSt n = 4) (hmatch : s.capsMatch n b = true)
    (hnew : (s.tlkGroup n).tileId = none) : s.caps n b =
      ((s.showTile n b).onGroup n (fun g => { g with tileId := some (fieldLE b 0 8), mismatchAt := none })).groupActive n := by
  unfold State.caps
  simp only [hexchange, hmatch, hnew, ne_eq, not_true_eq_false, Option.isSome_none, Bool.false_eq_true, false_and, if_true, if_false]
  rfl

theorem State.exchangeTimeout_silent (hexchange : s.tlkSt n = 4) (hmatch : (s.tlkGroup n).mismatchAt = none)
    (hdue : (s.tlkGroup n).since + 10 * tickMs ≤ s.now) : s.exchangeTimeout n = s.toPattern n := by
  unfold State.exchangeTimeout
  simp only [hexchange, hmatch, hdue, ne_eq, not_true_eq_false, if_false, if_true]

theorem State.exchangeTimeout_mismatched {a : Nat} (hexchange : s.tlkSt n = 4) (hmismatch : (s.tlkGroup n).mismatchAt = some a)
    (hdue : a + tickS ≤ s.now) :
    s.exchangeTimeout n = (s.onGroup n (fun g => { g with mismatchAt := none })).setGroup n 4 := by
  unfold State.exchangeTimeout
  simp only [hexchange, hmismatch, hdue, ne_eq, not_true_eq_false, if_false, if_true]

/-! ### Backchannel messages (R358 to R360) -/

theorem State.bcMessage_failed (ty len : Nat) {b : List Nat} (f : State → List Nat → State) (hfail : bcParse b = none) :
    s.bcMessage n ty len b f = s.bcFail n := by
  unfold State.bcMessage
  rw [hfail]

theorem State.bcMessage_expected {ty len : Nat} {b p : List Nat} (f : State → List Nat → State) (hparse : bcParse b = some (ty, p))
    (hlen : p.length = len) : s.bcMessage n ty len b f = f (s.bcSeen n) p := by
  unfold State.bcMessage
  rw [hparse]
  exact if_pos ⟨rfl, hlen⟩

/-- A message clears BC_LOST, which lies beside the group's state. -/
theorem State.bcSeen_tlkSt (s : State) (n : Nat) : (s.bcSeen n).tlkSt n = s.tlkSt n :=
  State.get_put_apart _ (F.TLK_GROUP_STATUS_BC_LOST.nth n) (F.TLK_GROUP_STATUS_STATE.nth n) 0 (by simp [Fld.apart, Fld.nth])

/-- A lock message of all six lanes starts the exchange. -/
theorem State.lockMsg_all {p : List Nat} (hlock : s.tlkSt n = 3) (hsymbol : p.getD 0 0 % 64 = 0x3F) (hlanes : p.getD 1 0 % 64 = 0x3F) :
    s.lockMsg n p = (((((s.put (F.TLK_GROUP_STATUS_LANE_LOCK.nth n) (p.getD 1 0)).endPattern n).onGroup n (fun g =>
      { g with alive := 0, exchangeAt := s.now, mismatchAt := none, configAt := none })).onZone n (fun z =>
        { z with since := some s.now })).setGroup n 4) :=
  if_pos ⟨hlock, hsymbol, hlanes⟩

theorem State.bcTimeout_due (hup : 4 ≤ s.tlkSt n) (hfirst : s.flag (F.TLK_GROUP_STATUS_BC_LOST.nth n) = false)
    (hdue : max (s.tlkGroup n).lastMsg (s.tlkGroup n).exchangeAt + 10 * tickMs ≤ s.now) :
    s.bcTimeout n = (s.put (F.TLK_GROUP_STATUS_BC_LOST.nth n) 1).event 0x0D20 0 n 0 :=
  if_pos ⟨hup, hfirst, hdue⟩

/-! ### Retraining and discharge (R354, R356) -/

theorem State.retrain_active (hactive : s.tlkSt n = 5) :
    s.retrain n = ((s.event 0x0D14 0 n 0).count Reg.TLK_SNAP_RETRAINS 1).toPattern n :=
  if_pos hactive

/-- Of the eight groups, a mask of one bit names one. -/
theorem groups_of_bit : ∀ n < 8, (List.range 8).filter (bitAt (2 ^ n)) = [n] := by decide

theorem State.retrainMask_bit (s : State) (hn : n < 8) : s.retrainMask (2 ^ n) = s.retrain n := by
  unfold State.retrainMask
  rw [← List.foldl_filter, groups_of_bit n hn, List.foldl_cons, List.foldl_nil]

theorem State.dischargeTimeout_due (hdischarge : s.tlkSt n = 6) (hphase : s.pnl.phase ≠ 0) (hdue : s.pnl.phaseAt + 2 * tickS ≤ s.now) :
    s.dischargeTimeout n = s.setGroup n 0 :=
  if_pos ⟨hdischarge, hphase, hdue⟩

/-! ### Pad read-back (R361) -/

/-- The read-back of group n locks. -/
def State.rbLocked (s : State) (n : Nat) : State := s.onGroup n (fun g => { g with rbLost := false })

theorem State.readback_lost (s : State) (n : Nat) (raw : List Nat) : s.readback n false raw =
    (if (s.tlkGroup n).rbLost then s else s.event 0x0D31 0 n 0).onGroup n (fun g => { g with rbLost := true }) := rfl

theorem State.readback_control (s : State) (n : Nat) (raw : List Nat) : s.readback n true (0x109 :: raw) =
    if checkOk raw = false then (s.rbLocked n).rbMismatch n 0 else s.rbLocked n := by
  have hcontrol : s.readback n true (0x109 :: raw) = if checkOk raw then s.rbLocked n else (s.rbLocked n).rbMismatch n 0 := rfl
  rw [hcontrol]
  cases checkOk raw with
  | false => rfl
  | true => rfl

/-- The packet is one of group n that has left. -/
def State.leftGroup (s : State) (n : Nat) (p : Packet) : Bool := p.group == n && decide (p.leftAt ≤ (s.now : Rat))

/-- The first packet of group n that has left is read back and waits no more. -/
def State.dropLeft (s : State) (n : Nat) : State :=
  { s.rbLocked n with tlk := { (s.rbLocked n).tlk with sent := s.tlk.sent.eraseIdx (s.tlk.sent.findIdx (s.leftGroup n)) } }

/-- That packet is `p`; a LINE gives the light measurement of its row (R329). -/
def State.readLeft (s : State) (n : Nat) (p : Packet) : State :=
  if p.typ = 1 then (s.dropLeft n).lightMeasure n p.row p.frame else s.dropLeft n

/-- A packet of group n disagrees with what was sent; in a panel-memory mode the row that it carries is sent again. -/
def State.rbPacketMismatch (s : State) (n : Nat) (p : Packet) (mode : Nat) : State :=
  if panelMemory mode = true ∧ 1 ≤ p.typ ∧ p.typ ≤ 3 then (s.rbMismatch n p.row).markRow n p.row else s.rbMismatch n p.row

section
variable {p : Packet} {raw : List Nat} (hdata : raw.head? ≠ some 0x109) (hfirst : s.tlk.sent.find? (s.leftGroup n) = some p)
include hdata hfirst

theorem State.readback_packet : s.readback n true raw =
    if p.checksOk raw && (!s.flag F.TLK_CTRL_READBACK_EN || p.codesOk raw) then s.readLeft n p
    else (s.readLeft n p).rbPacketMismatch n p s.out.mode := by
  have hbytes : controlBytes raw = none := if_neg hdata
  unfold State.leftGroup at hfirst
  unfold State.readback
  simp only [hbytes, hfirst, Bool.true_eq_false, if_false]
  rfl

theorem State.readback_agrees (hchecks : p.checksOk raw = true)
    (hcodes : s.flag F.TLK_CTRL_READBACK_EN = false ∨ p.codesOk raw = true) : s.readback n true raw = s.readLeft n p := by
  rw [State.readback_packet hdata hfirst]
  exact if_pos (by simpa [hchecks] using hcodes)

theorem State.readback_differs
    (hdiffer : p.checksOk raw = false ∨ (s.flag F.TLK_CTRL_READBACK_EN = true ∧ p.codesOk raw = false)) :
    s.readback n true raw = (s.readLeft n p).rbPacketMismatch n p s.out.mode := by
  rw [State.readback_packet hdata hfirst]
  refine if_neg ?_
  rcases hdiffer with hchecks | ⟨hen, hcodes⟩
  · simp [hchecks]
  · simp [hen, hcodes]

end

end

/-- Settles O30: each command is one step of its group at the command's time, by the case that its conditions meet. -/
theorem linkGroups : Obligations.LinkGroups := by
  unfold Obligations.LinkGroups
  rintro s _ t n hon rfl hn
  refine ⟨?sensed, ?shown, ?undetected, ?retry, ?symbol, ?pattern, ?lock, ?allLanes, ?failed, ?unlocked, ?config, ?caps, ?silent,
    ?mismatched, ?status, ?software, ?retrained, ?lost, ?discharged, ?rbLost, ?control, ?packet⟩
  case sensed =>
    intro hst
    exact State.groupCommand_next t (fun s n => s.terminationSensed n 0x3F) hon hn (State.terminationSensed_all (s := s.tick t) hst)
  case shown =>
    intro mask hst
    exact State.groupCommand_next t (fun s n => s.terminationSensed n mask) hon hn (State.terminationSensed_other (s := s.tick t) mask hst)
  case undetected =>
    intro hst hdue hfirst
    exact State.groupCommand_next t State.detectTimeout hon hn (State.detectTimeout_due (s := s.tick t) hst hdue hfirst)
  case retry =>
    intro hst hdue
    exact State.groupCommand_next t State.detectRetry hon hn (State.detectRetry_due (s := s.tick t) hst hdue)
  case symbol =>
    intro hst
    exact State.groupCommand_next t State.symbolLock hon hn (State.symbolLock_pattern (s := s.tick t) hst)
  case pattern =>
    intro hst hunlocked hdue
    exact State.groupCommand_next t State.patternTimeout hon hn (State.patternTimeout_due (s := s.tick t) hst hunlocked hdue)
  case lock =>
    intro b p hparse hlen
    exact State.groupCommand_next t (fun s n => s.bcMessage n 3 2 b (fun s p => s.lockMsg n p)) hon hn
      (State.bcMessage_expected _ hparse hlen)
  case allLanes =>
    rintro _ p hst hsymbol hlanes rfl
    exact State.lockMsg_all (((s.tick t).bcSeen_tlkSt n).trans hst) hsymbol hlanes
  case failed =>
    intro b hfail
    exact ⟨State.groupCommand_next t (fun s n => s.bcMessage n 3 2 b (fun s p => s.lockMsg n p)) hon hn (State.bcMessage_failed 3 2 _ hfail),
      State.groupCommand_next t (fun s n => s.bcMessage n 2 24 b (fun s p => s.caps n p)) hon hn (State.bcMessage_failed 2 24 _ hfail),
      State.groupCommand_next t (fun s n => s.bcMessage n 1 24 b (fun s p => s.statusAll n p)) hon hn (State.bcMessage_failed 1 24 _ hfail)⟩
  case unlocked =>
    intro hst hdue
    exact State.groupCommand_next t State.lockTimeout hon hn (State.lockTimeout_due (s := s.tick t) hst hdue)
  case config =>
    intro hst hmatch hdue
    exact State.groupCommand_next t State.sendConfig hon hn (State.sendConfig_due (s := s.tick t) hst hmatch hdue)
  case caps =>
    intro b p hparse hlen hst hmatch hnew
    exact State.groupCommand_next t (fun s n => s.bcMessage n 2 24 b (fun s p => s.caps n p)) hon hn
      ((State.bcMessage_expected _ hparse hlen).trans (State.caps_match hst hmatch hnew))
  case silent =>
    intro hst hmatch hdue
    exact State.groupCommand_next t State.exchangeTimeout hon hn (State.exchangeTimeout_silent (s := s.tick t) hst hmatch hdue)
  case mismatched =>
    intro a hst hmismatch hdue
    exact State.groupCommand_next t State.exchangeTimeout hon hn (State.exchangeTimeout_mismatched (s := s.tick t) hst hmismatch hdue)
  case status =>
    intro b p hparse hlen
    exact State.groupCommand_next t (fun s n => s.bcMessage n 1 24 b (fun s p => s.statusAll n p)) hon hn
      (State.bcMessage_expected _ hparse hlen)
  case software =>
    intro hd3
    exact congrArg Host.Outcome.next ((s.whenHost_eq t _ hon hd3).trans (State.retrainMask_bit (s.tick t) hn))
  case retrained => exact State.retrain_active (s := s.tick t)
  case lost =>
    intro hst hfirst hdue
    exact State.groupCommand_next t State.bcTimeout hon hn (State.bcTimeout_due (s := s.tick t) hst hfirst hdue)
  case discharged =>
    intro hst hphase hdue
    exact State.groupCommand_next t State.dischargeTimeout hon hn (State.dischargeTimeout_due (s := s.tick t) hst hphase hdue)
  case rbLost =>
    intro raw
    exact State.groupCommand_next t (fun s n => s.readback n false raw) hon hn (State.readback_lost (s.tick t) n raw)
  case control =>
    rintro raw _ rfl
    exact State.groupCommand_next t (fun s n => s.readback n true (0x109 :: raw)) hon hn (State.readback_control (s.tick t) n raw)
  case packet =>
    rintro raw p _ _ _ hdata rfl hfirst rfl rfl
    exact ⟨fun hchecks hcodes => State.groupCommand_next t (fun s n => s.readback n true raw) hon hn
        (State.readback_agrees (s := s.tick t) hdata hfirst hchecks hcodes),
      fun hdiffer => State.groupCommand_next t (fun s n => s.readback n true raw) hon hn
        (State.readback_differs (s := s.tick t) hdata hfirst hdiffer)⟩

end Sys2Proof.Machine
end

section
/-!
SUPPORT. One step of the machine.
-/

namespace Sys2Proof.Machine

/-- Settles O1, by the definition of a step on each form of the queue. -/
theorem frontCommandRuns : Obligations.FrontCommandRuns := by
  refine ⟨?front, ?idle⟩
  case front =>
    intro s c cs hq
    simp only [step, hq]
  case idle =>
    intro s hq
    simp only [step, hq]

end Sys2Proof.Machine
end

section
/-!
SUPPORT. Device memory through every function of the model. A function that does not write device memory has a lemma that says so
(`…_mem`); one that does writes it through `State.write`, `State.store` or `State.zeroRange` only, and so keeps the canonical form
(`…_memWf`). The lemmas stand in the order of the definitions they speak of, one a function, so that each is assembled from those of the
functions it calls. With them the obligation on canonical memory is settled.
-/

namespace Sys2Proof.Machine

/-- Device memory is in canonical form. -/
@[simp] abbrev State.memWf (s : State) : Prop := Memory.wf s.mem = true

@[simp] theorem State.ite_mem (c : Prop) [Decidable c] (a b : State) : (if c then a else b).mem = if c then a.mem else b.mem :=
  apply_ite State.mem c a b

@[simp] theorem memWf_ite (c : Prop) [Decidable c] (m n : List Host.Cell) :
    sparseWf memDefault (if c then m else n) = true ↔ (c → Memory.wf m = true) ∧ (¬ c → Memory.wf n = true) := by
  split <;> simp [*]

@[simp] theorem foldl_mem {α : Type} {f : State → α → State} (hf : ∀ s a, (f s a).mem = s.mem) (l : List α) (s : State) :
    (l.foldl f s).mem = s.mem := by
  induction l generalizing s with
  | nil => rfl
  | cons a l ih => exact (ih (f s a)).trans (hf s a)

@[simp] theorem foldl_memWf {α : Type} {f : State → α → State} (hf : ∀ s a, s.memWf → (f s a).memWf) (l : List α) {s : State} (h : s.memWf) :
    (l.foldl f s).memWf := by
  induction l generalizing s with
  | nil => exact h
  | cons a l ih => exact ih (hf s a h)

/-- Every next state of an outcome has canonical memory. -/
def Out.memWf (o : Out) : Prop := ∀ u, o = .next u → u.memWf

@[simp] theorem Out.next_memWf (u : State) : Out.memWf (.next u) ↔ u.memWf :=
  ⟨fun h => h u rfl, fun h _ hu => by cases hu; exact h⟩

/-! ### The state of the PY-7440 block as plain data, its faults and refusals, and the state right after the always-on rail has come up (State.reset) -/

@[simp] theorem State.reset_memWf : State.reset.memWf := rfl

/-! ### The named operations that the meanings share -/

@[simp] theorem State.free_mem (s : State) (k : Nat) : (s.free k).2.mem = s.mem := rfl

@[simp] theorem State.eventAt_mem (s : State) (t code inst a0 a1 : Nat) : (s.eventAt t code inst a0 a1).mem = s.mem := rfl

@[simp] theorem State.protectedEvent_mem (s : State) (addr : Nat) : (s.protectedEvent addr).mem = s.mem := rfl

@[simp] theorem Memory.wf_memWrite {m : List Host.Cell} (h : Memory.wf m = true) (a : Nat) (bs : List Nat) :
    Memory.wf (memWrite m a bs) = true :=
  memWrite_wf m a bs h

@[simp] theorem State.rangeEvent_mem (s : State) (port n : Nat) : (s.rangeEvent port n).mem = s.mem := by simp [State.rangeEvent]

@[simp] theorem State.noteReads_mem (s : State) (port : Nat) (l : List (Nat × Nat)) : (s.noteReads port l).mem = s.mem := by simp [State.noteReads]

@[simp] theorem State.store_memWf {s : State} (h : s.memWf) (port a : Nat) (bs : List Nat) : (s.store port a bs).memWf := by simp [State.store, h]

@[simp] theorem State.setRingSt_mem (s : State) (w : Nat) (st : RingSt) : (s.setRingSt w st).mem = s.mem := rfl

@[simp] theorem State.writeEntry_memWf {s : State} (h : s.memWf) (w : Nat) (d : Desc) (body : List Nat) (forceIrq : Bool) :
    (s.writeEntry w d body forceIrq).memWf := by
  simp [State.writeEntry, h]

@[simp] theorem State.writeBodies_memWf {s : State} (h : s.memWf) (w : Nat) (d : Desc) (x3 : List (List Nat)) : (s.writeBodies w d x3).memWf := by
  fun_induction State.writeBodies <;> simp [*]

@[simp] theorem flushDescs_memWf {s : State} (h : s.memWf) (w : Nat) (ds : List Desc) (ok : Bool) : (flushDescs w ds ok s).2.memWf := by
  fun_induction flushDescs w ds ok s with
  | case1 => exact h
  | case2 d ds ok s hempty r ih => exact ih h
  | case3 d ds ok s hempty hready s1 d1 r ih => exact ih (State.writeBodies_memWf h w d d.out)
  | case4 d ds ok s hempty hheld r ih => exact ih h

@[simp] theorem State.ringFault_mem (s : State) (code w : Nat) : (s.ringFault code w).mem = s.mem := rfl

@[simp] theorem State.refusalEvent_mem (s : State) (code w : Nat) (d : Desc) : (s.refusalEvent code w d).mem = s.mem := by
  unfold State.refusalEvent
  split <;> simp

@[simp] theorem State.noteRefused_mem (s : State) (code w : Nat) (d : Desc) : (s.noteRefused code w d).mem = s.mem := by simp [State.noteRefused]

@[simp] theorem State.settleRing_memWf {s : State} (h : s.memWf) (w : Nat) : (s.settleRing w).memWf := by simp [State.settleRing, h]

@[simp] theorem State.onDesc_mem (s : State) (w k : Nat) (f : Desc → Desc) : (s.onDesc w k f).mem = s.mem := rfl

@[simp] theorem State.postCompletion_memWf {s : State} (h : s.memWf) (w k : Nat) (body : List Nat) : (s.postCompletion w k body).memWf := by
  simp [State.postCompletion, h]

@[simp] theorem State.endDesc_memWf {s : State} (h : s.memWf) (w k code : Nat) (body : List Nat) : (s.endDesc w k code body).memWf := by
  simp [State.endDesc, h]

@[simp] theorem State.startDesc_mem (s : State) (w k : Nat) : (s.startDesc w k).mem = s.mem := rfl

@[simp] theorem State.whenOn_memWf {s : State} {f : State → State} (hf : ∀ s, s.memWf → (f s).memWf) (t : Nat) (h : s.memWf) :
    (s.whenOn t f).memWf := by
  unfold State.whenOn
  split
  · exact hf _ h
  · exact h

@[simp] theorem State.whenBar_memWf {s : State} {f : State → State} (hf : ∀ s, s.memWf → (f s).memWf) (t : Nat) (h : s.memWf) :
    (s.whenBar t f).memWf := by
  unfold State.whenBar
  split
  · exact h
  · exact hf _ h

@[simp] theorem State.whenHost_memWf {s : State} {f : State → State} (hf : ∀ s, s.memWf → (f s).memWf) (t : Nat) (h : s.memWf) :
    (s.whenHost t f).memWf := by
  unfold State.whenHost
  split
  · exact h
  · exact State.whenOn_memWf hf t h

/-! ### The host interface (R547 to R567, R578) -/

@[simp] theorem State.takeOne_memWf {s : State} (h : s.memWf) (w : Nat) : (s.takeOne w).memWf := by
  unfold State.takeOne
  split <;> simp [h]

@[simp] theorem State.fetchOne_memWf {s : State} (h : s.memWf) (w l : Nat) : (s.fetchOne w l).memWf := by simp [State.fetchOne, h]

@[simp] theorem State.fetchMany_memWf {s : State} (h : s.memWf) (x1 : Nat) : (s.fetchMany x1).memWf := by
  fun_induction State.fetchMany <;> simp [*]

@[simp] theorem State.fetchAll_memWf {s : State} (h : s.memWf) : s.fetchAll.memWf := by simp [State.fetchAll, h]

@[simp] theorem State.workDoorbell_memWf {s : State} (h : s.memWf) (w v : Nat) : (s.workDoorbell w v).memWf := by simp [State.workDoorbell, h]

@[simp] theorem State.countStall_mem (s : State) (w : Nat) : (s.countStall w).mem = s.mem := by
  unfold State.countStall
  split <;> rfl

@[simp] theorem State.cplDoorbell_memWf {s : State} (h : s.memWf) (w v : Nat) : (s.cplDoorbell w v).memWf := by simp [State.cplDoorbell, h]

@[simp] theorem State.copyStart_memWf {s : State} (h : s.memWf) (w ty : Nat) : (s.copyStart w ty).memWf := by
  unfold State.copyStart
  split <;> simp [h]

@[simp] theorem State.writeRows_memWf {s : State} (h : s.memWf) (c : CopyDesc) (i : Nat) (bs : List Nat) : (s.writeRows c i bs).memWf := by
  induction bs generalizing s i with
  | nil => exact h
  | cons b bs ih =>
    refine ih ?_ _
    split
    · exact State.store_memWf h _ _ _
    · exact h

@[simp] theorem State.writeCopyBytes_memWf {s : State} (h : s.memWf) (c : CopyDesc) (l : List (Nat × Nat)) : (s.writeCopyBytes c l).memWf := by
  simp +contextual [State.writeCopyBytes, h]

@[simp] theorem State.ingestComplete_memWf {s : State} (h : s.memWf) (w k : Nat) (data : List Nat) : (s.ingestComplete w k data).memWf := by
  unfold State.ingestComplete
  split
  · exact h
  · split
    · extract_lets +onlyGivenNames c total bs s1 _ s2
      have h2 : s2.memWf := State.writeRows_memWf h c 0 bs
      split
      · exact State.endDesc_memWf h2 _ _ _ _
      · have hcopied := State.writeCopyBytes_memWf h2 c (readBeyond (data.take total))
        exact State.endDesc_memWf (by simpa using hcopied) _ _ _ _
    · exact h

@[simp] theorem State.exportComplete_memWf {s : State} (h : s.memWf) (w k : Nat) : (s.exportComplete w k).memWf := by
  unfold State.exportComplete
  split <;> simp [h]

@[simp] theorem State.nopDesc_memWf {s : State} (h : s.memWf) (w : Nat) : (s.nopDesc w).memWf := by
  unfold State.nopDesc
  split <;> simp [h]

@[simp] theorem State.ringEnable_mem (s : State) (w : Nat) : (s.ringEnable w).mem = s.mem := by simp [State.ringEnable, apply_ite]

@[simp] theorem State.ringDisable_memWf {s : State} (h : s.memWf) (w : Nat) : (s.ringDisable w).memWf := by simp [State.ringDisable, h]

@[simp] theorem State.linkUp_mem (s : State) (speed width : Nat) : (s.linkUp speed width).mem = s.mem := by simp [State.linkUp, apply_ite]

@[simp] theorem State.powerState_memWf {s : State} (h : s.memWf) (d3 : Bool) : (s.powerState d3).memWf := by simp [State.powerState, h]

@[simp] theorem State.bar2Read_mem (s : State) (o n : Nat) : (s.bar2Read o n).mem = s.mem := by simp [State.bar2Read]

@[simp] theorem State.bar2Write_memWf {s : State} (h : s.memWf) (o : Nat) (bs : List Nat) : (s.bar2Write o bs).memWf := by simp [State.bar2Write, h]

@[simp] theorem State.msixUnmask_mem (s : State) (v : Nat) : (s.msixUnmask v).mem = s.mem := by
  unfold State.msixUnmask
  split <;> rfl

@[simp] theorem execWorkDoorbell_memWf {s : State} (h : s.memWf) (t w v : Nat) : (execWorkDoorbell t w v s).memWf := by
  simp +contextual [execWorkDoorbell, h]

@[simp] theorem execCplDoorbell_memWf {s : State} (h : s.memWf) (t w v : Nat) : (execCplDoorbell t w v s).memWf := by
  simp +contextual [execCplDoorbell, h]

@[simp] theorem execIngest_memWf {s : State} (h : s.memWf) (t w : Nat) : (execIngest t w s).memWf := by simp [execIngest, h]

@[simp] theorem execIngestComplete_memWf {s : State} (h : s.memWf) (t w k : Nat) (data : List Nat) : (execIngestComplete t w k data s).memWf := by
  simp [execIngestComplete, h]

@[simp] theorem execExport_memWf {s : State} (h : s.memWf) (t w : Nat) : (execExport t w s).memWf := by simp [execExport, h]

@[simp] theorem execExportComplete_memWf {s : State} (h : s.memWf) (t w k : Nat) : (execExportComplete t w k s).memWf := by
  simp [execExportComplete, h]

@[simp] theorem execNop_memWf {s : State} (h : s.memWf) (t w : Nat) : (execNop t w s).memWf := by simp [execNop, h]

@[simp] theorem execRingEnable_memWf {s : State} (h : s.memWf) (t w : Nat) : (execRingEnable t w s).memWf := by simp [execRingEnable, h]

@[simp] theorem execRingDisable_memWf {s : State} (h : s.memWf) (t w : Nat) : (execRingDisable t w s).memWf := by
  simp +contextual [execRingDisable, h]

@[simp] theorem execLinkUp_memWf {s : State} (h : s.memWf) (t speed width : Nat) : (execLinkUp t speed width s).memWf := by simp [execLinkUp, h]

@[simp] theorem execPowerStateChange_memWf {s : State} (h : s.memWf) (t : Nat) (d3 : Bool) : (execPowerStateChange t d3 s).memWf := by
  simp [execPowerStateChange, h]

@[simp] theorem execBar2Read_memWf {s : State} (h : s.memWf) (t o n : Nat) : (execBar2Read t o n s).memWf := by simp [execBar2Read, h]

@[simp] theorem execBar2Write_memWf {s : State} (h : s.memWf) (t o : Nat) (bs : List Nat) : (execBar2Write t o bs s).memWf := by
  simp [execBar2Write, h]

@[simp] theorem execMsixUnmask_memWf {s : State} (h : s.memWf) (t v : Nat) : (execMsixUnmask t v s).memWf := by simp [execMsixUnmask, h]

/-! ### The memory controller (R397 to R426) -/

@[simp] theorem State.onChan_mem (s : State) (c : Nat) (f : Chan → Chan) : (s.onChan c f).mem = s.mem := rfl

@[simp] theorem State.setChan_mem (s : State) (c : Nat) (st : ChanSt) : (s.setChan c st).mem = s.mem := rfl

@[simp] theorem State.showSlots_mem (s : State) (c : Nat) : (s.showSlots c).mem = s.mem := rfl

@[simp] theorem State.closeRow_mem (s : State) (c b : Nat) : (s.closeRow c b).mem = s.mem := by
  unfold State.closeRow
  dsimp only
  split <;> simp

@[simp] theorem State.openRow_mem (s : State) (c n : Nat) (waits : Bool) : (s.openRow c n waits).mem = s.mem := by
  unfold State.openRow
  dsimp only
  split <;> simp

@[simp] theorem State.onRank_mem (s : State) (c r : Nat) (f : Rank → Rank) : (s.onRank c r f).mem = s.mem := rfl

@[simp] theorem State.countSleep_mem (s : State) (c r : Nat) : (s.countSleep c r).mem = s.mem := by
  unfold State.countSleep
  dsimp only
  split <;> simp

@[simp] theorem State.wakeRank_mem (s : State) (c r : Nat) : (s.wakeRank c r).mem = s.mem := by
  unfold State.wakeRank
  split <;> simp

@[simp] theorem State.wakeBelow_mem (s : State) (ns : Nat) (x2 : List (Nat × Nat)) : (s.wakeBelow ns x2).mem = s.mem := by
  fun_induction State.wakeBelow <;> simp [*]

@[simp] theorem State.setTolerance_mem (s : State) (ns : Nat) : (s.setTolerance ns).mem = s.mem := by simp [State.setTolerance]

@[simp] theorem State.setMemPolicy_mem (s : State) (p : MemPower) : (s.setMemPolicy p).mem = s.mem := rfl

@[simp] theorem State.loseSlice_mem (s : State) (c k : Nat) : (s.loseSlice c k).mem = s.mem := rfl

@[simp] theorem State.loseSlices_mem (s : State) (c : Nat) (x2 : List Nat) : (s.loseSlices c x2).mem = s.mem := by
  fun_induction State.loseSlices <;> simp [*]

@[simp] theorem State.sleepRank_mem (s : State) (c r : Nat) (st : RankSt) : (s.sleepRank c r st).mem = s.mem := by
  unfold State.sleepRank
  split <;> simp

@[simp] theorem State.rankIdleTimeout_mem (s : State) (c r : Nat) : (s.rankIdleTimeout c r).mem = s.mem := by
  fun_cases State.rankIdleTimeout <;> simp

@[simp] theorem State.rangeRequest_mem (s : State) (port n : Nat) (write : Bool) : (s.rangeRequest port n write).mem = s.mem := by
  unfold State.rangeRequest
  split <;> simp

@[simp] theorem State.memAccept_mem (s : State) (port n : Nat) (write : Bool) : (s.memAccept port n write).mem = s.mem := by simp [State.memAccept]

@[simp] theorem State.dropReq_mem (s : State) (r : MemReq) : (s.dropReq r).mem = s.mem := rfl

@[simp] theorem State.dramRead_mem (s : State) (n err : Nat) : (s.dramRead n err).2.mem = s.mem := by
  unfold State.dramRead
  split <;> rfl

@[simp] theorem State.blockRead_mem (s : State) (port n err : Nat) : (s.blockRead port n err).2.mem = s.mem := by
  unfold State.blockRead
  dsimp only
  split <;> simp

@[simp] theorem State.memReturn_mem (s : State) (id err : Nat) : (s.memReturn id err).mem = s.mem := by
  unfold State.memReturn
  split <;> simp

@[simp] theorem State.memAck_memWf {s : State} (h : s.memWf) (id off : Nat) (data : List Nat) (bad : Bool) : (s.memAck id off data bad).memWf := by
  unfold State.memAck
  split <;> simp [h]

@[simp] theorem State.refreshBank_mem (s : State) (c b : Nat) : (s.refreshBank c b).mem = s.mem := by
  unfold State.refreshBank
  dsimp only
  split <;> simp

@[simp] theorem State.memPick_mem (s : State) (c : Nat) (busy : List Nat) : (s.memPick c busy).mem = s.mem := by
  unfold State.memPick
  dsimp only
  (repeat' split) <;> simp

@[simp] theorem State.refreshDue_mem (s : State) (c b : Nat) : (s.refreshDue c b).mem = s.mem := by simp [State.refreshDue]

@[simp] theorem State.mr4_mem (s : State) (c code : Nat) (hot : Bool) : (s.mr4 c code hot).mem = s.mem := by
  unfold State.mr4
  split <;> simp

@[simp] theorem State.mr4Poll_mem (s : State) (c : Nat) (x2 : List (Nat × Bool)) : (s.mr4Poll c x2).mem = s.mem := by
  fun_induction State.mr4Poll <;> simp [*]

@[simp] theorem State.trainingDone_mem (s : State) (c : Nat) (ok : Bool) (step : Nat) : (s.trainingDone c ok step).mem = s.mem := by
  simp [State.trainingDone]

@[simp] theorem State.oscPoll_mem (s : State) (c : Nat) (x2 : List Bool) : (s.oscPoll c x2).mem = s.mem := by
  fun_induction State.oscPoll <;> simp [*]

@[simp] theorem State.retrainStart_mem (s : State) (c : Nat) : (s.retrainStart c).mem = s.mem := by
  fun_cases State.retrainStart <;> simp

@[simp] theorem State.retrainDone_mem (s : State) (c : Nat) (ok : Bool) : (s.retrainDone c ok).mem = s.mem := by simp [State.retrainDone]

@[simp] theorem State.scrubRead_mem (s : State) (err : Nat) : (s.scrubRead err).mem = s.mem := by
  unfold State.scrubRead
  dsimp only
  split <;> simp

@[simp] theorem execMemRequestAccept_memWf {s : State} (h : s.memWf) (t port n : Nat) (write : Bool) :
    (execMemRequestAccept t port n write s).memWf := by
  simp [execMemRequestAccept, h]

@[simp] theorem execMemPick_memWf {s : State} (h : s.memWf) (t c : Nat) (busy : List Nat) : (execMemPick t c busy s).memWf := by simp [execMemPick, h]

@[simp] theorem execMemReadReturn_memWf {s : State} (h : s.memWf) (t id err : Nat) : (execMemReadReturn t id err s).memWf := by
  simp [execMemReadReturn, h]

@[simp] theorem execMemWriteAck_memWf {s : State} (h : s.memWf) (t id off : Nat) (data : List Nat) (bad : Bool) :
    (execMemWriteAck t id off data bad s).memWf := by
  simp +contextual [execMemWriteAck, h]

@[simp] theorem execMemRefreshDue_memWf {s : State} (h : s.memWf) (t c b : Nat) : (execMemRefreshDue t c b s).memWf := by simp [execMemRefreshDue, h]

@[simp] theorem execMr4Poll_memWf {s : State} (h : s.memWf) (t : Nat) (codes : List (Nat × Bool)) : (execMr4Poll t codes s).memWf := by
  simp [execMr4Poll, h]

@[simp] theorem execOscillatorPoll_memWf {s : State} (h : s.memWf) (t : Nat) (drift : List Bool) : (execOscillatorPoll t drift s).memWf := by
  simp [execOscillatorPoll, h]

@[simp] theorem execMemRetrainStart_memWf {s : State} (h : s.memWf) (t c : Nat) : (execMemRetrainStart t c s).memWf := by
  simp [execMemRetrainStart, h]

@[simp] theorem execMemRetrainDone_memWf {s : State} (h : s.memWf) (t c : Nat) (ok : Bool) : (execMemRetrainDone t c ok s).memWf := by
  simp [execMemRetrainDone, h]

@[simp] theorem execChannelTrainingDone_memWf {s : State} (h : s.memWf) (t c : Nat) (ok : Bool) (step : Nat) :
    (execChannelTrainingDone t c ok step s).memWf := by
  simp [execChannelTrainingDone, h]

@[simp] theorem execRankIdleTimeout_memWf {s : State} (h : s.memWf) (t c r : Nat) : (execRankIdleTimeout t c r s).memWf := by
  simp [execRankIdleTimeout, h]

@[simp] theorem execPatrolScrubRead_memWf {s : State} (h : s.memWf) (t err : Nat) : (execPatrolScrubRead t err s).memWf := by
  simp [execPatrolScrubRead, h]

/-! ### The non-volatile store, the lockable page and the OTP (R512 to R532) -/

@[simp] theorem State.onSector_mem (s : State) (k : Nat) (f : Sector → Sector) : (s.onSector k f).mem = s.mem := rfl

theorem State.openSector_mem {s z : State} {k : Nat} (h : s.openSector = some (k, z)) : z.mem = s.mem := by
  unfold State.openSector at h
  split at h
  · cases h
  · cases h
    rfl

theorem State.placeIn_mem {s z : State} {reserve second : Bool} {len k : Nat} (h : s.placeIn reserve second len = some (k, z)) :
    z.mem = s.mem := by
  unfold State.placeIn at h
  generalize (if second = true then s.nvs.open2 else s.nvs.open1) = cur at h
  by_cases hfull : reserve = false ∧ s.openFits cur len = false ∧ (s.sectorsIn .erased).length < 3
  · simp [hfull] at h
  rw [if_neg hfull] at h
  cases cur <;> dsimp only at h
  case none =>
    obtain ⟨p, hp, heq⟩ := Option.map_eq_some_iff.mp h
    cases heq
    exact State.openSector_mem (z := p.2) (k := p.1) hp
  case some k' =>
    by_cases hfits : (s.nvs.sectors.getD k' {}).fits len = true
    · rw [if_pos hfits] at h
      cases h
      rfl
    · rw [if_neg hfits] at h
      obtain ⟨p, hp, heq⟩ := Option.map_eq_some_iff.mp h
      cases heq
      exact (State.openSector_mem (z := p.2) (k := p.1) hp :)

@[simp] theorem State.keepOpen_mem (s : State) : s.keepOpen.mem = s.mem := by
  unfold State.keepOpen
  extract_lets one
  have hone (t : State) (b : Bool) : (one t b).mem = t.mem := by
    cases hopen : t.openSector with
    | none => cases b <;> simp [one, hopen]
    | some p =>
      have hp : p.2.mem = t.mem := State.openSector_mem (z := p.2) (k := p.1) hopen
      cases b <;> simp [one, hopen, hp]
  exact (hone _ _).trans (hone _ _)

@[simp] theorem State.appendRec_mem (s : State) (k : Nat) (r : NvsRec) : (s.appendRec k r).mem = s.mem := rfl

@[simp] theorem State.nvsPush_mem (s : State) (j : NvsJob) : (s.nvsPush j).mem = s.mem := rfl

@[simp] theorem State.nvsQueueSeq_mem (s : State) (who : NvsWho) (prio typ key seq : Nat) (dup tomb : Bool) (payload : List Nat) :
    (s.nvsQueueSeq who prio typ key seq dup tomb payload).mem = s.mem := by
  unfold State.nvsQueueSeq
  split <;> rfl

@[simp] theorem State.nvsWrite_mem (s : State) (who : NvsWho) (prio typ key : Nat) (dup tomb : Bool) (payload : List Nat) :
    (s.nvsWrite who prio typ key dup tomb payload).2.mem = s.mem := by
  fun_cases State.nvsWrite <;> simp

@[simp] theorem State.nvsWriteSet_mem (s : State) (ctr : Nat) (cells : List Nat) : (s.nvsWriteSet ctr cells).mem = s.mem := by
  unfold State.nvsWriteSet
  dsimp only
  split <;> simp

@[simp] theorem State.countOperating_mem (s : State) (cell : Nat) : (s.countOperating cell).mem = s.mem := by
  unfold State.countOperating
  split <;> simp

@[simp] theorem State.nvsCollect_mem (s : State) : s.nvsCollect.mem = s.mem := by
  unfold State.nvsCollect
  split
  · split
    · rfl
    · exact foldl_mem (fun _ _ => by rfl) _ _
  · rfl

@[simp] theorem State.collectFailed_mem (s : State) : s.collectFailed.mem = s.mem := rfl

@[simp] theorem State.scrubEnd_mem (s : State) (j : NvsJob) : (s.scrubEnd j).mem = s.mem := by
  unfold State.scrubEnd
  split <;> rfl

@[simp] theorem State.nvsResult_mem (s : State) (code len seq : Nat) : (s.nvsResult code len seq).mem = s.mem := by simp [State.nvsResult]

@[simp] theorem State.failedTries_mem (s : State) (j : NvsJob) (n : Nat) : (s.failedTries j n).mem = s.mem := by
  fun_induction State.failedTries s j n with
  | case1 => rfl
  | case2 => rfl
  | case3 s n k z hplace ih => exact ih.trans (State.placeIn_mem (z := z) hplace)

@[simp] theorem State.lblWriteFailed_mem (s : State) (typ code : Nat) : (s.lblWriteFailed typ code).mem = s.mem := rfl

@[simp] theorem State.lblWritten_mem (s : State) (last : Bool) : (s.lblWritten last).mem = s.mem := by
  unfold State.lblWritten
  split <;> rfl

@[simp] theorem State.secRespond_memWf {s : State} (h : s.memWf) (cmd code : Nat) (body tag : List Nat) : (s.secRespond cmd code body tag).memWf := by
  simp [State.secRespond, h]

@[simp] theorem State.secWritten_memWf {s : State} (h : s.memWf) (j : NvsJob) (code : Nat) : (s.secWritten j code).memWf := by
  unfold State.secWritten
  split <;> simp [h]

@[simp] theorem State.recordWriteComplete_memWf {s : State} (h : s.memWf) (fails : Nat) : (s.recordWriteComplete fails).memWf := by
  unfold State.recordWriteComplete
  split
  · exact h
  · split
    · exact h
    · extract_lets +onlyGivenNames _ s1 a0 second last
      have h1 : s1.memWf := by simpa [s1] using h
      split
      · extract_lets +onlyGivenNames s2 fl q2 _ s3
        have h3 : s3.memWf := by simpa [s3, s2] using h1
        split_ifs <;> simp [h3]
      · extract_lets +onlyGivenNames st
        have ht : st.memWf := by simpa [st] using h1
        split
        · extract_lets +onlyGivenNames _ st' s2
          have h2 : s2.memWf := ht
          split_ifs <;> simp [h2]
        · next k z hplace =>
          have hz : z.memWf := by simpa [State.placeIn_mem hplace] using ht
          extract_lets +onlyGivenNames s3 s4 s5 s6 _ s7
          have h4 : s4.memWf := by simpa [s4, s3] using hz
          have h5 : s5.memWf := by
            dsimp only [s5]
            split_ifs <;> simp [h4]
          have h6 : s6.memWf := by
            dsimp only [s6]
            split_ifs <;> simp [h5]
          have h7 : s7.memWf := by
            dsimp only [s7]
            split
            · split <;> exact h6
            · exact h6
          simpa using h7

@[simp] theorem State.eraseComplete_mem (s : State) (ok : Bool) : (s.eraseComplete ok).mem = s.mem := by
  unfold State.eraseComplete
  dsimp only
  (repeat' split) <;> simp

@[simp] theorem State.eraseCut_mem (s : State) : s.eraseCut.mem = s.mem := by
  unfold State.eraseCut
  split <;> rfl

@[simp] theorem State.nvsStop_mem (s : State) : s.nvsStop.mem = s.mem := by simp [State.nvsStop]

@[simp] theorem State.nvsCut_mem (s : State) : s.nvsCut.mem = s.mem := by
  unfold State.nvsCut
  split
  · simp
  · split
    · simp
    · split
      · simp
      · next hplace =>
        have hz := State.placeIn_mem hplace
        dsimp only
        split_ifs <;> simpa using hz

@[simp] theorem State.readSector_mem (s : State) (bad : List Nat) (k : Nat) : (s.readSector bad k).mem = s.mem := by simp [State.readSector]

@[simp] theorem State.nvsScan_mem (s : State) (bad : List Nat) : (s.nvsScan bad).mem = s.mem := by
  fun_cases State.nvsScan
  case case1 s0 s1 s2 s3 _ _ s4 s5 =>
  clear_value (e5 : s5 = _) (e4 : s4 = _) (e3 : s3 = _) (e2 : s2 = _) (e1 : s1 = _) 
  have h1 : s1.mem = s0.mem := by rw [e1]; exact foldl_mem (fun s k => by split <;> simp) _ _
  have h2 : s2.mem = s1.mem := by rw [e2]; exact foldl_mem (fun _ _ => by simp) _ _
  have h3 : s3.mem = s2.mem := by rw [e3]; exact foldl_mem (fun _ _ => by simp) _ _
  have h5 : s5.mem = s4.mem := by rw [e5]; exact foldl_mem (fun _ _ => by simp) _ _
  simp [h5, e4, h3, h2, h1, s0]

@[simp] theorem State.copyRepair_mem (s : State) : s.copyRepair.mem = s.mem := by
  unfold State.copyRepair
  exact foldl_mem (fun _ _ => by rfl) _ _

@[simp] theorem State.nvsScrub_mem (s : State) (weak : List Nat) : (s.nvsScrub weak).mem = s.mem := by
  unfold State.nvsScrub
  split
  · extract_lets +onlyGivenNames rs s1 w
    have h1 : s1.mem = s.mem := foldl_mem (fun _ _ => by rfl) _ _
    have hw : w.2.mem = s1.mem := by simp [w]
    split <;> simp [hw, h1]
  · rfl

@[simp] theorem State.counterUpdate_mem (s : State) : s.counterUpdate.mem = s.mem := by
  unfold State.counterUpdate
  split <;> simp

@[simp] theorem State.otpProgram_mem (s : State) (g : Nat) (v : List Nat) : (s.otpProgram g v).mem = s.mem := rfl

@[simp] theorem State.otpBurn_mem (s : State) (g : Nat) : (s.otpBurn g).mem = s.mem := rfl

@[simp] theorem State.nvsRefuse_mem (s : State) (code : Nat) : (s.nvsRefuse code).mem = s.mem := by simp [State.nvsRefuse]

@[simp] theorem State.nvsStart_memWf {s : State} {k : State → State} (hk : ∀ s, s.memWf → (k s).memWf) (op dup len : Nat) (h : s.memWf) :
    (s.nvsStart op dup len k).memWf := by
  unfold State.nvsStart
  dsimp only
  split
  · exact h
  · split
    · simp [h]
    · exact hk _ h

@[simp] theorem State.nvsOpRead_memWf {s : State} (h : s.memWf) : s.nvsOpRead.memWf := by
  fun_cases State.nvsOpRead <;> simp [h]

@[simp] theorem State.nvsOpWrite_mem (s : State) (tomb : Bool) : (s.nvsOpWrite tomb).mem = s.mem := by simp [State.nvsOpWrite]

@[simp] theorem State.nvsOpPage_memWf {s : State} (h : s.memWf) : s.nvsOpPage.memWf := by simp [State.nvsOpPage, h]

@[simp] theorem State.nvsOpOtp_memWf {s : State} (h : s.memWf) : s.nvsOpOtp.memWf := by simp [State.nvsOpOtp, h]

@[simp] theorem execNvsStartupScan_memWf {s : State} (h : s.memWf) (t : Nat) (bad : List Nat) : (execNvsStartupScan t bad s).memWf := by
  simp [execNvsStartupScan, h]

@[simp] theorem execRecordWriteComplete_memWf {s : State} (h : s.memWf) (t fails : Nat) : (execRecordWriteComplete t fails s).memWf := by
  simp [execRecordWriteComplete, h]

@[simp] theorem execEraseComplete_memWf {s : State} (h : s.memWf) (t : Nat) (ok : Bool) : (execEraseComplete t ok s).memWf := by
  simp [execEraseComplete, h]

@[simp] theorem execNvsScrub_memWf {s : State} (h : s.memWf) (t : Nat) (weak : List Nat) : (execNvsScrub t weak s).memWf := by simp [execNvsScrub, h]

@[simp] theorem execCopyRepair_memWf {s : State} (h : s.memWf) (t : Nat) : (execCopyRepair t s).memWf := by simp [execCopyRepair, h]

@[simp] theorem execCounterUpdate_memWf {s : State} (h : s.memWf) (t : Nat) : (execCounterUpdate t s).memWf := by simp [execCounterUpdate, h]

@[simp] theorem execNvsRead_memWf {s : State} (h : s.memWf) (t : Nat) : (execNvsRead t s).memWf := by
  unfold execNvsRead
  rw [Out.next_memWf]
  exact State.whenBar_memWf (fun _ hs => State.nvsStart_memWf (fun _ => State.nvsOpRead_memWf) _ _ _ hs) t h

@[simp] theorem execNvsWrite_memWf {s : State} (h : s.memWf) (t dup len : Nat) : (execNvsWrite t dup len s).memWf := by
  simp +contextual [execNvsWrite, h]

@[simp] theorem execNvsDelete_memWf {s : State} (h : s.memWf) (t : Nat) : (execNvsDelete t s).memWf := by simp +contextual [execNvsDelete, h]

@[simp] theorem execNvsPageRead_memWf {s : State} (h : s.memWf) (t : Nat) : (execNvsPageRead t s).memWf := by
  unfold execNvsPageRead
  rw [Out.next_memWf]
  exact State.whenBar_memWf (fun _ hs => State.nvsStart_memWf (fun _ => State.nvsOpPage_memWf) _ _ _ hs) t h

@[simp] theorem execNvsOtpRead_memWf {s : State} (h : s.memWf) (t : Nat) : (execNvsOtpRead t s).memWf := by
  unfold execNvsOtpRead
  rw [Out.next_memWf]
  exact State.whenBar_memWf (fun _ hs => State.nvsStart_memWf (fun _ => State.nvsOpOtp_memWf) _ _ _ hs) t h

/-! ### The security module's mailbox (R533 to R542) -/

@[simp] theorem State.setSec_mem (s : State) (st : SecSt) : (s.setSec st).mem = s.mem := rfl

@[simp] theorem State.endSession_mem (s : State) : s.endSession.mem = s.mem := rfl

@[simp] theorem State.noteRequest_mem (s : State) : s.noteRequest.mem = s.mem := by simp [State.noteRequest]

@[simp] theorem State.useNonce_mem (s : State) (b : List Nat) : (s.useNonce b).mem = s.mem := rfl

@[simp] theorem State.secAccept_mem (s : State) (r : SecReq) : (s.secAccept r).mem = s.mem := by
  fun_cases State.secAccept <;> simp

@[simp] theorem State.secRun_mem (s : State) (cmd : Nat) : (s.secRun cmd).mem = s.mem := rfl

@[simp] theorem State.secCommand_memWf {s : State} {k : SecReq → State → Nat × List Nat × State}
    (hk : ∀ r s, s.memWf → (k r s).2.2.memWf) (cmd : Nat) (auth : Bool) (tag : List Nat) (h : s.memWf) :
    (s.secCommand cmd auth tag k).memWf := by
  have hkept : (k s.secRequest (s.noteRequest.secAccept s.secRequest)).2.2.memWf := hk _ _ (by simp [h])
  unfold State.secCommand
  dsimp only
  split_ifs <;> simp [h, hkept]

@[simp] theorem secGetNonce_mem (rnd : List Nat) (x1 : SecReq) (s : State) : ((secGetNonce rnd x1 s).2.2).mem = s.mem := rfl

@[simp] theorem secPubkey_mem (pub : List Nat) (x1 : SecReq) (s : State) : ((secPubkey pub x1 s).2.2).mem = s.mem := by
  unfold secPubkey
  split <;> rfl

@[simp] theorem secOpenUser_mem (x0 : SecReq) (s : State) : ((secOpenUser x0 s).2.2).mem = s.mem := by
  unfold secOpenUser
  split <;> rfl

@[simp] theorem secAttest_mem (sig : List Nat) (r : SecReq) (s : State) : ((secAttest sig r s).2.2).mem = s.mem := by
  unfold secAttest
  split <;> rfl

@[simp] theorem secRandom_mem (rnd : List Nat) (r : SecReq) (s : State) : ((secRandom rnd r s).2.2).mem = s.mem := by
  unfold secRandom
  dsimp only
  split <;> simp

@[simp] theorem secRaiseSerial_mem (r : SecReq) (s : State) : ((secRaiseSerial r s).2.2).mem = s.mem := by
  unfold secRaiseSerial
  dsimp only
  (repeat' split) <;> simp

@[simp] theorem secProvision_mem (plain : Option (List Nat)) (r : SecReq) (s : State) : ((secProvision plain r s).2.2).mem = s.mem := by
  fun_cases secProvision <;> simp

@[simp] theorem secGenKey_mem (scalar pub : List Nat) (x2 : SecReq) (s : State) : ((secGenKey scalar pub x2 s).2.2).mem = s.mem := by
  unfold secGenKey
  split <;> rfl

@[simp] theorem State.lockTrace_mem (s : State) (settings : List Nat) : (s.lockTrace settings).mem = s.mem := by
  unfold State.lockTrace
  split <;> rfl

@[simp] theorem secSetGroup_mem (g : Nat) (r : SecReq) (s : State) : ((secSetGroup g r s).2.2).mem = s.mem := by
  unfold secSetGroup
  split <;> simp

@[simp] theorem secInstallUser_mem (r : SecReq) (s : State) : ((secInstallUser r s).2.2).mem = s.mem := by
  unfold secInstallUser
  split <;> simp

@[simp] theorem secPageWrite_mem (r : SecReq) (s : State) : ((secPageWrite r s).2.2).mem = s.mem := by
  fun_cases secPageWrite <;> simp

@[simp] theorem secPageLock_mem (x0 : SecReq) (s : State) : ((secPageLock x0 s).2.2).mem = s.mem := by
  unfold secPageLock
  split <;> rfl

@[simp] theorem execSecStatus_memWf {s : State} (h : s.memWf) (t : Nat) : (execSecStatus t s).memWf := by simp +contextual [execSecStatus, h]

@[simp] theorem execGetNonce_memWf {s : State} (h : s.memWf) (t : Nat) (rnd : List Nat) : (execGetNonce t rnd s).memWf := by
  simp +contextual [execGetNonce, h]

@[simp] theorem execDevicePubkey_memWf {s : State} (h : s.memWf) (t : Nat) (pub : List Nat) : (execDevicePubkey t pub s).memWf := by
  simp +contextual [execDevicePubkey, h]

@[simp] theorem State.secSelfTest_memWf {s : State} (h : s.memWf) : s.secSelfTest.memWf := by simp [State.secSelfTest, h]

@[simp] theorem execSelfTest_memWf {s : State} (h : s.memWf) (t : Nat) : (execSelfTest t s).memWf := by simp +contextual [execSelfTest, h]

@[simp] theorem execOpenUser_memWf {s : State} (h : s.memWf) (t : Nat) (auth : Bool) : (execOpenUser t auth s).memWf := by
  simp +contextual [execOpenUser, h]

@[simp] theorem State.secClose_memWf {s : State} (h : s.memWf) (auth : Bool) (tag : List Nat) : (s.secClose auth tag).memWf := by
  simp [State.secClose, h]

@[simp] theorem execClose_memWf {s : State} (h : s.memWf) (t : Nat) (auth : Bool) (tag : List Nat) : (execClose t auth tag s).memWf := by
  simp +contextual [execClose, h]

@[simp] theorem execAttest_memWf {s : State} (h : s.memWf) (t : Nat) (auth : Bool) (sig tag : List Nat) : (execAttest t auth sig tag s).memWf := by
  simp +contextual [execAttest, h]

@[simp] theorem execRandom_memWf {s : State} (h : s.memWf) (t : Nat) (auth : Bool) (rnd tag : List Nat) : (execRandom t auth rnd tag s).memWf := by
  simp +contextual [execRandom, h]

@[simp] theorem execRaiseMinSerial_memWf {s : State} (h : s.memWf) (t : Nat) (auth : Bool) : (execRaiseMinSerial t auth s).memWf := by
  simp +contextual [execRaiseMinSerial, h]

@[simp] theorem execProvisionKey_memWf {s : State} (h : s.memWf) (t : Nat) (auth : Bool) (plain : Option (List Nat)) :
    (execProvisionKey t auth plain s).memWf := by
  simp +contextual [execProvisionKey, h]

@[simp] theorem execGenDeviceKey_memWf {s : State} (h : s.memWf) (t : Nat) (auth : Bool) (scalar pub : List Nat) :
    (execGenDeviceKey t auth scalar pub s).memWf := by
  simp +contextual [execGenDeviceKey, h]

@[simp] theorem execSetSettings_memWf {s : State} (h : s.memWf) (t : Nat) (auth : Bool) : (execSetSettings t auth s).memWf := by
  simp +contextual [execSetSettings, h]

@[simp] theorem execRotateRoot_memWf {s : State} (h : s.memWf) (t : Nat) (auth : Bool) : (execRotateRoot t auth s).memWf := by
  simp +contextual [execRotateRoot, h]

@[simp] theorem execInstallUserKey_memWf {s : State} (h : s.memWf) (t : Nat) (auth : Bool) : (execInstallUserKey t auth s).memWf := by
  simp +contextual [execInstallUserKey, h]

@[simp] theorem execPageWrite_memWf {s : State} (h : s.memWf) (t : Nat) (auth : Bool) : (execPageWrite t auth s).memWf := by
  simp +contextual [execPageWrite, h]

@[simp] theorem execPageLock_memWf {s : State} (h : s.memWf) (t : Nat) (auth : Bool) : (execPageLock t auth s).memWf := by
  simp +contextual [execPageLock, h]

@[simp] theorem State.burnLeftovers_mem (s : State) : s.burnLeftovers.mem = s.mem := by
  unfold State.burnLeftovers
  split <;> simp

@[simp] theorem State.selfTestComplete_memWf {s : State} (h : s.memWf) (pass : Bool) : (s.selfTestComplete pass).memWf := by
  simp [State.selfTestComplete, h]

@[simp] theorem execSelfTestComplete_memWf {s : State} (h : s.memWf) (t : Nat) (pass : Bool) : (execSelfTestComplete t pass s).memWf := by
  simp [execSelfTestComplete, h]

@[simp] theorem execConditionalTestFail_memWf {s : State} (h : s.memWf) (t : Nat) : (execConditionalTestFail t s).memWf := by
  simp [execConditionalTestFail, h]

@[simp] theorem execSessionTimeout_memWf {s : State} (h : s.memWf) (t : Nat) : (execSessionTimeout t s).memWf := by
  unfold execSessionTimeout
  split <;> simp [h]

@[simp] theorem execComponentTimeout_memWf {s : State} (h : s.memWf) (t : Nat) : (execComponentTimeout t s).memWf := by
  unfold execComponentTimeout
  split <;> simp [h]

/-! ### The Ray Registry engine (R181 to R213) -/

@[simp] theorem State.setGeom_mem (s : State) : s.setGeom.mem = s.mem := by
  unfold State.setGeom
  split <;> rfl

@[simp] theorem State.onZone_mem (s : State) (n : Nat) (f : Zone → Zone) : (s.onZone n f).mem = s.mem := rfl

@[simp] theorem State.setZone_mem (s : State) (n st : Nat) : (s.setZone n st).mem = s.mem := rfl

@[simp] theorem State.trigger_mem (s : State) (n : Nat) : (s.trigger n).mem = s.mem := by
  fun_cases State.trigger <;> simp

@[simp] theorem State.triggerAll_mem (s : State) : s.triggerAll.mem = s.mem := by simp [State.triggerAll]

@[simp] theorem State.zoneReport_mem (s : State) (n temp : Nat) : (s.zoneReport n temp).mem = s.mem := by simp [State.zoneReport]

@[simp] theorem State.zoneTempTimeout_mem (s : State) (n : Nat) : (s.zoneTempTimeout n).mem = s.mem := by
  fun_cases State.zoneTempTimeout <;> simp

@[simp] theorem State.zoneRunStart_mem (s : State) : s.zoneRunStart.mem = s.mem := by
  unfold State.zoneRunStart
  dsimp only
  (repeat' split) <;> simp

@[simp] theorem State.corruptSet_mem (s : State) (i n k : Nat) : (s.corruptSet i n k).mem = s.mem := by
  unfold State.corruptSet
  split <;> rfl

@[simp] theorem State.runEntry_memWf {s : State} (hs : s.memWf) (n h k : Nat) : (s.runEntry n h k).memWf := by
  have hw (c : Prop) [Decidable c] (t u : State) (ht : t.memWf) (hu : u.memWf) : (if c then t else u).memWf := by
    split <;> assumption
  fun_cases State.runEntry
  case case1 => simp [hs]
  case case2 s1 s2 s2n _ =>
    clear_value (e2n : s2n = _) (e2 : s2 = _) (e1 : s1 = _)
    have h1 : s1.memWf := by rw [e1]; exact hw _ _ _ (by simp [hs]) hs
    have h2 : s2.memWf := by rw [e2]; exact hw _ _ _ (by simp [h1]) h1
    have h2n : s2n.memWf := by rw [e2n]; exact hw _ _ _ (by simp [h2]) h2
    simp [h2n]
  case case3 s1 s2 s2n _ s3 _ f =>
    clear_value (ef : f = _) (e3 : s3 = _) (e2n : s2n = _) (e2 : s2 = _) (e1 : s1 = _)
    have h1 : s1.memWf := by rw [e1]; exact hw _ _ _ (by simp [hs]) hs
    have h2 : s2.memWf := by rw [e2]; exact hw _ _ _ (by simp [h1]) h1
    have h2n : s2n.memWf := by rw [e2n]; exact hw _ _ _ (by simp [h2]) h2
    simp -implicitDefEqProofs [ef, e3, h2n]
  case case4 s1 s2 s2n _ _ _ s3 _ _ _ =>
    clear_value (e3 : s3 = _) (e2n : s2n = _) (e2 : s2 = _) (e1 : s1 = _)
    have h1 : s1.memWf := by rw [e1]; exact hw _ _ _ (by simp [hs]) hs
    have h2 : s2.memWf := by rw [e2]; exact hw _ _ _ (by simp [h1]) h1
    have h2n : s2n.memWf := by rw [e2n]; exact hw _ _ _ (by simp [h2]) h2
    simp -implicitDefEqProofs [e3, h2n]

@[simp] theorem State.freshBlocks_mem (s : State) (n h : Nat) : (s.freshBlocks n h).mem = s.mem := by simp [State.freshBlocks]

@[simp] theorem State.zonePublish_mem (s : State) (n : Nat) : (s.zonePublish n).mem = s.mem := by
  unfold State.zonePublish
  dsimp only
  split <;> simp

@[simp] theorem State.installSet_memWf {s : State} (h : s.memWf) (i : Nat) (x : RegSet) (entries : List Nat) : (s.installSet i x entries).memWf := by
  simp [State.installSet, h]

theorem State.runEntries_memWf {s : State} (hs : s.memWf) (n h : Nat) (ks : List Nat) :
    (ks.foldl (fun s k => s.runEntry n h k) s).memWf := by
  induction ks generalizing s with
  | nil => exact hs
  | cons k ks ih =>
    rw [List.foldl_cons]
    exact ih (State.runEntry_memWf hs n h k)

@[simp] theorem State.zoneRunComplete_memWf {s : State} (hs : s.memWf) : s.zoneRunComplete.memWf := by
  have hpub {t u : State} (n : Nat) (e : u = if t.cmt.last = 0 then t.zonePublish n else t) (ht : t.memWf) : u.memWf := by
    rw [e]
    split <;> simp [ht]
  have hrun (t : State) (reads : List (Nat × Nat)) (n h : Nat) (ks : List Nat) (ht : t.memWf) :
      (ks.foldl (fun s k => s.runEntry n h k) ((t.noteReads 6 reads).freshBlocks n h)).memWf :=
    State.runEntries_memWf (by simp [ht]) _ _ _
  fun_cases State.zoneRunComplete
  case case1 => exact hs
  case case2 n _ h ks z reads s0 s1 s1d s2 s3 _ _ _ _ =>
    clear_value (e3 : s3 = _) (e2 : s2 = _) (ed : s1d = _) (e1 : s1 = _) (e0 : s0 = _)
    have h2 : s2.memWf := by simp -implicitDefEqProofs [e2, ed, e1, e0, hrun, hs]
    simp [hpub n e3 h2]
  case case3 n _ h ks z reads s0 s1 s1d s2 s3 _ =>
    clear_value (e3 : s3 = _) (e2 : s2 = _) (ed : s1d = _) (e1 : s1 = _) (e0 : s0 = _)
    have h2 : s2.memWf := by simp -implicitDefEqProofs [e2, ed, e1, e0, hrun, hs]
    exact hpub n e3 h2

@[simp] theorem State.zonesAtLatch_mem (s : State) (epoch : Nat) : (s.zonesAtLatch epoch).mem = s.mem := by simp [State.zonesAtLatch, apply_ite]

@[simp] theorem State.zonesAtMarker_mem (s : State) (epoch : Nat) : (s.zonesAtMarker epoch).mem = s.mem := by simp [State.zonesAtMarker, apply_ite]

@[simp] theorem State.laneAbandon_mem (s : State) (n : Nat) : (s.laneAbandon n).mem = s.mem := rfl

@[simp] theorem State.rrgHalt_memWf {s : State} (h : s.memWf) : s.rrgHalt.memWf := by
  unfold State.rrgHalt
  dsimp only
  split <;> simp [h]

@[simp] theorem State.zonesRelease_mem (s : State) : s.zonesRelease.mem = s.mem := by simp [State.zonesRelease]

@[simp] theorem State.lanesRelease_mem (s : State) : s.lanesRelease.mem = s.mem := by simp [State.lanesRelease, apply_ite]

@[simp] theorem State.zonesFirst_mem (s : State) : s.zonesFirst.mem = s.mem := by simp [State.zonesFirst, apply_ite]

@[simp] theorem State.zonesSwitch_mem (s : State) (old : List Nat) : (s.zonesSwitch old).mem = s.mem := by simp [State.zonesSwitch]

@[simp] theorem State.liveEcc_mem (s : State) (x1 : List Nat) : (s.liveEcc x1).mem = s.mem := by
  fun_induction State.liveEcc <;> simp [*]

@[simp] theorem State.setRefuse_mem (s : State) (code : Nat) : (s.setRefuse code).mem = s.mem := by simp [State.setRefuse]

@[simp] theorem State.setLoad_mem (s : State) : s.setLoad.mem = s.mem := by simp [State.setLoad]

@[simp] theorem State.setChecked_memWf {s : State} (h : s.memWf) (sigOk tagOk : Bool) (plain : List Nat) :
    (s.setChecked sigOk tagOk plain).memWf := by
  fun_cases State.setChecked <;> simp [h]

@[simp] theorem State.onLane_mem (s : State) (n : Nat) (f : Lane → Lane) : (s.onLane n f).mem = s.mem := rfl

@[simp] theorem State.showLane_mem (s : State) (n : Nat) : (s.showLane n).mem = s.mem := by simp [State.showLane]

@[simp] theorem State.laneRun_mem (s : State) (n : Nat) : (s.laneRun n).mem = s.mem := rfl

@[simp] theorem State.laneTrigger_mem (s : State) (n : Nat) : (s.laneTrigger n).mem = s.mem := by
  unfold State.laneTrigger
  split <;> rfl

@[simp] theorem State.laneQueue_mem (s : State) (n : Nat) : (s.laneQueue n).mem = s.mem := by
  unfold State.laneQueue
  split <;> simp

@[simp] theorem State.laneLock_mem (s : State) (n : Nat) : (s.laneLock n).mem = s.mem := by
  unfold State.laneLock
  dsimp only
  split <;> simp

@[simp] theorem State.laneLost_mem (s : State) (n : Nat) : (s.laneLost n).mem = s.mem := by simp [State.laneLost]

@[simp] theorem State.laneRunEnd_mem (s : State) (n h hh : Nat) : (s.laneRunEnd n h hh).mem = s.mem := by simp [State.laneRunEnd]

@[simp] theorem State.laneIteration_mem (s : State) (n : Nat) (counts : List (Nat × Nat)) (h hh : Nat) :
    (s.laneIteration n counts h hh).mem = s.mem := by
  simp [State.laneIteration]

@[simp] theorem State.lanePeriod_mem (s : State) (n : Nat) : (s.lanePeriod n).mem = s.mem := by
  unfold State.lanePeriod
  dsimp only
  split <;> simp

@[simp] theorem State.laneFom_mem (s : State) (n : Nat) : (s.laneFom n).mem = s.mem := by
  unfold State.laneFom
  split <;> simp

@[simp] theorem State.lanesAtTemp_mem (s : State) : s.lanesAtTemp.mem = s.mem := by simp [State.lanesAtTemp, apply_ite]

@[simp] theorem execRrgSetLoad_memWf {s : State} (h : s.memWf) (t : Nat) : (execRrgSetLoad t s).memWf := by simp [execRrgSetLoad, h]

@[simp] theorem execRrgSetChecked_memWf {s : State} (h : s.memWf) (t : Nat) (sigOk tagOk : Bool) (plain : List Nat) :
    (execRrgSetChecked t sigOk tagOk plain s).memWf := by
  simp +contextual [execRrgSetChecked, h]

@[simp] theorem execZoneTempReport_memWf {s : State} (h : s.memWf) (t n temp : Nat) : (execZoneTempReport t n temp s).memWf := by
  simp [execZoneTempReport, h]

@[simp] theorem execZoneRun_memWf {s : State} (h : s.memWf) (t n : Nat) : (execZoneRun t n s).memWf := by simp [execZoneRun, h]

@[simp] theorem execZoneTempTimeout_memWf {s : State} (h : s.memWf) (t n : Nat) : (execZoneTempTimeout t n s).memWf := by
  simp [execZoneTempTimeout, h]

@[simp] theorem execZoneRunStart_memWf {s : State} (h : s.memWf) (t : Nat) : (execZoneRunStart t s).memWf := by simp [execZoneRunStart, h]

@[simp] theorem execZoneRunComplete_memWf {s : State} (h : s.memWf) (t : Nat) : (execZoneRunComplete t s).memWf := by
  simp +contextual [execZoneRunComplete, h]

@[simp] theorem execLaneLock_memWf {s : State} (h : s.memWf) (t n : Nat) : (execLaneLock t n s).memWf := by simp [execLaneLock, h]

@[simp] theorem execLaneLockLost_memWf {s : State} (h : s.memWf) (t n : Nat) : (execLaneLockLost t n s).memWf := by simp [execLaneLockLost, h]

@[simp] theorem execLaneIterationEnd_memWf {s : State} (h : s.memWf) (t n : Nat) (counts : List (Nat × Nat)) (hl hh : Nat) :
    (execLaneIterationEnd t n counts hl hh s).memWf := by
  simp +contextual [execLaneIterationEnd, h]

@[simp] theorem execLanePeriodExpiry_memWf {s : State} (h : s.memWf) (t n : Nat) : (execLanePeriodExpiry t n s).memWf := by
  simp [execLanePeriodExpiry, h]

@[simp] theorem execLaneFomTrigger_memWf {s : State} (h : s.memWf) (t n : Nat) : (execLaneFomTrigger t n s).memWf := by simp [execLaneFomTrigger, h]

@[simp] theorem execLaneRun_memWf {s : State} (h : s.memWf) (t n : Nat) : (execLaneRun t n s).memWf := by simp [execLaneRun, h]

/-! ### The Tilth queue fabric (R17 to R22, R40 to R42) and the pace counters (R25) -/

@[simp] theorem State.onQueue_mem (s : State) (k : Nat) (f : TiltQueue → TiltQueue) : (s.onQueue k f).mem = s.mem := rfl

@[simp] theorem execTilthPlaceEntry_memWf {s : State} (h : s.memWf) (t k : Nat) (data : List Nat) : (execTilthPlaceEntry t k data s).memWf := by
  simp [execTilthPlaceEntry, h]

/-! ### Shoash images (R35 to R65, R619) -/

@[simp] theorem State.setStage_mem (s : State) (st : LoadStage) : (s.setStage st).mem = s.mem := rfl

@[simp] theorem State.shoRefuse_mem (s : State) (code : Nat) : (s.shoRefuse code).mem = s.mem := by simp [State.shoRefuse]

@[simp] theorem State.shoLoad_mem (s : State) : s.shoLoad.mem = s.mem := by
  fun_cases State.shoLoad <;> simp

@[simp] theorem State.imageCopyComplete_memWf {s : State} (h : s.memWf) : s.imageCopyComplete.memWf := by
  unfold State.imageCopyComplete
  dsimp only
  (repeat' split) <;> simp [h]

@[simp] theorem State.imageSignature_mem (s : State) (ok : Bool) : (s.imageSignature ok).mem = s.mem := by
  fun_cases State.imageSignature <;> simp

@[simp] theorem State.imageDecrypt_mem (s : State) (ok : Bool) (plain : List Nat) : (s.imageDecrypt ok plain).mem = s.mem := by
  unfold State.imageDecrypt
  dsimp only
  (repeat' split) <;> simp

@[simp] theorem State.shoAbort_mem (s : State) : s.shoAbort.mem = s.mem := by
  fun_cases State.shoAbort <;> simp

@[simp] theorem execShoashLoad_memWf {s : State} (h : s.memWf) (t : Nat) : (execShoashLoad t s).memWf := by simp [execShoashLoad, h]

@[simp] theorem execImageCopyComplete_memWf {s : State} (h : s.memWf) (t : Nat) : (execImageCopyComplete t s).memWf := by
  simp [execImageCopyComplete, h]

@[simp] theorem execImageSignatureResult_memWf {s : State} (h : s.memWf) (t : Nat) (ok : Bool) : (execImageSignatureResult t ok s).memWf := by
  simp [execImageSignatureResult, h]

@[simp] theorem execImageDecryptResult_memWf {s : State} (h : s.memWf) (t : Nat) (ok : Bool) (plain : List Nat) :
    (execImageDecryptResult t ok plain s).memWf := by
  simp [execImageDecryptResult, h]

/-! ### The Sieve (R276 to R292) -/

@[simp] theorem State.formRows_memWf {s : State} (hs : s.memWf) (port a0 p0 w h g j n : Nat) : (s.formRows port a0 p0 w h g j n).memWf := by
  fun_induction State.formRows s port a0 p0 w h g j n 
  case case1 => exact hs
  case case2 ih => exact ih (State.store_memWf hs _ _ _)

@[simp] theorem State.formLevels_memWf {s : State} (h : s.memWf) (a0 p0 w h x5 x6 : Nat) : (s.formLevels a0 p0 w h x5 x6).memWf := by
  fun_induction State.formLevels <;> simp [*]

@[simp] theorem State.writeLevel0_memWf {s : State} (h : s.memWf) (a0 p0 j : Nat) (l : List (List (List Ext))) :
    (s.writeLevel0 a0 p0 j l).memWf := by
  fun_induction State.writeLevel0 s a0 p0 j l
  case case1 => exact h
  case case2 ih => exact ih (State.store_memWf h _ _ _)

@[simp] theorem State.onPipe_mem (s : State) (p : Nat) (f : SvePipe → SvePipe) : (s.onPipe p f).mem = s.mem := rfl

@[simp] theorem State.setPipe_mem (s : State) (p st : Nat) : (s.setPipe p st).mem = s.mem := rfl

@[simp] theorem State.sveLog_mem (s : State) (p code ctx : Nat) : (s.sveLog p code ctx).mem = s.mem := by
  unfold State.sveLog
  split <;> simp

@[simp] theorem State.sveDrop_memWf {s : State} (h : s.memWf) (p : Nat) (j : SveJob) (code stamp : Nat) : (s.sveDrop p j code stamp).memWf := by
  simp [State.sveDrop, h]

@[simp] theorem State.pipeBoundary_mem (s : State) (p : Nat) : (s.pipeBoundary p).mem = s.mem := by
  unfold State.pipeBoundary
  split <;> rfl

@[simp] theorem State.dropCurrent_memWf {s : State} (h : s.memWf) (p code : Nat) : (s.dropCurrent p code).memWf := by
  unfold State.dropCurrent
  split <;> simp [h]

@[simp] theorem State.dropJobs_memWf {s : State} (h : s.memWf) (p code : Nat) (x3 : List SveJob) : (s.dropJobs p code x3).memWf := by
  fun_induction State.dropJobs <;> simp [*]

@[simp] theorem State.pipeHalt_memWf {s : State} (h : s.memWf) (p : Nat) : (s.pipeHalt p).memWf := by simp [State.pipeHalt, h]

@[simp] theorem State.pipeRelease_mem (s : State) (p : Nat) : (s.pipeRelease p).mem = s.mem := by
  unfold State.pipeRelease
  split <;> simp

@[simp] theorem State.sveHalt_memWf {s : State} (h : s.memWf) : s.sveHalt.memWf :=
  foldl_memWf (fun _ p ht => State.pipeHalt_memWf ht p) _ h

@[simp] theorem State.sveRelease_mem (s : State) : s.sveRelease.mem = s.mem := by simp [State.sveRelease]

@[simp] theorem State.sourceQueue_memWf {s : State} (h : s.memWf) (p : Nat) (j : SveJob) : (s.sourceQueue p j).memWf := by simp [State.sourceQueue, h]

@[simp] theorem State.sourceFrame_memWf {s : State} (h : s.memWf) (w : Nat) : (s.sourceFrame w).memWf := by
  unfold State.sourceFrame
  split <;> simp [h]

@[simp] theorem State.onCtx_mem (s : State) (c : Nat) (f : Context → Context) : (s.onCtx c f).mem = s.mem := rfl

@[simp] theorem State.sveStart_memWf {s : State} (h : s.memWf) (p : Nat) : (s.sveStart p).memWf := by
  unfold State.sveStart
  dsimp only
  (repeat' split) <;> simp [h]

@[simp] theorem State.sveRead_memWf {s : State} (h : s.memWf) (p : Nat) : (s.sveRead p).memWf := by
  unfold State.sveRead
  split
  · exact h
  · split
    · exact h
    · extract_lets +onlyGivenNames d rb addrs
      split
      · extract_lets +onlyGivenNames rows s1
        have h1 : s1.memWf := by simpa [s1] using h
        simp [h1]
      · next f _ _ _ =>
        extract_lets +onlyGivenNames px a0 s1 s2
        have hlevel := State.writeLevel0_memWf (s := s.noteReads 7 (addrs.map (fun a => (a, rb)))) (by simpa using h) a0
          (fieldLE d 0x1C 4) 0 px
        have h2 : s2.memWf := State.formLevels_memWf hlevel _ _ _ _ _ _
        exact State.endDesc_memWf h2 _ _ _ _

@[simp] theorem State.sveWritten_mem (s : State) (p : Nat) : (s.sveWritten p).mem = s.mem := by
  unfold State.sveWritten
  split <;> simp

@[simp] theorem State.sveDiscard_memWf {s : State} (h : s.memWf) (c : Nat) : (s.sveDiscard c).memWf := by
  refine foldl_memWf (fun t p ht => ?_) _ h
  have hdrop (l : List SveJob) (f : SvePipe → SvePipe) : ((t.onPipe p f).dropJobs p 0x0A22 l).memWf :=
    State.dropJobs_memWf (by simpa using ht) _ _ _
  simpa using hdrop _ _

@[simp] theorem State.sveApply_mem (s : State) (v : Nat) : (s.sveApply v).mem = s.mem := by simp [State.sveApply]

@[simp] theorem State.tableCopy_mem (s : State) (p : Nat) : (s.tableCopy p).mem = s.mem := by
  unfold State.tableCopy
  dsimp only
  (repeat' split) <;> simp

@[simp] theorem State.tblAccess_mem (s : State) (write : Bool) (v : Nat) : (s.tblAccess write v).mem = s.mem := by simp [State.tblAccess, apply_ite]

@[simp] theorem State.pipeEnWrite_memWf {s : State} (h : s.memWf) (w : Nat) : (s.pipeEnWrite w).memWf := by simp [State.pipeEnWrite, h]

@[simp] theorem State.pipeParity_memWf {s : State} (h : s.memWf) (p : Nat) : (s.pipeParity p).memWf := by simp [State.pipeParity, h]

@[simp] theorem execSourceFrame_memWf {s : State} (h : s.memWf) (t w : Nat) : (execSourceFrame t w s).memWf := by
  simp +contextual [execSourceFrame, h]

@[simp] theorem execSieveFrameStart_memWf {s : State} (h : s.memWf) (t p : Nat) : (execSieveFrameStart t p s).memWf := by
  simp +contextual [execSieveFrameStart, h]

@[simp] theorem execInputReadComplete_memWf {s : State} (h : s.memWf) (t p : Nat) : (execInputReadComplete t p s).memWf := by
  simp +contextual [execInputReadComplete, h]

@[simp] theorem execSieveFrameWritten_memWf {s : State} (h : s.memWf) (t p : Nat) : (execSieveFrameWritten t p s).memWf := by
  simp [execSieveFrameWritten, h]

@[simp] theorem execSveApply_memWf {s : State} (h : s.memWf) (t v : Nat) : (execSveApply t v s).memWf := by simp [execSveApply, h]

@[simp] theorem execTableCopy_memWf {s : State} (h : s.memWf) (t p : Nat) : (execTableCopy t p s).memWf := by simp [execTableCopy, h]

@[simp] theorem execTblDataAccess_memWf {s : State} (h : s.memWf) (t : Nat) (write : Bool) (v : Nat) : (execTblDataAccess t write v s).memWf := by
  simp [execTblDataAccess, h]

@[simp] theorem execPipeEnWrite_memWf {s : State} (h : s.memWf) (t v : Nat) : (execPipeEnWrite t v s).memWf := by
  simp +contextual [execPipeEnWrite, h]

@[simp] theorem execPipeParityFault_memWf {s : State} (h : s.memWf) (t p : Nat) : (execPipeParityFault t p s).memWf := by
  simp +contextual [execPipeParityFault, h]

/-! ### The Trowel (R293 to R305) -/

@[simp] theorem State.trwTake_memWf {s : State} (h : s.memWf) (op : Nat) : (s.trwTake op).memWf := by
  unfold State.trwTake
  split <;> simp [h]

@[simp] theorem State.trwWrite_memWf {s : State} (h : s.memWf) (j : TrwJob) (q : Nat × Nat) : (s.trwWrite j q).memWf := by simp [State.trwWrite, h]

@[simp] theorem State.trwRun_memWf {s : State} (h : s.memWf) (j : TrwJob) (n : Nat) : (s.trwRun j n).1.memWf := by
  fun_induction State.trwRun s j n with
  | case1 => exact h
  | case2 => exact h
  | case3 => simpa using h
  | case4 s j n q hplace hclean s1 ih => exact ih (by simp [s1, h])

@[simp] theorem State.trwShow_mem (s : State) (j : TrwJob) : (s.trwShow j).mem = s.mem := rfl

@[simp] theorem State.trwEnd_memWf {s : State} (h : s.memWf) (j : TrwJob) (code : Nat) : (s.trwEnd j code).memWf := by simp [State.trwEnd, h]

@[simp] theorem State.trwScratch_memWf {s : State} (h : s.memWf) : s.trwScratch.memWf := by
  fun_cases State.trwScratch <;> simp [h]

@[simp] theorem State.trwMark_memWf {s : State} (h : s.memWf) (j : TrwJob) : (s.trwMark j).memWf := by simp [State.trwMark, h]

@[simp] theorem State.trwMarkIf_memWf {s : State} (h : s.memWf) (j : TrwJob) : (s.trwMarkIf j).memWf := by simp [State.trwMarkIf, h]

@[simp] theorem State.trwWatermarkEv_memWf {s : State} (h : s.memWf) : s.trwWatermarkEv.memWf := by
  unfold State.trwWatermarkEv
  split <;> simp [h]

@[simp] theorem State.trwDone_memWf {s : State} (h : s.memWf) : s.trwDone.memWf := by
  unfold State.trwDone
  split
  · exact h
  · split
    · exact h
    · extract_lets +onlyGivenNames r
      have hr : r.1.memWf := State.trwRun_memWf h _ _
      have hmark := State.trwMarkIf_memWf hr r.2.1
      exact State.trwEnd_memWf (by simpa using hmark) _ _

@[simp] theorem State.trwHalt_memWf {s : State} (h : s.memWf) : s.trwHalt.memWf := by
  unfold State.trwHalt
  split <;> simp [h]

@[simp] theorem State.trwRelease_mem (s : State) : s.trwRelease.mem = s.mem := by
  unfold State.trwRelease
  split <;> rfl

@[simp] theorem execCopy_memWf {s : State} (h : s.memWf) (t : Nat) : (execCopy t s).memWf := by simp +contextual [execCopy, h]

@[simp] theorem execFill_memWf {s : State} (h : s.memWf) (t : Nat) : (execFill t s).memWf := by simp +contextual [execFill, h]

@[simp] theorem execBlend_memWf {s : State} (h : s.memWf) (t : Nat) : (execBlend t s).memWf := by simp +contextual [execBlend, h]

@[simp] theorem execReduce_memWf {s : State} (h : s.memWf) (t : Nat) : (execReduce t s).memWf := by simp +contextual [execReduce, h]

@[simp] theorem execScratchCopied_memWf {s : State} (h : s.memWf) (t : Nat) : (execScratchCopied t s).memWf := by
  simp +contextual [execScratchCopied, h]

@[simp] theorem execWatermark_memWf {s : State} (h : s.memWf) (t : Nat) : (execWatermark t s).memWf := by simp +contextual [execWatermark, h]

@[simp] theorem execTrwJobDone_memWf {s : State} (h : s.memWf) (t : Nat) : (execTrwJobDone t s).memWf := by simp +contextual [execTrwJobDone, h]

/-! ### The Board (R250 to R273) -/

@[simp] theorem State.ctxShow_mem (s : State) (c : Nat) : (s.ctxShow c).mem = s.mem := rfl

@[simp] theorem State.ctxAnswer_mem (s : State) (c code inst : Nat) : (s.ctxAnswer c code inst).mem = s.mem := by
  unfold State.ctxAnswer
  split <;> rfl

@[simp] theorem State.ctxResult_mem (s : State) (c code : Nat) : (s.ctxResult c code).mem = s.mem := by simp [State.ctxResult]

@[simp] theorem State.ctxRegister_mem (s : State) (c : Nat) : (s.ctxRegister c).mem = s.mem := by
  unfold State.ctxRegister
  split <;> rfl

@[simp] theorem State.ctxActivate_mem (s : State) (c : Nat) : (s.ctxActivate c).mem = s.mem := by
  unfold State.ctxActivate
  split <;> simp

@[simp] theorem State.ctxDeactivate_memWf {s : State} (h : s.memWf) (c : Nat) : (s.ctxDeactivate c).memWf := by
  unfold State.ctxDeactivate
  split <;> simp [h]

@[simp] theorem State.ctxUnregister_mem (s : State) (c : Nat) : (s.ctxUnregister c).mem = s.mem := by
  unfold State.ctxUnregister
  split <;> simp

@[simp] theorem State.sourceArrival_mem (s : State) : s.sourceArrival.mem = s.mem := by
  unfold State.sourceArrival
  split <;> rfl

@[simp] theorem State.lateLayers_mem (s : State) (epoch : Nat) (shows : List LayerShow) : (s.lateLayers epoch shows).mem = s.mem := by
  unfold State.lateLayers
  dsimp only
  split <;> simp

@[simp] theorem State.countLate_mem (s : State) (epoch : Nat) : (s.countLate epoch).mem = s.mem := by
  unfold State.countLate
  exact foldl_mem (fun _ _ => by rfl) _ _

@[simp] theorem State.decideFrame_mem (s : State) (epoch frame l target capture : Nat) (plan : Plan) (mode row0 : Nat) (descs : List (List Nat)) :
    (s.decideFrame epoch frame l target capture plan mode row0 descs).1.mem = s.mem := by
  simp [State.decideFrame]

@[simp] theorem State.onEpoch_mem (s : State) (e : Nat) (f : Epoch → Epoch) : (s.onEpoch e f).mem = s.mem := rfl

@[simp] theorem State.onReport_mem (s : State) (epoch : Nat) (f : RepCount → RepCount) : (s.onReport epoch f).mem = s.mem := rfl

@[simp] theorem State.countStep_mem (s : State) (epoch step : Nat) : (s.countStep epoch step).mem = s.mem := rfl

@[simp] theorem State.boardShow_mem (s : State) : s.boardShow.mem = s.mem := by
  fun_cases State.boardShow <;> simp

@[simp] theorem State.addBand_mem (s : State) (bd : Band) : (s.addBand bd).mem = s.mem := rfl

@[simp] theorem State.listBand_mem (s : State) : s.listBand.mem = s.mem := by
  unfold State.listBand
  dsimp only
  (repeat' split) <;> simp

@[simp] theorem State.listLate_mem (s : State) : s.listLate.mem = s.mem := by
  unfold State.listLate
  split <;> simp

@[simp] theorem State.onBand_mem (s : State) (seq : Nat) (f : Band → Band) : (s.onBand seq f).mem = s.mem := rfl

@[simp] theorem State.dropBand_mem (s : State) (seq : Nat) : (s.dropBand seq).mem = s.mem := rfl

@[simp] theorem State.bandLate_mem (s : State) (epoch layer band reason applied : Nat) :
    (s.bandLate epoch layer band reason applied).mem = s.mem := by
  simp [State.bandLate]

@[simp] theorem State.boardHalt_mem (s : State) : s.boardHalt.mem = s.mem := rfl

@[simp] theorem State.boardRelease_mem (s : State) : s.boardRelease.mem = s.mem := by
  unfold State.boardRelease
  split
  · simp
  · split
    · rfl
    · extract_lets +onlyGivenNames past s1 _ s2
      have h1 : s1.mem = s.mem := foldl_mem (fun _ _ => by rfl) _ _
      simp [s2, h1]

@[simp] theorem execRegister_memWf {s : State} (h : s.memWf) (t c : Nat) : (execRegister t c s).memWf := by simp [execRegister, h]

@[simp] theorem execActivate_memWf {s : State} (h : s.memWf) (t c : Nat) : (execActivate t c s).memWf := by simp [execActivate, h]

@[simp] theorem execDeactivate_memWf {s : State} (h : s.memWf) (t c : Nat) : (execDeactivate t c s).memWf := by simp +contextual [execDeactivate, h]

@[simp] theorem execUnregister_memWf {s : State} (h : s.memWf) (t c : Nat) : (execUnregister t c s).memWf := by simp [execUnregister, h]

@[simp] theorem execSourceFrameArrival_memWf {s : State} (h : s.memWf) (t : Nat) : (execSourceFrameArrival t s).memWf := by
  simp [execSourceFrameArrival, h]

/-! ### The pace predictor (R229 to R234) -/

@[simp] theorem State.noteSlack_mem (s : State) (bd : Band) (slack : Option Int) : (s.noteSlack bd slack).mem = s.mem := rfl

@[simp] theorem State.setFile_mem (s : State) (n st : Nat) : (s.setFile n st).mem = s.mem := rfl

@[simp] theorem State.paceNext_mem (s : State) : s.paceNext.mem = s.mem := by
  fun_cases State.paceNext <;> simp

@[simp] theorem State.rokShow_mem (s : State) (bd : Band) : (s.rokShow bd).mem = s.mem := rfl

@[simp] theorem State.rokRefresh_mem (s : State) : s.rokRefresh.mem = s.mem := by
  unfold State.rokRefresh
  split <;> rfl

/-! ### Silt (R159 to R180) -/

@[simp] theorem State.onBank_mem (s : State) (k : Nat) (f : SiltBank → SiltBank) : (s.onBank k f).mem = s.mem := rfl

@[simp] theorem State.setBank_mem (s : State) (k st : Nat) : (s.setBank k st).mem = s.mem := by
  unfold State.setBank
  split <;> rfl

@[simp] theorem State.freeBank_mem (s : State) (k : Nat) : (s.freeBank k).mem = s.mem := by simp [State.freeBank]

@[simp] theorem State.endReading_mem (s : State) (k : Nat) : (s.endReading k).mem = s.mem := by
  unfold State.endReading
  split <;> simp

@[simp] theorem State.carryOver_mem (s : State) (k : Nat) : (s.carryOver k).mem = s.mem := by
  unfold State.carryOver
  dsimp only
  split <;> simp

@[simp] theorem State.endWait_mem (s : State) (bd : Band) : (s.endWait bd).mem = s.mem := by
  unfold State.endWait
  split <;> simp

@[simp] theorem State.waitOver_mem (s : State) (bd : Band) : (s.waitOver bd).mem = s.mem := by
  fun_cases State.waitOver <;> simp

@[simp] theorem State.holdBand_mem (s : State) (bd : Band) : (s.holdBand bd).mem = s.mem := by simp [State.holdBand]

@[simp] theorem State.bankReady_mem (s : State) (seq : Nat) : (s.bankReady seq).mem = s.mem := by
  fun_cases State.bankReady <;> simp

@[simp] theorem State.planShow_mem (s : State) (p : Plan) : (s.planShow p).mem = s.mem := by simp [State.planShow]

@[simp] theorem State.releaseBand_mem (s : State) (bd0 : Band) (k : Nat) (plan : Plan) : (s.releaseBand bd0 k plan).mem = s.mem := by
  simp [State.releaseBand]

@[simp] theorem State.bankRelease_mem (s : State) : s.bankRelease.mem = s.mem := by
  have hlate (c : Prop) [Decidable c] : (if c then s else s.listLate).mem = s.mem := by split <;> simp
  fun_cases State.bankRelease
  case case1 => rfl
  case case2 sl s0 _ | case3 sl s0 _ _ _ | case4 sl s0 _ _ _ _ _ => exact (State.paceNext_mem sl).trans (hlate _)
  case case5 sl s0 _ _ _ _ _ s1 _ =>
    clear_value (e1 : s1 = _) (e0 : s0 = _) (el : sl = _)
    simp -implicitDefEqProofs [e1, e0, el, hlate]
  case case6 sl s0 _ _ _ _ _ s1 _ _ s2 =>
    clear_value (e2 : s2 = _) (e1 : s1 = _) (e0 : s0 = _) (el : sl = _)
    simp -implicitDefEqProofs [e2, e1, e0, el, hlate]

@[simp] theorem State.carryComplete_mem (s : State) : s.carryComplete.mem = s.mem := by
  unfold State.carryComplete
  split <;> simp

@[simp] theorem State.siltEcc_mem (s : State) (bd : Band) (corr : Nat) (bad : List (Nat × Nat)) : (s.siltEcc bd corr bad).mem = s.mem := by
  unfold State.siltEcc
  dsimp only
  split <;> simp

@[simp] theorem execBankRelease_memWf {s : State} (h : s.memWf) (t : Nat) : (execBankRelease t s).memWf := by simp [execBankRelease, h]

@[simp] theorem execCarryCopyComplete_memWf {s : State} (h : s.memWf) (t : Nat) : (execCarryCopyComplete t s).memWf := by
  simp [execCarryCopyComplete, h]

/-! ### The Kiln's conversion of samples (R132), grain levels (R133), engines, predicted rates and times (R134, R135, R149), and reports of decoding (R126) -/

@[simp] theorem State.onEngine_mem (s : State) (e : Nat) (f : Engine → Engine) : (s.onEngine e f).mem = s.mem := rfl

@[simp] theorem State.setEng_mem (s : State) (e st : Nat) : (s.setEng e st).mem = s.mem := by
  unfold State.setEng
  split <;> rfl

@[simp] theorem State.kssReport_mem (s : State) (e : Nat) (au : KssAu) (σ : Nat) (o : KssOut) : (s.kssReport e au σ o).mem = s.mem := by
  unfold State.kssReport
  split <;> rfl

/-! ### Late policies within a band (R264) -/

@[simp] theorem State.storeAll_mem (s : State) (bank : Nat) (l : List (Nat × List SiltTile)) : (s.storeAll bank l).mem = s.mem := rfl

@[simp] theorem State.substHold_mem (s : State) (e : Nat) (bd : Band) (layer σ freed : Nat) : (s.substHold e bd layer σ freed).2.mem = s.mem := by
  unfold State.substHold
  dsimp only
  (repeat' split) <;> simp

@[simp] theorem State.substFlat_mem (s : State) (bd : Band) (layer : Nat) (tiles : List (Nat × Nat × Nat)) :
    (s.substFlat bd layer tiles).2.mem = s.mem := by
  fun_cases State.substFlat <;> simp

@[simp] theorem State.relisted_mem (s : State) (bd : Band) (old : List SquareList) (new : List SquareList) : (s.relisted bd old new).mem = s.mem := by
  unfold State.relisted
  dsimp only
  split <;> simp

@[simp] theorem State.substStill_mem (s : State) (bd : Band) (layer lo hi freed : Nat) : (s.substStill bd layer lo hi freed).2.mem = s.mem := by
  unfold State.substStill
  dsimp only
  (repeat' split) <;> simp

@[simp] theorem State.bandPolicy_mem {s : State} {f : Nat → Bool × State} (hf : ∀ p, (f p).2.mem = s.mem) (bd : Band)
    (layer reason held : Nat) (intime : Bool) : (s.bandPolicy bd layer reason held intime f).mem = s.mem := by
  unfold State.bandPolicy
  dsimp only
  split_ifs <;> simp [hf]

@[simp] theorem State.lostStratum_mem (s : State) (e : Nat) (bd : Band) (layer σ : Nat) (intime : Bool) :
    (s.lostStratum e bd layer σ intime).mem = s.mem := by
  unfold State.lostStratum
  extract_lets +onlyGivenNames a sr freed s1
  refine (State.bandPolicy_mem (fun p => ?_) bd layer 3 3 intime).trans rfl
  split <;> simp

@[simp] theorem State.freeInTime_mem (s : State) : s.freeInTime.2.mem = s.mem := rfl

@[simp] theorem State.fetchFault_mem (s : State) (bd : Band) (layer : Nat) : (s.fetchFault bd layer).mem = s.mem := by
  unfold State.fetchFault
  extract_lets +onlyGivenNames tiles s1 s2
  have h2 : s2.2.mem = s.mem := by simp [s2, s1]
  refine (State.bandPolicy_mem (fun p => ?_) bd layer 4 0 s2.1).trans h2
  split <;> simp

@[simp] theorem State.flatComplete_mem (s : State) : s.flatComplete.mem = s.mem := by
  unfold State.flatComplete
  split <;> simp

@[simp] theorem execFlatFetchComplete_memWf {s : State} (h : s.memWf) (t : Nat) : (execFlatFetchComplete t s).memWf := by
  simp [execFlatFetchComplete, h]

/-! ### The Kiln's host jobs (R139 to R148), the firmware's ring (R130), chain rings (R146, R147, R157) and the engine states that jobs bring about (R150) -/

@[simp] theorem State.recordUsed_memWf {s : State} (h : s.memWf) (e : Nat) (j : KilnJob) : (s.recordUsed e j).memWf := by
  unfold State.recordUsed
  split <;> simp [h]

@[simp] theorem State.takeFw_mem (s : State) (e : Nat) : (s.takeFw e).mem = s.mem := by
  unfold State.takeFw
  split <;> simp

@[simp] theorem State.pushFw_mem (s : State) (j : KilnJob) : (s.pushFw j).mem = s.mem := by simp [State.pushFw]

@[simp] theorem State.endJob_memWf {s : State} (h : s.memWf) (e code : Nat) : (s.endJob e code).memWf := by
  unfold State.endJob
  split <;> simp [h]

@[simp] theorem State.endFw_memWf {s : State} (h : s.memWf) (op : Nat) : (s.endFw op).memWf := by simp [State.endFw, h]

@[simp] theorem State.markJob_mem (s : State) (e code : Nat) : (s.markJob e code).mem = s.mem := rfl

@[simp] theorem State.stopJob_mem (s : State) (e code : Nat) : (s.stopJob e code).mem = s.mem := rfl

@[simp] theorem State.onJob_mem (s : State) (e : Nat) (f : KilnJob → KilnJob) : (s.onJob e f).mem = s.mem := rfl

@[simp] theorem State.takeLink_memWf {s : State} (h : s.memWf) (e : Nat) (j : KilnJob) : (s.takeLink e j).2.memWf := by
  unfold State.takeLink
  dsimp only
  split_ifs <;> simp +contextual [h]

@[simp] theorem State.makeRoom_memWf {s : State} (h : s.memWf) (e n : Nat) : (s.makeRoom e n).2.memWf := by
  fun_cases State.makeRoom <;> simp [h]

@[simp] theorem State.putOut_memWf {s : State} (h : s.memWf) (e n : Nat) (bs : List Nat) : (s.putOut e n bs).memWf := by
  unfold State.putOut
  split <;> simp [h]

@[simp] theorem State.encodeUnit_memWf {s : State} (h : s.memWf) (e : Nat) : (s.encodeUnit e).memWf := by
  fun_cases State.encodeUnit
  case case1 => exact h
  case case2 => exact h
  case case3 => exact h
  case case4 => simp [h]
  case case5 u s0 hmake _ s1 s2 =>
    clear_value (e2 : s2 = _) (e1 : s1 = _)
    have hroom := State.makeRoom_memWf h e u.1.length
    rw [hmake] at hroom
    have h2 : s2.memWf := by
      rw [e2]
      split <;> simp -implicitDefEqProofs [e1, hroom]
    have hput := State.putOut_memWf h2 e u.1.length u.1
    simpa using hput
  case case6 u _ _ _ hmake =>
    have hroom := State.makeRoom_memWf h e u.1.length
    rw [hmake] at hroom
    exact hroom

@[simp] theorem State.condemn_mem (s : State) (e code pos place : Nat) : (s.condemn e code pos place).mem = s.mem := by
  unfold State.condemn
  split <;> simp

@[simp] theorem State.decodeUnit_memWf {s : State} (h : s.memWf) (e : Nat) : (s.decodeUnit e).memWf := by
  have hread {read : State → State} {l : List (Nat × Nat)} (er : read = fun t => t.noteReads (2 + e) l) (t : State) :
      (read t).mem = t.mem := by simp [er]
  have hroom {n : Nat} {r : Room} {t : State} (hr : s.makeRoom e n = (r, t)) : t.memWf := by
    have hmake := State.makeRoom_memWf h e n
    rwa [hr] at hmake
  fun_cases State.decodeUnit
  case case1 | case2 => exact h
  case case3 => simp [h]
  case case4 read _ =>
    clear_value (er : read = _)
    simp [hread er, h]
  case case5 read _ _ _ next _ _ _ hr _ _ | case6 read _ _ _ next _ _ _ hr _ | case7 read _ _ _ next _ _ _ hr _ =>
    clear_value (en : next = _) (er : read = _)
    simp -implicitDefEqProofs [en, hread er, hroom hr]
  case case8 hr | case10 hr _ => exact hroom hr
  case case9 read _ _ _ _ _ hr _ _ =>
    clear_value (er : read = _)
    simp -implicitDefEqProofs [hread er, hroom hr]
  case case11 read _ _ _ _ _ _ =>
    clear_value (er : read = _)
    simp -implicitDefEqProofs [hread er, h]

@[simp] theorem State.kssNext_mem (s : State) (e n : Nat) : (s.kssNext e n).mem = s.mem := rfl

@[simp] theorem State.kssOpen_mem (s : State) (e : Nat) (j : KilnJob) : (s.kssOpen e j).mem = s.mem := by simp [State.kssOpen]

@[simp] theorem State.writeRecs_memWf {s : State} (h : s.memWf) (e n : Nat) : (s.writeRecs e n).memWf := by
  induction n generalizing s with
  | zero => exact h
  | succ n ih =>
    unfold State.writeRecs
    split
    · exact h
    · next r _ =>
      have hroom := State.makeRoom_memWf h e r.length
      split
      · next hmake =>
        rw [hmake] at hroom
        refine ih ?_
        simpa using State.putOut_memWf hroom e r.length r
      · next hmake =>
        rw [hmake] at hroom
        exact hroom

@[simp] theorem State.kssStratum_memWf {s : State} (h : s.memWf) (e : Nat) : (s.kssStratum e).memWf := by
  unfold State.kssStratum
  dsimp only
  (repeat' split) <;> simp [h]

@[simp] theorem State.suspendJob_memWf {s : State} (h : s.memWf) (e : Nat) : (s.suspendJob e).memWf := by
  unfold State.suspendJob
  dsimp only
  (repeat' split) <;> simp [h]

@[simp] theorem State.jobStart_memWf {s : State} (h : s.memWf) (w op : Nat) : (s.jobStart w op).memWf := by
  unfold State.jobStart
  dsimp only
  (repeat' split) <;> simp [h]

@[simp] theorem State.hostJobEnd_memWf {s : State} (h : s.memWf) (e : Nat) : (s.hostJobEnd e).memWf := by
  unfold State.hostJobEnd
  split <;> simp [h]

@[simp] theorem State.chainEmpty_memWf {s : State} (h : s.memWf) (e t : Nat) : (s.chainEmpty e t).memWf := by
  unfold State.chainEmpty
  split <;> simp [h]

@[simp] theorem State.chainHead_memWf {s : State} (h : s.memWf) (n v : Nat) : (s.chainHead n v).memWf := by
  unfold State.chainHead
  dsimp only
  (repeat' split) <;> simp [h]

@[simp] theorem State.chainExpiry_memWf {s : State} (h : s.memWf) (e : Nat) : (s.chainExpiry e).memWf := by
  unfold State.chainExpiry
  split <;> simp [h]

@[simp] theorem State.resumeHost_memWf {s : State} (h : s.memWf) (e : Nat) : (s.resumeHost e).memWf := by
  fun_cases State.resumeHost <;> simp [h]

@[simp] theorem execLoamEncode_memWf {s : State} (h : s.memWf) (t w : Nat) : (execLoamEncode t w s).memWf := by simp +contextual [execLoamEncode, h]

@[simp] theorem execLoamDecode_memWf {s : State} (h : s.memWf) (t w : Nat) : (execLoamDecode t w s).memWf := by simp +contextual [execLoamDecode, h]

@[simp] theorem execKssDecode_memWf {s : State} (h : s.memWf) (t w : Nat) : (execKssDecode t w s).memWf := by simp +contextual [execKssDecode, h]

@[simp] theorem execLoamUnitEncoded_memWf {s : State} (h : s.memWf) (t e : Nat) : (execLoamUnitEncoded t e s).memWf := by
  simp +contextual [execLoamUnitEncoded, h]

@[simp] theorem execLoamUnitDecoded_memWf {s : State} (h : s.memWf) (t e : Nat) : (execLoamUnitDecoded t e s).memWf := by
  simp +contextual [execLoamUnitDecoded, h]

@[simp] theorem execHostJobEnd_memWf {s : State} (h : s.memWf) (t e : Nat) : (execHostJobEnd t e s).memWf := by simp +contextual [execHostJobEnd, h]

@[simp] theorem execChainHeadWrite_memWf {s : State} (h : s.memWf) (t n v : Nat) : (execChainHeadWrite t n v s).memWf := by
  simp +contextual [execChainHeadWrite, h]

@[simp] theorem execChainWaitExpiry_memWf {s : State} (h : s.memWf) (t e : Nat) : (execChainWaitExpiry t e s).memWf := by
  simp +contextual [execChainWaitExpiry, h]

/-! ### The Kiln's band jobs (R130, R134 to R138) -/

@[simp] theorem State.takeStratum_memWf {s : State} (h : s.memWf) (e : Nat) : (s.takeStratum e).memWf := by
  unfold State.takeStratum
  dsimp only
  (repeat' split) <;> simp [h]

@[simp] theorem State.admitBand_memWf {s : State} (h : s.memWf) (bd : Band) (step : Nat) (strata : List JobStratum) :
    (s.admitBand bd step strata).memWf := by
  simp [State.admitBand, h]

@[simp] theorem State.admitShort_mem (s : State) (bd : Band) : (s.admitShort bd).mem = s.mem := by simp [State.admitShort]

@[simp] theorem State.kilnAdmission_memWf {s : State} (h : s.memWf) : s.kilnAdmission.memWf := by
  unfold State.kilnAdmission
  split <;> simp [h]

@[simp] theorem State.stratumEnd_memWf {s : State} (h : s.memWf) (e seq i bytes : Nat) : (s.stratumEnd e seq i bytes).memWf := by
  simp [State.stratumEnd, h]

@[simp] theorem State.bandStratum_memWf {s : State} (h : s.memWf) (e seq i : Nat) (intime : Bool) : (s.bandStratum e seq i intime).memWf := by
  unfold State.bandStratum
  dsimp only
  (repeat' split) <;> simp [h]

@[simp] theorem State.stratumDecoded_memWf {s : State} (h : s.memWf) (e : Nat) (intime : Bool) : (s.stratumDecoded e intime).memWf := by
  unfold State.stratumDecoded
  split <;> simp [h]

@[simp] theorem State.measureEngine_mem (s : State) (e : Nat) : (s.measureEngine e).mem = s.mem := by
  unfold State.measureEngine
  dsimp only
  split <;> simp

@[simp] theorem State.kilnBandComplete_memWf {s : State} (h : s.memWf) : s.kilnBandComplete.memWf := by
  unfold State.kilnBandComplete
  split <;> simp [h]

@[simp] theorem State.abortJob_memWf {s : State} (h : s.memWf) (e : Nat) : (s.abortJob e).memWf := by
  unfold State.abortJob
  split <;> simp [h]

@[simp] theorem State.engineStop_memWf {s : State} (h : s.memWf) (e : Nat) (reset : Bool) : (s.engineStop e reset).memWf := by
  unfold State.engineStop
  dsimp only
  (repeat' split) <;> simp [h]

@[simp] theorem State.engineHalt_memWf {s : State} (h : s.memWf) (e : Nat) (reset : Bool) : (s.engineHalt e reset).memWf := by
  simp [State.engineHalt, h]

@[simp] theorem State.engineRelease_memWf {s : State} (h : s.memWf) (e : Nat) : (s.engineRelease e).memWf := by simp [State.engineRelease, h]

@[simp] theorem State.enginesAtMarker_memWf {s : State} (h : s.memWf) : s.enginesAtMarker.memWf := by simp [State.enginesAtMarker, h]

@[simp] theorem execKilnAdmission_memWf {s : State} (h : s.memWf) (t : Nat) : (execKilnAdmission t s).memWf := by
  simp +contextual [execKilnAdmission, h]

@[simp] theorem execStratumDecoded_memWf {s : State} (h : s.memWf) (t e : Nat) (intime : Bool) : (execStratumDecoded t e intime s).memWf := by
  simp +contextual [execStratumDecoded, h]

@[simp] theorem execKilnBandComplete_memWf {s : State} (h : s.memWf) (t : Nat) : (execKilnBandComplete t s).memWf := by
  simp +contextual [execKilnBandComplete, h]

/-! ### The Rook (R214 to R249) -/

@[simp] theorem State.writeSquare_mem (s : State) (bd : Band) (es : List Entry) (bad : List (Nat × Nat)) (q : SquareList) :
    (s.writeSquare bd es bad q).mem = s.mem := rfl

@[simp] theorem State.squareCounts_mem (s : State) (bd : Band) (es : List Entry) (q : SquareList) (cs : List (Nat × Nat × RayComp)) :
    (s.squareCounts bd es q cs).mem = s.mem := by
  unfold State.squareCounts
  dsimp only
  split <;> simp

@[simp] theorem State.dealFile_mem (s : State) (n : Nat) : (s.dealFile n).mem = s.mem := by
  fun_cases State.dealFile <;> simp

@[simp] theorem State.dealAll_mem (s : State) : s.dealAll.mem = s.mem := by simp [State.dealAll]

@[simp] theorem State.groupsReady_mem (s : State) (seq : Nat) : (s.groupsReady seq).mem = s.mem := by
  unfold State.groupsReady
  split <;> rfl

@[simp] theorem State.stepCounts_mem (s : State) (bd : Band) : (s.stepCounts bd).mem = s.mem := by
  unfold State.stepCounts
  split <;> simp

@[simp] theorem State.passBand_mem (s : State) (nextAt : Option Rat) : (s.passBand nextAt).mem = s.mem := by simp [State.passBand]

@[simp] theorem State.rokReady_mem (s : State) : s.rokReady.mem = s.mem := by
  unfold State.rokReady
  split
  · simp
  · extract_lets +onlyGivenNames s1
    have h1 : s1.mem = s.mem := by simp [s1]
    split
    · simp [h1]
    · extract_lets +onlyGivenNames _ s2
      exact (foldl_mem (fun _ _ => by simp) _ s2).trans h1

@[simp] theorem State.rokCheck_mem (s : State) : s.rokCheck.mem = s.mem := by
  unfold State.rokCheck
  split <;> simp

@[simp] theorem State.rokBandStart_mem (s : State) : s.rokBandStart.mem = s.mem := by
  unfold State.rokBandStart
  split <;> simp

@[simp] theorem State.heldSkip_mem (s : State) : s.heldSkip.mem = s.mem := by
  unfold State.heldSkip
  split <;> simp

@[simp] theorem State.lutFault_mem (s : State) (q : Nat × Nat × Bool) : (s.lutFault q).mem = s.mem := by
  unfold State.lutFault
  split <;> rfl

@[simp] theorem State.squareComplete_mem (s : State) (n corr : Nat) (bad : List (Nat × Nat)) (luts : List (Nat × Nat × Bool)) :
    (s.squareComplete n corr bad luts).mem = s.mem := by
  unfold State.squareComplete
  dsimp only
  (repeat' split) <;> simp

@[simp] theorem State.bandLateness_mem (s : State) (bd : Band) : (s.bandLateness bd).mem = s.mem := by
  unfold State.bandLateness
  split <;> rfl

@[simp] theorem State.rokBandComplete_mem (s : State) : s.rokBandComplete.mem = s.mem := by
  unfold State.rokBandComplete
  split <;> simp

@[simp] theorem State.abandon_mem (s : State) (bd : Band) : (s.abandon bd).mem = s.mem := by simp [State.abandon]

@[simp] theorem State.rokBandAbandon_mem (s : State) : s.rokBandAbandon.mem = s.mem := by
  fun_cases State.rokBandAbandon <;> simp

@[simp] theorem State.fileHalt_mem (s : State) (n : Nat) : (s.fileHalt n).mem = s.mem := by simp [State.fileHalt]

@[simp] theorem State.onFile_mem (s : State) (n : Nat) (f : RookFile → RookFile) : (s.onFile n f).mem = s.mem := rfl

@[simp] theorem State.fileFault_mem (s : State) (n : Nat) : (s.fileFault n).mem = s.mem := by simp [State.fileFault, apply_ite]

@[simp] theorem State.filesAtMarker_mem (s : State) (held : Bool) : (s.filesAtMarker held).mem = s.mem := by simp [State.filesAtMarker]

@[simp] theorem State.rookHalt_mem (s : State) : s.rookHalt.mem = s.mem := by
  unfold State.rookHalt
  extract_lets +onlyGivenNames s1 s1w s2
  have h1 : s1.mem = s.mem := by
    dsimp only [s1]
    split <;> simp
  have hw : s1w.mem = s1.mem := by
    dsimp only [s1w]
    split <;> simp
  have h2 : s2.mem = s1w.mem := foldl_mem (fun _ _ => by simp) _ _
  simp [h2, hw, h1]

@[simp] theorem State.recountHeld_mem (s : State) (epoch : Nat) : (s.recountHeld epoch).mem = s.mem := rfl

@[simp] theorem State.siltHalt_mem (s : State) : s.siltHalt.mem = s.mem := by
  unfold State.siltHalt
  dsimp only
  split <;> simp

@[simp] theorem State.siltRelease_mem (s : State) : s.siltRelease.mem = s.mem := by simp [State.siltRelease]

@[simp] theorem State.demuraEcc_mem (s : State) (epoch : Nat) (ks : List Nat) : (s.demuraEcc epoch ks).mem = s.mem := by
  fun_cases State.demuraEcc <;> simp

@[simp] theorem State.streamBand_mem (s : State) : s.streamBand.mem = s.mem := by
  fun_cases State.streamBand <;> simp

@[simp] theorem execBrdListBand_memWf {s : State} (h : s.memWf) (t : Nat) : (execBrdListBand t s).memWf := by simp [execBrdListBand, h]

@[simp] theorem execRegistryStreamBand_memWf {s : State} (h : s.memWf) (t : Nat) : (execRegistryStreamBand t s).memWf := by
  simp [execRegistryStreamBand, h]

@[simp] theorem execHeldBandSkip_memWf {s : State} (h : s.memWf) (t : Nat) : (execHeldBandSkip t s).memWf := by simp [execHeldBandSkip, h]

@[simp] theorem execRokBandComplete_memWf {s : State} (h : s.memWf) (t : Nat) : (execRokBandComplete t s).memWf := by simp [execRokBandComplete, h]

@[simp] theorem execRokBandAbandon_memWf {s : State} (h : s.memWf) (t : Nat) : (execRokBandAbandon t s).memWf := by simp [execRokBandAbandon, h]

@[simp] theorem execFileParityFault_memWf {s : State} (h : s.memWf) (t n : Nat) : (execFileParityFault t n s).memWf := by
  simp [execFileParityFault, h]

/-! ### The raster and genlock (R306 to R320) -/

@[simp] theorem State.fullTolerance_mem (s : State) : s.fullTolerance.mem = s.mem := by simp [State.fullTolerance]

@[simp] theorem State.discontinuity_mem (s : State) (q : Grid) : (s.discontinuity q).mem = s.mem := by
  unfold State.discontinuity
  dsimp only
  split <;> simp

@[simp] theorem State.extensionEnd_mem (s : State) : s.extensionEnd.mem = s.mem := by
  unfold State.extensionEnd
  split <;> rfl

@[simp] theorem State.noteDelta_mem (s : State) (g : Genlock) : (s.noteDelta g).mem = s.mem := by
  fun_cases State.noteDelta <;> simp

@[simp] theorem State.showRef_mem (s : State) (g : Genlock) : (s.showRef g).mem = s.mem := rfl

@[simp] theorem State.relock_mem (s : State) (g : Genlock) : (s.relock g).mem = s.mem := by simp [State.relock]

@[simp] theorem State.phaseRelock_mem (s : State) : s.phaseRelock.mem = s.mem := by
  fun_cases State.phaseRelock <;> simp

@[simp] theorem State.refLost_mem (s : State) : s.refLost.mem = s.mem := rfl

@[simp] theorem State.newGen_mem (s : State) (g : Genlock) : (s.newGen g).mem = s.mem := rfl

@[simp] theorem State.setGenlock_mem (s : State) (g : Genlock) : (s.setGenlock g).mem = s.mem := by simp [State.setGenlock]

@[simp] theorem State.timeBaseMoved_mem (s : State) (stepped : Bool) : (s.timeBaseMoved stepped).mem = s.mem := by
  fun_cases State.timeBaseMoved <;> simp

@[simp] theorem State.offRate_mem (s : State) (g : Genlock) (t : Nat) : (s.offRate g t).mem = s.mem := by
  unfold State.offRate
  dsimp only
  (repeat' split) <;> simp

@[simp] theorem State.setCand_mem (s : State) (c : List Nat) : (s.setCand c).mem = s.mem := rfl

@[simp] theorem State.acceptEdge_mem (s : State) (g : Genlock) (a t : Nat) : (s.acceptEdge g a t).mem = s.mem := by
  unfold State.acceptEdge
  split <;> simp

@[simp] theorem State.newReference_mem (s : State) (g : Genlock) (c : List Nat) (t : Nat) : (s.newReference g c t).mem = s.mem := by
  simp [State.newReference]

@[simp] theorem State.syncEdge_mem (s : State) (t : Nat) : (s.syncEdge t).mem = s.mem := by
  fun_cases State.syncEdge <;> simp

@[simp] theorem State.referenceLoss_mem (s : State) : s.referenceLoss.mem = s.mem := by
  fun_cases State.referenceLoss <;> simp

@[simp] theorem State.acquireTimeout_mem (s : State) : s.acquireTimeout.mem = s.mem := by
  fun_cases State.acquireTimeout <;> simp

@[simp] theorem State.lightInForce_mem (s : State) : s.lightInForce.mem = s.mem := by
  fun_cases State.lightInForce <;> simp

@[simp] theorem State.holdFrame_mem (s : State) : s.holdFrame.mem = s.mem := rfl

@[simp] theorem State.holdShown_mem (s : State) (e : Epoch) : (s.holdShown e).mem = s.mem := by
  unfold State.holdShown
  dsimp only
  split <;> simp

@[simp] theorem State.frameBegin_mem (s : State) (g : Genlock) : (s.frameBegin g).mem = s.mem := by
  unfold State.frameBegin
  dsimp only
  (repeat' split) <;> simp

@[simp] theorem State.modeAhead_mem (s : State) (mode row0 : Nat) : (s.modeAhead mode row0).mem = s.mem := by
  unfold State.modeAhead
  split <;> simp

@[simp] theorem State.teEdge_mem (s : State) (t : Nat) : (s.teEdge t).mem = s.mem := by
  unfold State.teEdge
  split <;> simp

@[simp] theorem State.teTimeout_mem (s : State) : s.teTimeout.mem = s.mem := by
  unfold State.teTimeout
  split <;> simp

@[simp] theorem execReferenceLoss_memWf {s : State} (h : s.memWf) (t : Nat) : (execReferenceLoss t s).memWf := by simp [execReferenceLoss, h]

@[simp] theorem execAcquireTimeout_memWf {s : State} (h : s.memWf) (t : Nat) : (execAcquireTimeout t s).memWf := by simp [execAcquireTimeout, h]

@[simp] theorem execTeTimeout_memWf {s : State} (h : s.memWf) (t : Nat) : (execTeTimeout t s).memWf := by simp [execTeTimeout, h]

/-! ### Segments and DC balance (R368 to R372) -/

@[simp] theorem State.setSeg_memWf {s : State} (h : s.memWf) (st k sig pol : Nat) (valid : Bool) : (s.setSeg st k sig pol valid).memWf := by
  unfold State.setSeg
  split <;> simp [h]

@[simp] theorem State.clearSeg_memWf {s : State} (h : s.memWf) (st k : Nat) : (s.clearSeg st k).memWf := by simp [State.clearSeg, h]

@[simp] theorem State.clearAllSegs_memWf {s : State} (h : s.memWf) : s.clearAllSegs.memWf := by
  unfold State.clearAllSegs
  split
  · exact h
  · exact foldl_memWf (fun _ _ ht => State.clearSeg_memWf (State.clearSeg_memWf ht _ _) _ _) _ h

@[simp] theorem State.segEcc_mem (s : State) (st k : Nat) : (s.segEcc st k).mem = s.mem := by
  unfold State.segEcc
  split <;> simp

@[simp] theorem State.setDc_memWf {s : State} (h : s.memWf) (x y : Nat) (v : Int) : (s.setDc x y v).memWf := by simp [State.setDc, h]

@[simp] theorem State.zeroRange_memWf {s : State} (h : s.memWf) (a n : Nat) : (s.zeroRange a n).memWf := by
  have hkept : Memory.wf (s.mem.filter (fun (c : Host.Cell) => decide (c.1 < a) || decide (a + n ≤ c.1))) = true :=
    sparseWf_filter memDefault _ s.mem h
  simpa [State.zeroRange] using hkept

@[simp] theorem State.sweepWord_memWf {s : State} (h : s.memWf) (w : Nat) : (s.sweepWord w).memWf := by simp [State.sweepWord, h]

@[simp] theorem State.sweepSeg_memWf {s : State} (h : s.memWf) (n : Nat) (bad : List Nat) (q : Nat × Nat × Nat) : (s.sweepSeg n bad q).memWf := by
  simp +contextual [State.sweepSeg, h]

@[simp] theorem State.sweep_memWf {s : State} (h : s.memWf) (n : Nat) : (s.sweep n).memWf := by
  unfold State.sweep
  split
  · extract_lets +onlyGivenNames bad a len
    have hword : (bad.foldl State.sweepWord (s.noteRead 9 a len)).memWf :=
      foldl_memWf (fun _ q ht => State.sweepWord_memWf ht q) bad (by simpa using h)
    have hseg := foldl_memWf (fun _ q ht => State.sweepSeg_memWf ht n bad q) s.panel.segPlaces hword
    simpa using hseg
  · exact h

@[simp] theorem State.sweepMark_mem (s : State) : s.sweepMark.mem = s.mem := by simp [State.sweepMark]

@[simp] theorem State.markRow_mem (s : State) (g row : Nat) : (s.markRow g row).mem = s.mem := rfl

@[simp] theorem State.onGroup_mem (s : State) (n : Nat) (f : TlkGroup → TlkGroup) : (s.onGroup n f).mem = s.mem := rfl

@[simp] theorem State.setGroup_mem (s : State) (n st : Nat) : (s.setGroup n st).mem = s.mem := rfl

@[simp] theorem State.discharge_mem (s : State) (brown : Bool) : (s.discharge brown).mem = s.mem := by simp [State.discharge, apply_ite]

/-! ### What leaves the balls (R339 to R343) -/

@[simp] theorem State.scramAfter_mem (s : State) (n k : Nat) : (s.scramAfter n k).mem = s.mem := rfl

@[simp] theorem State.sendRows_mem (s : State) (n : Nat) (x : Rat) (rows : List (List Block)) : (s.sendRows n x rows).mem = s.mem := rfl

@[simp] theorem State.toPattern_mem (s : State) (n : Nat) : (s.toPattern n).mem = s.mem := rfl

@[simp] theorem State.endPattern_mem (s : State) (n : Nat) : (s.endPattern n).mem = s.mem := by
  unfold State.endPattern
  dsimp only
  split <;> simp

@[simp] theorem State.sendPackets_mem (s : State) (ps : List Packet) : (s.sendPackets ps).mem = s.mem := by
  induction ps generalizing s with
  | nil => rfl
  | cons p ps ih => exact (ih _).trans rfl

@[simp] theorem State.sendMark_mem (s : State) (line frame flags : Nat) (x : Rat) (n : Nat) : (s.sendMark line frame flags x n).mem = s.mem := rfl

@[simp] theorem State.sendIdle_mem (s : State) (n : Nat) : (s.sendIdle n).mem = s.mem := rfl

/-! ### The Tureifa Link (R337 to R367) -/

@[simp] theorem State.toDetect_mem (s : State) (n : Nat) : (s.toDetect n).mem = s.mem := by simp [State.toDetect]

@[simp] theorem State.detectGroups_mem (s : State) (ns : List Nat) : (s.detectGroups ns).mem = s.mem := by
  unfold State.detectGroups
  split <;> simp

@[simp] theorem State.linkStart_mem (s : State) : s.linkStart.mem = s.mem := by simp [State.linkStart]

@[simp] theorem State.linkReset_mem (s : State) : s.linkReset.mem = s.mem := by simp [State.linkReset, apply_ite]

@[simp] theorem State.terminationSensed_mem (s : State) (n mask : Nat) : (s.terminationSensed n mask).mem = s.mem := by
  unfold State.terminationSensed
  split <;> rfl

@[simp] theorem State.detectTimeout_mem (s : State) (n : Nat) : (s.detectTimeout n).mem = s.mem := by
  unfold State.detectTimeout
  dsimp only
  split <;> simp

@[simp] theorem State.detectRetry_mem (s : State) (n : Nat) : (s.detectRetry n).mem = s.mem := by
  unfold State.detectRetry
  split <;> rfl

@[simp] theorem State.symbolLock_mem (s : State) (n : Nat) : (s.symbolLock n).mem = s.mem := by
  unfold State.symbolLock
  split <;> simp

@[simp] theorem State.patternTimeout_mem (s : State) (n : Nat) : (s.patternTimeout n).mem = s.mem := by
  unfold State.patternTimeout
  split <;> rfl

@[simp] theorem State.lockTimeout_mem (s : State) (n : Nat) : (s.lockTimeout n).mem = s.mem := by
  unfold State.lockTimeout
  split <;> rfl

@[simp] theorem State.exchangeTimeout_mem (s : State) (n : Nat) : (s.exchangeTimeout n).mem = s.mem := by
  fun_cases State.exchangeTimeout <;> simp

@[simp] theorem State.retrain_mem (s : State) (n : Nat) : (s.retrain n).mem = s.mem := by
  unfold State.retrain
  split <;> rfl

@[simp] theorem State.retrainMask_mem (s : State) (mask : Nat) : (s.retrainMask mask).mem = s.mem := by simp [State.retrainMask, apply_ite]

@[simp] theorem State.bcTimeout_mem (s : State) (n : Nat) : (s.bcTimeout n).mem = s.mem := by
  unfold State.bcTimeout
  dsimp only
  split <;> simp

@[simp] theorem State.dischargeTimeout_mem (s : State) (n : Nat) : (s.dischargeTimeout n).mem = s.mem := by
  unfold State.dischargeTimeout
  split <;> rfl

@[simp] theorem State.sendConfig_mem (s : State) (n : Nat) : (s.sendConfig n).mem = s.mem := by simp [State.sendConfig, apply_ite]

@[simp] theorem State.groupActive_mem (s : State) (n : Nat) : (s.groupActive n).mem = s.mem := by
  unfold State.groupActive
  split <;> rfl

@[simp] theorem State.caps_mem (s : State) (n : Nat) (b : List Nat) : (s.caps n b).mem = s.mem := by simp [State.caps]

@[simp] theorem State.bcFail_mem (s : State) (n : Nat) : (s.bcFail n).mem = s.mem := by simp [State.bcFail]

@[simp] theorem State.bcSeen_mem (s : State) (n : Nat) : (s.bcSeen n).mem = s.mem := rfl

@[simp] theorem State.lockMsg_mem (s : State) (n : Nat) (b : List Nat) : (s.lockMsg n b).mem = s.mem := by
  unfold State.lockMsg
  split <;> simp

@[simp] theorem State.statusMsg_mem (s : State) (n : Nat) (b : List Nat) : (s.statusMsg n b).mem = s.mem := by
  fun_cases State.statusMsg
  case case1 s1 s2 s3 _ _ | case2 s1 s2 s3 _ _ _ | case3 s1 s2 s3 _ _ _ =>
    clear_value (e3 : s3 = _) (e2 : s2 = _) (e1 : s1 = _)
    have h2 : s2.mem = s1.mem := by
      rw [e2]
      exact foldl_mem (fun _ _ => by simp) _ _
    simp -implicitDefEqProofs [e3, h2, e1]

@[simp] theorem State.bcMessage_mem {f : State → List Nat → State} (hf : ∀ s p, (f s p).mem = s.mem) (s : State) (n typ len : Nat)
    (b : List Nat) : (s.bcMessage n typ len b f).mem = s.mem := by
  unfold State.bcMessage
  split
  · simp
  · split
    · simp [hf]
    · rfl

@[simp] theorem State.noteHold_mem (s : State) (n g : Nat) : (s.noteHold n g).mem = s.mem := by
  unfold State.noteHold
  split <;> rfl

@[simp] theorem State.directRow_mem (s : State) (n : Nat) (x : Rat) (bad : List (Nat × Nat)) (g : Nat) : (s.directRow n x bad g).2.mem = s.mem := by
  fun_cases State.directRow <;> simp

@[simp] theorem State.setTeBand_mem (s : State) (b : TeBand) : (s.setTeBand b).mem = s.mem := rfl

@[simp] theorem State.teTear_mem (s : State) (b : TeBand) (row : Nat) : (s.teTear b row).mem = s.mem := by
  unfold State.teTear
  split <;> simp

@[simp] theorem State.teDelay_mem (s : State) (b : TeBand) : (s.teDelay b).mem = s.mem := by
  unfold State.teDelay
  split <;> rfl

@[simp] theorem State.teCheck_mem (s : State) (u : Update) : (s.teCheck u).2.mem = s.mem := by
  fun_cases State.teCheck <;> simp

@[simp] theorem State.sendUpdate_memWf {s : State} (h : s.memWf) (bad : List (Nat × Nat)) (u : Update) (skip : Option Nat)
    (qs : List (Nat × Nat × Nat × Nat)) (cap : Nat) : (s.sendUpdate bad u skip qs cap).2.2.2.2.memWf := by
  have hclear (t : State) (ht : t.memWf) (l : List Nat) : (l.foldl (fun s k => s.clearSeg u.state k) t).memWf :=
    foldl_memWf (fun _ _ hk => State.clearSeg_memWf hk _ _) _ ht
  fun_induction State.sendUpdate s bad u skip qs cap
  case case1 => exact h
  case case2 => exact h
  case case3 ih => exact ih (hclear _ h _)
  case case4 => exact h
  case case5 s1 _ ih =>
    clear_value (e1 : s1 = _)
    refine ih ?_
    rw [e1]
    split
    · exact hclear _ (by simp [h]) _
    · exact h

@[simp] theorem State.sendUpdates_memWf {s : State} (h : s.memWf) (bad : List (Nat × Nat)) (g : Nat) (us held : List Update) (cap : Nat)
    (full : Bool) : (s.sendUpdates bad g us held cap full).2.2.memWf := by
  induction us generalizing s held cap full with
  | nil => exact h
  | cons u us ih =>
    unfold State.sendUpdates
    split
    · exact ih h _ _ _
    · split
      · exact ih h _ _ _
      · extract_lets +onlyGivenNames c
        have hc : c.2.memWf := by simpa [c] using h
        split
        · exact ih hc _ _ _
        · exact ih (State.sendUpdate_memWf hc _ _ _ _ _) _ _ _

@[simp] theorem State.changedRows_memWf {s : State} (h : s.memWf) (bad : List (Nat × Nat)) (cap g : Nat) : (s.changedRows bad cap g).2.memWf := by
  simp [State.changedRows, h]

@[simp] theorem State.groupLine_memWf {s : State} (h : s.memWf) (n : Nat) (x : Rat) (bad : List (Nat × Nat)) (g : Nat) :
    (s.groupLine n x bad g).2.memWf := by
  unfold State.groupLine
  dsimp only
  (repeat' split) <;> simp [h]

@[simp] theorem State.groupLines_memWf {s : State} (h : s.memWf) (n : Nat) (x : Rat) (bad : List (Nat × Nat)) (gs : List Nat) :
    (s.groupLines n x bad gs).2.memWf := by
  induction gs generalizing s with
  | nil => exact h
  | cons g gs ih => exact ih (State.groupLine_memWf h n x bad g)

@[simp] theorem State.readEnd_mem (s : State) (bd : Band) : (s.readEnd bd).2.mem = s.mem := rfl

@[simp] theorem State.stateTolerance_mem (s : State) (b : Nat) : (s.stateTolerance b).mem = s.mem := by
  unfold State.stateTolerance
  extract_lets +onlyGivenNames top plan last f q tol
  have hq : q.2.mem = s.mem := by
    dsimp only [q]
    split <;> simp
  simp [hq]

@[simp] theorem State.lineStart_memWf {s : State} (h : s.memWf) (corr : Nat) (bad : List (Nat × Nat)) : (s.lineStart corr bad).memWf := by
  unfold State.lineStart
  dsimp only
  (repeat' split) <;> simp [h]

@[simp] theorem State.packetLeft_memWf {s : State} (h : s.memWf) (p : Packet) : (s.packetLeft p).memWf := by
  unfold State.packetLeft
  split
  · extract_lets +onlyGivenNames st pol s1 s2
    have h2 : s2.memWf := foldl_memWf (fun _ _ ht => by split <;> exact State.setSeg_memWf ht _ _ _ _ _) _ h
    split <;> exact h2
  all_goals exact h

@[simp] theorem State.settleUpdates_mem (s : State) : s.settleUpdates.mem = s.mem := rfl

@[simp] theorem State.lineMark_memWf {s : State} (h : s.memWf) : s.lineMark.memWf := by
  unfold State.lineMark
  split
  · exact h
  · extract_lets +onlyGivenNames x
    split
    · exact h
    · extract_lets +onlyGivenNames on f hold _ s1 s2 s3
      have h2 : s2.mem = s.mem := foldl_mem (fun _ _ => by simp) on _
      have h3 : s3.mem = s.mem := (foldl_mem (fun _ _ => by simp) on _).trans (by simp [h2])
      have hleft : (s3.tlk.sent.foldl State.packetLeft s3).memWf :=
        foldl_memWf (fun _ p ht => State.packetLeft_memWf ht p) _ (by simpa [h3] using h)
      exact (congrArg (fun m => Memory.wf m = true) (State.settleUpdates_mem _)).mpr hleft

@[simp] theorem State.linkFifo_mem (s : State) (lane : Nat) : (s.linkFifo lane).mem = s.mem := by
  unfold State.linkFifo
  dsimp only
  split <;> simp

@[simp] theorem State.lightMeasure_mem (s : State) (g row f : Nat) : (s.lightMeasure g row f).mem = s.mem := by
  fun_cases State.lightMeasure <;> simp

@[simp] theorem State.rbMismatch_mem (s : State) (g row : Nat) : (s.rbMismatch g row).mem = s.mem := by simp [State.rbMismatch]

@[simp] theorem State.readback_mem (s : State) (g : Nat) (locks : Bool) (raw : List Nat) : (s.readback g locks raw).mem = s.mem := by
  unfold State.readback
  dsimp only
  (repeat' split) <;> simp

@[simp] theorem execLineStart_memWf {s : State} (h : s.memWf) (t corr : Nat) (bad : List (Nat × Nat)) : (execLineStart t corr bad s).memWf := by
  simp +contextual [execLineStart, h]

@[simp] theorem execLineMark_memWf {s : State} (h : s.memWf) (t : Nat) : (execLineMark t s).memWf := by simp +contextual [execLineMark, h]

@[simp] theorem execTerminationSensed_memWf {s : State} (h : s.memWf) (t n mask : Nat) : (execTerminationSensed t n mask s).memWf := by
  simp [execTerminationSensed, h]

@[simp] theorem execDetectTimeout_memWf {s : State} (h : s.memWf) (t n : Nat) : (execDetectTimeout t n s).memWf := by simp [execDetectTimeout, h]

@[simp] theorem execDetectRetry_memWf {s : State} (h : s.memWf) (t n : Nat) : (execDetectRetry t n s).memWf := by simp [execDetectRetry, h]

@[simp] theorem execBackchannelSymbolLock_memWf {s : State} (h : s.memWf) (t n : Nat) : (execBackchannelSymbolLock t n s).memWf := by
  simp [execBackchannelSymbolLock, h]

@[simp] theorem execPatternTimeout_memWf {s : State} (h : s.memWf) (t n : Nat) : (execPatternTimeout t n s).memWf := by simp [execPatternTimeout, h]

@[simp] theorem execLock_memWf {s : State} (h : s.memWf) (t n : Nat) (b : List Nat) : (execLock t n b s).memWf := by simp [execLock, h]

@[simp] theorem execLockTimeout_memWf {s : State} (h : s.memWf) (t n : Nat) : (execLockTimeout t n s).memWf := by simp [execLockTimeout, h]

@[simp] theorem execConfig_memWf {s : State} (h : s.memWf) (t n : Nat) : (execConfig t n s).memWf := by simp [execConfig, h]

@[simp] theorem execCaps_memWf {s : State} (h : s.memWf) (t n : Nat) (b : List Nat) : (execCaps t n b s).memWf := by simp [execCaps, h]

@[simp] theorem execExchangeTimeout_memWf {s : State} (h : s.memWf) (t n : Nat) : (execExchangeTimeout t n s).memWf := by
  simp [execExchangeTimeout, h]

@[simp] theorem execRetrain_memWf {s : State} (h : s.memWf) (t mask : Nat) : (execRetrain t mask s).memWf := by simp [execRetrain, h]

@[simp] theorem execBackchannelTimeout_memWf {s : State} (h : s.memWf) (t n : Nat) : (execBackchannelTimeout t n s).memWf := by
  simp [execBackchannelTimeout, h]

@[simp] theorem execDischargeTimeout_memWf {s : State} (h : s.memWf) (t n : Nat) : (execDischargeTimeout t n s).memWf := by
  simp [execDischargeTimeout, h]

@[simp] theorem execReadbackPacket_memWf {s : State} (h : s.memWf) (t g : Nat) (locks : Bool) (raw : List Nat) :
    (execReadbackPacket t g locks raw s).memWf := by
  simp [execReadbackPacket, h]

/-! ### The panel drive (R372 to R385) -/

@[simp] theorem State.formUpdate_mem (s : State) (q : GroupReady) : (s.formUpdate q).mem = s.mem := by
  unfold State.formUpdate
  split <;> simp

@[simp] theorem State.formUpdates_mem (s : State) (old : List GroupReady) : (s.formUpdates old).mem = s.mem := by simp [State.formUpdates]

@[simp] theorem State.cutUpdates_memWf {s : State} (h : s.memWf) (cut : Update → Bool) : (s.cutUpdates cut).memWf := by
  simp +contextual [State.cutUpdates, h]

@[simp] theorem State.bandStart_memWf {s : State} (h : s.memWf) : s.bandStart.memWf := by
  unfold State.bandStart
  dsimp only
  split <;> simp [h]

@[simp] theorem State.squareDone_mem (s : State) (n corr : Nat) (bad : List (Nat × Nat)) (luts : List (Nat × Nat × Bool)) :
    (s.squareDone n corr bad luts).mem = s.mem := by
  simp [State.squareDone]

@[simp] theorem State.teDelayed_mem (s : State) : s.teDelayed.mem = s.mem := rfl

@[simp] theorem State.zeroCounters_memWf {s : State} (h : s.memWf) : s.zeroCounters.memWf := by
  unfold State.zeroCounters
  split <;> simp [h]

@[simp] theorem State.blackStart_memWf {s : State} (h : s.memWf) : s.blackStart.memWf := by simp [State.blackStart, h]

@[simp] theorem State.blackEnd_memWf {s : State} (h : s.memWf) : s.blackEnd.memWf :=
  foldl_memWf (fun _ _ ht => foldl_memWf (fun _ _ hk => State.setSeg_memWf hk _ _ _ _ _) _ ht) _ (State.zeroCounters_memWf h)

@[simp] theorem State.selectState_mem (s : State) : s.selectState.mem = s.mem := by simp [State.selectState, apply_ite]

@[simp] theorem State.panelFrame_memWf {s : State} (h : s.memWf) : s.panelFrame.memWf := by
  unfold State.panelFrame
  split <;> simp [h]

@[simp] theorem State.frameStart_memWf {s : State} (h : s.memWf) : s.frameStart.memWf := by
  unfold State.frameStart
  split <;> simp [h]

@[simp] theorem State.sweepComplete_mem (s : State) : s.sweepComplete.mem = s.mem := by
  unfold State.sweepComplete
  split <;> simp

@[simp] theorem State.panelHalt_memWf {s : State} (h : s.memWf) : s.panelHalt.memWf := by simp [State.panelHalt, h]

@[simp] theorem State.panelStop_memWf {s : State} (h : s.memWf) : s.panelStop.memWf := by simp [State.panelStop, h]

@[simp] theorem State.panelRelease_memWf {s : State} (h : s.memWf) : s.panelRelease.memWf := by simp [State.panelRelease, h]

@[simp] theorem State.powerOn_mem (s : State) : s.powerOn.mem = s.mem := by
  unfold State.powerOn
  split <;> simp

@[simp] theorem State.nextPhase_mem (s : State) : s.nextPhase.mem = s.mem := by
  unfold State.nextPhase
  split <;> rfl

@[simp] theorem State.phaseTimeout_mem (s : State) : s.phaseTimeout.mem = s.mem := by
  unfold State.phaseTimeout
  split <;> simp

@[simp] theorem State.statusAll_mem (s : State) (n : Nat) (b : List Nat) : (s.statusAll n b).mem = s.mem := by
  unfold State.statusAll
  dsimp only
  split <;> simp

@[simp] theorem State.dmrRefuse_mem (s : State) (code : Nat) : (s.dmrRefuse code).mem = s.mem := by simp [State.dmrRefuse]

@[simp] theorem State.dmrLoad_memWf {s : State} (h : s.memWf) : s.dmrLoad.memWf := by
  unfold State.dmrLoad
  dsimp only
  (repeat' split) <;> simp [h]

@[simp] theorem State.dmrChecked_mem (s : State) (sigOk tagOk : Bool) (plain : List Nat) : (s.dmrChecked sigOk tagOk plain).mem = s.mem := by
  fun_cases State.dmrChecked <;> simp

@[simp] theorem State.dmrPublish_mem (s : State) : s.dmrPublish.mem = s.mem := rfl

@[simp] theorem State.dmrDecoded_memWf {s : State} (h : s.memWf) : s.dmrDecoded.memWf := by simp [State.dmrDecoded, h]

@[simp] theorem State.dmrAtLatch_mem (s : State) (epoch : Nat) : (s.dmrAtLatch epoch).mem = s.mem := by
  unfold State.dmrAtLatch
  split <;> rfl

@[simp] theorem State.dmrAtMarker_mem (s : State) (epoch : Nat) : (s.dmrAtMarker epoch).mem = s.mem := by
  unfold State.dmrAtMarker
  split <;> rfl

@[simp] theorem execRokBandStart_memWf {s : State} (h : s.memWf) (t : Nat) : (execRokBandStart t s).memWf := by simp +contextual [execRokBandStart, h]

@[simp] theorem execRokSquareComplete_memWf {s : State} (h : s.memWf) (t n corr : Nat) (bad : List (Nat × Nat)) (luts : List (Nat × Nat × Bool)) :
    (execRokSquareComplete t n corr bad luts s).memWf := by
  simp [execRokSquareComplete, h]

@[simp] theorem execFrameStart_memWf {s : State} (h : s.memWf) (t : Nat) : (execFrameStart t s).memWf := by simp +contextual [execFrameStart, h]

@[simp] theorem execTeDelayedSend_memWf {s : State} (h : s.memWf) (t : Nat) : (execTeDelayedSend t s).memWf := by
  simp +contextual [execTeDelayedSend, h]

@[simp] theorem execStatusMessage_memWf {s : State} (h : s.memWf) (t n : Nat) (b : List Nat) : (execStatusMessage t n b s).memWf := by
  simp [execStatusMessage, h]

@[simp] theorem execDcSweepComplete_memWf {s : State} (h : s.memWf) (t : Nat) : (execDcSweepComplete t s).memWf := by simp [execDcSweepComplete, h]

@[simp] theorem execPowerOn_memWf {s : State} (h : s.memWf) (t : Nat) : (execPowerOn t s).memWf := by simp [execPowerOn, h]

@[simp] theorem execDischargePhaseTimeout_memWf {s : State} (h : s.memWf) (t : Nat) : (execDischargePhaseTimeout t s).memWf := by
  simp [execDischargePhaseTimeout, h]

@[simp] theorem execDemuraLoad_memWf {s : State} (h : s.memWf) (t : Nat) : (execDemuraLoad t s).memWf := by simp +contextual [execDemuraLoad, h]

@[simp] theorem execDemuraChecked_memWf {s : State} (h : s.memWf) (t : Nat) (sigOk tagOk : Bool) (plain : List Nat) :
    (execDemuraChecked t sigOk tagOk plain s).memWf := by
  simp [execDemuraChecked, h]

@[simp] theorem execDemuraDecoded_memWf {s : State} (h : s.memWf) (t : Nat) : (execDemuraDecoded t s).memWf := by
  simp +contextual [execDemuraDecoded, h]

/-! ### Ethernet ports and frames (R427 to R436) -/

@[simp] theorem State.rxDeliver_memWf {s : State} (h : s.memWf) (port ti : Nat) (b : List Nat) : (s.rxDeliver port ti b).memWf := by
  simp [State.rxDeliver, h]

@[simp] theorem State.txComplete_mem (s : State) (slot : Nat) : (s.txComplete slot).mem = s.mem := by
  unfold State.txComplete
  dsimp only
  split <;> simp

@[simp] theorem State.txRefuse_memWf {s : State} (h : s.memWf) (slot : Nat) : (s.txRefuse slot).memWf := by simp [State.txRefuse, h]

@[simp] theorem State.onPort_mem (s : State) (p : Nat) (f : EthPort → EthPort) : (s.onPort p f).mem = s.mem := rfl

@[simp] theorem State.egress_memWf {s : State} (h : s.memWf) (p : Nat) (f : EthFrame) : (s.egress p f).memWf := by
  unfold State.egress
  split <;> simp [h]

@[simp] theorem State.ethSend_memWf {s : State} (h : s.memWf) (p : Nat) : (s.ethSend p).memWf := by
  unfold State.ethSend
  dsimp only
  (repeat' split) <;> simp [h]

@[simp] theorem State.ethReceive_memWf {s : State} (h : s.memWf) (p ti : Nat) (raw : List Nat) : (s.ethReceive p ti raw).memWf := by
  simp [State.ethReceive, h]

@[simp] theorem State.portLock_mem (s : State) (p : Nat) : (s.portLock p).mem = s.mem := by simp [State.portLock, apply_ite]

@[simp] theorem State.portLost_memWf {s : State} (h : s.memWf) (p : Nat) : (s.portLost p).memWf := by
  unfold State.portLost
  split
  · exact h
  · extract_lets +onlyGivenNames s1 s2 q s3
    have h3 : s3.memWf := by simpa [s3, s2, s1] using h
    refine foldl_memWf (fun t f ht => ?_) q h3
    split
    · exact State.txRefuse_memWf ht _
    · exact ht

@[simp] theorem State.txTake_memWf {s : State} (h : s.memWf) (slot : Nat) : (s.txTake slot).memWf := by simp [State.txTake, h]

@[simp] theorem State.txHead_memWf {s : State} (h : s.memWf) (v : Nat) : (s.txHead v).memWf := by simp +contextual [State.txHead, h]

@[simp] theorem execEthFrameReceive_memWf {s : State} (h : s.memWf) (t p ti : Nat) (raw : List Nat) : (execEthFrameReceive t p ti raw s).memWf := by
  simp +contextual [execEthFrameReceive, h]

@[simp] theorem execEthFrameTransmit_memWf {s : State} (h : s.memWf) (t p : Nat) : (execEthFrameTransmit t p s).memWf := by
  simp +contextual [execEthFrameTransmit, h]

@[simp] theorem execPortUp_memWf {s : State} (h : s.memWf) (t p : Nat) : (execPortUp t p s).memWf := by simp [execPortUp, h]

@[simp] theorem execPortDown_memWf {s : State} (h : s.memWf) (t p : Nat) : (execPortDown t p s).memWf := by simp +contextual [execPortDown, h]

@[simp] theorem execTxRingHeadWrite_memWf {s : State} (h : s.memWf) (t v : Nat) : (execTxRingHeadWrite t v s).memWf := by
  simp +contextual [execTxRingHeadWrite, h]

/-! ### Servos (R437 to R439), the time base and castling (R440 to R442), the full-time latch (R444), triggers (R446 to R449) and captures (R450, R451) -/

@[simp] theorem State.onSrv_mem (s : State) (v : Nat) (f : Servo → Servo) : (s.onSrv v f).mem = s.mem := rfl

@[simp] theorem State.showOffsets_mem (s : State) : s.showOffsets.mem = s.mem := rfl

@[simp] theorem State.srvEvent_mem (s : State) (code v : Nat) : (s.srvEvent code v).mem = s.mem := rfl

@[simp] theorem State.countHoldover_mem (s : State) : s.countHoldover.mem = s.mem := by
  unfold State.countHoldover
  split <;> rfl

@[simp] theorem State.tbEnter_mem (s : State) (st src : Nat) : (s.tbEnter st src).mem = s.mem := by
  unfold State.tbEnter
  split <;> simp

@[simp] theorem State.tbStep_mem (s : State) (d : Int) : (s.tbStep d).mem = s.mem := rfl

@[simp] theorem State.castleTo_mem (s : State) (y : Nat) : (s.castleTo y).mem = s.mem := by simp [State.castleTo]

@[simp] theorem State.holdover_mem (s : State) (far : Bool) : (s.holdover far).mem = s.mem := by
  unfold State.holdover
  split <;> simp

@[simp] theorem State.castleEnd_mem (s : State) : s.castleEnd.mem = s.mem := by
  unfold State.castleEnd
  dsimp only
  split <;> simp

@[simp] theorem State.tbRules_mem (s : State) : s.tbRules.1.mem = s.mem := by
  unfold State.tbRules
  dsimp only
  (repeat' split) <;> simp

@[simp] theorem State.setTrim_mem (s : State) : s.setTrim.mem = s.mem := by
  unfold State.setTrim
  dsimp only
  split <;> simp

@[simp] theorem State.tbSettle_mem (s : State) : s.tbSettle.mem = s.mem := by
  unfold State.tbSettle
  dsimp only
  split <;> simp

@[simp] theorem State.setSrv_mem (s : State) (v st : Nat) : (s.setSrv v st).mem = s.mem := rfl

@[simp] theorem State.showMaster_mem (s : State) (v : Nat) (m : Option Master) : (s.showMaster v m).mem = s.mem := by
  unfold State.showMaster
  split <;> rfl

@[simp] theorem State.srvListen_mem (s : State) (v : Nat) : (s.srvListen v).mem = s.mem := by
  unfold State.srvListen
  dsimp only
  split <;> simp

@[simp] theorem State.srvWindows_mem (s : State) (v t : Nat) : (s.srvWindows v t).mem = s.mem := by
  fun_cases State.srvWindows <;> simp

@[simp] theorem State.bmca_mem (s : State) (v t : Nat) : (s.bmca v t).mem = s.mem := by
  unfold State.bmca
  dsimp only
  split <;> simp

@[simp] theorem State.announce_mem (s : State) (p ti : Nat) (b : List Nat) : (s.announce p ti b).mem = s.mem := by
  unfold State.announce
  dsimp only
  split <;> simp

@[simp] theorem State.measure_mem (s : State) (v t : Nat) (o : Int) : (s.measure v t o).mem = s.mem := by
  unfold State.measure
  dsimp only
  split <;> simp

@[simp] theorem State.syncDone_mem (s : State) (v ti : Nat) (t1 : Int) : (s.syncDone v ti t1).mem = s.mem := by
  unfold State.syncDone
  dsimp only
  split <;> simp

@[simp] theorem State.sync_mem (s : State) (p ti : Nat) (b : List Nat) : (s.sync p ti b).mem = s.mem := by
  unfold State.sync
  dsimp only
  split <;> simp

@[simp] theorem State.followUp_mem (s : State) (p ti : Nat) (b : List Nat) : (s.followUp p ti b).mem = s.mem := by
  unfold State.followUp
  dsimp only
  (repeat' split) <;> simp

@[simp] theorem State.delayResp_mem (s : State) (p ti : Nat) (b : List Nat) : (s.delayResp p ti b).mem = s.mem := by
  unfold State.delayResp
  dsimp only
  (repeat' split) <;> simp

@[simp] theorem State.delayReq_memWf {s : State} (h : s.memWf) (v : Nat) : (s.delayReq v).memWf := by
  unfold State.delayReq
  dsimp only
  split <;> simp [h]

@[simp] theorem State.annTimeout_mem (s : State) (v : Nat) : (s.annTimeout v).mem = s.mem := by
  unfold State.annTimeout
  split <;> simp

@[simp] theorem State.syncTimeout_mem (s : State) (v : Nat) : (s.syncTimeout v).mem = s.mem := by
  unfold State.syncTimeout
  split <;> simp

@[simp] theorem State.srvEnable_mem (s : State) (v : Nat) (en : Bool) : (s.srvEnable v en).mem = s.mem := by simp [State.srvEnable, apply_ite]

@[simp] theorem State.castleCmd_mem (s : State) (d : Nat) (force : Bool) : (s.castleCmd d force).mem = s.mem := by
  unfold State.castleCmd
  split <;> simp

@[simp] theorem State.stepCmd_mem (s : State) (d : Nat) : (s.stepCmd d).mem = s.mem := by
  unfold State.stepCmd
  split <;> simp

@[simp] theorem State.revert_mem (s : State) : s.revert.mem = s.mem := by
  unfold State.revert
  dsimp only
  split <;> simp

@[simp] theorem State.timStart_mem (s : State) : s.timStart.mem = s.mem := by simp [State.timStart]

@[simp] theorem State.timReset_memWf {s : State} (h : s.memWf) : s.timReset.memWf := by simp +contextual [State.timReset, h]

@[simp] theorem State.timeRead_mem (s : State) : s.timeRead.mem = s.mem := rfl

@[simp] theorem State.capture_memWf {s : State} (h : s.memWf) (source flags id f : Nat) : (s.capture source flags id f).memWf := by
  simp +contextual [State.capture, h]

@[simp] theorem State.setPin_mem (s : State) (p f id : Nat) (v : Option Bool) : (s.setPin p f id v).mem = s.mem := rfl

@[simp] theorem State.pulseEnd_mem (s : State) (id f : Nat) : (s.pulseEnd id f).mem = s.mem := by
  unfold State.pulseEnd
  split <;> rfl

@[simp] theorem State.fire_memWf {s : State} (h : s.memWf) (g : Trigger) (f : Nat) (late : Bool) : (s.fire g f late).memWf := by
  unfold State.fire
  split <;> simp [h]

@[simp] theorem State.armOne_memWf {s : State} (h : s.memWf) (b : List Nat) : (s.armOne b).memWf := by simp [State.armOne, h]

@[simp] theorem State.armTriggers_memWf {s : State} (h : s.memWf) (recs : List (List Nat)) : (s.armTriggers recs).memWf := by
  simp +contextual [State.armTriggers, h]

@[simp] theorem State.firing_memWf {s : State} (h : s.memWf) (action id : Nat) : (s.firing action id).memWf := by
  unfold State.firing
  split <;> simp [h]

@[simp] theorem State.pulseDue_mem (s : State) (id : Nat) : (s.pulseDue id).mem = s.mem := by
  fun_cases State.pulseDue <;> simp

@[simp] theorem State.runDue_memWf {s : State} (h : s.memWf) (x1 : Nat) : (s.runDue x1).memWf := by
  fun_induction State.runDue <;> simp [*]

@[simp] theorem State.dueActions_memWf {s : State} (h : s.memWf) : s.dueActions.memWf := by simp [State.dueActions, h]

@[simp] theorem State.stampEdge_memWf {s : State} {take : State → State} (htake : ∀ s, s.memWf → (take s).memWf) (src : Nat) (rising : Bool)
    (h : s.memWf) : (s.stampEdge src rising take).memWf := by
  unfold State.stampEdge
  dsimp only
  split
  · simp [h]
  · exact htake _ (by split <;> simp [h])

@[simp] theorem execAnnounce_memWf {s : State} (h : s.memWf) (t p ti : Nat) (raw : List Nat) : (execAnnounce t p ti raw s).memWf := by
  simp [execAnnounce, h]

@[simp] theorem execSync_memWf {s : State} (h : s.memWf) (t p ti : Nat) (raw : List Nat) : (execSync t p ti raw s).memWf := by simp [execSync, h]

@[simp] theorem execFollowUp_memWf {s : State} (h : s.memWf) (t p ti : Nat) (raw : List Nat) : (execFollowUp t p ti raw s).memWf := by
  simp [execFollowUp, h]

@[simp] theorem execDelayResp_memWf {s : State} (h : s.memWf) (t p ti : Nat) (raw : List Nat) : (execDelayResp t p ti raw s).memWf := by
  simp [execDelayResp, h]

@[simp] theorem execDelayReqSend_memWf {s : State} (h : s.memWf) (t v : Nat) : (execDelayReqSend t v s).memWf := by
  simp +contextual [execDelayReqSend, h]

@[simp] theorem execAnnounceTimeout_memWf {s : State} (h : s.memWf) (t v : Nat) : (execAnnounceTimeout t v s).memWf := by
  simp [execAnnounceTimeout, h]

@[simp] theorem execSyncTimeout_memWf {s : State} (h : s.memWf) (t v : Nat) : (execSyncTimeout t v s).memWf := by simp [execSyncTimeout, h]

@[simp] theorem execServoEnableWrite_memWf {s : State} (h : s.memWf) (t v : Nat) (en : Bool) : (execServoEnableWrite t v en s).memWf := by
  simp [execServoEnableWrite, h]

@[simp] theorem execCastle_memWf {s : State} (h : s.memWf) (t d : Nat) (force : Bool) : (execCastle t d force s).memWf := by simp [execCastle, h]

@[simp] theorem execStep_memWf {s : State} (h : s.memWf) (t d : Nat) : (execStep t d s).memWf := by simp [execStep, h]

@[simp] theorem execRevertTimer_memWf {s : State} (h : s.memWf) (t : Nat) : (execRevertTimer t s).memWf := by simp [execRevertTimer, h]

@[simp] theorem execTimeRead_memWf {s : State} (h : s.memWf) (t : Nat) : (execTimeRead t s).memWf := by simp +contextual [execTimeRead, h]

@[simp] theorem execPulse_memWf {s : State} (h : s.memWf) (t id : Nat) : (execPulse t id s).memWf := by simp +contextual [execPulse, h]

@[simp] theorem execPulseEnd_memWf {s : State} (h : s.memWf) (t id : Nat) : (execPulseEnd t id s).memWf := by simp [execPulseEnd, h]

@[simp] theorem execSetHigh_memWf {s : State} (h : s.memWf) (t id : Nat) : (execSetHigh t id s).memWf := by simp +contextual [execSetHigh, h]

@[simp] theorem execSetLow_memWf {s : State} (h : s.memWf) (t id : Nat) : (execSetLow t id s).memWf := by simp +contextual [execSetLow, h]

@[simp] theorem execSlot_memWf {s : State} (h : s.memWf) (t id : Nat) : (execSlot t id s).memWf := by simp +contextual [execSlot, h]

@[simp] theorem execCaptureEdge_memWf {s : State} (h : s.memWf) (t src : Nat) (rising : Bool) : (execCaptureEdge t src rising s).memWf := by
  simp +contextual [execCaptureEdge, h]

@[simp] theorem execSyncInEdge_memWf {s : State} (h : s.memWf) (t : Nat) : (execSyncInEdge t s).memWf := by simp +contextual [execSyncInEdge, h]

@[simp] theorem execTeEdge_memWf {s : State} (h : s.memWf) (t : Nat) : (execTeEdge t s).memWf := by simp +contextual [execTeEdge, h]

@[simp] theorem execSyncInOtherPolarityEdge_memWf {s : State} (h : s.memWf) (t : Nat) : (execSyncInOtherPolarityEdge t s).memWf := by
  simp +contextual [execSyncInOtherPolarityEdge, h]

/-! ### AES3 audio (16_audio) -/

@[simp] theorem State.setAes_mem (s : State) (p st : Nat) : (s.setAes p st).mem = s.mem := rfl

@[simp] theorem State.onAes_mem (s : State) (p : Nat) (f : AesPort → AesPort) : (s.onAes p f).mem = s.mem := rfl

@[simp] theorem State.aesDown_mem (s : State) (p code : Nat) : (s.aesDown p code).mem = s.mem := by
  unfold State.aesDown
  dsimp only
  split <;> simp

@[simp] theorem State.csBlock_mem (s : State) (c : Nat) (bits : List Bool) : (s.csBlock c bits).mem = s.mem := by
  unfold State.csBlock
  extract_lets +onlyGivenNames bytes
  split
  · simp
  · exact foldl_mem (fun _ _ => by rfl) _ _

@[simp] theorem State.csBits_mem (s : State) (p : Nat) (z a b : Bool) : (s.csBits p z a b).mem = s.mem := by
  unfold State.csBits
  dsimp only
  split <;> simp

@[simp] theorem State.storePut_mem (s : State) (c i w : Nat) : (s.storePut c i w).mem = s.mem := rfl

@[simp] theorem State.place_mem (s : State) (p ti a b : Nat) : (s.place p ti a b).mem = s.mem := by simp [State.place]

@[simp] theorem State.aesFrame_mem (s : State) (p ti : Nat) (ok z : Bool) (a b : Nat) : (s.aesFrame p ti ok z a b).mem = s.mem := by
  simp [State.aesFrame]

@[simp] theorem State.aesTimeout_mem (s : State) (p : Nat) : (s.aesTimeout p).mem = s.mem := by
  fun_cases State.aesTimeout <;> simp

@[simp] theorem State.sendOut_mem (s : State) (bad : List Nat) (i c : Nat) : (s.sendOut bad i c).mem = s.mem := by simp [State.sendOut]

@[simp] theorem State.sampleInstant_mem (s : State) (bad : List Nat) : (s.sampleInstant bad).mem = s.mem := by
  unfold State.sampleInstant
  split <;> simp

@[simp] theorem State.meterStat_mem (s : State) (c pk : Nat) : (s.meterStat c pk).mem = s.mem := rfl

@[simp] theorem State.captureRecord_memWf {s : State} (h : s.memWf) (is : List Nat) (chans : List (List Nat × Bool)) (slip : Bool) :
    (s.captureRecord is chans slip).memWf := by
  simp [State.captureRecord, h]

@[simp] theorem State.showDelay_mem (s : State) : s.showDelay.mem = s.mem := rfl

@[simp] theorem State.delayStep_mem (s : State) : s.delayStep.mem = s.mem := by simp [State.delayStep, apply_ite]

@[simp] theorem State.inputChannel_mem (s : State) (is : List Nat) (c : Nat) (b : List Nat) : (s.inputChannel is c b).mem = s.mem := by
  unfold State.inputChannel
  extract_lets +onlyGivenNames x from_ s1
  have h1 : s1.mem = s.mem := by
    dsimp only [s1]
    split
    · exact foldl_mem (fun _ _ => by simp) _ _
    · rfl
  simp [h1]

@[simp] theorem State.portBlock_mem (s : State) (k p : Nat) : (s.portBlock k p).mem = s.mem := by
  unfold State.portBlock
  dsimp only
  split <;> simp

@[simp] theorem State.dueRecord_memWf {s : State} (h : s.memWf) (k : Nat) : (s.dueRecord k).memWf := by simp [State.dueRecord, h]

@[simp] theorem State.blockEnd_memWf {s : State} (h : s.memWf) : s.blockEnd.memWf := by
  unfold State.blockEnd
  extract_lets +onlyGivenNames ms
  split
  · exact h
  · extract_lets +onlyGivenNames k s3 s4 s5
    have hblocks : ((List.range 8).foldl (fun s p => s.portBlock k p) s).memWf := foldl_memWf (fun _ _ ht => by simpa using ht) _ h
    have h3 : s3.memWf := State.dueRecord_memWf hblocks k
    have h4 : s4.memWf := foldl_memWf (fun _ _ ht => by simpa using ht) _ h3
    simpa [s5] using h4

@[simp] theorem State.playTake_mem (s : State) (slot : Nat) : (s.playTake slot).mem = s.mem := by
  have hread (c : Prop) [Decidable c] (t : State) (a n : Nat) : (if c then t else t.noteRead 11 a n).mem = t.mem := by
    split <;> simp
  have hlate (c : Prop) [Decidable c] (t : State) : (if c then (t.count Reg.AUD_SNAP_LATE 1).event 0x1221 0 0 0 else t).mem = t.mem := by
    split <;> simp
  fun_cases State.playTake
  case case1 s0 s1 _ | case2 s0 s1 _ _ =>
    clear_value (e1 : s1 = _)
    simp -implicitDefEqProofs [e1, hread, s0]
  case case3 s0 s1 _ _ fs j0 late s2 put s3 _ | case4 s0 s1 _ _ fs j0 late s2 put s3 _ =>
    clear_value (e3 : s3 = _) (ep : put = _) (e2 : s2 = _) (e1 : s1 = _) (e0 : s0 = _)
    have h3 : s3.mem = s2.mem := by
      rw [e3]
      refine foldl_mem (fun t q => ?_) _ _
      generalize hu : put t q = u
      rw [ep] at hu
      dsimp only at hu
      split at hu <;> simp [← hu]
    simp -implicitDefEqProofs [h3, e2, hlate, e1, hread, e0]

@[simp] theorem State.playHead_mem (s : State) (v : Nat) : (s.playHead v).mem = s.mem := by simp [State.playHead]

@[simp] theorem State.rateSwitch_mem (s : State) : s.rateSwitch.mem = s.mem := by
  unfold State.rateSwitch
  dsimp only
  split <;> simp

@[simp] theorem State.realign_mem (s : State) : s.realign.mem = s.mem := by
  unfold State.realign
  split <;> rfl

@[simp] theorem State.wclkEdge_mem (s : State) : s.wclkEdge.mem = s.mem := rfl

@[simp] theorem State.audStart_mem (s : State) : s.audStart.mem = s.mem := rfl

@[simp] theorem State.audReset_mem (s : State) : s.audReset.mem = s.mem := rfl

@[simp] theorem execSampleInstant_memWf {s : State} (h : s.memWf) (t : Nat) (bad : List Nat) : (execSampleInstant t bad s).memWf := by
  simp [execSampleInstant, h]

@[simp] theorem execBlockEnd_memWf {s : State} (h : s.memWf) (t : Nat) : (execBlockEnd t s).memWf := by simp +contextual [execBlockEnd, h]

@[simp] theorem execAesInputFrame_memWf {s : State} (h : s.memWf) (t p ti : Nat) (ok z : Bool) (a b : Nat) :
    (execAesInputFrame t p ti ok z a b s).memWf := by
  simp [execAesInputFrame, h]

@[simp] theorem execInputFrameTimeout_memWf {s : State} (h : s.memWf) (t p : Nat) : (execInputFrameTimeout t p s).memWf := by
  simp [execInputFrameTimeout, h]

@[simp] theorem execPlayoutRingHeadWrite_memWf {s : State} (h : s.memWf) (t v : Nat) : (execPlayoutRingHeadWrite t v s).memWf := by
  simp [execPlayoutRingHeadWrite, h]

@[simp] theorem execRateSwitch_memWf {s : State} (h : s.memWf) (t : Nat) : (execRateSwitch t s).memWf := by simp [execRateSwitch, h]

@[simp] theorem execRealign_memWf {s : State} (h : s.memWf) (t : Nat) : (execRealign t s).memWf := by simp [execRealign, h]

@[simp] theorem execWclkInEdge_memWf {s : State} (h : s.memWf) (t : Nat) : (execWclkInEdge t s).memWf := by simp +contextual [execWclkInEdge, h]

/-! ### Check units and alive counters (17_check_units) -/

@[simp] theorem State.onChk_mem (s : State) (n : Nat) (f : ChkUnit → ChkUnit) : (s.onChk n f).mem = s.mem := rfl

@[simp] theorem State.chkBegin_mem (s : State) (n : Nat) : (s.chkBegin n).mem = s.mem := rfl

@[simp] theorem State.chkEvent_mem (s : State) (code n a1 : Nat) : (s.chkEvent code n a1).mem = s.mem := by simp [State.chkEvent]

@[simp] theorem State.chkCount_mem (s : State) (reg n : Nat) : (s.chkCount reg n).mem = s.mem := rfl

@[simp] theorem State.judge_mem (s : State) (n : Nat) (b : List Nat) : (s.judge n b).mem = s.mem := by simp [State.judge]

@[simp] theorem State.checkRecord_mem (s : State) (n : Nat) (b : List Nat) (busy : Bool) : (s.checkRecord n b busy).mem = s.mem := by
  unfold State.checkRecord
  dsimp only
  (repeat' split) <;> simp

@[simp] theorem State.snapPut_mem (s : State) (e reg v : Nat) : (s.snapPut e reg v).mem = s.mem := rfl

@[simp] theorem State.runBoundary_mem (s : State) (e n : Nat) : (s.runBoundary e n).mem = s.mem := by
  unfold State.runBoundary
  split <;> rfl

@[simp] theorem State.tilthBoundary_mem (s : State) (e : Nat) (qs : List Nat) : (s.tilthBoundary e qs).mem = s.mem := by
  simp [State.tilthBoundary, apply_ite]

@[simp] theorem State.chkBoundary_mem (s : State) (e : Nat) : (s.chkBoundary e).mem = s.mem := by simp [State.chkBoundary, apply_ite]

@[simp] theorem State.chkMarker_mem (s : State) (old : RegFile) : (s.chkMarker old).mem = s.mem := by simp [State.chkMarker, apply_ite]

@[simp] theorem State.chkHalt_mem (s : State) : s.chkHalt.mem = s.mem := by
  unfold State.chkHalt
  exact foldl_mem (fun _ _ => by rfl) _ _

@[simp] theorem execCheckRecord_memWf {s : State} (h : s.memWf) (t n : Nat) (b : List Nat) (busy : Bool) : (execCheckRecord t n b busy s).memWf := by
  simp [execCheckRecord, h]

/-! ### The label strip (R386 to R396) -/

@[simp] theorem State.onLbl_mem (s : State) (f : LblState → LblState) : (s.onLbl f).mem = s.mem := rfl

@[simp] theorem State.labelApply_mem (s : State) (data : List Nat) : (s.labelApply data).mem = s.mem := by simp [State.labelApply]

@[simp] theorem State.lblRecord_mem (s : State) (typ : Nat) (payload : List Nat) : (s.lblRecord typ payload).mem = s.mem := by
  unfold State.lblRecord
  dsimp only
  split <;> simp

@[simp] theorem State.uipWrite_mem (s : State) (new : List LblRect) : (s.uipWrite new).mem = s.mem := by simp [State.uipWrite]

@[simp] theorem State.lblClean_mem (s : State) : s.lblClean.mem = s.mem := by simp [State.lblClean]

@[simp] theorem State.powerOffWrite_mem (s : State) : s.powerOffWrite.mem = s.mem := by
  unfold State.powerOffWrite
  dsimp only
  (repeat' split) <;> simp

@[simp] theorem State.lblIdle_mem (s : State) : s.lblIdle.mem = s.mem := by
  unfold State.lblIdle
  split <;> simp

@[simp] theorem State.cleanTimer_mem (s : State) : s.cleanTimer.mem = s.mem := by
  unfold State.cleanTimer
  split <;> simp

@[simp] theorem State.bandTrack_mem (s : State) : s.bandTrack.mem = s.mem := rfl

@[simp] theorem State.addDc_mem (s : State) (k : Nat) (d : Int) : (s.addDc k d).mem = s.mem := by simp [State.addDc]

@[simp] theorem State.latchDrive_mem (s : State) : s.latchDrive.mem = s.mem := rfl

@[simp] theorem State.startRun_mem (s : State) (r : LblRect) (rows : List Nat) (blink clear : Bool) :
    (s.startRun r rows blink clear).mem = s.mem := rfl

@[simp] theorem State.lblRun_mem (s : State) (r : LblRect) (blink : Bool) : (s.lblRun r blink).mem = s.mem := rfl

@[simp] theorem State.clearNext_mem (s : State) : s.clearNext.mem = s.mem := by
  unfold State.clearNext
  split <;> rfl

@[simp] theorem State.lblStart_mem (s : State) (blink : Bool) : (s.lblStart blink).mem = s.mem := by
  fun_cases State.lblStart <;> simp

@[simp] theorem State.updateStart_mem (s : State) : s.updateStart.mem = s.mem := by
  unfold State.updateStart
  split <;> simp

@[simp] theorem State.blinkStart_mem (s : State) : s.blinkStart.mem = s.mem := by
  unfold State.blinkStart
  split <;> simp

@[simp] theorem State.blinkChange_mem (s : State) (g : Nat) : (s.blinkChange g).mem = s.mem := by
  unfold State.blinkChange
  dsimp only
  split <;> simp

@[simp] theorem State.lblRecover_mem (s : State) : s.lblRecover.mem = s.mem := by
  have hopen {t : State} (c : Prop) [Decidable c] (n : Nat) : (if c then t.event 0x0F20 0 n 0 else t).mem = t.mem := by
    split <;> simp
  fun_cases State.lblRecover
  case case1 s0 s1 _ =>
    clear_value (e1 : s1 = _) (e0 : s0 = _)
    simp -implicitDefEqProofs [e1, e0, hopen]
  case case2 s0 s1 _ _ s2 =>
    clear_value (e2 : s2 = _) (e1 : s1 = _) (e0 : s0 = _)
    have h2 : s2.mem = s1.mem := by
      rw [e2]
      exact foldl_mem (fun _ _ => by simp) _ _
    simp -implicitDefEqProofs [h2, e1, e0, hopen]

@[simp] theorem State.lblOff_mem (s : State) : s.lblOff.mem = s.mem := by
  unfold State.lblOff
  split <;> simp

@[simp] theorem State.commonDone_mem (s : State) (u : LblRun) : (s.commonDone u).mem = s.mem := by simp [State.commonDone]

@[simp] theorem State.phaseEnd_mem (s : State) : s.phaseEnd.mem = s.mem := by
  unfold State.phaseEnd
  dsimp only
  (repeat' split) <;> simp

@[simp] theorem State.waveData_mem (s : State) (write : Bool) (v : Nat) : (s.waveData write v).mem = s.mem := by
  unfold State.waveData
  split <;> rfl

@[simp] theorem State.waveApply_mem (s : State) : s.waveApply.mem = s.mem := rfl

@[simp] theorem State.waveInstall_mem (s : State) : s.waveInstall.mem = s.mem := by
  unfold State.waveInstall
  split <;> simp

@[simp] theorem State.lblEnable_mem (s : State) (en hv : Bool) : (s.lblEnable en hv).mem = s.mem := by
  unfold State.lblEnable
  dsimp only
  (repeat' split) <;> simp

@[simp] theorem State.recoverDone_mem (s : State) : s.recoverDone.mem = s.mem := by
  unfold State.recoverDone
  split
  · rfl
  · extract_lets +onlyGivenNames landed s2 s3
    have h3 : s3.mem = s2.mem := foldl_mem (fun _ _ => by rfl) _ _
    simp [h3, s2]

@[simp] theorem State.lblFloat_mem (s : State) : s.lblFloat.mem = s.mem := rfl

@[simp] theorem State.keeperReset_mem (s : State) : s.keeperReset.mem = s.mem := by
  unfold State.keeperReset
  split <;> rfl

@[simp] theorem execPowerOff_memWf {s : State} (h : s.memWf) (t : Nat) : (execPowerOff t s).memWf := by simp [execPowerOff, h]

@[simp] theorem execLblUpdateStart_memWf {s : State} (h : s.memWf) (t : Nat) : (execLblUpdateStart t s).memWf := by simp [execLblUpdateStart, h]

@[simp] theorem execLblPhaseEnd_memWf {s : State} (h : s.memWf) (t : Nat) : (execLblPhaseEnd t s).memWf := by simp [execLblPhaseEnd, h]

@[simp] theorem execLblBlinkChange_memWf {s : State} (h : s.memWf) (t g : Nat) : (execLblBlinkChange t g s).memWf := by simp [execLblBlinkChange, h]

@[simp] theorem execLblBlinkWriteStart_memWf {s : State} (h : s.memWf) (t : Nat) : (execLblBlinkWriteStart t s).memWf := by
  simp [execLblBlinkWriteStart, h]

@[simp] theorem execLblCleanTimer_memWf {s : State} (h : s.memWf) (t : Nat) : (execLblCleanTimer t s).memWf := by simp [execLblCleanTimer, h]

@[simp] theorem execLblWaveApply_memWf {s : State} (h : s.memWf) (t : Nat) : (execLblWaveApply t s).memWf := by simp +contextual [execLblWaveApply, h]

@[simp] theorem execLblWaveInstall_memWf {s : State} (h : s.memWf) (t : Nat) : (execLblWaveInstall t s).memWf := by simp [execLblWaveInstall, h]

@[simp] theorem execLblWaveDataAccess_memWf {s : State} (h : s.memWf) (t : Nat) (write : Bool) (v : Nat) :
    (execLblWaveDataAccess t write v s).memWf := by
  simp [execLblWaveDataAccess, h]

@[simp] theorem execLblEnableWrite_memWf {s : State} (h : s.memWf) (t : Nat) (en hv : Bool) : (execLblEnableWrite t en hv s).memWf := by
  simp [execLblEnableWrite, h]

@[simp] theorem execLblRecoverDone_memWf {s : State} (h : s.memWf) (t : Nat) : (execLblRecoverDone t s).memWf := by simp [execLblRecoverDone, h]

@[simp] theorem execKeeperReset_memWf {s : State} (h : s.memWf) (t : Nat) : (execKeeperReset t s).memWf := by simp [execKeeperReset, h]

/-! ### Temperature, pace and power domains (18_thermal_and_power), with the keeper's power pins and power-up (R522, R586, R604, R610, R611) -/

@[simp] theorem State.sensor_mem (s : State) (n : Nat) (q : Int × Bool) : (s.sensor n q).mem = s.mem := by
  unfold State.sensor
  dsimp only
  split <;> simp

@[simp] theorem State.setLevel_mem (s : State) (i : Nat) (f : Fld) (v : Bool) : (s.setLevel i f v).mem = s.mem := by
  unfold State.setLevel
  split <;> rfl

@[simp] theorem State.countHot_mem (s : State) : s.countHot.mem = s.mem := by
  unfold State.countHot
  split <;> rfl

@[simp] theorem State.setDuty_mem (s : State) (d : Nat) : (s.setDuty d).mem = s.mem := rfl

@[simp] theorem State.throttleEdge_mem (s : State) (was : Bool) (src : Nat) (reading : Int) : (s.throttleEdge was src reading).mem = s.mem := by
  simp [State.throttleEdge]

@[simp] theorem State.askVolts_mem (s : State) (mv : Nat) : (s.askVolts mv).mem = s.mem := by
  unfold State.askVolts
  split <;> rfl

@[simp] theorem State.orderlyTrip_mem (s : State) (src : Nat) (reading : Int) : (s.orderlyTrip src reading).mem = s.mem := by simp [State.orderlyTrip]

@[simp] theorem State.fieldOff_memWf (s : State) : s.fieldOff.memWf := by simp [State.fieldOff]

@[simp] theorem State.criticalTrip_memWf (s : State) : s.criticalTrip.memWf := by simp [State.criticalTrip]

@[simp] theorem State.orderlyOff_memWf {s : State} (h : s.memWf) : s.orderlyOff.memWf := by
  unfold State.orderlyOff
  split <;> simp [h]

@[simp] theorem State.sensorSample_mem (s : State) (ts : List (Int × Bool)) (keeper : Int) (stk : List Int) :
    (s.sensorSample ts keeper stk).mem = s.mem := by
  have h1 (c : Prop) [Decidable c] (l : List ((Int × Bool) × Nat)) (t : State) :
      (if c then l.foldl (fun s q => s.sensor q.2 q.1) t else t).mem = t.mem := by
    split
    · exact foldl_mem (fun _ _ => by simp) _ _
    · rfl
  have h2 (l : List (Int × Nat)) (t : State) : (l.foldl (fun s q => s.putS (F.THM_STACK_TEMP.nth q.2) q.1) t).mem = t.mem :=
    foldl_mem (fun _ _ => by simp) _ _
  fun_cases State.sensorSample
  case case1 on ts32 s1 s2 die stack s3 ch was w s4 s5 _ _ _ _ s6 _ s7 s8 s9 _
      | case2 on ts32 s1 s2 die stack s3 ch was w s4 s5 _ _ _ _ s6 _ s7 s8 s9 _ =>
    clear_value (e9 : s9 = _) (e8 : s8 = _) (e7 : s7 = _) (e6 : s6 = _) (e5 : s5 = _) (e4 : s4 = _) (e3 : s3 = _) (e2 : s2 = _)
      (e1 : s1 = _) stack die
    have m2 : s2.mem = s.mem := by simp -implicitDefEqProofs [e2, h2, e1, h1]
    have m3 : s3.mem = s.mem := by
      rw [e3]
      split <;> simp [m2]
    have m4 : s4.mem = s.mem := by
      rw [e4]
      split
      · exact m3
      · split_ifs <;> simp [m3]
    have m5 : s5.mem = s.mem := by
      rw [e5]
      split <;> simp [m4]
    have m7 : s7.mem = s.mem := by simp -implicitDefEqProofs [e7, e6, m5]
    have m8 : s8.mem = s.mem := by
      rw [e8]
      split
      · split <;> simp [m7]
      · exact m7
    have m9 : s9.mem = s.mem := by
      rw [e9]
      split <;> simp [m8]
    simp [m9]

@[simp] theorem State.dutyEnd_mem (s : State) : s.dutyEnd.mem = s.mem := by simp [State.dutyEnd]

@[simp] theorem State.countEnergy_mem (s : State) : s.countEnergy.mem = s.mem := rfl

@[simp] theorem State.avsFault_mem (s : State) : s.avsFault.mem = s.mem := rfl

@[simp] theorem State.governorRun_mem (s : State) (core vout : Nat) : (s.governorRun core vout).mem = s.mem := by
  unfold State.governorRun
  split
  · rfl
  · extract_lets +onlyGivenNames s0
    have h0 : s0.mem = s.mem := by simp [s0]
    split
    · exact h0
    · extract_lets +onlyGivenNames pw v step other up sl lo hi low calm _ s1
      have h1 : s1.mem = s.mem := h0
      split_ifs <;> simp [h1]

@[simp] theorem State.vcoreSettled_mem (s : State) : s.vcoreSettled.mem = s.mem := rfl

@[simp] theorem State.avsTimeout_mem (s : State) : s.avsTimeout.mem = s.mem := by
  unfold State.avsTimeout
  split <;> rfl

@[simp] theorem State.vcoreGood_mem (s : State) : s.vcoreGood.mem = s.mem := by
  unfold State.vcoreGood
  split <;> rfl

@[simp] theorem State.fieldUp_mem (s : State) : s.fieldUp.mem = s.mem := by simp [State.fieldUp]

@[simp] theorem State.domainStart_mem (s : State) (k : Nat) : (s.domainStart k).mem = s.mem := by simp [State.domainStart]

@[simp] theorem State.domainGood_mem (s : State) (k : Nat) : (s.domainGood k).mem = s.mem := by
  unfold State.domainGood
  split <;> simp

@[simp] theorem State.domainTimeout_memWf {s : State} (h : s.memWf) (k : Nat) : (s.domainTimeout k).memWf := by
  unfold State.domainTimeout
  split <;> simp [h]

@[simp] theorem State.railsGood_mem (s : State) : s.railsGood.mem = s.mem := rfl

@[simp] theorem State.brownoutActs_mem (s : State) : s.brownoutActs.mem = s.mem := by simp [State.brownoutActs]

@[simp] theorem State.brownout_mem (s : State) : s.brownout.mem = s.mem := by simp [State.brownout]

@[simp] theorem State.powerGoodLoss_memWf {s : State} (h : s.memWf) (rails : Bool) : (s.powerGoodLoss rails).memWf := by simp [State.powerGoodLoss, h]

@[simp] theorem State.restart_mem (s : State) : s.restart.mem = s.mem := by
  unfold State.restart
  dsimp only
  (repeat' split) <;> simp

@[simp] theorem State.railLoss_memWf (s : State) : s.railLoss.memWf := by simp [State.railLoss]

@[simp] theorem State.keeperUp_memWf (s : State) : s.keeperUp.memWf := by simp +contextual [State.keeperUp]

@[simp] theorem execSensorSample_memWf {s : State} (h : s.memWf) (t : Nat) (ts : List (Int × Bool)) (keeper : Int) (stk : List Int) :
    (execSensorSample t ts keeper stk s).memWf := by
  simp [execSensorSample, h]

@[simp] theorem execDutyPeriodEnd_memWf {s : State} (h : s.memWf) (t : Nat) : (execDutyPeriodEnd t s).memWf := by simp [execDutyPeriodEnd, h]

@[simp] theorem execCriticalTrip_memWf {s : State} (h : s.memWf) (t : Nat) : (execCriticalTrip t s).memWf := by
  unfold execCriticalTrip
  split <;> simp [h]

@[simp] theorem execOrderlyDomainsOff_memWf {s : State} (h : s.memWf) (t : Nat) : (execOrderlyDomainsOff t s).memWf := by
  simp [execOrderlyDomainsOff, h]

@[simp] theorem execRestart_memWf {s : State} (h : s.memWf) (t : Nat) : (execRestart t s).memWf := by simp [execRestart, h]

@[simp] theorem execGovernorRun_memWf {s : State} (h : s.memWf) (t core vout : Nat) : (execGovernorRun t core vout s).memWf := by
  simp [execGovernorRun, h]

@[simp] theorem execVcoreSettled_memWf {s : State} (h : s.memWf) (t : Nat) : (execVcoreSettled t s).memWf := by simp [execVcoreSettled, h]

@[simp] theorem execAvsTimeout_memWf {s : State} (h : s.memWf) (t : Nat) : (execAvsTimeout t s).memWf := by simp [execAvsTimeout, h]

@[simp] theorem execVcorePowerGood_memWf {s : State} (h : s.memWf) (t : Nat) : (execVcorePowerGood t s).memWf := by simp [execVcorePowerGood, h]

@[simp] theorem execDomainStart_memWf {s : State} (h : s.memWf) (t k : Nat) : (execDomainStart t k s).memWf := by simp [execDomainStart, h]

@[simp] theorem execDomainPowerGood_memWf {s : State} (h : s.memWf) (t k : Nat) : (execDomainPowerGood t k s).memWf := by
  simp [execDomainPowerGood, h]

@[simp] theorem execDomainTimeout_memWf {s : State} (h : s.memWf) (t k : Nat) : (execDomainTimeout t k s).memWf := by simp [execDomainTimeout, h]

@[simp] theorem execRailsPowerGood_memWf {s : State} (h : s.memWf) (t : Nat) : (execRailsPowerGood t s).memWf := by simp [execRailsPowerGood, h]

@[simp] theorem execPowerGoodLoss_memWf {s : State} (h : s.memWf) (t : Nat) (rails : Bool) : (execPowerGoodLoss t rails s).memWf := by
  simp [execPowerGoodLoss, h]

@[simp] theorem execBrownout_memWf {s : State} (h : s.memWf) (t : Nat) : (execBrownout t s).memWf := by simp [execBrownout, h]

@[simp] theorem execKeeperPowerUp_memWf (s : State) (t : Nat) : (execKeeperPowerUp t s).memWf := by simp [execKeeperPowerUp]

@[simp] theorem execAlwaysOnRailLoss_memWf (s : State) (t : Nat) : (execAlwaysOnRailLoss t s).memWf := by simp [execAlwaysOnRailLoss]

/-! ### The commit unit (03_epochs_and_commit) -/

@[simp] theorem State.stage_mem (s : State) (off v : Nat) : (s.stage off v).mem = s.mem := rfl

@[simp] theorem State.returnWrite_mem (s : State) (q : Nat × Nat × Nat) : (s.returnWrite q).mem = s.mem := by
  unfold State.returnWrite
  split <;> rfl

@[simp] theorem State.discard_mem (s : State) : s.discard.mem = s.mem := by
  unfold State.discard
  exact foldl_mem (fun _ _ => by rfl) _ _

@[simp] theorem State.cmtShow_mem (s : State) : s.cmtShow.mem = s.mem := rfl

@[simp] theorem State.takeCommit_mem (s : State) : s.takeCommit.mem = s.mem := by
  unfold State.takeCommit
  dsimp only
  (repeat' split) <;> simp

@[simp] theorem State.overlayCopy_memWf {s : State} (h : s.memWf) (sigOk tagOk : Bool) (plain : List Nat) :
    (s.overlayCopy sigOk tagOk plain).memWf := by
  unfold State.overlayCopy
  dsimp only
  (repeat' split) <;> simp [h]

@[simp] theorem State.overlayOver_mem (s : State) : s.overlayOver.mem = s.mem := by
  unfold State.overlayOver
  split <;> rfl

@[simp] theorem State.layerCheck_mem (s : State) : s.layerCheck.mem = s.mem := by
  unfold State.layerCheck
  split <;> simp

@[simp] theorem State.commitRefuse_memWf {s : State} (h : s.memWf) (c : Commit) (code layer : Nat) (detail : Option Nat) :
    (s.commitRefuse c code layer detail).memWf := by
  simp [State.commitRefuse, h]

@[simp] theorem State.commitAccept_memWf {s : State} (h : s.memWf) (c : Commit) : (s.commitAccept c).memWf := by simp [State.commitAccept, h]

@[simp] theorem State.checksComplete_memWf {s : State} (h : s.memWf) : s.checksComplete.memWf := by
  fun_cases State.checksComplete <;> simp [h]

@[simp] theorem State.sealedCompletions_memWf {s : State} (h : s.memWf) (e frame : Nat) (cs : List Commit) :
    (s.sealedCompletions e frame cs).memWf := by
  simp +contextual [State.sealedCompletions, h]

@[simp] theorem State.settleMarkers_mem (s : State) : s.settleMarkers.mem = s.mem := by simp [State.settleMarkers]

@[simp] theorem State.passMarkers_mem (s : State) (u : Nat) (es : List Nat) : (s.passMarkers u es).mem = s.mem := by simp [State.passMarkers]

@[simp] theorem State.sealEpoch_memWf {s : State} (h : s.memWf) : s.sealEpoch.memWf := by
  unfold State.sealEpoch
  dsimp only
  split <;> simp [h]

@[simp] theorem State.showSnap_mem (s : State) (e : Nat) (snap : Counters) : (s.showSnap e snap).mem = s.mem := by
  unfold State.showSnap
  extract_lets +onlyGivenNames _ s1 s2
  have h2 : s2.mem = s1.mem := foldl_mem (fun _ _ => by rfl) _ _
  simp [h2, s1]

@[simp] theorem State.postReport_memWf {s : State} (h : s.memWf) (b : List Nat) : (s.postReport b).memWf := by
  unfold State.postReport
  dsimp only
  split_ifs <;> simp +contextual [h]

@[simp] theorem State.dropEpochs_mem (s : State) : s.dropEpochs.mem = s.mem := rfl

@[simp] theorem State.publish_memWf {s : State} (h : s.memWf) : s.publish.memWf := by
  unfold State.publish
  dsimp only
  (repeat' split) <;> simp [h]

@[simp] theorem State.thaw_mem (s : State) : s.thaw.mem = s.mem := by
  unfold State.thaw
  dsimp only
  split <;> simp

@[simp] theorem State.freeze_mem (s : State) (on : Bool) : (s.freeze on).mem = s.mem := by
  fun_cases State.freeze <;> simp

@[simp] theorem State.freezeExpiry_mem (s : State) : s.freezeExpiry.mem = s.mem := by
  unfold State.freezeExpiry
  split <;> simp

@[simp] theorem State.retire_memWf {s : State} (h : s.memWf) : s.retire.memWf := by
  unfold State.retire
  split
  · exact h
  · split
    · exact h
    · extract_lets +onlyGivenNames s1
      have h1 : s1.memWf := h
      refine foldl_memWf (fun t c ht => ?_) _ h1
      split
      · exact ht
      · exact State.postCompletion_memWf ht _ _ _

@[simp] theorem execOverlayCopyStart_memWf {s : State} (h : s.memWf) (t : Nat) (sigOk tagOk : Bool) (plain : List Nat) :
    (execOverlayCopyStart t sigOk tagOk plain s).memWf := by
  simp +contextual [execOverlayCopyStart, h]

@[simp] theorem execCommit_memWf {s : State} (h : s.memWf) (t : Nat) : (execCommit t s).memWf := by simp [execCommit, h]

@[simp] theorem execCommitChecksComplete_memWf {s : State} (h : s.memWf) (t : Nat) : (execCommitChecksComplete t s).memWf := by
  simp +contextual [execCommitChecksComplete, h]

@[simp] theorem execBrdLayerCheck_memWf {s : State} (h : s.memWf) (t : Nat) : (execBrdLayerCheck t s).memWf := by simp [execBrdLayerCheck, h]

@[simp] theorem execEpochPublish_memWf {s : State} (h : s.memWf) (t : Nat) : (execEpochPublish t s).memWf := by simp +contextual [execEpochPublish, h]

@[simp] theorem execSnapshotFreeze_memWf {s : State} (h : s.memWf) (t : Nat) (on : Bool) : (execSnapshotFreeze t on s).memWf := by
  simp [execSnapshotFreeze, h]

@[simp] theorem execFreezeExpiry_memWf {s : State} (h : s.memWf) (t : Nat) : (execFreezeExpiry t s).memWf := by simp [execFreezeExpiry, h]

@[simp] theorem execEpochRetire_memWf {s : State} (h : s.memWf) (t : Nat) : (execEpochRetire t s).memWf := by simp +contextual [execEpochRetire, h]

@[simp] theorem execDiscard_memWf {s : State} (h : s.memWf) (t : Nat) : (execDiscard t s).memWf := by simp [execDiscard, h]

/-! ### The event log as it is written (R568 to R570), and the trace of the debug window (R580 to R582) -/

@[simp] theorem State.logSignal_mem (s : State) : s.logSignal.mem = s.mem := by
  unfold State.logSignal
  split <;> simp

@[simp] theorem State.logKept_mem (s : State) (e : LogEntry) (b : List Nat) : (s.logKept e b).mem = s.mem := by
  unfold State.logKept
  split <;> rfl

@[simp] theorem State.logWrite_memWf {s : State} (h : s.memWf) (e : LogEntry) : (s.logWrite e).memWf := by
  rw [State.logWrite, State.memWf, State.logSignal_mem, State.logKept_mem, State.put_mem]
  exact State.store_memWf h _ _ _

@[simp] theorem State.logDrop_mem (s : State) : s.logDrop.mem = s.mem := rfl

@[simp] theorem State.logPut_memWf {s : State} (h : s.memWf) (e : LogEntry) : (s.logPut e).memWf := by
  have hnext (t : State) (ht : t.memWf) : (({ t with sys := { t.sys with logDropRun := 0 } } : State).logWrite e).memWf := by
    refine State.logWrite_memWf ?_ e
    simpa -implicitDefEqProofs using ht
  generalize hu : s.logPut e = u
  rw [State.logPut] at hu
  split_ifs at hu
  · simpa [← hu] using h
  · simp [← hu, h]
  · exact hu ▸ State.logWrite_memWf h e
  · exact hu ▸ State.logWrite_memWf h e
  · simp -implicitDefEqProofs [← hu, h]
  · dsimp only at hu
    rw [← hu]
    exact hnext _ (State.logWrite_memWf h _)
  · simp -implicitDefEqProofs [← hu, h]

@[simp] theorem State.logNext_memWf {s : State} (h : s.memWf) : s.logNext.memWf := by
  unfold State.logNext
  split <;> simp [h]

@[simp] theorem State.logFlush_memWf {s : State} (h : s.memWf) : s.logFlush.memWf := by simp +contextual [State.logFlush, h]

@[simp] theorem State.logTailWrite_mem (s : State) (v : Nat) : (s.logTailWrite v).mem = s.mem := rfl

@[simp] theorem State.reservedWrite_mem (s : State) (off v : Nat) : (s.reservedWrite off v).mem = s.mem := rfl

@[simp] theorem State.traceShow_mem (s : State) : s.traceShow.mem = s.mem := rfl

@[simp] theorem State.traceCtrl_mem (s : State) (v : Nat) : (s.traceCtrl v).mem = s.mem := by simp [State.traceCtrl]

@[simp] theorem State.traceDrop_mem (s : State) : s.traceDrop.mem = s.mem := rfl

@[simp] theorem State.traceSkip_mem (s : State) : s.traceSkip.mem = s.mem := rfl

@[simp] theorem State.traceRecord_memWf {s : State} (h : s.memWf) (kind index : Nat) (b : List Nat) : (s.traceRecord kind index b).memWf := by
  simp [State.traceRecord, h]

@[simp] theorem execEventLogWrite_memWf {s : State} (h : s.memWf) (t : Nat) : (execEventLogWrite t s).memWf := by simp [execEventLogWrite, h]

@[simp] theorem execLogTailWrite_memWf {s : State} (h : s.memWf) (t v : Nat) : (execLogTailWrite t v s).memWf := by
  simp +contextual [execLogTailWrite, h]

@[simp] theorem execDbgTraceEnable_memWf {s : State} (h : s.memWf) (t v : Nat) : (execDbgTraceEnable t v s).memWf := by simp [execDbgTraceEnable, h]

@[simp] theorem execDbgTraceRecord_memWf {s : State} (h : s.memWf) (t kind index : Nat) (b : List Nat) :
    (execDbgTraceRecord t kind index b s).memWf := by
  simp +contextual [execDbgTraceRecord, h]

/-! ### Epoch markers at the units (R22, R42, R58, R81, R94), unit resets (R575) and the faults of die-edge FIFOs (R23) -/

@[simp] theorem State.haltUnit_memWf {s : State} (h : s.memWf) (u : Nat) (reset : Bool) : (s.haltUnit u reset).memWf := by
  unfold State.haltUnit
  split <;> simp [h]

@[simp] theorem State.flagIncomplete_mem (s : State) (u : Nat) : (s.flagIncomplete u).mem = s.mem := by
  unfold State.flagIncomplete
  dsimp only
  split <;> simp

@[simp] theorem State.clearCounters_mem (s : State) (u : Nat) : (s.clearCounters u).mem = s.mem := rfl

@[simp] theorem State.dropWrites_mem (s : State) (u : Nat) : (s.dropWrites u).mem = s.mem := rfl

@[simp] theorem State.resetUnit_memWf {s : State} (h : s.memWf) (u : Nat) : (s.resetUnit u).memWf := by simp [State.resetUnit, h]

@[simp] theorem State.unitReset_memWf {s : State} (h : s.memWf) (v : Nat) : (s.unitReset v).memWf := by simp +contextual [State.unitReset, h]

@[simp] theorem State.releaseUnit_memWf {s : State} (h : s.memWf) (u : Nat) : (s.releaseUnit u).memWf := by
  unfold State.releaseUnit
  split <;> simp [h]

@[simp] theorem State.rejoin_mem (s : State) (u : Nat) : (s.rejoin u).mem = s.mem := by
  unfold State.rejoin
  dsimp only
  split <;> simp

@[simp] theorem State.writesSettled_memWf {s : State} (h : s.memWf) (u : Nat) : (s.writesSettled u).memWf := by simp [State.writesSettled, h]

@[simp] theorem State.latchExtras_mem (s : State) (u : Nat) : (s.latchExtras u).mem = s.mem := by
  unfold State.latchExtras
  split <;> simp

@[simp] theorem State.latchSnap_mem (s : State) (u n : Nat) : (s.latchSnap u n).mem = s.mem := by
  unfold State.latchSnap
  split <;> simp

@[simp] theorem State.applyEpoch_mem (s : State) (u : Nat) (e : Epoch) : (s.applyEpoch u e).mem = s.mem := rfl

@[simp] theorem State.applyRoutes_mem (s : State) (own : Nat → Bool) (e : Epoch) : (s.applyRoutes own e).mem = s.mem := by
  simp [State.applyRoutes, apply_ite]

@[simp] theorem State.keepApplied_mem (s : State) (e : Epoch) : (s.keepApplied e).mem = s.mem := by
  unfold State.keepApplied
  split <;> rfl

@[simp] theorem State.panelSettings_memWf {s : State} (h : s.memWf) (old : RegFile) : (s.panelSettings old).memWf := by simp [State.panelSettings, h]

@[simp] theorem State.takeEpoch_memWf {s : State} (h : s.memWf) (u : Nat) (e : Epoch) : (s.takeEpoch u e).memWf := by
  unfold State.takeEpoch
  extract_lets +onlyGivenNames old s0 _ s1
  have h1 : s1.memWf := by simpa [s1, s0] using h
  split
  · simpa using h1
  · simpa using h1
  · split
    · simpa using h1
    · split <;> simpa using h1
  · exact State.panelSettings_memWf h1 old
  · exact foldl_memWf (fun _ _ ht => by simpa using ht) _ h1
  · refine foldl_memWf (fun _ _ ht => ?_) _ h1
    split <;> simpa using ht
  · exact foldl_memWf (fun _ _ ht => State.armTriggers_memWf ht _) _ h1
  · split <;> exact h1
  · simpa using h1
  · exact h1

@[simp] theorem State.markerTaken_memWf {s : State} (h : s.memWf) (u n : Nat) (popped : List Nat) : (s.markerTaken u n popped).memWf := by
  unfold State.markerTaken
  extract_lets +onlyGivenNames s0 s1 due s2 _ _ s3
  have h0 : s0.memWf := by
    dsimp only [s0]
    split <;> simpa using h
  have h1 : s1.memWf := by simpa [s1] using h0
  have h3 : s3.memWf := foldl_memWf (fun _ e ht => State.takeEpoch_memWf ht u e) due h1
  simpa using State.releaseUnit_memWf h3 u

@[simp] theorem State.consume_memWf {s : State} (h : s.memWf) (u : Nat) : (s.consume u).memWf := by
  unfold State.consume
  dsimp only
  (repeat' split) <;> simp [h]

@[simp] theorem State.tilthGrant_mem (s : State) (u p : Nat) : (s.tilthGrant u p).mem = s.mem := by
  unfold State.tilthGrant
  split <;> simp

@[simp] theorem State.fifoEvent_mem (s : State) (u i : Nat) : (s.fifoEvent u i).mem = s.mem := rfl

@[simp] theorem State.fifoFault_mem (s : State) (u i : Nat) : (s.fifoFault u i).mem = s.mem := by
  unfold State.fifoFault
  split <;> simp

@[simp] theorem execEpochMarkerConsumed_memWf {s : State} (h : s.memWf) (t u : Nat) : (execEpochMarkerConsumed t u s).memWf := by
  simp +contextual [execEpochMarkerConsumed, h]

@[simp] theorem execUnitWritesSettled_memWf {s : State} (h : s.memWf) (t u : Nat) : (execUnitWritesSettled t u s).memWf := by
  simp [execUnitWritesSettled, h]

@[simp] theorem execTilthGrant_memWf {s : State} (h : s.memWf) (t u p : Nat) : (execTilthGrant t u p s).memWf := by simp [execTilthGrant, h]

@[simp] theorem execDieEdgeFifoFault_memWf {s : State} (h : s.memWf) (t u i : Nat) : (execDieEdgeFifoFault t u i s).memWf := by
  simp [execDieEdgeFifoFault, h]

@[simp] theorem execSysUnitReset_memWf {s : State} (h : s.memWf) (t v : Nat) : (execSysUnitReset t v s).memWf := by
  simp +contextual [execSysUnitReset, h]

/-! ### The switch to a full image (R54, R56, R309, R505, R590), and the resets of host-facing state (R96, R567) -/

@[simp] theorem State.switchStart_memWf {s : State} (h : s.memWf) : s.switchStart.memWf := by simp [State.switchStart, h]

@[simp] theorem State.switchHold_mem (s : State) : s.switchHold.mem = s.mem := rfl

@[simp] theorem State.domainHalt_memWf {s : State} (h : s.memWf) (k : Nat) : (s.domainHalt k).memWf := by
  unfold State.domainHalt
  split <;> simp [h]

@[simp] theorem State.takePower_memWf {s : State} (h : s.memWf) (p : PowerPlan) : (s.takePower p).memWf :=
  foldl_memWf (fun _ k ht => State.domainHalt_memWf ht k) _ h

@[simp] theorem State.asCommitted_mem (s : State) (f : Fld) (v : Nat) : (s.asCommitted f v).mem = s.mem := rfl

@[simp] theorem State.firstOutMode_mem (s : State) (im : Image) : (s.firstOutMode im).mem = s.mem := by
  unfold State.firstOutMode
  split <;> rfl

@[simp] theorem State.takeGroups_mem (s : State) (first : Bool) (old : List Nat) : (s.takeGroups first old).mem = s.mem := by
  unfold State.takeGroups
  split
  · simp
  · extract_lets +onlyGivenNames s1
    have h1 : s1.mem = s.mem := foldl_mem (fun _ _ => by simp) _ _
    simp [h1]

@[simp] theorem State.showImage_mem (s : State) (im : Image) : (s.showImage im).mem = s.mem := by
  unfold State.showImage
  exact foldl_mem (fun _ _ => by rfl) _ _

@[simp] theorem State.moveRange_memWf {s : State} (h : s.memWf) (old : State) (src dst n : Nat) : (s.moveRange old src dst n).memWf := by
  unfold State.moveRange
  split
  · exact h
  · refine foldl_memWf (fun t k ht => ?_) _ (by simp [h])
    split <;> simpa using ht

@[simp] theorem State.holdSlices_mem (s : State) : s.holdSlices.mem = s.mem := rfl

@[simp] theorem State.moveRegistry_memWf {s : State} (h : s.memWf) (im : Image) : (s.moveRegistry im).memWf := by
  unfold State.moveRegistry
  extract_lets +onlyGivenNames base
  refine foldl_memWf (fun t q ht => ?_) _ h
  split
  · exact State.moveRange_memWf ht _ _ _ _
  · exact ht

@[simp] theorem State.switchComplete_memWf {s : State} (h : s.memWf) : s.switchComplete.memWf := by
  fun_cases State.switchComplete
  case case1 => exact h
  case case2 => exact h
  case case3 im _ _ _ old s1 s2 s3 s4 s5 s6 _ | case4 im _ _ _ old s1 s2 s3 s4 s5 s6 _ =>
    clear_value (e6 : s6 = _) (e5 : s5 = _) (e4 : s4 = _) (e3 : s3 = _) (e2 : s2 = _) (e1 : s1 = _)
    have h1 : s1.memWf := by simp [e1, h]
    have h2 : s2.memWf := by
      have hm := State.moveRegistry_memWf h1 im
      simpa -implicitDefEqProofs [e2] using hm
    have h4 : s4.memWf := by simp -implicitDefEqProofs [e4, e3, h2]
    have h5 : s5.memWf := by simp -implicitDefEqProofs [e5, h4]
    have h6 : s6.memWf := by simp -implicitDefEqProofs [e6, h5]
    simp -implicitDefEqProofs [h6]

@[simp] theorem State.hstRegsReset_mem (s : State) (keepLink : Bool) : (s.hstRegsReset keepLink).mem = s.mem := rfl

@[simp] theorem State.commitsReset_mem (s : State) : s.commitsReset.mem = s.mem := by simp [State.commitsReset]

@[simp] theorem State.flr_mem (s : State) (cause : Nat) : (s.flr cause).mem = s.mem := by
  unfold State.flr
  split <;> simp

@[simp] theorem execSwitchComplete_memWf {s : State} (h : s.memWf) (t : Nat) : (execSwitchComplete t s).memWf := by
  simp +contextual [execSwitchComplete, h]

@[simp] theorem execFunctionLevelReset_memWf {s : State} (h : s.memWf) (t cause : Nat) : (execFunctionLevelReset t cause s).memWf := by
  simp [execFunctionLevelReset, h]

/-! ### Firmware (R583 to R585), the watchdogs (R588, R589), and the fatal freeze with its dump, summary, restore and resume (R591 to R598) -/

@[simp] theorem State.fwLoad_mem (s : State) : s.fwLoad.mem = s.mem := by simp [State.fwLoad]

@[simp] theorem State.fwRun_mem (s : State) : s.fwRun.mem = s.mem := by simp [State.fwRun]

@[simp] theorem State.fwRefuse_mem (s : State) (c : Nat) : (s.fwRefuse c).mem = s.mem := by simp [State.fwRefuse]

@[simp] theorem State.fwChecked_mem (s : State) (sigOk tagOk : Bool) : (s.fwChecked sigOk tagOk).mem = s.mem := by
  unfold State.fwChecked
  split <;> simp

@[simp] theorem State.fwSwitch_mem (s : State) : s.fwSwitch.mem = s.mem := by
  unfold State.fwSwitch
  split <;> simp

@[simp] theorem State.coreWatchdog_mem (s : State) (good : Bool) : (s.coreWatchdog good).mem = s.mem := by
  fun_cases State.coreWatchdog <;> simp

@[simp] theorem State.paceWindow_mem (s : State) (counts : List (Nat × Nat)) : (s.paceWindow counts).mem = s.mem := rfl

@[simp] theorem State.unitWatchdog_memWf {s : State} (h : s.memWf) (u i : Nat) : (s.unitWatchdog u i).memWf := by simp [State.unitWatchdog, h]

@[simp] theorem State.tilthWatchdog_mem (s : State) (k : Nat) : (s.tilthWatchdog k).mem = s.mem := by
  fun_cases State.tilthWatchdog <;> simp

@[simp] theorem State.cutReport_mem (s : State) : s.cutReport.mem = s.mem := by
  unfold State.cutReport
  dsimp only
  split <;> simp

@[simp] theorem State.commitsFreeze_mem (s : State) : s.commitsFreeze.mem = s.mem := by simp [State.commitsFreeze]

@[simp] theorem State.freezeUnits_memWf {s : State} (h : s.memWf) : s.freezeUnits.memWf :=
  State.panelStop_memWf (foldl_memWf (fun _ u ht => State.haltUnit_memWf ht u false) frozenUnits h)

@[simp] theorem State.restoreStart_mem (s : State) : s.restoreStart.mem = s.mem := by simp [State.restoreStart, apply_ite]

@[simp] theorem State.fatal_memWf {s : State} (h : s.memWf) (cause detail : Nat) : (s.fatal cause detail).memWf := by simp [State.fatal, h]

@[simp] theorem State.fatalFreeze_memWf {s : State} (h : s.memWf) (cause detail : Nat) : (s.fatalFreeze cause detail).memWf := by
  fun_cases State.fatalFreeze <;> simp [h]

@[simp] theorem State.forceFatal_mem (s : State) : s.forceFatal.mem = s.mem := rfl

@[simp] theorem State.summaryStart_mem (s : State) : s.summaryStart.mem = s.mem := by simp [State.summaryStart]

@[simp] theorem State.captureStart_mem (s : State) : s.captureStart.mem = s.mem := by simp [State.captureStart]

@[simp] theorem State.captureComplete_memWf {s : State} (h : s.memWf) (scan : List (Bool × List Nat)) : (s.captureComplete scan).memWf := by
  fun_cases State.captureComplete
  case case1 => exact h
  case case2 ps _ _ s1 s2 s3 =>
    clear_value (e3 : s3 = _) (e2 : s2 = _) (e1 : s1 = _)
    have h1 : s1.memWf := by
      rw [e1]
      exact foldl_memWf (fun _ _ ht => State.store_memWf ht _ _ _) ps (State.endFw_memWf h 1)
    simp [e3, e2, h1]

@[simp] theorem State.summaryCommitted_mem (s : State) : s.summaryCommitted.mem = s.mem := by
  unfold State.summaryCommitted
  split <;> simp

@[simp] theorem State.restoreComplete_memWf {s : State} (h : s.memWf) : s.restoreComplete.memWf := by
  fun_cases State.restoreComplete
  case case1 => exact h
  case case2 => simp [h]
  case case3 s0 s1 _ =>
    have h0 : s0.memWf := foldl_memWf (fun _ _ ht => by simp [ht]) frozenUnits h
    have h1 : s1.memWf := foldl_memWf (fun _ _ ht => by split <;> simp [ht]) [0, 1] h0
    exact h1

@[simp] theorem State.resume_memWf {s : State} (h : s.memWf) : s.resume.memWf := by simp [State.resume, h]

@[simp] theorem State.dumpRelease_mem (s : State) : s.dumpRelease.mem = s.mem := rfl

@[simp] theorem State.sealNext_memWf {s : State} (h : s.memWf) : s.sealNext.memWf := by
  unfold State.sealNext
  dsimp only
  (repeat' split) <;> simp [h]

@[simp] theorem State.latchInstant_memWf {s : State} (h : s.memWf) : s.latchInstant.memWf := by
  unfold State.latchInstant
  split
  · exact h
  · extract_lets +onlyGivenNames _ s1
    have h1 : s1.memWf := h
    split
    · simpa using h1
    · split
      · exact h1
      · extract_lets +onlyGivenNames s2
        have h2 : s2.memWf := by
          refine State.sealNext_memWf ?_
          split
          · exact State.resume_memWf h1
          · exact h1
        split
        · exact State.switchStart_memWf h2
        · exact h2

@[simp] theorem execFirmwareLoad_memWf {s : State} (h : s.memWf) (t : Nat) : (execFirmwareLoad t s).memWf := by simp [execFirmwareLoad, h]

@[simp] theorem execFirmwareChecked_memWf {s : State} (h : s.memWf) (t : Nat) (sigOk tagOk : Bool) : (execFirmwareChecked t sigOk tagOk s).memWf := by
  simp [execFirmwareChecked, h]

@[simp] theorem execFirmwareSwitch_memWf {s : State} (h : s.memWf) (t : Nat) : (execFirmwareSwitch t s).memWf := by simp [execFirmwareSwitch, h]

@[simp] theorem execCoreWatchdog_memWf {s : State} (h : s.memWf) (t : Nat) (good : Bool) : (execCoreWatchdog t good s).memWf := by
  simp [execCoreWatchdog, h]

@[simp] theorem execPaceWindowEnd_memWf {s : State} (h : s.memWf) (t : Nat) (counts : List (Nat × Nat)) : (execPaceWindowEnd t counts s).memWf := by
  simp [execPaceWindowEnd, h]

@[simp] theorem execUnitWatchdog_memWf {s : State} (h : s.memWf) (t u i : Nat) : (execUnitWatchdog t u i s).memWf := by
  simp +contextual [execUnitWatchdog, h]

@[simp] theorem execTilthWatchdog_memWf {s : State} (h : s.memWf) (t k : Nat) : (execTilthWatchdog t k s).memWf := by simp [execTilthWatchdog, h]

@[simp] theorem execFatalFreeze_memWf {s : State} (h : s.memWf) (t cause detail : Nat) : (execFatalFreeze t cause detail s).memWf := by
  simp +contextual [execFatalFreeze, h]

@[simp] theorem execForce_memWf {s : State} (h : s.memWf) (t : Nat) : (execForce t s).memWf := by simp +contextual [execForce, h]

@[simp] theorem execCaptureStart_memWf {s : State} (h : s.memWf) (t : Nat) : (execCaptureStart t s).memWf := by simp [execCaptureStart, h]

@[simp] theorem execCaptureComplete_memWf {s : State} (h : s.memWf) (t : Nat) (scan : List (Bool × List Nat)) :
    (execCaptureComplete t scan s).memWf := by
  simp +contextual [execCaptureComplete, h]

@[simp] theorem execSummaryCommitted_memWf {s : State} (h : s.memWf) (t : Nat) : (execSummaryCommitted t s).memWf := by simp [execSummaryCommitted, h]

@[simp] theorem execRestoreComplete_memWf {s : State} (h : s.memWf) (t : Nat) : (execRestoreComplete t s).memWf := by
  simp +contextual [execRestoreComplete, h]

@[simp] theorem execRelease_memWf {s : State} (h : s.memWf) (t : Nat) : (execRelease t s).memWf := by simp +contextual [execRelease, h]

@[simp] theorem execLatchInstant_memWf {s : State} (h : s.memWf) (t : Nat) : (execLatchInstant t s).memWf := by simp +contextual [execLatchInstant, h]

/-! ### Zeroisation (R538, R542) -/

@[simp] theorem State.failShoash_mem (s : State) : s.failShoash.mem = s.mem := by
  unfold State.failShoash
  split <;> simp

@[simp] theorem State.failSet_mem (s : State) : s.failSet.mem = s.mem := by
  unfold State.failSet
  split <;> simp

@[simp] theorem State.failDemura_mem (s : State) : s.failDemura.mem = s.mem := by
  unfold State.failDemura
  split <;> simp

@[simp] theorem State.failFirmware_mem (s : State) : s.failFirmware.mem = s.mem := by
  unfold State.failFirmware
  split <;> simp

@[simp] theorem State.zeroise_memWf {s : State} (h : s.memWf) : s.zeroise.memWf := by
  unfold State.zeroise
  split <;> simp [h]

@[simp] theorem secZeroise_memWf {s : State} (h : s.memWf) (x0 : SecReq) : ((secZeroise x0 s).2.2).memWf := by simp [secZeroise, h]

@[simp] theorem execZeroise_memWf {s : State} (h : s.memWf) (t : Nat) (auth : Bool) : (execZeroise t auth s).memWf := by
  unfold execZeroise
  rw [Out.next_memWf]
  exact State.whenBar_memWf (fun _ hs => State.secCommand_memWf (fun r _ hr => secZeroise_memWf hr r) _ _ _ hs) t h

@[simp] theorem State.tamperFire_memWf {s : State} (h : s.memWf) (bit : Nat) : (s.tamperFire bit).memWf := by simp [State.tamperFire, h]

@[simp] theorem execTamper_memWf {s : State} (h : s.memWf) (t bit : Nat) : (execTamper t bit s).memWf := by simp [execTamper, h]

@[simp] theorem State.takeWaiting_memWf {s : State} (h : s.memWf) : s.takeWaiting.memWf := by
  unfold State.takeWaiting
  split <;> simp [h]

@[simp] theorem State.burnComplete_memWf {s : State} (h : s.memWf) : s.burnComplete.memWf := by simp [State.burnComplete, h]

@[simp] theorem execZeroiseBurnComplete_memWf {s : State} (h : s.memWf) (t : Nat) : (execZeroiseBurnComplete t s).memWf := by
  simp [execZeroiseBurnComplete, h]

/-! ### Host accesses to BAR0 and BAR4 (R10 to R12, R16, R70, R551) -/

@[simp] theorem State.plain_mem (s : State) (off v : Nat) : (s.plain off v).mem = s.mem := by
  unfold State.plain
  split <;> simp

@[simp] theorem State.plainHeld_mem (s : State) (off v held : Nat) (bad : Bool) : (s.plainHeld off v held bad).mem = s.mem := by
  unfold State.plainHeld
  split <;> simp

@[simp] theorem State.writeBands_mem (s : State) (off v : Nat) : (s.writeBands off v).mem = s.mem := by
  fun_cases State.writeBands <;> simp

@[simp] theorem State.writeTblSel_mem (s : State) (off v : Nat) : (s.writeTblSel off v).mem = s.mem := by
  unfold State.writeTblSel
  split <;> simp

@[simp] theorem State.writeGov_mem (s : State) (off v : Nat) : (s.writeGov off v).mem = s.mem := by
  unfold State.writeGov
  split <;> simp

@[simp] theorem State.writeWdog_mem (s : State) (off v : Nat) : (s.writeWdog off v).mem = s.mem := by
  unfold State.writeWdog
  split <;> simp

@[simp] theorem State.writeTimCtrl_mem (s : State) (off v : Nat) : (s.writeTimCtrl off v).mem = s.mem := by simp [State.writeTimCtrl]

@[simp] theorem State.writeSrvCfg_mem (s : State) (off i v : Nat) : (s.writeSrvCfg off i v).mem = s.mem := by
  unfold State.writeSrvCfg
  dsimp only
  split <;> simp

@[simp] theorem State.writePort_memWf {s : State} (h : s.memWf) (off i v : Nat) : (s.writePort off i v).memWf := by simp [State.writePort, h]

@[simp] theorem State.writeCtxCmd_memWf {s : State} (h : s.memWf) (off v : Nat) : (s.writeCtxCmd off v).memWf := by
  unfold State.writeCtxCmd
  split <;> simp [h]

@[simp] theorem State.writeRingCtrl_memWf {s : State} (h : s.memWf) (off i v : Nat) : (s.writeRingCtrl off i v).memWf := by
  simp [State.writeRingCtrl, h]

@[simp] theorem State.writeRrgCtrl_mem (s : State) (off v : Nat) : (s.writeRrgCtrl off v).mem = s.mem := by simp [State.writeRrgCtrl, apply_ite]

@[simp] theorem State.writeNvsReq_memWf {s : State} (h : s.memWf) (v : Nat) : (s.writeNvsReq v).memWf := by
  rw [State.writeNvsReq]
  generalize bitsOf v 31 28 = op
  refine State.nvsStart_memWf (fun t ht => ?_) _ _ _ h
  split <;> simp [ht]

@[simp] theorem State.writeMbCtrl_memWf {s : State} (h : s.memWf) (off v : Nat) : (s.writeMbCtrl off v).memWf := by simp [State.writeMbCtrl, h]

@[simp] theorem State.onGo_memWf {s : State} {f : State → State} (hf : ∀ s, s.memWf → (f s).memWf) (v : Nat) (h : s.memWf) :
    (s.onGo v f).memWf := by
  unfold State.onGo
  split
  · exact hf _ h
  · exact h

theorem writeRules_keepMem : ∀ q ∈ writeRules, ∀ s o i v, s.memWf → (q.2 s o i v).memWf := by
  have hgo {s : State} {f : State → State} (v : Nat) (h : s.memWf) (hf : ∀ t, t.memWf → (f t).memWf) : (s.onGo v f).memWf :=
    State.onGo_memWf hf v h
  have hon {s : State} {f : State → State} (v : Nat) (h : s.memWf) (hf : ∀ t, t.memWf → (f t).memWf) :
      (if s.fieldOn then s.onGo v f else s).memWf := by
    split
    · exact hgo v h hf
    · exact h
  simp only [writeRules, List.cons_append, List.nil_append, List.forall_mem_cons]
  refine ⟨?_, ?_, ?fw, ?img, ?_, ?_, ?stage, ?_, ?_, ?set, ?_, ?_, ?_, ?_, ?_, ?_, ?_, ?dmr, ?_, ?_, ?_, ?_, ?_, ?wave, ?_, ?_, ?_, ?_, ?_, ?_,
    ?thm, ?_, ?_, ?_, ?dump, ?_, ?_, ?_, ?_, ?_, ?_, ?_, List.forall_mem_nil _⟩ <;> intro s o i v h
  case fw => exact hon v h (fun t ht => by simp [ht])
  case dump =>
    refine hon v ?_ (fun t ht => by simp [ht])
    split <;> simp [h]
  case img | stage | set | dmr | wave => exact hgo v h (fun t ht => by simp [ht])
  case thm => exact hgo v (by simp [h]) (fun t ht => by simp [ht])
  all_goals simp [h]

theorem State.writeBlocked_mem {s b : State} {r : RegRow} {i j off v : Nat} (h : s.writeBlocked r i j off v = some b) : b.mem = s.mem := by
  unfold State.writeBlocked at h
  split_ifs at h <;> cases h <;> rfl

@[simp] theorem State.writeWord_memWf {s : State} (h : s.memWf) (off v : Nat) : (s.writeWord off v).memWf := by
  unfold State.writeWord
  split
  · exact h
  · split
    · next hblocked => simpa [State.writeBlocked_mem hblocked] using h
    · extract_lets +onlyGivenNames x
      split
      · next q hrule => exact writeRules_keepMem q (List.mem_of_find?_eq_some hrule) s _ _ _ h
      · simpa using h

@[simp] theorem State.writeLow_mem (s : State) (off v : Nat) : (s.writeLow off v).mem = s.mem := rfl

theorem State.blocked_mem {s b : State} {off v : Nat} (h : s.blocked off v = some b) : b.mem = s.mem := by
  unfold State.blocked at h
  split at h
  · cases h
  · exact State.writeBlocked_mem h

@[simp] theorem State.writeHigh_memWf {s : State} (h : s.memWf) (off v : Nat) : (s.writeHigh off v).memWf := by
  unfold State.writeHigh
  extract_lets +onlyGivenNames low s1
  have h1 : s1.memWf := h
  split
  · next hblocked => simpa [State.blocked_mem hblocked] using h1
  · split
    · refine State.writeWord_memWf ?_ off v
      split
      · exact State.writeWord_memWf h1 _ _
      · exact h1
    · exact State.writeWord_memWf (State.writeWord_memWf h1 _ _) off v

@[simp] theorem State.writeMsix_mem (s : State) (off v : Nat) : (s.writeMsix off v).mem = s.mem := by
  fun_cases State.writeMsix <;> simp

@[simp] theorem State.hostWrite_memWf {s : State} (h : s.memWf) (off v : Nat) : (s.hostWrite off v).memWf := by
  fun_cases State.hostWrite <;> simp [h]

@[simp] theorem State.readWord_mem (s : State) (off : Nat) : (s.readWord off).2.mem = s.mem := by
  fun_cases State.readWord <;> simp

@[simp] theorem State.answer_mem (s : State) (bs : List Nat) : (s.answer bs).mem = s.mem := rfl

@[simp] theorem State.hostRead_mem (s : State) (off : Nat) : (s.hostRead off).mem = s.mem := by simp [State.hostRead]

@[simp] theorem State.narrowBytes_mem (s : State) (bar4 : Bool) (l : List Nat) : (s.narrowBytes bar4 l).2.mem = s.mem := by
  induction l generalizing s with
  | nil => rfl
  | cons a as ih =>
    refine (ih _).trans ?_
    split <;> simp

@[simp] theorem State.narrow_mem (s : State) (bar4 write : Bool) (off n : Nat) : (s.narrow bar4 write off n).mem = s.mem := by
  simp [State.narrow, apply_ite]

@[simp] theorem execRegisterWrite_memWf {s : State} (h : s.memWf) (t off v : Nat) : (execRegisterWrite t off v s).memWf := by
  simp +contextual [execRegisterWrite, h]

@[simp] theorem execStagedFieldWrite_memWf {s : State} (h : s.memWf) (t off v : Nat) : (execStagedFieldWrite t off v s).memWf := by
  simp +contextual [execStagedFieldWrite, h]

@[simp] theorem execRegisterLowWordWrite_memWf {s : State} (h : s.memWf) (t off v : Nat) : (execRegisterLowWordWrite t off v s).memWf := by
  simp +contextual [execRegisterLowWordWrite, h]

@[simp] theorem execRegisterHighWordWrite_memWf {s : State} (h : s.memWf) (t off v : Nat) : (execRegisterHighWordWrite t off v s).memWf := by
  simp +contextual [execRegisterHighWordWrite, h]

@[simp] theorem execRegisterLowWordRead_memWf {s : State} (h : s.memWf) (t off : Nat) : (execRegisterLowWordRead t off s).memWf := by
  simp [execRegisterLowWordRead, h]

@[simp] theorem execReadClear_memWf {s : State} (h : s.memWf) (t off : Nat) : (execReadClear t off s).memWf := by simp [execReadClear, h]

@[simp] theorem execUnmappedAccess_memWf {s : State} (h : s.memWf) (t off : Nat) (write : Bool) (v : Nat) :
    (execUnmappedAccess t off write v s).memWf := by
  simp +contextual [execUnmappedAccess, h]

@[simp] theorem execNarrowAccess_memWf {s : State} (h : s.memWf) (t : Nat) (bar4 write : Bool) (off n : Nat) :
    (execNarrowAccess t bar4 write off n s).memWf := by
  simp [execNarrowAccess, h]

/-! ### Every command and every step -/

/-- Each command keeps memory canonical, by its own lemma. -/
theorem exec_memWf {s : State} (h : s.memWf) (i : Instr) : Out.memWf (exec i s) := by
  cases i <;> simp only [exec] <;> simp [h]

theorem step_memWf {s : State} (h : s.memWf) : Out.memWf (step s) := by
  cases hp : s.pending with
  | nil => simpa [step, hp] using h
  | cons c cs =>
    have hq : ({ s with pending := cs } : State).memWf := h
    simpa [step, hp] using exec_memWf hq c

/-- Settles O3: every function of the state either leaves memory as it is or writes it by `memWrite`, which keeps the canonical form. -/
theorem memoryStaysCanonical : Obligations.MemoryStaysCanonical := by
  intro s u h hu
  exact step_memWf h u hu

end Sys2Proof.Machine
end

section
/-!
SUPPORT. What a write changes of device memory and of its poison (R400, R403). With it the obligation on bytes that read back is settled.
-/

namespace Sys2Proof.Machine

/-! ### The bytes (R400) -/

/-- A byte after a write of bytes: what was written where usable memory holds it, else what it was. -/
theorem State.write_byte (s : State) (a : Nat) (bs : List Nat) (x : Nat) :
    (s.write a bs).byte x = if a ≤ x ∧ x < a + bs.length ∧ x < memTop then bs.getD (x - a) 0 % 256 else s.byte x := by
  unfold State.byte
  rw [State.write_mem, sparseGet_memWrite]
  split
  · rw [BitVec.toNat_ofNat]
  · rfl

/-! ### The poison (R401, R403) -/

theorem State.mergeWord_lost (s : State) (n : Nat) : (s.mergeWord n).mc.lost = s.mc.lost := by
  unfold State.mergeWord
  dsimp only
  split <;> split <;> rfl

theorem State.mergeWord_blockPoison (s : State) (b n : Nat) : (s.mergeWord b).blockPoison n = s.blockPoison n := by
  unfold State.blockPoison
  rw [State.mergeWord_lost, State.mergeWord_poison]

theorem State.mergeWords_blockPoison (s : State) (b k n : Nat) : (s.mergeWords b k).blockPoison n = s.blockPoison n := by
  induction k generalizing s b with
  | zero => rfl
  | succ k ih => exact (ih (s.mergeWord b) (b + 1)).trans (s.mergeWord_blockPoison b n)

theorem State.setPoison_blockPoison (s : State) (b n : Nat) (p : Bool) :
    (s.setPoison b p).blockPoison n = if n = b then p else s.blockPoison n := by
  unfold State.setPoison
  rw [State.mergeWord_blockPoison]
  exact sparseGet_set (lostBlock s.mc.lost) s.poison b n p

/-- Of `k` blocks from `b` on, cleaned, the poison is gone; that of the others stays. -/
theorem State.cleanBlocks_blockPoison (s : State) (b k n : Nat) :
    (s.cleanBlocks b k).blockPoison n = if b ≤ n ∧ n < b + k then false else s.blockPoison n := by
  induction k generalizing s b with
  | zero => rw [if_neg (by omega)]; rfl
  | succ k ih =>
    rw [State.cleanBlocks, ih, State.setPoison_blockPoison]
    by_cases hrest : b + 1 ≤ n ∧ n < b + 1 + k
    · rw [if_pos hrest, if_pos (by omega)]
    · rw [if_neg hrest]
      exact if_ctx_congr (by omega) (fun _ => rfl) (fun _ => rfl)

/-- The poison of a block after a write: gone where the write covers all its 64 bytes. -/
theorem State.write_blockPoison (s : State) (a : Nat) (bs : List Nat) (n : Nat) :
    (s.write a bs).blockPoison n = if a ≤ 64 * n ∧ 64 * n + 64 ≤ a + bs.length then false else s.blockPoison n := by
  unfold State.write
  dsimp only
  rw [State.mergeWords_blockPoison]
  split
  · rw [State.cleanBlocks_blockPoison]
    exact if_congr (by omega) rfl rfl
  · rw [if_neg (by omega)]
    rfl

/-- A write of part of one block of usable memory names that block, where it is poisoned. -/
theorem State.partPoison_within {s : State} {a len n : Nat} (hfrom : 64 * n ≤ a) (hpos : 0 < len) (hpart : len < 64)
    (hto : a + len ≤ 64 * n + 64) (htop : 64 * n < memTop) : s.partPoison a len = if s.blockPoison n then [n] else [] := by
  have hfirst : a / 64 = n := by omega
  have hlast : (a + len - 1) / 64 = n := by omega
  have hwhole : 64 * (memTop / 64) = memTop := rfl
  have htop' : n < memTop / 64 := by omega
  have hsome : n * 64 < a ∨ a + len < n * 64 + 64 := by omega
  unfold State.partPoison
  rw [if_neg (by omega), hfirst, hlast, show [n, n].eraseDups = [n] by simp [List.eraseDups_cons]]
  cases hp : s.blockPoison n <;> simp [hp, htop', hsome]

/-- The poison marker, and another block's number, read as an error that cannot be corrected (R401). -/
theorem eccDecode_bad (d : List Nat) {c m n : Nat} (h : m ≠ n ∨ 2048 ≤ c) : eccDecode d c m n = .bad := by
  have hc : m ≠ n ∨ c / 2048 ≠ 0 := by omega
  unfold eccDecode
  exact if_pos hc

/-- Settles O34, by what a byte and the poison of a block are after a write, and the laws of the check code. -/
theorem memoryBytesReadBack : Obligations.MemoryBytesReadBack := by
  intro s a bs
  refine ⟨?inside, ?outside, ?whole, ?others, State.write_regs s a bs, State.write_pending s a bs, ?part, eccDecode_written, ?flipped, ?bad⟩
  case inside =>
    intro i b hb htop hbyte
    have hlt : i < bs.length := (List.getElem?_eq_some_iff.1 hb).1
    rw [State.write_byte, if_pos (by omega), Nat.add_sub_cancel_left, List.getD_eq_getElem?_getD, hb]
    exact Nat.mod_eq_of_lt hbyte
  case outside =>
    intro x hx
    rw [State.write_byte, if_neg (by omega)]
  case whole =>
    intro n hfrom hto
    rw [State.write_blockPoison, if_pos ⟨hfrom, hto⟩]
  case others =>
    intro n hn
    rw [State.write_blockPoison, if_neg (by omega)]
  case part =>
    intro n hfrom hpos hpart hto htop
    exact State.partPoison_within hfrom hpos hpart hto htop
  case flipped => exact fun d n i hlen hi => eccDecode_flipped d n i hlen hi
  case bad => exact fun d c m n h => eccDecode_bad d h

end Sys2Proof.Machine
end

section
/-!
SUPPORT. The latch of the full time (R444). With it the obligation on the latched time is settled.
-/

namespace Sys2Proof.Machine

/-- The row of the latch register TIM_TIME_SEC_LO. -/
def timeSecLoRow : RegRow := ⟨Reg.TIM_TIME_SEC_LO, 0, 1, 0, 1, false, false, [⟨31, 0, .ro, 0, false, []⟩]⟩

/-- The row of the latch register TIM_TIME_SEC_HI. -/
def timeSecHiRow : RegRow :=
  ⟨Reg.TIM_TIME_SEC_HI, 0, 1, 0, 1, false, false, [⟨23, 16, .ro, 0, false, []⟩, ⟨15, 0, .ro, 0, false, []⟩]⟩

theorem rowAt_timeSecLo : rowAt Reg.TIM_TIME_SEC_LO = some (timeSecLoRow, 0, 0, 0) := by decide +kernel

theorem rowAt_timeSecHi : rowAt Reg.TIM_TIME_SEC_HI = some (timeSecHiRow, 0, 0, 0) := by decide +kernel

theorem clearBits_zero (v : Nat) : clearBits v 0 = v := by
  unfold clearBits
  rw [show Nat.land v 0 = 0 from Nat.and_zero v]
  exact Nat.xor_zero v

/-- The registers that a read computes, and those of which bits hide while their unit is left off. -/
def notPlain : List Nat :=
  [Reg.LBL_TEMP, Reg.TIM_SHORT, Reg.TIM_TIME_NS, Reg.ROK_LUT, Reg.SVE_TBL_DATA, Reg.LBL_WAVE_DATA, Reg.KLN_CTRL, Reg.ROK_CTRL,
    Reg.SVE_CTRL, Reg.TIM_PORT_CTRL + 32, Reg.TIM_PORT_CTRL + 48, Reg.AUD_CTRL]

/-- A register reads as it is held, with none of its bits hidden. -/
abbrev plainRead (off : Nat) : Prop := (∀ o ∈ notPlain, off ≠ o) ∧ ¬ (Reg.CHK_CTRL ≤ off ∧ off < Reg.CHK_CTRL + 1024)

/-- Such a register reads the readable fields of its word. -/
theorem State.peek_plain (s : State) {off i j : Nat} {r : RegRow} (hplain : plainRead off) (hr : r.off = off)
    (hrow : rowAt off = some (r, i, j, 0)) : s.peek off = readable r 0 (s.rd off) := by
  obtain ⟨hne, hchk⟩ := hplain
  simp only [notPlain, List.forall_mem_cons] at hne
  obtain ⟨h1, h2, h3, h4, h5, h6, h7, h8, h9, h10, h11, h12, _⟩ := hne
  have hmask : s.offMask off = 0 := by
    unfold State.offMask
    rw [if_neg (by tauto), if_neg (by tauto), if_neg (by tauto), if_neg (by tauto), if_neg (by tauto), if_neg (by tauto)]
  unfold State.peek
  rw [hrow]
  dsimp only
  rw [hr, if_neg h1, if_neg h2, if_neg h3, if_neg (by tauto), if_neg h5, if_neg h6, hmask, clearBits_zero]

theorem plainRead_timeSec : plainRead Reg.TIM_TIME_SEC_LO ∧ plainRead Reg.TIM_TIME_SEC_HI := by decide +kernel

/-- TIM_TIME_SEC_LO reads its one field. -/
theorem State.peek_timeSecLo (s : State) : s.peek Reg.TIM_TIME_SEC_LO = s.get F.TIM_TIME_SEC_LO_SEC := by
  have hread (v : Nat) : readable timeSecLoRow 0 v = bitsOf v 31 0 := by
    simp [readable, timeSecLoRow, withBits, bitsOf]
  rw [s.peek_plain plainRead_timeSec.1 rfl rowAt_timeSecLo, hread]
  rfl

/-- TIM_TIME_SEC_HI reads its fields SEC and FRAC in their places. -/
theorem State.peek_timeSecHi (s : State) : bitsOf (s.peek Reg.TIM_TIME_SEC_HI) 15 0 = s.get F.TIM_TIME_SEC_HI_SEC ∧
    bitsOf (s.peek Reg.TIM_TIME_SEC_HI) 23 16 = s.get F.TIM_TIME_SEC_HI_FRAC := by
  rw [s.peek_plain plainRead_timeSec.2 rfl rowAt_timeSecHi]
  have hsec : s.get F.TIM_TIME_SEC_HI_SEC = bitsOf (s.rd Reg.TIM_TIME_SEC_HI) 15 0 := rfl
  have hfrac : s.get F.TIM_TIME_SEC_HI_FRAC = bitsOf (s.rd Reg.TIM_TIME_SEC_HI) 23 16 := rfl
  have hread : readable timeSecHiRow 0 (s.rd Reg.TIM_TIME_SEC_HI) =
      withBits (withBits 0 23 16 (s.get F.TIM_TIME_SEC_HI_FRAC)) 15 0 (s.get F.TIM_TIME_SEC_HI_SEC) := rfl
  rw [hread]
  constructor
  · rw [bitsOf_withBits_same _ _ _ _ (by decide), hsec]
    exact Nat.mod_eq_of_lt (bitsOf_lt _ 15 0)
  · rw [bitsOf_withBits_above _ _ _ _ _ _ (by decide) (by decide), bitsOf_withBits_same _ _ _ _ (by decide), hfrac]
    exact Nat.mod_eq_of_lt (bitsOf_lt _ 23 16)

/-- What a read of TIM_TIME_NS leaves in the three registers of the full time. -/
theorem State.timeRead_latch (s : State) :
    s.timeRead.get F.TIM_TIME_SEC_LO_SEC = fullSec (s.full s.now) % 2 ^ 32 ∧
    s.timeRead.get F.TIM_TIME_SEC_HI_SEC = fullSec (s.full s.now) / 2 ^ 32 % 2 ^ 16 ∧
    s.timeRead.get F.TIM_TIME_SEC_HI_FRAC = s.full s.now % tickNs := by
  have hreg (f : Fld) : s.timeRead.get f = ((((s.put F.TIM_TIME_NS_NS (fullNs (s.full s.now))).put F.TIM_TIME_SEC_LO_SEC
      (fullSec (s.full s.now) % 2 ^ 32)).put F.TIM_TIME_SEC_HI_SEC (fullSec (s.full s.now) / 2 ^ 32)).put F.TIM_TIME_SEC_HI_FRAC
      (s.full s.now % tickNs)).get f := rfl
  refine ⟨?_, ?_, ?_⟩
  · rw [hreg, State.get_put_apart _ _ _ _ (by decide), State.get_put_apart _ _ _ _ (by decide),
      State.get_put_same _ _ _ (by decide) (by decide)]
    exact Nat.mod_mod _ _
  · rw [hreg, State.get_put_apart _ _ _ _ (by decide), State.get_put_same _ _ _ (by decide) (by decide)]
    rfl
  · rw [hreg, State.get_put_same _ _ _ (by decide) (by decide)]
    exact Nat.mod_mod _ _

/-- Settles O40: the latch registers read their fields, which a read of TIM_TIME_NS wrote and the passing of time does not write. -/
theorem fullTimeIsLatched : Obligations.FullTimeIsLatched := by
  intro s t f hd3 hon hf
  obtain ⟨hlo, hhi, hfrac⟩ := (s.tick t).timeRead_latch
  refine ⟨(s.tick t).timeRead, congrArg Host.Outcome.next (s.whenHost_eq t State.timeRead hon hd3), by rw [hf]; rfl, rfl, fun t2 => ?_⟩
  obtain ⟨hpeekSec, hpeekFrac⟩ := ((s.tick t).timeRead.tick t2).peek_timeSecHi
  rw [hpeekSec, hpeekFrac, State.peek_timeSecLo, hf]
  exact ⟨hlo, hhi, hfrac⟩

end Sys2Proof.Machine
end

section
/-!
SUPPORT. A register that does not answer while the field die is off (R16). With it the obligation on reads that clear is refuted: the frame
report registers, SYS_FR_DROPPED among them, lie in the field die.
-/

namespace Sys2Proof.Machine

/-- A register of a die without power reads all ones, and nothing changes (R16). -/
theorem State.hostRead_unreachable {s : State} {off : Nat} (h : s.unreachable off = true) :
    s.hostRead off = s.answer [255, 255, 255, 255] := by
  simp [State.hostRead, State.readWord, h, leBytes]

theorem rowAt_frDropped_clears : ((rowAt Reg.SYS_FR_DROPPED).any fun q => clearedBits q.1 != 0) = true := by decide +kernel

theorem reset_frDropped : State.reset.unreachable Reg.SYS_FR_DROPPED = true ∧ State.reset.rd Reg.SYS_FR_DROPPED = 0 := by decide +kernel

/-- Refutes O7: right after reset the field die is off, and a read of SYS_FR_DROPPED answers all ones instead of the count 0. -/
theorem not_readsThatClearAndNarrowAccesses : ¬ Obligations.ReadsThatClearAndNarrowAccesses := by
  rintro ⟨hdropped, -⟩
  obtain ⟨hreach, hzero⟩ := reset_frDropped
  have hclaim := hdropped State.reset 0 Reg.SYS_FR_DROPPED rfl (.inr rfl)
  have hmodel : exec (.readClear 0 Reg.SYS_FR_DROPPED) State.reset = .next ((State.reset.tick 0).answer [255, 255, 255, 255]) := by
    simp only [exec, execReadClear, State.reset.whenBar_eq 0 _ rfl]
    rw [if_pos rowAt_frDropped_clears, State.hostRead_unreachable (s := State.reset.tick 0) hreach]
  rw [hmodel, hzero] at hclaim
  injection hclaim with hstate
  exact absurd (congrArg (fun u => u.hst.readData) hstate) (by decide)

end Sys2Proof.Machine
end

section
/-!
SUPPORT. Temperature levels, samples and the throttle's duty (R492 to R498). With it the obligation on temperature is settled.
-/

namespace Sys2Proof.Machine

/-! ### Levels (R494) -/

theorem levelNext_first (on : Bool) (now : Nat) (limit r : Int) :
    levelNext on none now limit r = if on then !decide (r < limit - degC 2) else decide (limit ≤ r) := rfl

theorem levelNext_below (c : Option Nat) {now : Nat} {limit r : Int} (h : r < limit) : levelNext false c now limit r = false := by
  have hdec : decide (limit ≤ r) = false := by simpa using h
  unfold levelNext
  simp [hdec]

theorem levelNext_held (on : Bool) {c now : Nat} (limit r : Int) (h : now < c + 10 * tickMs) : levelNext on (some c) now limit r = on := by
  simp [levelNext, h]

theorem levelNext_free (on : Bool) {c now : Nat} (limit r : Int) (h : c + 10 * tickMs ≤ now) :
    levelNext on (some c) now limit r = levelNext on none now limit r := by
  have hlt : ¬ now < c + 10 * tickMs := by omega
  simp [levelNext, hlt]

/-! ### A sample that asserts no level (R492, R495) -/

theorem State.setLevel_same {s : State} {i : Nat} {f : Fld} {v : Bool} (h : s.flag f = v) : s.setLevel i f v = s := if_pos h

theorem State.setLevel_flag_apart (s : State) (i : Nat) {f g : Fld} (v : Bool) (h : f.apart g = true) :
    (s.setLevel i f v).flag g = s.flag g := by
  unfold State.setLevel
  split
  · rfl
  · exact s.flag_put_apart f g (b2n v) h

theorem State.setLevel_flag_true {s : State} (i : Nat) {f : Fld} (hhi : f.hi < 32) (hlo : f.lo ≤ f.hi) : (s.setLevel i f true).flag f = true := by
  unfold State.setLevel
  split
  · assumption
  · have hput : (s.put f 1).get f = 1 % 2 ^ (f.hi - f.lo + 1) := s.get_put_same f 1 hhi hlo
    have hone : 1 % 2 ^ (f.hi - f.lo + 1) = 1 := Nat.mod_eq_of_lt (Nat.one_lt_two_pow (by omega))
    exact beq_iff_eq.2 (hput.trans hone)

theorem State.throttleEdge_same {s : State} {was : Bool} (h : s.throttled = was) (src : Nat) (r : Int) : s.throttleEdge was src r = s := if_pos h

/-- The keeper's and the stacks' readings of a sample, shown. -/
def State.showStacks (s : State) (keeper : Int) (stk : List Int) : State :=
  (stk.take 6).zipIdx.foldl (fun z q => z.putS (F.THM_STACK_TEMP.nth q.2) q.1) (s.putS F.THM_KEEPER_TEMP keeper).bandTrack

/-- The hottest stack of a sample, by its sensor. -/
def stackOf (stk : List Int) : Option (Nat × Int) := hottest ((stk.take 6).zipIdx.map (fun q => (0x48 + q.2, q.1)))

theorem State.sensorSample_off {s : State} (hon : s.fieldOn = false) {ts : List (Int × Bool)} {keeper : Int} {stk : List Int} {q : Nat × Int}
    (hstack : stackOf stk = some q) (hcool : q.2 < degC 95) : s.sensorSample ts keeper stk =
      match orderlyHit none (some q) keeper with
      | some h => if (s.showStacks keeper stk).flag F.THM_STATUS_ORDERLY = false ∧
            ((s.showStacks keeper stk).thm.changed.getD 3 none).all (fun c => decide (c + 10 * tickMs ≤ (s.showStacks keeper stk).now)) then
          (s.showStacks keeper stk).orderlyTrip h.1 h.2
        else s.showStacks keeper stk
      | none => s.showStacks keeper stk := by
  have hhit : decide (degC 95 ≤ q.2) = false := by simpa using hcool
  unfold State.sensorSample
  rw [hon]
  simp only [Bool.false_eq_true, if_false, Option.isSome_none]
  rw [show hottest _ = some q from hstack]
  simp only [State.setLevel_same rfl, Option.map_some, Option.map_none, Option.getD_none, Option.getD_some, hhit, Bool.or_false, Bool.false_and, State.throttleEdge_same rfl]
  rfl

/-- The field die's hottest reading of a sample, shown with its peak. -/
def State.showDie (s : State) (d : Nat × Int) : State := (s.putS F.THM_STATUS_TEMP d.2).countMax Reg.THM_SNAP_PEAK (d.2 + 65536).toNat

/-- The 32 sensors of the field die as a sample gives them. -/
def sensors32 (ts : List (Int × Bool)) : List (Int × Bool) := (ts ++ List.replicate 32 (0, false)).take 32

/-- The state that a sample with the field die on shows, before any level changes. -/
def State.shownSample (s : State) (ts : List (Int × Bool)) (keeper : Int) (stk : List Int) (d : Nat × Int) : State :=
  (((sensors32 ts).zipIdx.foldl (fun z q => z.sensor q.2 q.1) s).showStacks keeper stk).showDie d

/-- WARN after a reading of the field die. -/
def State.warnLevel (z : State) (d : Nat × Int) : State :=
  let w := z.get F.THM_CTRL_WARN_C
  let wn := if w = 0 then false else levelNext (z.flag F.THM_STATUS_WARN) (z.thm.changed.getD 0 none) z.now (degC w) d.2
  (if wn = true ∧ z.flag F.THM_STATUS_WARN = false then (z.event 0x1410 0 d.1 (argS d.2)).raise 9 else z).setLevel 0 F.THM_STATUS_WARN wn

/-- Whether a limit is reached is noted for the duty period that the sample falls in. -/
def State.noteHit (s : State) (hit : Bool) : State :=
  let inside := decide (s.now < s.thm.periodAt + 10 * tickMs)
  { s with thm := { s.thm with reached := s.thm.reached || (hit && inside), reachedNext := s.thm.reachedNext || (hit && !inside) } }

/-- The throttle levels of a sample that shows `z`, with `d` and `q` the hottest die and stack readings. -/
def State.throttleLevels (z : State) (d q : Nat × Int) : State :=
  let s4 := (z.warnLevel d).setLevel 1 F.THM_STATUS_THROTTLE
    (levelNext (z.flag F.THM_STATUS_THROTTLE) (z.thm.changed.getD 1 none) z.now (degC 98) d.2)
  s4.setLevel 2 F.THM_STATUS_STACK_THROTTLE
    (levelNext (s4.flag F.THM_STATUS_STACK_THROTTLE) (z.thm.changed.getD 2 none) s4.now (degC 95) q.2)

/-- What a sample does once `z` shows its readings, with the field die on and no orderly limit reached. -/
def State.sampleLevels (z : State) (d q : Nat × Int) : State :=
  let hitDie := decide (degC 98 ≤ d.2)
  let hitStack := decide (degC 95 ≤ q.2)
  let src := if hitStack ∧ !hitDie then some q else some d
  let s7 := ((z.throttleLevels d q).noteHit (hitDie || hitStack)).throttleEdge z.throttled ((src.map (·.1)).getD 0) ((src.map (·.2)).getD 0)
  (s7.put F.THM_STATUS_FAST (b2n s7.fastNow)).lanesAtTemp

/-- Where THROTTLE asserts, the new period's notes replace what the sample noted. -/
theorem State.noteHit_throttleEdge {s : State} (hon : s.throttled = true) (hit : Bool) (src : Nat) (r : Int) :
    (s.noteHit hit).throttleEdge false src r = s.throttleEdge false src r := by
  have hnoted : (s.noteHit hit).throttled = true := hon
  unfold State.throttleEdge
  simp only [hon, hnoted, Bool.true_eq_false, if_false, if_true]
  rfl

theorem orderlyHit_none {d q : Nat × Int} {keeper : Int} (hd : d.2 < degC 112) (hq : q.2 < degC 95) (hkeeper : keeper < degC 110) :
    orderlyHit (some d) (some q) keeper = none := by
  have h1 : ¬ degC 112 ≤ d.2 := by omega
  have h2 : ¬ degC 105 ≤ q.2 := by simp only [degC] at *; omega
  have h3 : ¬ degC 110 ≤ keeper := by omega
  simp only [orderlyHit, Option.bind_some, h1, h2, h3, if_false]

theorem State.sensorSample_on {s : State} {ts : List (Int × Bool)} {keeper : Int} {stk : List Int} {q d : Nat × Int} (hon : s.fieldOn = true)
    (hstack : stackOf stk = some q) (hdie : dieOf (sensors32 ts) = some d) (horderly : orderlyHit (some d) (some q) keeper = none) :
    s.sensorSample ts keeper stk = (s.shownSample ts keeper stk d).sampleLevels d q := by
  have hq : hottest ((stk.take 6).zipIdx.map (fun q => (0x48 + q.2, q.1))) = some q := hstack
  have hd : dieOf ((ts ++ List.replicate 32 (0, false)).take 32) = some d := hdie
  unfold State.sensorSample
  simp only [hon, if_true, hq, hd, horderly]
  rfl

section
variable {z : State} {d q : Nat × Int} (hwarn : z.flag F.THM_STATUS_WARN = false) (hthrottle : z.flag F.THM_STATUS_THROTTLE = false)
  (hstk : z.flag F.THM_STATUS_STACK_THROTTLE = false) (hwarm : d.2 < degC (z.get F.THM_CTRL_WARN_C)) (hcool : q.2 < degC 95)

theorem State.throttled_of_flags {z : State} (hthrottle : z.flag F.THM_STATUS_THROTTLE = false)
    (hstk : z.flag F.THM_STATUS_STACK_THROTTLE = false) : z.throttled = false := by
  simp [State.throttled, hthrottle, hstk]

include hwarn hwarm in
theorem State.warnLevel_below : z.warnLevel d = z := by
  have hlevel : levelNext false (z.thm.changed.getD 0 none) z.now (degC (z.get F.THM_CTRL_WARN_C)) d.2 = false := levelNext_below _ hwarm
  unfold State.warnLevel
  simp only [hwarn, hlevel, ite_self, Bool.false_eq_true, false_and, if_false]
  exact State.setLevel_same hwarn

include hwarn hthrottle hstk hwarm hcool

/-- With every reading below its limit no level changes. -/
theorem State.sampleLevels_cool (hd : d.2 < degC 98) : z.sampleLevels d q = (z.put F.THM_STATUS_FAST (b2n z.fastNow)).lanesAtTemp := by
  have hlevels : z.throttleLevels d q = z := by
    unfold State.throttleLevels
    simp only [State.warnLevel_below hwarn hwarm, hthrottle, levelNext_below _ hd, State.setLevel_same hthrottle, hstk,
      levelNext_below _ hcool, State.setLevel_same hstk]
  have hnoted : z.noteHit false = z := by simp [State.noteHit]
  have hdie : decide (degC 98 ≤ d.2) = false := by simpa using hd
  have hstack : decide (degC 95 ≤ q.2) = false := by simpa using hcool
  unfold State.sampleLevels
  simp only [hlevels, hdie, hstack, Bool.or_false, hnoted, State.throttleEdge_same rfl]

/-- A die at its limit asserts THROTTLE, for the stacks' level does not change. -/
theorem State.sampleLevels_hot {u v : State} (hd : degC 98 ≤ d.2) (hfirst : z.thm.changed.getD 1 none = none)
    (hu : u = z.setLevel 1 F.THM_STATUS_THROTTLE true) (hv : v = u.throttleEdge false d.1 d.2) :
    z.sampleLevels d q = (v.put F.THM_STATUS_FAST (b2n v.fastNow)).lanesAtTemp := by
  have hdie : decide (degC 98 ≤ d.2) = true := by simpa using hd
  have hstack : decide (degC 95 ≤ q.2) = false := by simpa using hcool
  have hset : u.flag F.THM_STATUS_STACK_THROTTLE = false := by
    rw [hu, State.setLevel_flag_apart _ _ _ (by decide)]
    exact hstk
  have hlevels : z.throttleLevels d q = u := by
    unfold State.throttleLevels
    simp only [State.warnLevel_below hwarn hwarm, hthrottle, hfirst, levelNext_first, Bool.false_eq_true, if_false, hdie, ← hu, hset,
      levelNext_below _ hcool, State.setLevel_same hset]
  have hon : u.throttled = true := by
    rw [State.throttled, hu, State.setLevel_flag_true _ (by decide) (by decide), Bool.true_or]
  unfold State.sampleLevels
  simp only [hlevels, hdie, hstack, Bool.or_false, State.throttled_of_flags hthrottle hstk, Bool.false_eq_true, false_and, if_false,
    Option.map_some, Option.getD_some, State.noteHit_throttleEdge hon, ← hv]
end

/-! ### The duty (R498) -/

/-- A duty period that has lasted 10 ms ends, and the next begins. -/
theorem State.dutyEnd_due {s : State} (hdue : s.thm.periodAt + 10 * tickMs ≤ s.now) : s.dutyEnd =
    let y : State := { s with thm := { s.thm with periodAt := s.now, reached := s.thm.reachedNext, reachedNext := false } }
    if s.throttled then (if s.thm.reached then y.setDuty (max 8 (s.get F.THM_STATUS_DUTY - 1)) else y)
    else y.setDuty (min 16 (s.get F.THM_STATUS_DUTY + 1)) :=
  if_neg (by omega)

theorem exec_dutyPeriodEnd {s : State} (t : Nat) (hon : s.fieldOn = true) : exec (.dutyPeriodEnd t) s = .next (s.tick t).dutyEnd :=
  congrArg Host.Outcome.next (s.whenOn_eq t State.dutyEnd hon)

/-- Settles O44, by what a level becomes, a sample with the field die off and on, and the end of a duty period. -/
theorem temperatureLevelsAndThrottle : Obligations.TemperatureLevelsAndThrottle := by
  refine ⟨fun now limit r => ?first, fun on c now limit r => ⟨levelNext_held on limit r, levelNext_free on limit r⟩, ?device⟩
  case first =>
    simp only [levelNext_first, if_true, Bool.false_eq_true, if_false]
    refine ⟨fun h => by simpa using h, fun h => by simpa using h, fun h => by simpa using h, fun h => by simpa using h⟩
  case device =>
    rintro s x t rfl
    refine ⟨?off, ?on, ?period, ?early⟩
    case off =>
      rintro ts keeper stk q y hoff hy hstack hcool
      have hy' : y = (s.tick t).showStacks keeper stk := hy
      have hexec : exec (.sensorSample t ts keeper stk) s = .next ((s.tick t).sensorSample ts keeper stk) := rfl
      have hq : ¬ degC 105 ≤ q.2 := by simp only [degC] at *; omega
      rw [hexec, State.sensorSample_off (s := s.tick t) hoff hstack hcool, ← hy']
      constructor
      · intro hkeeper
        have hk : ¬ degC 110 ≤ keeper := by omega
        simp only [orderlyHit, Option.bind_none, Option.bind_some, hq, hk, if_false]
      · intro hkeeper horderly hfirst
        simp only [orderlyHit, Option.bind_none, Option.bind_some, hq, hkeeper, if_false, if_true, horderly, hfirst, Option.all_none,
          and_self]
    case on =>
      rintro ts keeper stk l q d y z hon rfl rfl hstack hcool hkeeper hdie hz hwarn hthrottle hstk hwarm
      have hz' : z = (s.tick t).shownSample ts keeper stk d := hz
      have hexec : exec (.sensorSample t ts keeper stk) s = .next ((s.tick t).sensorSample ts keeper stk) := rfl
      constructor
      · intro hd
        have hnone : orderlyHit (some d) (some q) keeper = none := orderlyHit_none (by simp only [degC] at *; omega) hcool hkeeper
        rw [hexec, State.sensorSample_on (s := s.tick t) hon hstack hdie hnone, ← hz',
          State.sampleLevels_cool hwarn hthrottle hstk hwarm hcool hd]
      · intro u v hd hmax hfirst hu hv
        rw [hexec, State.sensorSample_on (s := s.tick t) hon hstack hdie (orderlyHit_none hmax hcool hkeeper), ← hz',
          State.sampleLevels_hot hwarn hthrottle hstk hwarm hcool hd hfirst hu hv]
    case period =>
      rintro y hon hdue rfl
      rw [exec_dutyPeriodEnd t hon, State.dutyEnd_due (s := s.tick t) hdue]
      refine ⟨fun hthr hreached => ?_, fun hthr hreached => ?_, fun hthr => ?_⟩
      · have hthr' : (s.tick t).throttled = true := hthr
        have hreached' : (s.tick t).thm.reached = true := hreached
        simp only [hthr', hreached', if_true]
        rfl
      · have hthr' : (s.tick t).throttled = true := hthr
        have hreached' : (s.tick t).thm.reached = false := hreached
        simp only [hthr', hreached', if_true, Bool.false_eq_true, if_false]
        rfl
      · have hthr' : (s.tick t).throttled = false := hthr
        simp only [hthr', Bool.false_eq_true, if_false]
        rfl
    case early =>
      intro hon hearly
      have hearly' : (s.tick t).now < (s.tick t).thm.periodAt + 10 * tickMs := hearly
      rw [exec_dutyPeriodEnd t hon, State.dutyEnd, if_pos hearly']

end Sys2Proof.Machine
end

section
/-!
SUPPORT. Check units (R479 to R491). With it the obligation on check units is settled.
-/

namespace Sys2Proof.Machine

theorem exec_checkRecord {s : State} (t : Nat) {n : Nat} (b : List Nat) (busy : Bool) (hon : s.fieldOn = true) (hn : n < 16) :
    exec (.checkRecord t n b busy) s = .next ((s.tick t).checkRecord n b busy) := by
  simp only [exec, execCheckRecord, s.whenOn_eq t _ hon, Nat.mod_eq_of_lt hn]

/-! ### The record handed to a unit (R479 to R488) -/

section
variable {s : State} {n : Nat} {b : List Nat}

theorem State.checkRecord_ignored (busy : Bool)
    (h : (s.chkSt n ≠ 1 ∧ s.chkSt n ≠ 2) ∨ tapRecord (s.live (F.CHK_TAP_KIND.nth n)) b = false) : s.checkRecord n b busy = s :=
  if_pos h

variable (hst : s.chkSt n = 1 ∨ s.chkSt n = 2) (htap : tapRecord (s.live (F.CHK_TAP_KIND.nth n)) b = true)
include hst htap

/-- A unit that checks takes the record. -/
theorem State.checkRecord_taken : ¬ ((s.chkSt n ≠ 1 ∧ s.chkSt n ≠ 2) ∨ tapRecord (s.live (F.CHK_TAP_KIND.nth n)) b = false) := by
  rw [htap]
  simp only [Bool.true_eq_false, or_false]
  omega

theorem State.checkRecord_overrun : s.checkRecord n b true = (s.chkCount Reg.CHK_SNAP_OVERRUN n).chkEvent 0x1323 n 0 := by
  unfold State.checkRecord
  rw [if_neg (State.checkRecord_taken hst htap), if_pos rfl]

theorem State.checkRecord_short (hshort : s.chkShort n b = true) : s.checkRecord n b false = s.chkCount Reg.CHK_SNAP_SHORT n := by
  unfold State.checkRecord
  rw [if_neg (State.checkRecord_taken hst htap), if_neg Bool.false_ne_true, if_pos hshort]

variable (hlong : s.chkShort n b = false) {y : State} (hy : y = s.chkCount Reg.CHK_SNAP_RECORDS n)
include hlong hy

/-- In running mode the record is fed to the running CRC (R484). -/
theorem State.checkRecord_running {c : CrcPar} {z : State} (hmode : s.live (F.CHK_CTRL_MODE.nth n) = 2) (hc : c = chkCrc s.cmt.inForce n)
    (hz : z = if s.live (F.CHK_CTRL_CHECK_EN.nth n) = 1 then y.onChk n (fun u => { u with run := some (crcFeed c.width c.poly c.refin
      (((s.chk.getD n {}).run).getD (c.init % 2 ^ c.width)) (s.covered n b)) }) else y) :
    s.checkRecord n b false = if s.live (F.CHK_CTRL_ALIVE_EN.nth n) = 1 then z.judge n b else z := by
  subst hz hy hc
  unfold State.checkRecord
  rw [if_neg (State.checkRecord_taken hst htap), if_neg Bool.false_ne_true, if_neg (by simp [hlong])]
  simp only [beq_iff_eq, hmode, if_true]
  rfl

/-- In frame mode with the check on the computed value is shown; a mismatch is counted and logged, a match judged (R481, R485). -/
theorem State.checkRecord_frame {c : CrcPar} {v : Nat} {q : Nat × State} {z : State} (hmode : s.live (F.CHK_CTRL_MODE.nth n) ≠ 2)
    (hcheck : s.live (F.CHK_CTRL_CHECK_EN.nth n) = 1) (hc : c = chkCrc s.cmt.inForce n)
    (hv : v = crcOf c.width c.poly c.init c.refin c.refout c.xorout (s.covered n b))
    (hq : q = if s.live (F.CHK_FIELD_CHECK_OFF.nth n) < ceilDiv c.width 8 then y.free 30 else (0, y))
    (hz : z = q.2.put (F.CHK_RESULT_VALUE.nth n) v) :
    s.checkRecord n b false = if v ≠ s.checkField n b (leBytes 8 (q.1 % 2 ^ 64)) then (z.chkCount Reg.CHK_SNAP_MISMATCH n).chkEvent 0x1320 n (v % 2 ^ 32)
      else if s.live (F.CHK_CTRL_ALIVE_EN.nth n) = 1 then z.judge n b else z := by
  subst hz hq hv hy hc
  unfold State.checkRecord
  rw [if_neg (State.checkRecord_taken hst htap), if_neg Bool.false_ne_true, if_neg (by simp [hlong])]
  simp only [beq_iff_eq, hmode, hcheck, beq_self_eq_true, true_and, if_true, if_false]
  rfl

/-- In frame mode with the check off only the alive value is judged. -/
theorem State.checkRecord_unchecked (hmode : s.live (F.CHK_CTRL_MODE.nth n) ≠ 2) (hcheck : s.live (F.CHK_CTRL_CHECK_EN.nth n) ≠ 1) :
    s.checkRecord n b false = if s.live (F.CHK_CTRL_ALIVE_EN.nth n) = 1 then y.judge n b else y := by
  have hen : (s.live (F.CHK_CTRL_CHECK_EN.nth n) == 1) = false := by simpa using hcheck
  subst hy
  unfold State.checkRecord
  rw [if_neg (State.checkRecord_taken hst htap), if_neg Bool.false_ne_true, if_neg (by simp [hlong])]
  simp only [beq_iff_eq, hmode, hen, Bool.false_eq_true, false_and, if_false]

end

/-! ### Alive values (R487, R488) -/

section
variable {s : State} {n : Nat} {b : List Nat} {a m p d : Nat} (ha : a = s.aliveOf n b) (hm : m = 2 ^ s.live (F.CHK_ALIVE_WIDTH_A.nth n))
  (hp : p = s.get (F.CHK_STATUS_ALIVE.nth n)) (hd : d = (a + m - p % m) % m)
include ha hm hp hd

/-- What the judgement of an alive value does, with `d` the advance over the value before. -/
theorem State.judge_eq : s.judge n b =
    if s.chkSt n = 1 then (s.put (F.CHK_STATUS_ALIVE.nth n) a).put (F.CHK_STATUS_STATE.nth n) 2
    else if d = s.live (F.CHK_ALIVE_INC.nth n) then s.put (F.CHK_STATUS_ALIVE.nth n) a
    else if d = 0 then (s.chkCount Reg.CHK_SNAP_REPEAT n).chkEvent 0x1321 n 0
    else ((s.put (F.CHK_STATUS_ALIVE.nth n) a).chkCount Reg.CHK_SNAP_SKIP n).chkEvent 0x1322 n
      ((d + m - s.live (F.CHK_ALIVE_INC.nth n) % m) % m) := by
  subst hd hm hp ha
  rfl

end

/-- Settles O43, by the record's path through the unit and the judgement of its alive value. -/
theorem checkUnits : Obligations.CheckUnits := by
  rintro s x t n b hon rfl hn
  have hexec (busy : Bool) := exec_checkRecord t b busy hon hn
  refine ⟨fun busy htap => ?_, fun htap => ⟨fun h1 h2 busy => ?_, fun hst => ?_, fun hst hshort => ?_, ?frame, ?unchecked, ?running⟩, ?alive⟩
  · rw [hexec, State.checkRecord_ignored (s := s.tick t) busy (.inr htap)]
  · rw [hexec, State.checkRecord_ignored (s := s.tick t) busy (.inl ⟨h1, h2⟩)]
  · rw [hexec, State.checkRecord_overrun (s := s.tick t) hst htap]
  · rw [hexec, State.checkRecord_short (s := s.tick t) hst htap hshort]
  case frame =>
    intro c v y q z hst hlong hmode hcheck hc hv hy hq hz
    rw [hexec, State.checkRecord_frame (s := s.tick t) hst htap hlong hy hmode hcheck hc hv hq hz]
    exact ⟨fun hne => congrArg _ (if_pos hne), fun heq hoff => congrArg _ ((if_neg (not_not.2 heq)).trans (if_neg hoff)),
      fun heq halive => congrArg _ ((if_neg (not_not.2 heq)).trans (if_pos halive))⟩
  case unchecked =>
    intro y hst hlong hmode hcheck hy
    rw [hexec, State.checkRecord_unchecked (s := s.tick t) hst htap hlong hy hmode hcheck]
    rfl
  case running =>
    intro c y z hst hlong hmode hc hy hz
    rw [hexec, State.checkRecord_running (s := s.tick t) hst htap hlong hy hmode hc hz]
    rfl
  case alive =>
    intro a m p d ha hm hp hd
    rw [State.judge_eq ha hm hp hd]
    refine ⟨fun h1 => if_pos h1, fun h2 hinc => ?_, fun h2 hzero hinc => ?_, fun h2 hzero hinc => ?_⟩
    · rw [if_neg (by omega), if_pos hinc]
    · rw [if_neg (by omega), if_neg hinc, if_pos hzero]
    · rw [if_neg (by omega), if_neg hinc, if_neg hzero]

end Sys2Proof.Machine
end

section
/-!
SUPPORT. AES3 input frames (R462, R464). With it the obligation on audio inputs is settled.
-/

namespace Sys2Proof.Machine

theorem exec_aesInputFrame {s : State} (t : Nat) {p : Nat} (ti : Nat) (ok z : Bool) (a b : Nat) (hon : s.fieldOn = true) (hp : p < 8) :
    exec (.aesInputFrame t p ti ok z a b) s = .next ((s.tick t).aesFrame p ti ok z a b) := by
  simp only [exec, execAesInputFrame, s.whenOn_eq t _ hon, Nat.mod_eq_of_lt hp]

theorem exec_inputFrameTimeout {s : State} (t : Nat) {p : Nat} (hon : s.fieldOn = true) (hp : p < 8) :
    exec (.inputFrameTimeout t p) s = .next ((s.tick t).aesTimeout p) := by
  simp only [exec, execInputFrameTimeout, s.whenOn_eq t _ hon, Nat.mod_eq_of_lt hp]

section
variable {s : State} {p ti a b dt k : Nat} {z : Bool}

theorem State.aesFrame_first (hst : s.aesSt p = 0) :
    s.aesFrame p ti true z a b = (s.setAes p 1).onAes p (fun q => { q with last := some ti, good := 1, cs := none }) := by
  unfold State.aesFrame
  rw [Bool.not_true, if_neg Bool.false_ne_true, if_pos hst]

theorem State.aesFrame_bad : s.aesFrame p ti false z a b =
    if s.aesSt p = 1 then s.onAes p (fun q => { q with good := 0 }) else s := rfl

variable (hst : s.aesSt p ≠ 0) (hdt : dt = ti - ((s.aes p).last.getD ti))
include hst hdt

theorem State.aesFrame_lost (hlong : 3 * tickS ≤ dt * s.fs) : s.aesFrame p ti true z a b = s.aesDown p 0x1210 := by
  subst hdt
  unfold State.aesFrame
  rw [Bool.not_true, if_neg Bool.false_ne_true, if_neg hst]
  exact if_pos hlong

variable (hk : k = max 1 (divNear (dt * s.fs) tickS)) (hshort : dt * s.fs < 3 * tickS)
include hk hshort

theorem State.aesFrame_rate (hrate : k * tickS * 1000 < dt * s.fs * 999 ∨ dt * s.fs * 1001 < k * tickS * 1000) :
    s.aesFrame p ti true z a b = s.aesDown p 0x1212 := by
  subst hk hdt
  unfold State.aesFrame
  rw [Bool.not_true, if_neg Bool.false_ne_true, if_neg hst]
  exact (if_neg (Nat.not_le.2 hshort)).trans (if_pos hrate)

/-- A frame in time and at the rate counts as good; it locks the port, or its two words go to a locked port's block. -/
theorem State.aesFrame_good {y : State} (hlow : dt * s.fs * 999 ≤ k * tickS * 1000) (hhigh : k * tickS * 1000 ≤ dt * s.fs * 1001)
    (hy : y = s.onAes p (fun q => { q with last := some ti, good := if k = 1 then q.good + 1 else 1 })) :
    s.aesFrame p ti true z a b =
      if s.aesSt p = 1 then
        if 16 ≤ (y.aes p).good then
          ((y.setAes p 2).onAes p (fun q => { q with
            fade := if q.fade.fout then { q.fade with next := true } else { part := true, next := true }
            hold := if q.fade.fout then q.hold else []
            lastI := none })).event 0x1211 p p s.aud.seq
        else y
      else
        (State.csBits (if b2n (!parityOk a) + b2n (!parityOk b) = 0 then y
          else y.count Reg.AUD_SNAP_PARITY (b2n (!parityOk a) + b2n (!parityOk b))) p z (bitAt a 26) (bitAt b 26)).place p ti
          (subWord a (s.aes p).prev.1) (subWord b (s.aes p).prev.2) := by
  have hrate : ¬ (k * tickS * 1000 < dt * s.fs * 999 ∨ dt * s.fs * 1001 < k * tickS * 1000) := by omega
  subst hy hk hdt
  unfold State.aesFrame
  rw [Bool.not_true, if_neg Bool.false_ne_true, if_neg hst]
  exact (if_neg (Nat.not_le.2 hshort)).trans (if_neg hrate)

end

theorem State.aesTimeout_due {s : State} {p l : Nat} (hlast : (s.aes p).last = some l) (hst : s.aesSt p ≠ 0)
    (hdue : l + ceilDiv (3 * tickS) s.fs ≤ s.now) : s.aesTimeout p = s.aesDown p 0x1210 := by
  unfold State.aesTimeout
  rw [hlast]
  exact if_pos ⟨hst, hdue⟩

/-- Settles O41, by the frame's path through the port's state, its distance from the frame before and its rate. -/
theorem audioInputs : Obligations.AudioInputs := by
  rintro s x t p ti a b z hon rfl hp
  have hexec (ok : Bool) := exec_aesInputFrame t ti ok z a b hon hp
  refine ⟨fun hst => ?_, fun hst => ?_, fun hst => ?_, fun dt hst hdt hlong => ?_, fun dt k hst hdt hk hshort hrate => ?_, ?good, ?timeout⟩
  · rw [hexec, State.aesFrame_first (s := s.tick t) hst]
  · rw [hexec, State.aesFrame_bad, if_pos (show (s.tick t).aesSt p = 1 from hst)]
  · have hne : ¬ (s.tick t).aesSt p = 1 := fun h => absurd (hst.symm.trans h) (by decide)
    rw [hexec, State.aesFrame_bad, if_neg hne]
  · rw [hexec, State.aesFrame_lost (s := s.tick t) hst hdt hlong]
  · rw [hexec, State.aesFrame_rate (s := s.tick t) hst hdt hk hshort hrate]
  case good =>
    intro dt k y hdt hk hshort hlow hhigh hy
    have hframe (hst : s.aesSt p ≠ 0) := State.aesFrame_good (s := s.tick t) (a := a) (b := b) (z := z) hst hdt hk hshort hlow hhigh hy
    refine ⟨fun hst hfew => ?_, fun hst hmany => ?_, fun bad hst hbad => ?_⟩
    · rw [hexec, hframe (by omega), if_pos (show (s.tick t).aesSt p = 1 from hst), if_neg (by omega)]
    · rw [hexec, hframe (by omega), if_pos (show (s.tick t).aesSt p = 1 from hst), if_pos hmany]
      rfl
    · have hne : ¬ (s.tick t).aesSt p = 1 := fun h => absurd (hst.symm.trans h) (by decide)
      rw [hexec, hframe (by omega), if_neg hne, ← hbad]
      rfl
  case timeout =>
    intro l hlast hst hdue
    rw [exec_inputFrameTimeout t hon hp, State.aesTimeout_due (s := s.tick t) hlast hst hdue]

end Sys2Proof.Machine
end

section
/-!
SUPPORT. The label strip (R386 to R395): starts of writes, phases, waveforms, and its states. With it both obligations on the label strip are
settled.
-/

namespace Sys2Proof.Machine

/-! ### Starts of updates and blink writes (R390 to R392) -/

section
variable {s : State} {blink : Bool} {r : LblRect} (hst : s.lblSt = 2)
include hst

theorem State.lblStart_nothing (hdiff : s.lbl.diff blink = none) : s.lblStart blink =
    s.onLbl (fun l => { l with due := if blink then l.due else false, blinkDue := if blink then false else l.blinkDue }) := by
  unfold State.lblStart
  rw [if_neg (not_not.2 hst), hdiff]

/-- What a start does where pixels differ and no record of the LBL's waits. -/
theorem State.lblStart_differs (hdiff : s.lbl.diff blink = some r) (hqueued : s.lblQueued = false) : s.lblStart blink =
    if s.lbl.retry = some 0x0031 then s.lblClean
    else if s.lbl.retry = none ∧ s.uipCovers (if blink then s.lbl.blinkRows else [r]) = true then s.lblRun r blink
    else s.uipWrite (if blink then s.lbl.blinkRows else [r]) := by
  unfold State.lblStart
  rw [if_neg (not_not.2 hst), hdiff]
  dsimp only
  rw [hqueued]
  exact if_neg Bool.false_ne_true

end

/-- What the start of a write over a rectangle leaves (R388 to R390). -/
theorem State.lblRun_eq (s : State) (r : LblRect) (blink : Bool) {w : List Nat} (hw : w = phasesOf (s.lbl.live.getD (2 * s.lblBand) [])) :
    s.lblRun r blink = ((((s.put F.LBL_STATUS_BAND s.lblBand).onLbl (fun l => { l with
      run := some ⟨r, s.lbl.wantRows, w, s.lblInvert w s.lbl.wantRows r, blink, r.c0, 0, s.now, false⟩
      dirty := true })).latchDrive).put F.LBL_STATUS_STATE 3).onLbl (fun l => { l with
        due := if blink then l.due else false
        blinkDue := false }) := by
  subst hw
  rfl

theorem State.updateStart_due {s : State} (h : s.lbl.due = true) : s.updateStart = s.lblStart false := if_pos h

theorem State.blinkStart_due {s : State} (h : s.lbl.blinkDue = true) (hupdate : s.lbl.due = false) : s.blinkStart = s.lblStart true :=
  if_pos ⟨h, hupdate⟩

/-! ### Phases and blink changes (R386, R389, R391) -/

/-- A phase that has lasted its DURATION adds to the counters of the run's segments; the next begins, or the common is written. -/
theorem State.phaseEnd_due {s y : State} {u : LblRun} {r : Nat} (hrun : s.lbl.run = some u) (hphase : u.wave[u.phase]? = some r)
    (hdue : u.at_ + phaseDur r * 10 * tickUs ≤ s.now)
    (hy : y = (upFrom u.rect.s0 u.rect.n).foldl (fun s k => s.addDc k (segDrive r (bitAt (u.rows.getD u.com 0) k) u.inv)) s) :
    s.phaseEnd = if u.phase + 1 < u.wave.length then
        (y.onLbl (fun l => { l with run := some { u with phase := u.phase + 1, at_ := u.at_ + phaseDur r * 10 * tickUs } })).latchDrive
      else y.commonDone u := by
  subst hy
  unfold State.phaseEnd
  rw [hrun]
  dsimp only
  rw [hphase]
  exact if_neg (Nat.not_lt.2 hdue)

/-- A common without a phase left is written at once. -/
theorem State.phaseEnd_last {s : State} {u : LblRun} (hrun : s.lbl.run = some u) (hphase : u.wave.length ≤ u.phase) :
    s.phaseEnd = s.commonDone u := by
  unfold State.phaseEnd
  rw [hrun]
  dsimp only
  rw [List.getElem?_eq_none hphase]

theorem State.blinkChange_changed {s : State} {g : Nat} {on : Bool} (hon : on = s.blinkOn g (s.full s.now)) (hne : s.lbl.gens.getD g true ≠ on) :
    s.blinkChange g = s.onLbl (fun l => { l with
      gens := modAt l.gens g (fun _ => on)
      blinkDue := l.masks.any (fun m => m.any (· != 0)) || l.blinkDue }) := by
  subst hon
  exact if_neg hne

/-- The last common of a CLEAR run is clear, and the next rectangle of RECOVER is cleared (R392). -/
theorem State.commonDone_clear {s z : State} {u : LblRun} {r : LblRect} {rs : List LblRect} {w : List Nat} (hclear : u.clear = true)
    (hlast : u.rect.c1 ≤ u.com) (hstop : s.lbl.stop = false) (hnext : s.lbl.clear = r :: rs)
    (hz : z = ((s.count Reg.LBL_SNAP_COMMONS 1).count Reg.LBL_SNAP_INVERTED (b2n u.inv)).onLbl (fun l => { l with
      shown := modAt l.shown u.com ((upFrom u.rect.s0 u.rect.n).foldl (fun a k => setBit a k (bitAt (u.rows.getD u.com 0) k)))
      wroteAt := s.now
      clear := rs }))
    (hw : w = phasesOf (s.lbl.live.getD (2 * z.lblBand + 1) [])) :
    s.commonDone u = ((z.put F.LBL_STATUS_BAND z.lblBand).onLbl (fun l => { l with
      run := some ⟨r, List.replicate 8 0, w, z.lblInvert w (List.replicate 8 0) r, false, r.c0, 0, s.now, true⟩
      dirty := true })).latchDrive := by
  have hstop' : ((s.count Reg.LBL_SNAP_COMMONS 1).count Reg.LBL_SNAP_INVERTED (b2n u.inv)).lbl.stop = false := hstop
  have hnext' : ((s.count Reg.LBL_SNAP_COMMONS 1).count Reg.LBL_SNAP_INVERTED (b2n u.inv)).lbl.clear = r :: rs := hnext
  subst hw hz
  unfold State.commonDone
  simp only [State.onLbl, hstop', hclear, Nat.not_lt.2 hlast, Bool.false_eq_true, if_false, if_true, State.clearNext, hnext']
  rfl

/-- Settles O32, by what a start, the end of a phase, a blink change and the clean timer do. -/
theorem labelUpdatesAndRecords : Obligations.LabelUpdatesAndRecords := by
  rintro s x t rfl
  have hupdate (hdue : s.lbl.due = true) : exec (.lblUpdateStart t) s = .next ((s.tick t).lblStart false) :=
    congrArg Host.Outcome.next (State.updateStart_due (s := s.tick t) hdue)
  refine ⟨fun hdue hst hdiff => ?_, fun r w hdue hst hdiff hqueued hretry hcovers hw => ?_, fun r hdue hst hdiff hqueued hretry hcovers => ?_,
    fun r hdue hst hdiff hqueued hretry => ?_, fun r w hblink hdue hst hdiff hqueued hretry hcovers hw => ?_, ?phase, ?change, ?clean⟩
  · rw [hupdate hdue, State.lblStart_nothing (s := s.tick t) hst hdiff]
    rfl
  · have hretry' : (s.tick t).lbl.retry = none := hretry
    rw [hupdate hdue, State.lblStart_differs (s := s.tick t) hst hdiff hqueued, hretry', if_neg (by simp), if_pos ⟨rfl, hcovers⟩]
    exact congrArg Host.Outcome.next ((s.tick t).lblRun_eq r false hw)
  · have hretry' : ¬ (s.tick t).lbl.retry = some 0x0031 := hretry
    rw [hupdate hdue, State.lblStart_differs (s := s.tick t) hst hdiff hqueued, if_neg hretry',
      if_neg (fun h => by simp [hcovers h.1] at h)]
    rfl
  · have hretry' : (s.tick t).lbl.retry = some 0x0031 := hretry
    rw [hupdate hdue, State.lblStart_differs (s := s.tick t) hst hdiff hqueued, if_pos hretry']
  · have hretry' : (s.tick t).lbl.retry = none := hretry
    have hexec : exec (.lblBlinkWriteStart t) s = .next ((s.tick t).lblStart true) :=
      congrArg Host.Outcome.next (State.blinkStart_due (s := s.tick t) hblink hdue)
    rw [hexec, State.lblStart_differs (s := s.tick t) hst hdiff hqueued, hretry', if_neg (by simp), if_pos ⟨rfl, hcovers⟩]
    exact congrArg Host.Outcome.next ((s.tick t).lblRun_eq r true hw)
  case phase =>
    intro u r y hrun hphase hdue hy
    have hend := State.phaseEnd_due (s := s.tick t) hrun hphase hdue hy
    exact ⟨fun hmore => congrArg Host.Outcome.next (hend.trans (if_pos hmore)),
      fun hlast => congrArg Host.Outcome.next (hend.trans (if_neg (Nat.not_lt.2 hlast)))⟩
  case change =>
    intro g on hg hon hne
    have hexec : exec (.lblBlinkChange t g) s = .next ((s.tick t).blinkChange g) := by
      simp only [exec, execLblBlinkChange, Nat.mod_eq_of_lt hg]
    rw [hexec, State.blinkChange_changed (s := s.tick t) hon hne]
    rfl
  case clean =>
    intro hst hdirty hdue
    exact congrArg Host.Outcome.next (if_pos ⟨hst, hdirty, hdue⟩)

/-! ### Waveforms, ENABLE and RECOVER (R387, R392, R393, R395) -/

theorem State.waveInstall_asked {s y : State} {i : Nat} {w : List Nat} (hasked : s.lbl.request = some i) (hrun : s.lbl.run = none)
    (hw : w = s.lbl.shadow.getD i []) (hy : y = (s.put F.LBL_WAVE_APPLY_APPLY 0).onLbl (fun l => { l with request := none })) :
    s.waveInstall = if waveBalanced w then
        (if waveLongEnough (s.get F.LBL_CTRL_SCK_DIV) w then y.onLbl (fun l => { l with live := modAt l.live i (fun _ => w) })
         else y.event 0x0F12 0 i 0)
      else y.event 0x0F11 0 i 0 := by
  subst hw hy
  unfold State.waveInstall
  rw [hasked, hrun]
  dsimp only
  rw [if_neg (by simp)]
  cases waveBalanced (s.lbl.shadow.getD i []) <;> cases waveLongEnough (s.get F.LBL_CTRL_SCK_DIV) (s.lbl.shadow.getD i []) <;> rfl

theorem State.recoverDone_clear {s : State} (hst : s.lblSt = 1) (hrun : s.lbl.run = none) (hclear : s.lbl.clear = []) :
    s.recoverDone = (s.lbl.landed.foldl (fun s d => s.onLbl (fun l => ((lblRecords d.length d).getD []).foldl LblState.apply l))
      (s.onLbl (fun l => { l with target := l.shown, landed := [], due := !s.lbl.landed.isEmpty, blinkDue := true }))).lblIdle := by
  unfold State.recoverDone
  rw [if_neg (by simp [hst, hrun, hclear])]

section
variable {s y : State} {en hv : Bool} (hy : y = (s.put F.LBL_CTRL_ENABLE (b2n en)).put F.LBL_CTRL_HV_EN (b2n hv))
include hy

theorem State.lblEnable_recovers (hst : s.lblSt = 0) (hboth : (en && hv) = true) : s.lblEnable en hv = y.lblRecover := by
  subst hy
  unfold State.lblEnable
  rw [hst]
  exact if_pos hboth

theorem State.lblEnable_stays (hst : s.lblSt = 0 ∨ s.lblSt = 4) (hclear : (en && hv) = false) : s.lblEnable en hv = y := by
  subst hy
  unfold State.lblEnable
  rcases hst with hst | hst <;> rw [hst]
  · exact if_neg (by simp [hclear])
  · rfl

/-- With ENABLE or HV_EN clear the LBL goes OFF, at the end of a common where one is being written. -/
theorem State.lblEnable_stops (hst : 1 ≤ s.lblSt) (hst3 : s.lblSt ≤ 3) (hclear : (en && hv) = false) :
    s.lblEnable en hv = if s.lbl.run.isSome then y.onLbl (fun l => { l with stop := true }) else y.lblOff := by
  subst hy
  unfold State.lblEnable
  split
  · omega
  · omega
  · exact if_neg (by simp [hclear])

end

/-- Settles O33, by what waveform accesses, an apply, ENABLE, the end of RECOVER and the keeper's reset do. -/
theorem labelWaveformsAndStates : Obligations.LabelWaveformsAndStates := by
  rintro s x t rfl
  have henable (en hv : Bool) (hd3 : s.hst.d3 = false) : exec (.lblEnableWrite t en hv) s = .next ((s.tick t).lblEnable en hv) :=
    congrArg Host.Outcome.next (s.whenBar_eq t _ hd3)
  have hdata (write : Bool) (v : Nat) (hd3 : s.hst.d3 = false) : exec (.lblWaveDataAccess t write v) s = .next ((s.tick t).waveData write v) :=
    congrArg Host.Outcome.next (s.whenBar_eq t _ hd3)
  refine ⟨fun hd3 => congrArg Host.Outcome.next (s.whenBar_eq t State.waveApply hd3), fun v y hd3 hy => ?_, fun v r hd3 hr => ?_, ?install,
    fun y hd3 hst hy => ?_, ?disable, ?recovered, ?cleared, ?keeper⟩
  · subst hy
    exact hdata true v hd3
  · subst hr
    exact hdata false v hd3
  case install =>
    intro i w y hasked hrun hw hy
    exact congrArg Host.Outcome.next (State.waveInstall_asked (s := s.tick t) hasked hrun hw hy)
  · have hy' : y = ((s.tick t).put F.LBL_CTRL_ENABLE (b2n true)).put F.LBL_CTRL_HV_EN (b2n true) := by simpa [b2n] using hy
    rw [henable true true hd3, State.lblEnable_recovers (s := s.tick t) hy' hst rfl]
  case disable =>
    intro en hv y hclear hd3 hy
    rw [henable en hv hd3]
    refine ⟨fun hst => ?_, fun hst hst3 hrun => ?_, fun hst hst3 hrun => ?_⟩
    · rw [State.lblEnable_stays (s := s.tick t) hy hst hclear]
    · rw [State.lblEnable_stops (s := s.tick t) hy hst hst3 hclear, show (s.tick t).lbl.run = none from hrun]
      rfl
    · have hsome : (s.tick t).lbl.run.isSome = true := Option.isSome_iff_ne_none.2 hrun
      rw [State.lblEnable_stops (s := s.tick t) hy hst hst3 hclear, if_pos hsome]
  case recovered =>
    intro hst hrun hclear
    exact congrArg Host.Outcome.next (State.recoverDone_clear (s := s.tick t) hst hrun hclear)
  case cleared =>
    intro u z w r rs hrun hphase hclear hlast hstop hnext hz hw
    exact congrArg Host.Outcome.next ((State.phaseEnd_last (s := s.tick t) hrun hphase).trans
      (State.commonDone_clear (s := s.tick t) hclear hlast hstop hnext hz hw))
  case keeper =>
    intro hst
    exact congrArg Host.Outcome.next (if_pos hst)

end Sys2Proof.Machine
end

section
/-!
SUPPORT. Ethernet ports and their frames (R427 to R436). With it their obligation is settled.
-/

namespace Sys2Proof.Machine

/-! ### Commands that name a port -/

/-- A command of the field die that runs `f` for one of four ports or servos, at a tick with the field die on. -/
theorem State.whenOn_port {s : State} (t : Nat) (f : State → Nat → State) {p : Nat} (hon : s.fieldOn = true) (hp : p < 4) :
    s.whenOn t (fun s => f s (p % 4)) = f (s.tick t) p := by
  rw [s.whenOn_eq t _ hon, Nat.mod_eq_of_lt hp]

/-! ### Ports (R427) -/

section
variable {s : State} {p : Nat}

theorem State.portLock_up (hdown : s.portUp p = false) (henable : s.flag (F.TIM_PORT_CTRL_ENABLE.nth p) = true) :
    s.portLock p = (if (s.tim.ports.getD p {}).wasDown then (s.put F.TIM_STATUS_PORT_UP (s.get F.TIM_STATUS_PORT_UP + 2 ^ p)).event 0x1111 0 p 0
      else s.put F.TIM_STATUS_PORT_UP (s.get F.TIM_STATUS_PORT_UP + 2 ^ p)).laneLock (8 + p) :=
  if_neg (by simp [hdown, henable])

variable (hup : s.portUp p = true)
include hup

/-- The frames that wait on a port that goes down are dropped, a transmit slot completed for each that has one. -/
theorem State.portLost_down {y : State}
    (hy : y = ((s.put F.TIM_STATUS_PORT_UP (s.get F.TIM_STATUS_PORT_UP - 2 ^ p)).event 0x1110 0 p 0).laneLost (8 + p)) :
    s.portLost p = (y.tim.ports.getD p {}).queue.foldl (fun s f => match f.slot with
      | some k => s.txRefuse k
      | none => s) ((y.onPort p (fun q => { q with queue := [], wasDown := true })).count Reg.TIM_SNAP_FWD_DROP
        (y.tim.ports.getD p {}).queue.length) := by
  subst hy
  exact if_neg (by simp [hup])

/-! ### Frames received (R427, R428, R433, R435) -/

theorem State.ethReceive_bad {ti : Nat} {raw : List Nat}
    (hbad : 9216 < raw.length ∨ raw.length < 18 ∨ raw.drop (raw.length - 4) ≠ fcsOf (raw.take (raw.length - 4))) :
    s.ethReceive p ti raw = s.count Reg.TIM_SNAP_BAD_FCS 1 := by
  unfold State.ethReceive
  rw [if_neg (by simp [hup]), if_pos hbad]

section
variable {ti : Nat} {raw b : List Nat} (hmax : raw.length ≤ 9216) (hmin : 18 ≤ raw.length) (hb : b = raw.take (raw.length - 4))
  (hfcs : raw.drop (raw.length - 4) = fcsOf b)
include hmax hmin hb hfcs

/-- A whole frame: a pause frame is counted, another is forwarded and delivered. -/
theorem State.ethReceive_whole : s.ethReceive p ti raw =
    if pauseFrame b then s.count Reg.TIM_SNAP_PAUSE 1
    else
      let y := if s.forwards (p / 2) b then s.egress (Nat.xor p 1) ⟨b, if eventFrame b then 1 else 2, some ti, none, none⟩ else s
      if y.consumed (p / 2) b then (if y.flag F.TIM_CTRL_COPY_PTP then y.rxDeliver p ti b else y)
      else if y.forDevice (p / 2) b || peerFrame b then y.rxDeliver p ti b
      else y := by
  subst hb
  have hgood : ¬ (9216 < raw.length ∨ raw.length < 18 ∨ raw.drop (raw.length - 4) ≠ fcsOf (raw.take (raw.length - 4))) := by
    rintro (h | h | h)
    · omega
    · omega
    · exact h hfcs
  unfold State.ethReceive
  rw [if_neg (by simp [hup]), if_neg hgood]

end

/-! ### Frames transmitted (R429, R432, R434) -/

section
variable {f : EthFrame} (hnext : nextFrame (s.tim.ports.getD p {}).queue = some f)
include hnext

/-- The frame whose turn it is leaves, with its residence where it is an event message; what follows is its slot's and its servo's. -/
theorem State.ethSend_eq {out : List Nat × Option Nat} {a b d : State} (hout : out = clockFrame f s.now)
    (ha : a = s.onPort p (fun z => { z with queue := z.queue.erase f, last := some (s.now, out.1 ++ fcsOf out.1) }))
    (hb : b = match out.2 with
      | some c => a.count c 1
      | none => a)
    (hd : d = if f.ingress.isSome then b.count Reg.TIM_SNAP_FWD 1 else b) :
    s.ethSend p =
      let e := match f.slot with
        | some k => (d.store 12 (d.timEntry 1 k + 12) (leBytes 4 (d.short d.now))).txComplete k
        | none => d
      match f.dreq with
      | some q => { e with tim := { e.tim with servos := modAt e.tim.servos q.1 (fun v => { v with sentDreq := some (q.2, s.now) }) } }
      | none => e := by
  subst hd hb ha hout
  unfold State.ethSend
  rw [hnext]
  exact if_neg (by simp [hup])

end
end

/-! ### The transmit ring (R436) -/

theorem State.txHead_within {s : State} {v n : Nat} (hn : n = s.get (F.TIM_RING_SIZE_ENTRIES.nth 1)) (hv : v < 4096) (hvn : v < n) (hn2 : 2 ≤ n) :
    s.txHead v = (slotsTo (s.get (F.TIM_RING_HEAD_HEAD.nth 1)) v n).foldl State.txTake (s.put (F.TIM_RING_HEAD_HEAD.nth 1) v) := by
  subst hn
  unfold State.txHead
  simp only [Nat.mod_eq_of_lt hv]
  exact if_neg (by omega)

theorem clockFrame_event {f : EthFrame} {ti te : Nat} {q : PtpAt} (hingress : f.ingress = some ti) (hptp : ptpAt f.bytes = some q)
    (hevent : isEvent f.bytes q = true) : clockFrame f te = (correctFrame f.bytes q (te - ti), some Reg.TIM_SNAP_TC_CORRECTED) := by
  simp [clockFrame, hingress, hptp, hevent]

theorem clockFrame_own {f : EthFrame} (te : Nat) (hingress : f.ingress = none) : clockFrame f te = (f.bytes, none) := by
  simp [clockFrame, hingress]

/-- Settles O37, by what a port does at a lock, a loss of lock, a frame received and a frame sent, and the transmit ring's HEAD. -/
theorem ethernetPortsAndFrames : Obligations.EthernetPortsAndFrames := by
  rintro s x t p hon rfl hp
  have hreceive (ti : Nat) (raw : List Nat) : exec (.ethFrameReceive t p ti raw) s = .next ((s.tick t).ethReceive p ti raw) :=
    congrArg Host.Outcome.next (State.whenOn_port t (fun s p => s.ethReceive p ti raw) hon hp)
  have hsend : exec (.ethFrameTransmit t p) s = .next ((s.tick t).ethSend p) :=
    congrArg Host.Outcome.next (State.whenOn_port t State.ethSend hon hp)
  refine ⟨fun hdown henable => ?_, fun y hup hy => ?_, fun ti raw hup hbad => ?_, fun ti raw b hup hmax hmin hb hfcs => ?_, ?sent, ?event, ?slot,
    fun v n hd3 hn hv hvn hn2 => ?_⟩
  · exact congrArg Host.Outcome.next ((State.whenOn_port t State.portLock hon hp).trans (State.portLock_up (s := s.tick t) hdown henable))
  · exact congrArg Host.Outcome.next ((State.whenOn_port t State.portLost hon hp).trans (State.portLost_down (s := s.tick t) hup hy))
  · rw [hreceive, State.ethReceive_bad (s := s.tick t) hup hbad]
  · rw [hreceive, State.ethReceive_whole (s := s.tick t) hup hmax hmin hb hfcs]
    constructor
    · intro hpause
      rw [if_pos hpause]
    · intro y hpause hy
      subst hy
      rw [if_neg (by simp [hpause])]
  case sent =>
    intro f out a b d hup hnext hout ha hb hd hslot
    rw [hsend, State.ethSend_eq (s := s.tick t) hup hnext hout ha hb hd, hslot]
    constructor
    · intro hdreq
      rw [hdreq]
    · intro q hdreq
      rw [hdreq]
      rfl
  case event =>
    intro f ti q y hup hnext hingress hslot hdreq hptp hevent hy
    have hclock := clockFrame_event (te := max s.now t) hingress hptp hevent
    rw [hsend, State.ethSend_eq (s := s.tick t) hup hnext hclock.symm rfl rfl rfl, hslot, hdreq, hy, hingress]
    rfl
  case slot =>
    intro f k y hup hnext hingress hslot hdreq hy
    have hclock := clockFrame_own (max s.now t) hingress
    rw [hsend, State.ethSend_eq (s := s.tick t) hup hnext hclock.symm rfl rfl rfl, hslot, hdreq, hy, hingress]
    rfl
  · exact congrArg Host.Outcome.next ((s.whenHost_eq t (fun s => s.txHead v) hon hd3).trans (State.txHead_within (s := s.tick t) hn hv hvn hn2))

end Sys2Proof.Machine
end

section
/-!
SUPPORT. The time base, its triggers and its stamped edges (R441 to R451). With it their obligation is settled.
-/

namespace Sys2Proof.Machine

section
variable {s : State}

/-! ### Castles and steps (R441) -/

theorem State.castleCmd_taken {d : Nat} {force : Bool} (hstate : s.tbState = 1 ∨ s.tbState = 3) (hother : d ≠ s.tbSource)
    (hlock : s.srvLocked d = true) (hcastle : s.castling = true) (hnear : (s.offsetsNear || force) = true) :
    s.castleCmd d force = ((s.castleTo d).castleEnd.setTrim).timeBaseMoved false :=
  if_pos ⟨hstate, hother, hlock, hcastle, hnear⟩

theorem State.stepCmd_taken {d : Nat} (hstate : s.tbState ≠ 0) (hlock : s.srvLocked d = true) :
    s.stepCmd d = (((s.tbEnter 1 d).tbStep (s.srv d).o).setTrim).timeBaseMoved true :=
  if_pos ⟨hstate, hlock⟩

theorem State.revert_taken {p r : Nat} (hp : p = s.get F.TIM_CTRL_PREFER) (hr : r = s.get F.TIM_CTRL_REVERT_S) (hstate : s.tbState = 1)
    (hother : p ≠ s.tbSource) (hpos : 0 < r) (hlock : s.srvLocked p = true) (hlong : (s.srv p).lockedAt + r * tickS ≤ s.now)
    (hcastle : s.castling = true) (hnear : s.offsetsNear = true) :
    s.revert = ((s.castleTo p).castleEnd.setTrim).timeBaseMoved false := by
  subst hp hr
  exact if_pos ⟨hstate, hother, hpos, hlock, hlong, hcastle, hnear⟩

/-! ### Firings and pulses (R446, R449) -/

/-- A trigger goes to its next firing, or is removed when it has none. -/
def Trigger.moveOn (ts : List Trigger) (id : Nat) (g : Trigger) : List Trigger :=
  let g' : Trigger := { g with next := g.next + 1 }
  if g'.has g'.next then ts.map (fun z => if z.id = id then g' else z) else ts.filter (fun z => z.id != id)

theorem State.firing_due {action id f : Nat} {g : Trigger}
    (hfind : s.tim.triggers.find? (fun z => z.id == id && z.action == action) = some g) (hf : f = g.instant g.next) (hdue : f ≤ s.full s.now) :
    s.firing action id = ({ s with tim := { s.tim with triggers := Trigger.moveOn s.tim.triggers id g } } : State).fire g f false := by
  subst hf
  unfold State.firing
  rw [hfind]
  exact if_neg (Nat.not_lt.mpr hdue)

variable {g : Trigger} {f : Nat} {late : Bool}

theorem State.fire_pulse (h : g.action = 1) : s.fire g f late =
    ({ s with tim := { s.tim with pulses := (g.pin, g.id, f + g.width * tickNs) :: s.tim.pulses.filter (fun q => q.2.1 != g.id) } } : State).setPin
      g.pin f g.id (some true) := by
  unfold State.fire
  rw [h]
  rfl

theorem State.fire_setHigh (h : g.action = 2) : s.fire g f late = s.setPin g.pin f g.id (some true) := by
  unfold State.fire
  rw [h]
  rfl

theorem State.fire_setLow (h : g.action = 3) : s.fire g f late = s.setPin g.pin f g.id (some false) := by
  unfold State.fire
  rw [h]
  rfl

theorem State.fire_slot (h : g.action = 4) : s.fire g f late = (s.capture 0x20 (2 * b2n late) g.id f).raise 5 := by
  unfold State.fire
  rw [h]
  rfl

theorem State.pulseDue_ends {id pin e : Nat} (hfind : s.tim.pulses.find? (fun q => q.2.1 == id) = some (pin, id, e)) (hdue : e ≤ s.full s.now) :
    s.pulseDue id =
      ({ s with tim := { s.tim with pulses := s.tim.pulses.filter (fun q => q.2.1 != id) } } : State).setPin pin e id none := by
  unfold State.pulseDue State.pulseEnd
  rw [hfind]
  exact if_neg (Nat.not_lt.mpr hdue)

/-! ### The level of a pin (R449) -/

variable {pin id : Nat} {v : Option Bool}

theorem State.setPin_first (hnone : s.tim.pinActs.find? (fun q => q.1 == pin) = none) :
    s.setPin pin f id v = { s with tim := { s.tim with
      pins := s.tim.pins.set pin (some (v.getD (s.tim.pulses.any (fun q => q.1 == pin))))
      pinActs := (pin, f, id, v) :: s.tim.pinActs.filter (fun q => q.1 != pin) } } := by
  unfold State.setPin
  rw [hnone]

/-- An action that comes before the one that last decided the level leaves the level to that one. -/
theorem State.setPin_overruled {f' id' : Nat} {v' : Option Bool} (hlast : s.tim.pinActs.find? (fun q => q.1 == pin) = some (pin, f', id', v'))
    (hbefore : f < f' ∨ (f = f' ∧ id < id')) :
    (s.setPin pin f id v).tim.pins = s.tim.pins.set pin (some (v'.getD (s.tim.pulses.any (fun q => q.1 == pin)))) := by
  unfold State.setPin
  rw [hlast]
  dsimp only
  rw [if_pos hbefore]

end

section
variable {s : State} (t : Nat) (hon : s.fieldOn = true)
include hon

theorem exec_castle {d : Nat} {force : Bool} (hd : d < 2) (hd3 : s.hst.d3 = false) :
    exec (.castle t d force) s = .next ((s.tick t).castleCmd d force) := by
  simp only [exec, execCastle, s.whenHost_eq t _ hon hd3, Nat.mod_eq_of_lt hd]

theorem exec_stepTime {d : Nat} (hd : d < 2) (hd3 : s.hst.d3 = false) :
    exec (.stepTime t d) s = .next ((s.tick t).stepCmd d) := by
  simp only [exec, execStep, s.whenHost_eq t _ hon hd3, Nat.mod_eq_of_lt hd]

theorem exec_captureEdge {src : Nat} {r : Bool} (hsrc : src = 1 ∨ (8 ≤ src ∧ src < 16)) :
    exec (.captureEdge t src r) s = .next ((s.tick t).stampEdge src r id) := by
  simp only [exec, execCaptureEdge, s.whenOn_eq t _ hon, if_pos hsrc]

end

/-- Settles O39: each command is its function of the time base at the tick, in the case that its clause names. -/
theorem timeBaseAndTriggers : Obligations.TimeBaseAndTriggers := by
  rintro s x t hon rfl
  refine ⟨?castle, ?step, ?revert, ?read, ?firing, ?pulseEnd, ?first, ?overruled, ?dead, ?accepted⟩
  case castle =>
    intro d force hd hd3 hstate hother hlock hcastle hnear
    exact (exec_castle t hon hd hd3).trans (congrArg _ (State.castleCmd_taken (s := s.tick t) hstate hother hlock hcastle hnear))
  case step =>
    intro d hd hd3 hstate hlock
    exact (exec_stepTime t hon hd hd3).trans (congrArg _ (State.stepCmd_taken (s := s.tick t) hstate hlock))
  case revert =>
    intro p r hp hr hstate hother hpos hlock hlong hcastle hnear
    exact congrArg Host.Outcome.next ((s.whenOn_eq t _ hon).trans
      (State.revert_taken (s := s.tick t) hp hr hstate hother hpos hlock hlong hcastle hnear))
  case read =>
    rintro f y hd3 rfl rfl
    exact congrArg Host.Outcome.next (s.whenHost_eq t State.timeRead hon hd3)
  case firing =>
    rintro id g f ts y hf hdue rfl rfl
    have hfire (a : Nat) (hfind : s.tim.triggers.find? (fun z => z.id == id && z.action == a) = some g) :=
      congrArg (Host.Outcome.next (φ := Fault) (ρ := Refusal)) ((s.whenOn_eq t (fun s => s.firing a id) hon).trans (State.firing_due (s := s.tick t) hfind hf hdue))
    refine ⟨fun hfind ha => ?_, fun hfind ha => ?_, fun hfind ha => ?_, fun hfind ha => ?_⟩
    · exact (hfire 1 hfind).trans (congrArg _ (State.fire_pulse ha))
    · exact (hfire 2 hfind).trans (congrArg _ (State.fire_setHigh ha))
    · exact (hfire 3 hfind).trans (congrArg _ (State.fire_setLow ha))
    · exact (hfire 4 hfind).trans (congrArg _ (State.fire_slot ha))
  case pulseEnd =>
    rintro id pin e y hfind hdue rfl
    exact congrArg Host.Outcome.next ((s.whenOn_eq t _ hon).trans (State.pulseDue_ends (s := s.tick t) hfind hdue))
  case first => exact fun pin f id v hnone => State.setPin_first hnone
  case overruled => exact fun pin f id v f' id' v' hlast hbefore => State.setPin_overruled hlast hbefore
  case dead =>
    rintro src r y hsrc rfl hnear
    exact (exec_captureEdge t hon hsrc).trans (congrArg _ (State.stampEdge_dead r id hnear))
  case accepted =>
    rintro src r w y hsrc rfl hfar rfl
    exact (exec_captureEdge t hon hsrc).trans (congrArg _ (State.stampEdge_live r id hfar))

end Sys2Proof.Machine
end

section
/-!
SUPPORT. The servos and their messages (R437 to R439). With it their obligation is settled.
-/

namespace Sys2Proof.Machine

section
variable {s y : State} {v p ti : Nat} {raw : List Nat} {q : PtpAt} (hv : v = p / 2)
include hv

/-! ### Announce (R437) -/

/-- An Announce that the checks let through: the master is entered, the best one chosen, and the measurement begun anew where
the selected master names another grandmaster. -/
theorem State.announce_entered {z : Master} {w : State} (hmsg : s.srvMsg v 0xB raw = some q) (hlo : -3 ≤ ptpLog raw q) (hhi : ptpLog raw q ≤ 1)
    (hsteps : fieldBE raw (q.off + 61) 2 < 255) (hy : y = s.srvWindows v ti)
    (hz : z = announceOf raw q p ti (((y.srv v).masters.find? (fun m => m.ident == ptpIdent raw q && m.port == p)).map (·.seen) |>.getD []))
    (hw : w = (y.onSrv v (fun w => { w with
        masters := z :: (y.srv v).masters.filter (fun m => m.ident != ptpIdent raw q || m.port != p)
        lastAnn := if w.sel = some z.name then ti else w.lastAnn })).bmca v ti) :
    s.announce p ti raw = (if (y.srv v).sel = some z.name ∧ (w.srv v).sel = some z.name ∧ (y.srv v).selected.map (·.gm) ≠ some z.gm ∧
        2 ≤ w.srvState v then ((w.onSrv v Servo.fresh).setSrv v 2).srvEvent 0x1122 v else w).tbSettle := by
  subst hv hy hz hw
  unfold State.announce
  dsimp only
  rw [hmsg]
  dsimp only
  exact if_neg (by omega)

/-! ### Sync and Follow_Up (R438) -/

theorem State.sync_taken (hmsg : s.srvMsg v 0 raw = some q) (hy : y = s.srvWindows v ti) (hsel : y.fromSel v p raw q = true)
    (hlo : -7 ≤ ptpLog raw q) (hhi : ptpLog raw q ≤ 1) {w : State}
    (hw : w = y.onSrv v (fun w => { w with lastSync := some ti, syncLog := ptpLog raw q, twoStep := none })) :
    s.sync p ti raw =
      if bitAt (raw.getD (q.off + 6) 0) 1 then
        (w.onSrv v (fun w => { w with twoStep := some (fieldBE raw (q.off + 30) 2, ti, ptpCorr raw q) })).tbSettle
      else (w.syncDone v ti (ptpTime raw (q.off + 34) + ptpCorr raw q)).tbSettle := by
  subst hv hy hw
  unfold State.sync
  dsimp only
  rw [hmsg]
  dsimp only
  exact if_neg (by rw [hsel]; simp; omega)

theorem State.followUp_taken {c : Nat × Int} (hmsg : s.srvMsg v 8 raw = some q) (hy : y = s.srvWindows v ti) (hsel : y.fromSel v p raw q = true)
    (hopen : (y.srv v).twoStep = some (fieldBE raw (q.off + 30) 2, c)) :
    s.followUp p ti raw = ((y.onSrv v (fun w => { w with twoStep := none })).syncDone v c.1
      (ptpTime raw (q.off + 34) + c.2 + ptpCorr raw q)).tbSettle := by
  subst hv hy
  unfold State.followUp
  dsimp only
  rw [hmsg]
  dsimp only
  rw [if_neg (by simp [hsel]), hopen]
  exact if_neg (not_not_intro rfl)

/-! ### Delay_Resp and Delay_Req (R437, R438) -/

theorem State.delayResp_taken {t3 : Nat} {dn : Int} {z : State} (hmsg : s.srvMsg v 9 raw = some q) (hy : y = s.srvWindows v ti)
    (hsel : y.fromSel v p raw q = true) (hmine : slice raw (q.off + 44) 10 = y.srvIdent v)
    (hsent : (y.srv v).sentDreq = some (fieldBE raw (q.off + 30) 2, t3)) (hdown : (y.srv v).down = some dn)
    (hz : z = y.onSrv v (fun w => { w with
      delays := ((dn + (ptpTime raw (q.off + 34) - ptpCorr raw q - (y.full t3 : Int))).fdiv 2 :: w.delays).take 16
      sentDreq := none })) :
    s.delayResp p ti raw = (z.put (F.TIM_SRV_DELAY_DELAY.nth v) (((meanDelay (z.srv v).delays).getD 0).toNat % 2 ^ 32)).tbSettle := by
  subst hv hy hz
  unfold State.delayResp
  dsimp only
  rw [hmsg]
  dsimp only
  rw [if_neg (by simp [hsel, hmine]), hsent, hdown]
  exact if_neg (not_not_intro rfl)

end

section
variable {s : State} {v : Nat}

theorem State.delayReq_leaves {m : Master} (hsel : (s.srv v).selected = some m) (hstate : 2 ≤ s.srvState v) (hdue : (s.srv v).nextDreq ≤ s.now)
    (hip : s.flag (F.TIM_SRV_CFG_TRANSPORT.nth v) = true ∨ s.netIp v ≠ 0) :
    s.delayReq v = (s.onSrv v (fun w => { w with
        dreqSeq := (w.dreqSeq + 1) % 65536
        nextDreq := s.now + logTicks (s.getS (F.TIM_SRV_CFG_LOG_DREQ.nth v)) })).egress m.port
          ⟨s.dreqFrame v (s.srv v).dreqSeq m, 1, none, none, some (v, (s.srv v).dreqSeq)⟩ := by
  have hopen : ¬ (s.srvState v < 2 ∨ s.now < (s.srv v).nextDreq ∨ (s.flag (F.TIM_SRV_CFG_TRANSPORT.nth v) = false ∧ s.netIp v = 0)) := by
    rintro (h | h | ⟨hudp, hnone⟩)
    · omega
    · omega
    · exact hip.elim (by simp [hudp]) (absurd hnone)
  unfold State.delayReq
  dsimp only
  rw [hsel]
  exact if_neg hopen

/-! ### Windows and ENABLE (R439) -/

theorem State.annTimeout_closed {e : Nat} (hstate : s.srvState v = 2 ∨ s.srvState v = 3) (hend : s.annEnd v = some e) (hpast : e ≤ s.now) :
    s.annTimeout v = (s.srvListen v).tbSettle :=
  if_pos ⟨hstate, by simp [hend, hpast]⟩

theorem State.syncTimeout_closed {e : Nat} (hstate : s.srvState v = 2 ∨ s.srvState v = 3) (hend : s.syncEnd v = some e) (hpast : e ≤ s.now) :
    s.syncTimeout v = (s.srvListen v).tbSettle :=
  if_pos ⟨hstate, by simp [hend, hpast]⟩

theorem State.srvEnable_on {y : State} (hy : y = s.put (F.TIM_SRV_CFG_ENABLE.nth v) 1) (hoff : y.srvState v = 0) :
    s.srvEnable v true = y.setSrv v 1 := by
  subst hy
  exact if_pos hoff

theorem State.srvEnable_off {y : State} (hy : y = s.put (F.TIM_SRV_CFG_ENABLE.nth v) 0) :
    s.srvEnable v false = ((y.onSrv v (fun w => { w.fresh with masters := [], sel := none })).setSrv v 0).tbSettle := by
  subst hy
  rfl

end

/-- Settles O38: each message is its function of the servo at the tick, in the case that its clause names. -/
theorem ptpServos : Obligations.PtpServos := by
  rintro s x t v p hon rfl hp hv
  have hv2 : v % 2 = v := Nat.mod_eq_of_lt (by omega)
  have hservo (f : State → Nat → State) : s.whenOn t (fun s => f s (v % 2)) = f (s.tick t) v := by rw [s.whenOn_eq t _ hon, hv2]
  refine ⟨?announce, ?sync, ?followUp, ?delayResp, ?delayReq, ?announceTimeout, ?syncTimeout, ?enable, ?disable⟩
  case announce =>
    intro ti raw q y z w hmsg hlo hhi hsteps hy hz hw
    have hrun := (s.whenOn_port t (fun s p => s.announce p ti raw) hon hp).trans
      (State.announce_entered (s := s.tick t) hv hmsg hlo hhi hsteps hy hz hw)
    refine ⟨fun hkeep => ?_, fun hsel hbest hgm hstate => ?_⟩
    · rw [if_neg (by rintro ⟨hsel, hbest, hgm, hstate⟩; exact hkeep.elim (absurd hsel) (fun h => h.elim (absurd hbest)
        (fun h => h.elim hgm (Nat.not_lt.mpr hstate))))] at hrun
      exact congrArg Host.Outcome.next hrun
    · rw [if_pos ⟨hsel, hbest, hgm, hstate⟩] at hrun
      exact congrArg Host.Outcome.next hrun
  case sync =>
    intro ti raw q y hmsg hy hsel hlo hhi
    have hrun := (s.whenOn_port t (fun s p => s.sync p ti raw) hon hp).trans
      (State.sync_taken (s := s.tick t) hv hmsg hy hsel hlo hhi rfl)
    refine ⟨fun htwo => ?_, fun hone => ?_⟩
    · rw [if_pos htwo] at hrun
      exact congrArg Host.Outcome.next hrun
    · rw [if_neg (ne_true_of_eq_false hone)] at hrun
      exact congrArg Host.Outcome.next hrun
  case followUp =>
    intro ti raw q y c hmsg hy hsel hopen
    exact congrArg Host.Outcome.next ((s.whenOn_port t (fun s p => s.followUp p ti raw) hon hp).trans
      (State.followUp_taken (s := s.tick t) hv hmsg hy hsel hopen))
  case delayResp =>
    intro ti raw q y t3 dn z hmsg hy hsel hmine hsent hdown hz
    exact congrArg Host.Outcome.next ((s.whenOn_port t (fun s p => s.delayResp p ti raw) hon hp).trans
      (State.delayResp_taken (s := s.tick t) hv hmsg hy hsel hmine hsent hdown hz))
  case delayReq =>
    intro m hsel hstate hdue hip
    exact congrArg Host.Outcome.next ((hservo State.delayReq).trans (State.delayReq_leaves (s := s.tick t) hsel hstate hdue hip))
  case announceTimeout =>
    intro e hstate hend hpast
    exact congrArg Host.Outcome.next ((hservo State.annTimeout).trans (State.annTimeout_closed (s := s.tick t) hstate hend hpast))
  case syncTimeout =>
    intro e hstate hend hpast
    exact congrArg Host.Outcome.next ((hservo State.syncTimeout).trans (State.syncTimeout_closed (s := s.tick t) hstate hend hpast))
  case enable =>
    intro y hd3 hy hoff
    have hrun : exec (.servoEnableWrite t v true) s = .next ((s.tick t).srvEnable v true) := by
      simp only [exec, execServoEnableWrite, s.whenHost_eq t _ hon hd3, hv2]
    exact hrun.trans (congrArg _ (State.srvEnable_on hy hoff))
  case disable =>
    intro y hd3 hy
    have hrun : exec (.servoEnableWrite t v false) s = .next ((s.tick t).srvEnable v false) := by
      simp only [exec, execServoEnableWrite, s.whenHost_eq t _ hon hd3, hv2]
    exact hrun.trans (congrArg _ (State.srvEnable_off hy))

end Sys2Proof.Machine
end

section
/-!
SUPPORT. Sample instants, audio blocks, playout, rate and re-alignment (R460 to R474). With it their obligation is settled.
-/

namespace Sys2Proof.Machine

section
variable {s : State}

/-! ### Sample instants (R460) -/

theorem State.sampleInstant_none (bad : List Nat) (hnone : s.instantNow = none) : s.sampleInstant bad = s := by
  unfold State.sampleInstant
  rw [hnone]

theorem State.sampleInstant_again (bad : List Nat) {i : Nat} (hnow : s.instantNow = some i) (hsent : s.aud.sent = some i) :
    s.sampleInstant bad = s := by
  unfold State.sampleInstant
  rw [hnow]
  exact if_pos hsent

theorem State.sampleInstant_first (bad : List Nat) {i : Nat} {y : State} (hnow : s.instantNow = some i) (hsent : s.aud.sent ≠ some i)
    (hy : y = { s with aud := { s.aud with
      zMark := (i % 192 == 0)
      sent := some i
      csSent := if i % 192 = 0 then (List.range 16).map s.csFor else s.aud.csSent } }) :
    s.sampleInstant bad = (List.range 16).foldl (fun y c => y.sendOut bad i c) y := by
  subst hy
  unfold State.sampleInstant
  rw [hnow]
  dsimp only
  rw [if_neg hsent]
  simp only [beq_iff_eq]

/-- The instant at the present stamp lies within the 10 ns of an edge. -/
theorem State.instantNow_near {i : Nat} (hnow : s.instantNow = some i) :
    s.audFull ≤ instantTime s.fs i + 10 * tickNs ∧ instantTime s.fs i ≤ s.audFull + 10 * tickNs := by
  unfold State.instantNow at hnow
  dsimp only at hnow
  split at hnow
  next hnear =>
    cases hnow
    exact hnear
  next => cases hnow

/-! ### Blocks (R461, R463, R464) -/

theorem State.blockEnd_again {ms : Nat} (hms : ms = s.full s.now / tickMs) (hdone : ms = 0 ∨ s.aud.lastBlock = some (ms - 1)) :
    s.blockEnd = s := by
  subst hms
  exact if_pos hdone

theorem State.blockEnd_first {ms : Nat} {z w v : State} (hms : ms = s.full s.now / tickMs) (hpos : ms ≠ 0) (hnew : s.aud.lastBlock ≠ some (ms - 1))
    (hz : z = ((List.range 8).foldl (fun q p => q.portBlock (ms - 1) p) s).dueRecord (ms - 1))
    (hw : w = (List.range 16).foldl (fun q c => q.meterStat (16 + c) (q.aud.outPeak.getD c 0)) z)
    (hv : v = { w with aud := { w.aud with
      outPeak := List.replicate 16 0
      seq := (w.aud.seq + 1) % 2 ^ 32
      lastBlock := some (ms - 1)
      mute := w.aud.mute - 1
      regs := w.cmt.inForce } }) :
    s.blockEnd = v.delayStep.count Reg.AUD_SNAP_BLOCKS 1 := by
  subst hms hz hw hv
  exact if_neg (not_or.mpr ⟨hpos, hnew⟩)

theorem State.portBlock_early {k p : Nat} (hlag : (k : Int) - s.portLag p < 0) : s.portBlock k p = s := if_pos hlag

theorem State.portBlock_ended {k p j : Nat} {is : List Nat} {a b : List Nat × List Nat × Bool} {y z : State} (hj : (k : Int) - s.portLag p = j)
    (his : is = upFrom (blockFirst s.fs j) (blockFirst s.fs (j + 1) - blockFirst s.fs j)) (ha : a = s.inBlock is (2 * p))
    (hb : b = s.inBlock is (2 * p + 1)) (hy : y = (s.inputChannel is (2 * p) a.2.1).inputChannel is (2 * p + 1) b.2.1)
    (hz : z = y.onAes p (fun q => { q with
      hold := q.hold.filter (fun h => decide (blockFirst s.fs (j + 1) ≤ h.1))
      slip := false
      fade := { fin := q.fade.next }
      first := blockFirst s.fs (j + 1)
      tail := (a.1.getLastD silentV, b.1.getLastD silentV) })) :
    s.portBlock k p = { z with aud := { z.aud with blocks := z.aud.blocks ++ [(⟨p, j, a.2.1, b.2.1, a.2.2, b.2.2, (s.aes p).slip⟩ : AudBlock)] } } := by
  have hnat : ¬ (j : Int) < 0 := by omega
  subst his ha hb hy hz
  unfold State.portBlock
  rw [hj]
  exact if_neg hnat

theorem State.inBlock_silent (is : List Nat) {c : Nat} (hst : s.aesSt (c / 2) ≠ 2) (hfade : (s.aes (c / 2)).fade.fout = false) :
    (s.inBlock is c).2 = (is.map (fun _ => silentV), true) := by
  have hout : ¬ (s.aesSt (c / 2) = 2 ∨ (s.aes (c / 2)).fade.fout = true) := not_or.mpr ⟨hst, ne_true_of_eq_false hfade⟩
  exact congrArg Prod.snd (if_neg hout)

/-! ### Playout, rate, re-alignment and word clock (R460, R461, R470) -/

theorem State.playHead_takes {v n : Nat} {l : List Nat} (hn : n = s.get F.AUD_PLAY_SIZE_SLOTS) (htwo : 2 ≤ n) (hv : v < n) (hmax : v < 4096)
    (hen : s.flag F.AUD_CTRL_PLAY_EN = true) (hl : l = slotsTo (s.get F.AUD_PLAY_TAIL_TAIL) v n) (hsome : l ≠ []) :
    s.playHead v = (l.foldl State.playTake (s.put F.AUD_PLAY_HEAD_HEAD v)).raise 6 := by
  subst hn hl
  unfold State.playHead
  dsimp only
  rw [Nat.mod_eq_of_lt hmax, if_neg (by simp [hen]; omega), if_neg hsome]

theorem State.rateSwitch_due {r : Nat} (hr : r = s.live F.AUD_CTRL_RATE) (hother : r ≠ s.aud.rate) (hpast : s.past10ms s.aud.rateFrom = true) :
    s.rateSwitch = ({ s with aud := { s.aud with
      rate := r
      nD := divNear (s.aud.nD * rateHz r) s.fs
      store := []
      sent := none
      blocks := []
      ports := s.aud.ports.map (fun q => { q with
        hold := []
        lastI := none
        first := 0 }) } } : State).showDelay := by
  subst hr
  exact if_neg (by simp [hother, hpast])

theorem State.realign_due (hpast : s.tim.steppedAt.any s.past10ms = true) :
    s.realign = { (s.event 0x1225 0 0 s.aud.seq) with tim := { s.tim with steppedAt := none, stepLag := 0 } } := if_pos hpast

theorem State.wclkEdge_eq {f i : Nat} (hf : f = s.audFull) (hi : i = instantNear s.fs (f : Int)) :
    s.wclkEdge = s.putS F.AUD_WCLK_ERR_ERR_NS
      (idivNear ((f : Int) * (s.fs : Int) - ((i / s.fs * tickS : Nat) : Int) * (s.fs : Int) - (((i % s.fs) * tickS : Nat) : Int)) (s.fs * tickNs)) := by
  subst hf hi
  rfl

end

/-- Settles O42: each command is its function of the audio unit at the tick, in the case that its clause names. -/
theorem audioInstantsAndBlocks : Obligations.AudioInstantsAndBlocks := by
  rintro s x t hon rfl
  refine ⟨?none, ?again, ?first, ?near, ?block, ?ended, ?port, ?early, ?silent, ?play, ?rate, ?realign, ?wclk⟩
  case none =>
    intro bad hnone
    exact congrArg Host.Outcome.next ((s.whenOn_eq t _ hon).trans (State.sampleInstant_none bad hnone))
  case again =>
    intro bad i hnow hsent
    exact congrArg Host.Outcome.next ((s.whenOn_eq t _ hon).trans (State.sampleInstant_again bad hnow hsent))
  case first =>
    intro bad i y hnow hsent hy
    exact congrArg Host.Outcome.next ((s.whenOn_eq t _ hon).trans (State.sampleInstant_first bad hnow hsent hy))
  case near => exact fun i hnow => State.instantNow_near hnow
  case block =>
    intro ms z w v hms hpos hnew hz hw hv
    exact congrArg Host.Outcome.next ((s.whenOn_eq t State.blockEnd hon).trans
      (State.blockEnd_first (s := s.tick t) hms hpos hnew hz hw hv))
  case ended =>
    intro ms hms hdone
    exact congrArg Host.Outcome.next ((s.whenOn_eq t State.blockEnd hon).trans (State.blockEnd_again (s := s.tick t) hms hdone))
  case port =>
    intro k p j is a b y z hj his ha hb hy hz
    exact State.portBlock_ended hj his ha hb hy hz
  case early => exact fun k p hlag => State.portBlock_early hlag
  case silent => exact fun is c hst hfade => State.inBlock_silent is hst hfade
  case play =>
    intro v n l hd3 hn htwo hv hmax hen hl hsome _ _
    exact congrArg Host.Outcome.next ((s.whenHost_eq t _ hon hd3).trans
      (State.playHead_takes (s := s.tick t) hn htwo hv hmax hen hl hsome))
  case rate =>
    intro r hr hother hpast
    exact congrArg Host.Outcome.next ((s.whenOn_eq t State.rateSwitch hon).trans
      (State.rateSwitch_due (s := s.tick t) hr hother hpast))
  case realign =>
    rintro y hpast rfl
    exact congrArg Host.Outcome.next ((s.whenOn_eq t State.realign hon).trans (State.realign_due (s := s.tick t) hpast))
  case wclk =>
    intro f i hf hi
    exact congrArg Host.Outcome.next ((s.whenOn_eq t State.wclkEdge hon).trans (State.wclkEdge_eq (s := s.tick t) hf hi))

end Sys2Proof.Machine
end

section
/-!
SUPPORT. Memory requests: slots, the pick, returned data and acknowledged writes (R400 to R426). With it their obligation is settled.
-/

namespace Sys2Proof.Machine

section
variable {s : State}

/-! ### Slots (R400, R405, R408) -/

section
variable {p n : Nat} {w : Bool}

/-- Behind a request that waits at the port nothing is taken. -/
theorem State.memAccept_behind (hheld : s.mc.held.any (fun q => q.1 == p && q.2 != (n, w)) = true) : s.memAccept p n w = s :=
  if_pos hheld

section
variable (hheld : s.mc.held.any (fun q => q.1 == p && q.2 != (n, w)) = false)
include hheld

theorem State.memAccept_beyond (htop : memTop ≤ 64 * n) : s.memAccept p n w = s.rangeRequest p n w := by
  unfold State.memAccept
  rw [if_neg (ne_true_of_eq_false hheld), if_pos htop]

theorem State.memAccept_slot (htop : 64 * n < memTop) (hfree : s.slotFree p (dramPlace n).chan = true) :
    s.memAccept p n w = (({ s with mc := { s.mc with
      reqs := s.mc.reqs ++ [{ id := s.mc.nextId, port := p, block := n, write := w, stamp := s.now }]
      nextId := s.mc.nextId + 1
      held := s.mc.held.filter (fun q => q.1 != p) } } : State).wakeRank (dramPlace n).chan (dramPlace n).rank).showSlots (dramPlace n).chan := by
  unfold State.memAccept
  rw [if_neg (ne_true_of_eq_false hheld), if_neg (Nat.not_le.mpr htop)]
  exact if_pos hfree

end

theorem State.memAccept_waits (htop : 64 * n < memTop) (hfree : s.slotFree p (dramPlace n).chan = false)
    (hnone : s.mc.held.any (fun q => q.1 == p) = false) :
    s.memAccept p n w = { s.count Reg.MEM_SNAP_SLOT_WAIT 1 with mc := { (s.count Reg.MEM_SNAP_SLOT_WAIT 1).mc with
      held := (p, n, w) :: (s.count Reg.MEM_SNAP_SLOT_WAIT 1).mc.held } } := by
  have hheld : ¬ s.mc.held.any (fun q => q.1 == p && q.2 != (n, w)) = true := by
    simp only [List.any_eq_true, Bool.and_eq_true, not_exists, not_and]
    exact fun q hq hport => absurd hport (List.any_eq_false.mp hnone q hq)
  unfold State.memAccept
  rw [if_neg hheld, if_neg (Nat.not_le.mpr htop)]
  dsimp only
  rw [if_neg (ne_true_of_eq_false hfree), if_neg (ne_true_of_eq_false hnone)]

end

/-! ### The pick and its row (R405, R410, R411) -/

section
variable {c : Nat} {busy : List Nat} {d : Bool} {y : State} (hst : (s.chan c).st = .active) (hd : d = s.drainNow c)
  (hy : y = s.onChan c (fun k => { k with drain := d }))
include hst hd hy

/-- Some request of an active channel is picked: its row is opened, a write then merges its word and leaves, a read is issued. -/
theorem State.memPick_some {r : MemReq} {rot waits : Bool} {z u : State} (hpick : y.pick c busy d = some (r, rot))
    (hwaits : waits = (y.chanReqs c).any (fun q => q.open_ && bankIx q.block == bankIx r.block && !(y.chan c).hit q && decide (1 ≤ y.urgency q)))
    (hz : z = ((y.wakeRank c (dramPlace r.block).rank).openRow c r.block waits).onChan c
      (fun k => { k with last := if rot then bankIx r.block else k.last }))
    (hu : u = (if s.urgency r = 2 then z.count Reg.MEM_SNAP_URGENT 1 else z)) :
    s.memPick c busy =
      if r.write then { u.mergeWord r.block with mc := { (u.mergeWord r.block).mc with
        reqs := (u.mergeWord r.block).mc.reqs.filter (fun q => q.id != r.id) } }
      else { u with mc := { u.mc with reqs := u.mc.reqs.map (fun q => if q.id = r.id then { q with issued := true } else q) } } := by
  subst hd hy hwaits hz hu
  unfold State.memPick
  rw [if_neg (not_not_intro hst)]
  dsimp only
  rw [hpick]

/-- No request of an active channel can be picked, and a refresh is postponed or may come early: the slot takes it. -/
theorem State.memPick_refreshes {b : Nat} (hpick : y.pick c busy d = none) (hidle : y.idleRefresh c busy = some b) :
    s.memPick c busy = y.refreshBank c b := by
  subst hd hy
  unfold State.memPick
  rw [if_neg (not_not_intro hst)]
  dsimp only
  rw [hpick]
  dsimp only
  rw [hidle]

theorem State.memPick_idles (hpick : y.pick c busy d = none) (hidle : y.idleRefresh c busy = none) : s.memPick c busy = y := by
  subst hd hy
  unfold State.memPick
  rw [if_neg (not_not_intro hst)]
  dsimp only
  rw [hpick]
  dsimp only
  rw [hidle]

end

theorem State.openRow_other {c n : Nat} (w : Bool) {y : State} (hrow : ((s.chan c).banks.getD (bankIx n) {}).openRow ≠ some (dramPlace n).row)
    (hy : y = s.closeRow c (bankIx n)) :
    s.openRow c n w = y.onChan c (fun k => { k with banks := modAt k.banks (bankIx n) (fun q =>
      { q with openRow := some (dramPlace n).row, page := n / 31, check := y.pageCheck (n / 31), hits := 0 }) }) := by
  subst hy
  exact if_neg hrow

/-! ### Data that returns and writes acknowledged (R400 to R403, R409, R414) -/

theorem State.memReturn_found {id err : Nat} {r : MemReq} {d : Option (List Nat)} {z y : State}
    (hfind : s.mc.reqs.find? (fun q => q.id == id && q.issued && !q.write) = some r) (hread : s.blockRead r.port r.block err = (d, z))
    (hy : y = ((z.count Reg.MEM_SNAP_READ 64).countMax Reg.MEM_SNAP_LAT_MAX ((s.now - r.stamp) / tickNs)).dropReq r) :
    s.memReturn id err = { y with mc := { y.mc with
      respId := id, respPoison := d.isNone, resp := d.getD (List.replicate 64 0) } } := by
  subst hy
  unfold State.memReturn
  rw [hfind]
  dsimp only
  rw [hread]

section
variable {port n err : Nat} {q : (List Nat × Nat × Nat) × State} {d : List Nat} (hq : s.dramRead n err = q)
include hq

theorem State.blockRead_good (hcode : eccDecode q.1.1 q.1.2.1 q.1.2.2 n = .good d) : s.blockRead port n err = (some d, q.2) := by
  subst hq
  unfold State.blockRead
  dsimp only
  rw [hcode]

theorem State.blockRead_corrected (hcode : eccDecode q.1.1 q.1.2.1 q.1.2.2 n = .corrected d) :
    s.blockRead port n err = (some d, q.2.count Reg.MEM_SNAP_ECC_CORR 1) := by
  subst hq
  unfold State.blockRead
  dsimp only
  rw [hcode]

theorem State.blockRead_bad (hcode : eccDecode q.1.1 q.1.2.1 q.1.2.2 n = .bad) :
    s.blockRead port n err = (none, (q.2.setPoison n true).eccRead port n) := by
  subst hq
  unfold State.blockRead
  dsimp only
  rw [hcode]

end

section
variable {id off : Nat} {data : List Nat} {bad : Bool} {r : MemReq}
  (hfind : s.mc.reqs.find? (fun q => q.id == id && q.write && !q.acked) = some r)
include hfind

theorem State.memAck_void (hvoid : r.void = true) : s.memAck id off data bad = s.dropReq r := by
  unfold State.memAck
  rw [hfind]
  exact if_pos hvoid

theorem State.memAck_stores {y : State} (hvoid : r.void = false) (hlen : off + data.length ≤ 64)
    (hy : y = ((if bad && decide (data.length < 64) then s.setPoison r.block true else s).store r.port (64 * r.block + off) data).countMax
      Reg.MEM_SNAP_LAT_MAX ((s.now - r.stamp) / tickNs)) :
    s.memAck id off data bad = (({ y with mc := { y.mc with
        reqs := y.mc.reqs.map (fun q => if q.id = id then { q with acked := true } else q) } } : State).onRank (dramPlace r.block).chan
      (dramPlace r.block).rank (fun k => { k with idleSince := s.now })).showSlots (dramPlace r.block).chan := by
  have hdata : data.take (64 - off) = data := List.take_of_length_le (by omega)
  subst hy
  unfold State.memAck
  rw [hfind]
  dsimp only
  rw [hdata]
  exact if_neg (ne_true_of_eq_false hvoid)

end
end

theorem exec_memRequestAccept {s : State} (t : Nat) {p : Nat} (n : Nat) (w : Bool) (hon : s.fieldOn = true) (hp : p < 16) :
    exec (.memRequestAccept t p n w) s = .next ((s.tick t).memAccept p n w) := by
  simp only [exec, execMemRequestAccept, s.whenOn_eq t _ hon, Nat.mod_eq_of_lt hp]

theorem exec_memWriteAck {s : State} (t id : Nat) {off : Nat} (data : List Nat) (bad : Bool) (hon : s.fieldOn = true) (hoff : off < 64) :
    exec (.memWriteAck t id off data bad) s = .next ((s.tick t).memAck id off data bad) := by
  simp only [exec, execMemWriteAck, s.whenOn_eq t _ hon, Nat.mod_eq_of_lt hoff]

/-- Settles O35: each request command is its function of the memory controller at the tick, in the case that its clause names. -/
theorem memoryRequests : Obligations.MemoryRequests := by
  rintro s x t hon rfl
  refine ⟨?behind, ?beyond, ?slot, ?waits, ?picked, ?idle, ?row, ?read, ?block, ?ack, ?void⟩
  case behind =>
    intro p n w hp hheld
    exact (exec_memRequestAccept t n w hon hp).trans (congrArg _ (State.memAccept_behind (s := s.tick t) hheld))
  case beyond =>
    intro p n w hp hheld htop
    exact (exec_memRequestAccept t n w hon hp).trans (congrArg _ (State.memAccept_beyond (s := s.tick t) hheld htop))
  case slot =>
    intro p n w hp hheld htop hfree
    exact (exec_memRequestAccept t n w hon hp).trans (congrArg _ (State.memAccept_slot (s := s.tick t) hheld htop hfree))
  case waits =>
    rintro p n w y hp htop hfree hnone rfl
    exact (exec_memRequestAccept t n w hon hp).trans (congrArg _ (State.memAccept_waits (s := s.tick t) htop hfree hnone))
  case picked =>
    intro c busy d y z u r rot waits hst hd hy hpick hwaits hz hu
    have hrun := (s.whenOn_eq t (fun s => s.memPick c busy) hon).trans
      (State.memPick_some (s := s.tick t) hst hd hy hpick hwaits hz hu)
    refine ⟨fun hread => ?_, fun hwrite => ?_⟩
    · rw [if_neg (ne_true_of_eq_false hread)] at hrun
      exact congrArg Host.Outcome.next hrun
    · rw [if_pos hwrite] at hrun
      exact congrArg Host.Outcome.next hrun
  case idle =>
    intro c busy d y hst hd hy hpick
    have hrun := s.whenOn_eq t (fun s => s.memPick c busy) hon
    exact ⟨fun b hidle => congrArg Host.Outcome.next (hrun.trans (State.memPick_refreshes (s := s.tick t) hst hd hy hpick hidle)),
      fun hidle => congrArg Host.Outcome.next (hrun.trans (State.memPick_idles (s := s.tick t) hst hd hy hpick hidle))⟩
  case row => exact fun c n w y hrow hy => State.openRow_other w hrow hy
  case read =>
    intro id err r d y z hfind hread hy
    exact congrArg Host.Outcome.next ((s.whenOn_eq t (fun s => s.memReturn id err) hon).trans
      (State.memReturn_found (s := s.tick t) hfind hread hy))
  case block =>
    exact fun port n err q hq => ⟨fun d hcode => State.blockRead_good hq hcode, fun d hcode => State.blockRead_corrected hq hcode,
      fun hcode => State.blockRead_bad hq hcode⟩
  case ack =>
    intro id off data bad r y hfind hvoid hoff hlen hy
    exact (exec_memWriteAck t id data bad hon hoff).trans
      (congrArg _ (State.memAck_stores (s := s.tick t) hfind hvoid hlen hy))
  case void =>
    intro id off data bad r hfind hvoid
    exact congrArg Host.Outcome.next ((s.whenOn_eq t (fun s => s.memAck id (off % 64) data bad) hon).trans
      (State.memAck_void (s := s.tick t) hfind hvoid))

end Sys2Proof.Machine
end

section
/-!
SUPPORT. The event log and the trace (R568 to R570, R580 to R582). With it their obligation is settled.
-/

namespace Sys2Proof.Machine

section
variable {s : State} {e : LogEntry}

/-! ### Where an event is written (R569, R570) -/

theorem State.logNext_due {r : List LogEntry} {y : State} (hpend : s.sys.logPend = e :: r) (hdue : e.stamp + 10 * tickUs ≤ s.now)
    (hy : y = { s with sys := { s.sys with logPend := r } }) : s.logNext = y.logPut e := by
  subst hy
  unfold State.logNext
  rw [hpend]
  exact if_pos hdue

theorem State.logPut_keeper (himage : s.imageOn = false) (hroom : s.sys.logKeep.length < 256) :
    s.logPut e = { s with sys := { s.sys with logKeep := s.sys.logKeep ++ [e] } } := by
  unfold State.logPut
  rw [if_pos himage, if_pos hroom]

section
variable (himage : s.imageOn = true)
include himage

theorem State.logPut_overwrite (hmode : s.flag F.SYS_LOG_CTRL_MODE = true) : s.logPut e = s.logWrite e := by
  unfold State.logPut
  rw [if_neg (by simp [himage]), if_pos hmode]

variable (hmode : s.flag F.SYS_LOG_CTRL_MODE = false)
include hmode

theorem State.logPut_stop (hrun : s.sys.logDropRun = 0) : s.logPut e =
    if s.logUnread < 4096 then s.logWrite e else ({ s with sys := { s.sys with logDropRun := 1 } } : State).logDrop := by
  unfold State.logPut
  rw [if_neg (by simp [himage]), if_neg (ne_true_of_eq_false hmode), if_pos hrun]

/-- After a drop the overflow entry with the count comes first, once it and the entry fit. -/
theorem State.logPut_afterDrop (hrun : s.sys.logDropRun ≠ 0) {z : State} (hz : z = s.logWrite (overflowEntry e s.sys.logDropRun)) : s.logPut e =
    if s.logUnread < 4095 then ({ z with sys := { z.sys with logDropRun := 0 } } : State).logWrite e
    else ({ s with sys := { s.sys with logDropRun := s.sys.logDropRun + 1 } } : State).logDrop := by
  subst hz
  unfold State.logPut
  rw [if_neg (by simp [himage]), if_neg (ne_true_of_eq_false hmode), if_neg hrun]

end

/-! ### The trace (R580 to R582) -/

section
variable {v k : Nat}

theorem State.traceCtrl_locked (hlock : s.debugLocked = true) : s.traceCtrl v = s := if_pos hlock

variable (hlock : s.debugLocked = false) (hen : bitAt v 31 = true) (hk : k = bitsOf v 26 24)
include hlock hen hk

theorem State.traceCtrl_enable : s.traceCtrl v =
    if (decide (1 ≤ k ∧ k ≤ 6)) = true ∧ bitsOf v 15 0 < tapIndices k ∧ s.traceRingOk = true then
      (if s.flag F.DBG_TRACE_CTRL_EN then
          (((s.put F.DBG_TRACE_CTRL_EN 1).put F.DBG_TRACE_CTRL_KIND k).put F.DBG_TRACE_CTRL_DECIMATE (bitsOf v 23 16)).put
            F.DBG_TRACE_CTRL_INDEX (bitsOf v 15 0)
        else { ((((s.put F.DBG_TRACE_CTRL_EN 1).put F.DBG_TRACE_CTRL_KIND k).put F.DBG_TRACE_CTRL_DECIMATE (bitsOf v 23 16)).put
            F.DBG_TRACE_CTRL_INDEX (bitsOf v 15 0)) with dbg := {} }).traceShow
    else s.reservedWrite Reg.DBG_TRACE_CTRL v := by
  subst hk
  unfold State.traceCtrl
  dsimp only
  rw [if_neg (ne_true_of_eq_false hlock), if_pos hen]

theorem State.traceCtrl_refused (hbad : k = 0 ∨ 6 < k ∨ tapIndices k ≤ bitsOf v 15 0 ∨ s.traceRingOk = false) :
    s.traceCtrl v = s.reservedWrite Reg.DBG_TRACE_CTRL v := by
  rw [State.traceCtrl_enable hlock hen hk, if_neg]
  rintro ⟨hkind, hindex, hring⟩
  obtain ⟨hpos, hmax⟩ := of_decide_eq_true hkind
  rcases hbad with h | h | h | h
  · omega
  · omega
  · omega
  · simp [hring] at h

theorem State.traceCtrl_begins (hpos : 1 ≤ k) (hmax : k ≤ 6) (hindex : bitsOf v 15 0 < tapIndices k) (hring : s.traceRingOk = true)
    (hoff : s.flag F.DBG_TRACE_CTRL_EN = false) :
    s.traceCtrl v = ({ ((((s.put F.DBG_TRACE_CTRL_EN 1).put F.DBG_TRACE_CTRL_KIND k).put F.DBG_TRACE_CTRL_DECIMATE (bitsOf v 23 16)).put
      F.DBG_TRACE_CTRL_INDEX (bitsOf v 15 0)) with dbg := {} } : State).traceShow := by
  rw [State.traceCtrl_enable hlock hen hk, if_pos ⟨decide_eq_true ⟨hpos, hmax⟩, hindex, hring⟩, if_neg (ne_true_of_eq_false hoff)]

end

theorem State.traceRecord_written {k i h n : Nat} {b : List Nat} {y : State} (hlock : s.debugLocked = false)
    (hen : s.flag F.DBG_TRACE_CTRL_EN = true) (hk : s.get F.DBG_TRACE_CTRL_KIND = k) (hi : s.get F.DBG_TRACE_CTRL_INDEX = i)
    (hskip : s.dbg.skip = 0) (hlast : s.dbg.lastAt.any (fun a => decide (s.now < a + 8 * tickNs)) = false)
    (hn : n = s.get F.DBG_TRACE_SIZE_ENTRIES) (hroom : s.traceUnread + 1 < n) (hh : h = s.get F.DBG_TRACE_HEAD_HEAD)
    (hy : y = (s.store 13 (s.get F.DBG_TRACE_BASE_BASE * 32 + 32 * h) (leBytes 4 (s.short s.now) ++ [s.frac s.now, k] ++ leBytes 2 i ++
        leBytes 4 (s.epochAt (tapUnit k)) ++ leBytes 4 b.length ++ slice b 0 16)).put F.DBG_TRACE_HEAD_HEAD ((h + 1) % n)) :
    s.traceRecord k i b = ({ y with dbg := { skip := s.get F.DBG_TRACE_CTRL_DECIMATE, lastAt := some s.now } } : State).traceShow := by
  have hopen : ¬ (s.debugLocked = true ∨ s.flag F.DBG_TRACE_CTRL_EN = false ∨ s.get F.DBG_TRACE_CTRL_KIND ≠ k ∨ s.get F.DBG_TRACE_CTRL_INDEX ≠ i) := by
    simp [hlock, hen, hk, hi]
  subst hn hh hy
  unfold State.traceRecord
  rw [if_neg hopen, if_neg (by omega), if_neg (ne_true_of_eq_false hlast), if_neg (Nat.not_le.mpr hroom)]

end

/-! ### The commands -/

theorem exec_logTailWrite {s : State} (t : Nat) {v : Nat} (hd3 : s.hst.d3 = false) (hv : v < 2 ^ 32) :
    exec (.logTailWrite t v) s = .next ((s.tick t).logTailWrite v) := by
  simp only [exec, execLogTailWrite, s.whenBar_eq t _ hd3, Nat.mod_eq_of_lt hv]

theorem exec_dbgTraceEnable {s : State} (t : Nat) {v : Nat} (hd3 : s.hst.d3 = false) (hon : s.fieldOn = true) (hv : v < 2 ^ 32) :
    exec (.dbgTraceEnable t v) s = .next ((s.tick t).traceCtrl v) := by
  simp only [exec, execDbgTraceEnable, s.whenHost_eq t _ hon hd3, Nat.mod_eq_of_lt hv]

/-- Settles O58: an event that is due is put where the mode and the entries unread say, and a trace enable and record are their functions. -/
theorem eventLogAndTrace : Obligations.EventLogAndTrace := by
  rintro s x t rfl
  refine ⟨?log, ?tail, ?enable, ?record⟩
  case log =>
    intro e r y hpend hdue hy
    have hput : exec (.eventLogWrite t) s = .next (y.logPut e) :=
      congrArg Host.Outcome.next (State.logNext_due (s := s.tick t) hpend hdue hy)
    have hsame : y.imageOn = s.imageOn ∧ y.flag F.SYS_LOG_CTRL_MODE = s.flag F.SYS_LOG_CTRL_MODE ∧ y.logUnread = s.logUnread ∧
        y.sys.logDropRun = s.sys.logDropRun ∧ y.sys.logKeep = s.sys.logKeep := by
      subst hy
      exact ⟨rfl, rfl, rfl, rfl, rfl⟩
    obtain ⟨himg, hflag, hunread, hdrop, hkeep⟩ := hsame
    rw [← himg, ← hflag, ← hunread, ← hdrop, ← hkeep]
    refine ⟨fun himage hroom => ?_, fun himage hmode => ?_, fun himage hmode hrun hroom => ?_, fun himage hmode hrun hfull => ?_,
      fun z himage hmode hrun hroom hz => ?_, fun himage hmode hrun hfull => ?_⟩
    · exact hput.trans (congrArg _ (State.logPut_keeper himage hroom))
    · exact hput.trans (congrArg _ (State.logPut_overwrite himage hmode))
    · exact hput.trans (congrArg _ ((State.logPut_stop himage hmode hrun).trans (if_pos hroom)))
    · exact hput.trans (congrArg _ ((State.logPut_stop himage hmode hrun).trans (if_neg (Nat.not_lt.mpr hfull))))
    · exact hput.trans (congrArg _ ((State.logPut_afterDrop himage hmode hrun hz).trans (if_pos hroom)))
    · exact hput.trans (congrArg _ ((State.logPut_afterDrop himage hmode hrun rfl).trans (if_neg (Nat.not_lt.mpr hfull))))
  case tail =>
    rintro v y hd3 hv rfl
    exact exec_logTailWrite t hd3 hv
  case enable =>
    intro v k hd3 hon hv hk
    have hrun := exec_dbgTraceEnable t hd3 hon hv
    refine ⟨fun hlock => ?_, fun hlock hen hbad => ?_, fun hlock hen hpos hmax hindex hring hoff => ?_⟩
    · exact hrun.trans (congrArg _ (State.traceCtrl_locked (s := s.tick t) hlock))
    · exact hrun.trans (congrArg _ (State.traceCtrl_refused (s := s.tick t) hlock hen hk hbad))
    · exact hrun.trans (congrArg _ (State.traceCtrl_begins (s := s.tick t) hlock hen hk hpos hmax hindex hring hoff))
  case record =>
    intro k i b h n y hon hlock hen hk hi hskip hlast hn hroom hh hy
    exact congrArg Host.Outcome.next ((s.whenOn_eq t (fun s => s.traceRecord k i b) hon).trans
      (State.traceRecord_written (s := s.tick t) hlock hen hk hi hskip hlast hn hroom hh hy))

end Sys2Proof.Machine
end

section
/-!
SUPPORT. An EXPORT of rows without a byte (R564). With it the obligation on the ends of copies is refuted: the read counter is not touched where
nothing is read, while the obligation notes a read of no bytes for each row.
-/

namespace Sys2Proof.Machine

/-- An EXPORT of one row of 0 bytes, running. -/
def emptyExport : Desc := { slot := 0, stamp := 0, bytes := ((List.replicate 64 0).set 0 7).set 0x1C 1, st := .running }

/-- The reset state with the field die on, an empty EXPORT running on ring 0, and the count 0 of memory reads written out. -/
def emptyExportState : State :=
  let s := State.reset.put F.SYS_STATUS_FIELD_ON 1
  { s with
    cnt := [(Reg.MEM_SNAP_READ, 0)]
    hst := { s.hst with rings := s.hst.rings.set 0 { taken := [emptyExport] }, copies := [(0, 0)] } }

/-- A counter is written out in the list of counters. -/
def countListed (reg : Nat) : Out → Bool
  | .next s => s.cnt.any (fun q => q.1 == reg)
  | _ => false

theorem emptyExportState_runs : emptyExportState.fieldOn = true ∧ emptyExportState.descAt 0 0 = some emptyExport ∧
    emptyExportState.hst.copies.contains (0, 0) = true := by decide +kernel

theorem emptyExport_copy : copyOf emptyExport.bytes = ⟨0, 0, 0, 1, 0, 0⟩ := by decide +kernel

/-- The model ends the EXPORT and leaves the count of reads as it is listed. -/
theorem emptyExport_model : countListed Reg.MEM_SNAP_READ (exec (.exportComplete 0 0 0) emptyExportState) = true := by decide +kernel

/-- A read of no bytes adds 0 to the count of reads, which is then listed no more. -/
def emptyExportClaim (x : State) : State :=
  let y := (x.count Reg.HST_SNAP_EXPORT 0).noteReads 0 ((List.range 1).map (fun i => (0 + i * 0, 0)))
  ({ y with hst := { y.hst with
    copies := y.hst.copies.erase (0, 0)
    hostOut := [⟨0, []⟩].reverse ++ y.hst.hostOut } } : State).endDesc 0 0 0 (copyBody 0 (x.short x.now) 0 0)

theorem emptyExport_claim : countListed Reg.MEM_SNAP_READ (.next (emptyExportClaim (emptyExportState.tick 0))) = false := by decide +kernel

/-- Refutes O54: the last clause does not ask that the EXPORT passed its checks, and for a row of 0 bytes it counts reads that the model does
not make; in a state that lists a count of 0 the two sides differ. -/
theorem not_copiesStartAndEnd : ¬ Obligations.CopiesStartAndEnd := by
  intro h
  obtain ⟨hon, hdesc, hrun⟩ := emptyExportState_runs
  obtain ⟨-, -, -, -, -, hexport⟩ := h emptyExportState _ 0 0 hon rfl
  have hclaim : exec (.exportComplete 0 0 0) emptyExportState = .next (emptyExportClaim (emptyExportState.tick 0)) :=
    hexport 0 emptyExport ⟨0, 0, 0, 1, 0, 0⟩ 0 [⟨0, []⟩] _ hdesc hrun (by decide) emptyExport_copy.symm rfl rfl rfl rfl
  have hmodel := emptyExport_model
  rw [hclaim, emptyExport_claim] at hmodel
  cases hmodel

end Sys2Proof.Machine
end

section
/-!
SUPPORT. Rings, doorbells and the fetch of descriptors (R556 to R561). With it their obligation is settled.
-/

namespace Sys2Proof.Machine

section
variable {s : State} {w : Nat}

/-! ### ENABLE (R556, R561) -/

theorem State.ringEnable_good (hst : (s.ring w).st = .disabled) (hconfig : s.ringConfigOk w = true) :
    s.ringEnable w = (((((s.put (F.HST_RING_CTRL_ENABLE.nth w) 1).put (F.HST_WRING_TAIL_TAIL.nth w) 0).put (F.HST_CRING_HEAD_HEAD.nth w) 0).put
      (F.HST_CRING_HEAD_PHASE.nth w) 1).onRing w (fun r => { next := r.next })).setRingSt w .running := by
  unfold State.ringEnable
  rw [if_pos hst]
  exact if_pos hconfig

theorem State.ringEnable_bad (hst : (s.ring w).st = .disabled) (hconfig : s.ringConfigOk w = false) :
    s.ringEnable w = s.ringFault 0x0210 w := by
  unfold State.ringEnable
  rw [if_pos hst]
  exact if_neg (ne_true_of_eq_false hconfig)

theorem State.ringDisable_drains (hst : (s.ring w).st = .running ∨ (s.ring w).st = .stalled) :
    s.ringDisable w = (((s.countStall w).put (F.HST_RING_CTRL_ENABLE.nth w) 0).setRingSt w .draining).settleRing w := if_pos hst

/-! ### Doorbells (R557, R561) -/

theorem State.workDoorbell_fault {v : Nat}
    (hbad : s.get (F.HST_WRING_SIZE_ENTRIES.nth w) ≤ v ∨ ((s.ring w).st ≠ .running ∧ (s.ring w).st ≠ .stalled)) :
    s.workDoorbell w v = s.ringFault 0x0211 w := by
  refine if_neg ?_
  rintro ⟨hv, hst⟩
  exact hbad.elim (Nat.not_le.mpr hv) (fun hne => hst.elim hne.1 hne.2)

theorem State.workDoorbell_covers {v n : Nat} {cov : List (Nat × Nat)} (hn : n = s.get (F.HST_WRING_SIZE_ENTRIES.nth w)) (hv : v < n)
    (hst : (s.ring w).st = .running ∨ (s.ring w).st = .stalled)
    (hcov : cov = (slotsTo (s.get (F.HST_WRING_TAIL_TAIL.nth w)) v n).map (fun k =>
      (k, (((s.ring w).avail.find? (fun p => p.1 == k)).map (·.2)).getD s.now))) :
    s.workDoorbell w v = (s.onRing w (fun r => { r with workHead := v, avail := cov })).fetchAll := by
  subst hn hcov
  exact if_pos ⟨hv, hst⟩

/-- The entries that the next descriptor of a ring reserves, 0 with none waiting. -/
def State.nextNeed (s : State) (w : Nat) : Nat :=
  match (s.ring w).avail with
  | [] => 0
  | (slot, _) :: _ => if s.readPoison (s.get (F.HST_WRING_BASE_BASE.nth w) * 64 + 64 * slot) 64 then 1
    else resvOf (s.read (s.get (F.HST_WRING_BASE_BASE.nth w) * 64 + 64 * slot) 64)

/-- A CPL_TAIL in range is taken over, and resumes the ring where it was stalled and the next descriptor fits. -/
theorem State.cplDoorbell_taken {v : Nat} {y : State} (hv : v < s.get (F.HST_CRING_SIZE_ENTRIES.nth w))
    (hst : (s.ring w).st = .running ∨ (s.ring w).st = .stalled) (hy : y = s.onRing w (fun r => { r with cplTail := v })) :
    s.cplDoorbell w v = if (s.ring w).st = .stalled ∧ y.nextNeed w ≤ y.freeEntries w then ((y.countStall w).setRingSt w .running).fetchAll
      else y := by
  subst hy
  exact if_pos ⟨hv, hst⟩

theorem State.countStall_stalled (hst : (s.ring w).st = .stalled) :
    s.countStall w = (s.count Reg.HST_SNAP_STALLED_US ((s.now - (s.ring w).stallAt) / tickUs)).onRing w (fun r => { r with
      stallAt := r.stallAt + (s.now - (s.ring w).stallAt) / tickUs * tickUs }) := if_pos hst

/-! ### The fetch (R558, R560, R561) -/

section
variable {slot stamp need : Nat} {rest : List (Nat × Nat)} {b : List Nat} (havail : (s.ring w).avail = (slot, stamp) :: rest)
  (hclean : s.readPoison (s.get (F.HST_WRING_BASE_BASE.nth w) * 64 + 64 * slot) 64 = false)
  (hb : b = s.read (s.get (F.HST_WRING_BASE_BASE.nth w) * 64 + 64 * slot) 64) (hneed : need = resvOf b)
include havail hclean hb hneed

theorem State.takeOne_stalls (hfull : s.freeEntries w < need) :
    s.takeOne w = (s.setRingSt w .stalled).onRing w (fun r => { r with stallAt := s.now }) := by
  subst hb hneed
  unfold State.takeOne
  rw [havail]
  dsimp only
  rw [hclean]
  exact if_pos hfull

theorem State.takeOne_takes (hroom : need ≤ s.freeEntries w) (hform : headerOk b = true) :
    s.takeOne w = (((((s.put (F.HST_WRING_TAIL_TAIL.nth w) ((slot + 1) % max (s.get (F.HST_WRING_SIZE_ENTRIES.nth w)) 1)).count
        Reg.HST_SNAP_DESC 1).onRing w (fun r => { r with
          avail := rest
          taken := r.taken ++ [{ slot := slot, num := (s.ring w).next, bytes := b, stamp := stamp, resv := need }]
          next := r.next + 1 })).noteRead 13 (s.get (F.HST_WRING_BASE_BASE.nth w) * 64 + 64 * slot) 64).settleRing w) := by
  subst hb hneed
  unfold State.takeOne
  rw [havail]
  dsimp only
  rw [hclean]
  simp only [Bool.false_eq_true, if_false, if_neg (Nat.not_lt.mpr hroom), hform, if_true]

end

theorem State.fetchMany_fetches (n : Nat) {k l : Nat} (hsome : s.fetchChoice = some (k, l)) : s.fetchMany (n + 1) = (s.fetchOne k l).fetchMany n := by
  rw [State.fetchMany, hsome]

theorem State.nopDesc_good {d : Desc} (hdesc : s.nextDesc w 6 = some d) (hzero : (d.bytes.drop 8).all (fun b => b == 0) = true) :
    s.nopDesc w = s.endDesc w d.num 0 (leBytes 2 0 ++ List.replicate 22 0) := by
  unfold State.nopDesc
  rw [hdesc]
  dsimp only
  rw [hzero]
  rfl

end

/-! ### The commands -/

/-- A command of a ring below 64, at a tick with the field die on and the device out of D3. -/
theorem State.whenHost_ring {s : State} (t : Nat) (f : State → State) {w : Nat} (hon : s.fieldOn = true) (hd3 : s.hst.d3 = false) (hw : w < 64) :
    s.whenHost t (fun s => if w < 64 then f s else s) = f (s.tick t) := by
  rw [s.whenHost_eq t _ hon hd3, if_pos hw]

/-- Settles O53: each ring command is its function of the ring at the tick, in the case that its clause names. -/
theorem ringsAndDescriptors : Obligations.RingsAndDescriptors := by
  rintro s x t w hon hd3 rfl hw
  have hhost (f : State → State) := s.whenHost_ring t f hon hd3 hw
  refine ⟨?enable, ?refused, ?disable, ?fault, ?covers, ?take, ?resume, ?stall, ?none, ?some, ?tail, ?nop⟩
  case enable =>
    intro hst hconfig
    exact congrArg Host.Outcome.next ((hhost _).trans (State.ringEnable_good (s := s.tick t) hst hconfig))
  case refused =>
    intro hst hconfig
    exact congrArg Host.Outcome.next ((hhost _).trans (State.ringEnable_bad (s := s.tick t) hst hconfig))
  case disable =>
    intro hst
    exact congrArg Host.Outcome.next ((hhost _).trans (State.ringDisable_drains (s := s.tick t) hst))
  case fault =>
    intro v hbad
    exact congrArg Host.Outcome.next ((hhost _).trans (State.workDoorbell_fault (s := s.tick t) hbad))
  case covers =>
    intro v n cov hn hv hst hcov
    exact congrArg Host.Outcome.next ((hhost _).trans (State.workDoorbell_covers (s := s.tick t) hn hv hst hcov))
  case take =>
    intro slot stamp rest b need havail _ hclean hb hneed
    exact ⟨State.takeOne_stalls havail hclean hb hneed, State.takeOne_takes havail hclean hb hneed⟩
  case resume =>
    intro v y need hv hst hy hneed hroom
    have hfits : y.nextNeed w ≤ y.freeEntries w := hneed.symm.trans_le hroom
    exact congrArg Host.Outcome.next ((hhost _).trans ((State.cplDoorbell_taken (s := s.tick t) hv (.inr hst) hy).trans (if_pos ⟨hst, hfits⟩)))
  case stall => exact fun hst => State.countStall_stalled (s := s.tick t) hst
  case none => exact s.fetchMany_none 1
  case some => exact fun l k hsome => State.fetchMany_fetches 0 hsome
  case tail =>
    intro v hv hst
    have hgoes : ¬ ((s.ring w).st = .stalled ∧ ((s.tick t).onRing w (fun r => { r with cplTail := v })).nextNeed w ≤
        ((s.tick t).onRing w (fun r => { r with cplTail := v })).freeEntries w) := by simp [hst]
    exact congrArg Host.Outcome.next ((hhost _).trans ((State.cplDoorbell_taken (s := s.tick t) hv (.inl hst) rfl).trans (if_neg hgoes)))
  case nop =>
    intro d hdesc hzero
    exact congrArg Host.Outcome.next ((if_pos hon).trans (State.nopDesc_good (s := s.tick t) hdesc hzero))

end Sys2Proof.Machine
end

section
/-!
SUPPORT. The firmware bank and the watchdogs (R583 to R589). With it their obligation is settled.
-/

namespace Sys2Proof.Machine

section
variable {s : State}

/-! ### Loading firmware (R583 to R585) -/

theorem State.fwLoad_untrained (htrain : s.trained = false) : s.fwLoad = s := if_pos htrain

theorem State.fwLoad_busy (htrain : s.trained = true) (hbusy : s.flag F.SYS_FW_STATUS_BUSY = true) : s.fwLoad = s.event 0x0164 0 0 0 := by
  unfold State.fwLoad
  rw [if_neg (by simp [htrain]), if_pos hbusy]

theorem State.fwLoad_copies (htrain : s.trained = true) (hbusy : s.flag F.SYS_FW_STATUS_BUSY = false) {y : State}
    (hy : y = s.noteRead 15 (s.get F.SYS_FW_ADDR_ADDR * 4096) (s.get F.SYS_FW_LEN_LEN)) :
    s.fwLoad = ({ y with fw := { y.fw with
      load := some (s.read (s.get F.SYS_FW_ADDR_ADDR * 4096) (s.get F.SYS_FW_LEN_LEN)) } } : State).put F.SYS_FW_STATUS_BUSY 1 := by
  subst hy
  unfold State.fwLoad
  rw [if_neg (by simp [htrain]), if_neg (ne_true_of_eq_false hbusy)]

section
variable {b : List Nat} {sg tg : Bool} (hload : s.fw.load = some b)
include hload

theorem State.fwChecked_refused {c : Nat} (hc : c = s.fwCode b sg tg) (hbad : c ≠ 0) : s.fwChecked sg tg = s.fwRefuse c := by
  subst hc
  unfold State.fwChecked
  rw [hload]
  exact if_pos hbad

/-- Firmware that passes its checks is put into the bank that does not run, to run at once where no firmware runs. -/
theorem State.fwChecked_passes {y : State} (hc : s.fwCode b sg tg = 0)
    (hy : y = { s with fw := { s.fw with
      load := none
      banks := modAt s.fw.banks (1 - s.fw.cur) (fun _ => { bytes := b, serial := fieldLE b 8 4, digest := Config.sha384 b }) } }) :
    s.fwChecked sg tg = if y.flag F.SYS_FW_STATUS_RUNNING then { y with fw := { y.fw with ready := true } } else y.fwRun := by
  subst hy
  unfold State.fwChecked
  rw [hload]
  exact if_neg (not_not_intro hc)

end

theorem State.fwSwitch_ready (hready : s.fw.ready = true) : s.fwSwitch = s.fwRun := if_pos hready

/-! ### Watchdogs (R588, R589) -/

theorem State.coreWatchdog_good (hrun : s.flag F.SYS_FW_STATUS_RUNNING = true) : s.coreWatchdog true = s.event 0x1720 0 0 0 := by
  unfold State.coreWatchdog
  rw [if_neg (by simp [hrun])]
  rfl

theorem State.coreWatchdog_bad (hrun : s.flag F.SYS_FW_STATUS_RUNNING = true) :
    s.coreWatchdog false = (s.put F.SYS_FW_STATUS_RUNNING 0).raiseFatal 5 0 := by
  unfold State.coreWatchdog
  rw [if_neg (by simp [hrun])]
  rfl

/-- A unit is hung: one of its queues waits as long as the watchdog allows, and nothing says why. -/
structure State.UnitHung (s : State) (u i ms : Nat) : Prop where
  limit : ms = s.get F.DMP_WDOG_UNIT_MS
  positive : ms ≠ 0
  resets : resettable.contains u = true
  waiting : s.tlt.queues.any (fun q => q.consUnit == u && q.waits && decide (q.frontSince + ms * tickMs ≤ s.now)) = true
  paced : assocGet u 0 s.tlt.paceLast = 0
  long : ms * tickMs ≤ s.watchedFor u i
  live : s.watchPaused u i = false
  running : s.flag F.SYS_FW_STATUS_RUNNING = true

theorem State.watchPaused_false {u i : Nat} (hhalt : s.instHalted u i = false) (hwait : s.unitWaits u i = false) (hwatch : s.watching = true) :
    s.watchPaused u i = false := by
  simp [State.watchPaused, hhalt, hwait, hwatch]

/-- A hung unit is logged, and reset unless it hung within the last second. -/
theorem State.unitWatchdog_hung {u i ms : Nat} {y : State} (h : s.UnitHung u i ms) (hy : y = s.event 0x1714 i u i) :
    s.unitWatchdog u i = if s.dmp.hung.any (fun q => q.1 == u && q.2.1 == i && decide (s.now < q.2.2 + tickS)) then y
      else ({ y with dmp := { y.dmp with
        hung := (u, i, s.now) :: y.dmp.hung.filter (fun q => !(q.1 == u && q.2.1 == i)) } } : State).resetUnit u := by
  obtain ⟨rfl, hpos, hreset, hwait, hpace, hlong, hlive, hrun⟩ := h
  subst hy
  unfold State.unitWatchdog
  refine if_neg ?_
  simp only [hpos, hreset, hwait, hpace, hlive, hrun, Nat.not_lt.mpr hlong, Bool.true_eq_false, Bool.false_eq_true, ne_eq, not_true, or_self,
    not_false_eq_true]

theorem State.tilthWatchdog_stuck {k : Nat} {q : TiltQueue} (hq : s.queue k = some q) (hwait : q.waits = true)
    (hhalt : s.unitHalted q.consUnit = false) (hstate : s.get F.DMP_STATUS_STATE = 0) (hswitch : s.sho.switching = false)
    (hlong : q.frontSince + s.get F.DMP_WDOG_TILTH_MS * tickMs ≤ s.now) : s.tilthWatchdog k = s.raiseFatal 1 k := by
  unfold State.tilthWatchdog
  rw [hq]
  exact if_pos ⟨hwait, hhalt, hstate, hswitch, hlong⟩

end

/-- Settles O59: each command is its function of the firmware and the watchdogs at the tick, in the case that its clause names. -/
theorem firmwareAndWatchdogs : Obligations.FirmwareAndWatchdogs := by
  rintro s x t rfl
  refine ⟨?load, ?untrained, ?busy, ?refused, ?passes, ?switch, ?core, ?unit, ?tilth, ?force⟩
  case load =>
    intro y hd3 hon htrain hbusy hy
    exact congrArg Host.Outcome.next ((s.whenHost_eq t _ hon hd3).trans (State.fwLoad_copies (s := s.tick t) htrain hbusy hy))
  case untrained =>
    intro hd3 hon htrain
    exact congrArg Host.Outcome.next ((s.whenHost_eq t _ hon hd3).trans (State.fwLoad_untrained (s := s.tick t) htrain))
  case busy =>
    intro hd3 hon htrain hbusy
    exact congrArg Host.Outcome.next ((s.whenHost_eq t _ hon hd3).trans (State.fwLoad_busy (s := s.tick t) htrain hbusy))
  case refused =>
    intro b sg tg c hload hc hbad
    exact congrArg Host.Outcome.next (State.fwChecked_refused (s := s.tick t) hload hc hbad)
  case passes =>
    intro b y hload hc hy
    have hrun := State.fwChecked_passes (s := s.tick t) hload hc hy
    have hflag : y.flag F.SYS_FW_STATUS_RUNNING = s.flag F.SYS_FW_STATUS_RUNNING := by rw [hy]; rfl
    rw [← hflag]
    exact ⟨fun hruns => congrArg Host.Outcome.next (hrun.trans (if_pos hruns)),
      fun hruns => congrArg Host.Outcome.next (hrun.trans (if_neg (ne_true_of_eq_false hruns)))⟩
  case switch =>
    rintro y hready rfl
    exact congrArg Host.Outcome.next (State.fwSwitch_ready (s := s.tick t) hready)
  case core =>
    exact fun hrun => ⟨congrArg Host.Outcome.next (State.coreWatchdog_good (s := s.tick t) hrun),
      congrArg Host.Outcome.next (State.coreWatchdog_bad (s := s.tick t) hrun)⟩
  case unit =>
    intro u i ms y hon hms hpos hreset hwait hpace hlong hhalt hwaits hwatch hrun hy
    have hhung : (s.tick t).UnitHung u i ms := ⟨hms, hpos, hreset, hwait, hpace, hlong,
      State.watchPaused_false (s := s.tick t) hhalt hwaits hwatch, hrun⟩
    have hdog := (s.whenOn_eq t (fun s => s.unitWatchdog u i) hon).trans (State.unitWatchdog_hung hhung hy)
    exact ⟨fun hagain => congrArg Host.Outcome.next (hdog.trans (if_pos hagain)),
      fun honce => congrArg Host.Outcome.next (hdog.trans (if_neg (ne_true_of_eq_false honce)))⟩
  case tilth =>
    intro k q hon hq hwait hhalt hstate hswitch hlong
    exact congrArg Host.Outcome.next ((s.whenOn_eq t (fun s => s.tilthWatchdog k) hon).trans
      (State.tilthWatchdog_stuck (s := s.tick t) hq hwait hhalt hstate hswitch hlong))
  case force => exact fun hd3 hon => congrArg Host.Outcome.next (s.whenHost_eq t State.forceFatal hon hd3)

end Sys2Proof.Machine
end

section
/-!
SUPPORT. Fatal causes, the dump and the restore (R589 to R598). With it their obligation is settled.
-/

namespace Sys2Proof.Machine

section
variable {s : State}

/-! ### Fatal causes (R589, R591) -/

/-- The oldest cause raised is taken. -/
theorem State.fatalFreeze_oldest {c d : Nat} {w : List (Nat × Nat)} (hraised : s.sys.fatal = (c, d) :: w) :
    s.fatalFreeze 0 0 = ({ s with sys := { s.sys with fatal := w } } : State).fatal c d := by
  unfold State.fatalFreeze
  rw [if_pos rfl, hraised]

/-- A cause that the DMP finds itself, cause 4 outside a load or overlay. -/
theorem State.fatalFreeze_found {c d : Nat} (hc : c = 2 ∨ c = 5 ∨ (c = 4 ∧ d = 0 ∧ s.structureBusy = false)) :
    s.fatalFreeze c d = s.fatal c d := by
  unfold State.fatalFreeze
  rcases hc with rfl | rfl | ⟨rfl, rfl, hbusy⟩
  · rfl
  · rfl
  · rw [if_neg (by decide), if_neg (by simp [hbusy])]
    rfl

section
variable {c d : Nat}

/-- During a freeze, but not while it restores, a cause is only logged and counted. -/
theorem State.fatal_again (hstate : s.get F.DMP_STATUS_STATE ≠ 0) (hrestore : s.get F.DMP_STATUS_STATE ≠ 4) :
    s.fatal c d = (s.event 0x1710 0 (c + 2 ^ 31) d).put F.DMP_COUNT_COUNT (sat32 (s.get F.DMP_COUNT_COUNT + 1)) := by
  unfold State.fatal
  rw [if_pos hstate]
  exact if_neg hrestore

/-- A cause other than a stuck queue freezes the device a tick later. -/
theorem State.fatal_freezes {w z : State} (hc : c ≠ 1) (hstate : s.get F.DMP_STATUS_STATE = 0)
    (hw : w = ((((((s.event 0x1710 0 c d).put F.DMP_STATUS_CAUSE c).put F.DMP_STATUS_STATE 1).put F.DMP_SEQ_DUMP_SEQ (s.operatingCells.getD 2 0 + 1)).put
        F.DMP_COUNT_COUNT (sat32 (s.get F.DMP_COUNT_COUNT + 1))).put F.CMT_STATUS_RECOVERING 1).put F.SYS_STATUS_RECOVERING 1)
    (hz : z = (({ w with
        now := w.now + 1
        dmp := { w.dmp with
          at_ := s.now
          fullAt := s.full s.now
          cause := c
          detail := d
          sealedNo := s.get F.CMT_EPOCH_SEALED_EPOCH
          retired := s.get F.CMT_EPOCH_RETIRED_EPOCH
          frame := s.frameNo
          stuck := []
          restored := false
          heldFrames := 0
          queues := s.tlt.queues
          waiting := s.cmt.waiting
          banks := s.slt.banks
          halted := (upFrom 1 24).filter s.unitHalted } } : State).cutReport.freezeUnits).commitsFreeze) :
    s.fatal c d = { z with dmp := { z.dmp with regs := z.regs } } := by
  subst hw hz
  unfold State.fatal
  rw [if_neg (not_not_intro hstate), if_neg hc]
  rfl

end

/-! ### Capture and summary (R592, R594 to R596) -/

section
variable {y : State} (hstate : s.get F.DMP_STATUS_STATE = 1) (hrun : s.flag F.SYS_FW_STATUS_RUNNING = true)
  (hy : y = { s with dmp := { s.dmp with header := s.dumpHeader false 0 } })
include hstate hrun

/-- Whether a capture may begin. -/
theorem State.capture_opens : ¬ (s.get F.DMP_STATUS_STATE ≠ 1 ∨ s.flag F.SYS_FW_STATUS_RUNNING = false) := by simp [hstate, hrun]

include hy

theorem State.captureStart_keeps (hkeep : s.flag F.DMP_CTRL_KEEP = true) (hvalid : s.flag F.DMP_STATUS_VALID = true) :
    s.captureStart = (y.event 0x1712 0 0 0).summaryStart := by
  subst hy
  unfold State.captureStart
  rw [if_neg (State.capture_opens hstate hrun)]
  exact if_pos ⟨hkeep, hvalid⟩

theorem State.captureStart_noRegion (hkeep : s.flag F.DMP_CTRL_KEEP = false) (hregion : s.region 5 = none) :
    s.captureStart = y.summaryStart := by
  subst hy
  unfold State.captureStart
  rw [if_neg (State.capture_opens hstate hrun)]
  dsimp only
  rw [if_neg (by simp [hkeep]), hregion]
  rfl

end

/-- With a region and no engine that has failed, the capture runs with its jobs in the firmware ring. -/
theorem State.captureStart_runs (hstate : s.get F.DMP_STATUS_STATE = 1) (hrun : s.flag F.SYS_FW_STATUS_RUNNING = true)
    (hkeep : s.flag F.DMP_CTRL_KEEP = false) (hregion : (s.region 5).isSome = true) (hfirst : s.engSt 0 ≠ 4) (hsecond : s.engSt 1 ≠ 4) :
    s.captureStart = ((s.put F.DMP_STATUS_STATE 2).pushFw (fwJob 1 0 0 (s.regionBase 5) (((s.region 5).map (·.size)).getD 0))).pushFw
      (fwJob 1 0 0 (s.regionBase 5) (((s.region 5).map (·.size)).getD 0)) := by
  have heng (e : Nat) : (s.put F.DMP_STATUS_STATE 2).engSt e = s.engSt e := by
    unfold State.engSt
    rw [State.get_put_apart _ _ _ _ (by decide), State.get_put_apart _ _ _ _ (by decide)]
  have hsome : ¬ (s.region 5).isNone = true := by simpa [Option.isSome_iff_ne_none] using hregion
  unfold State.captureStart
  rw [if_neg (State.capture_opens hstate hrun)]
  dsimp only
  rw [if_neg (by simp [hkeep]), if_neg hsome]
  simp only [List.foldl_cons, List.foldl_nil, heng, hfirst, hsecond, false_and, if_false]

theorem State.captureComplete_ends {scan : List (Bool × List Nat)} {b n : Nat} {ps : List (Nat × DumpSection × List Nat)} {h : List Nat} {y : State}
    (hstate : s.get F.DMP_STATUS_STATE = 2) (hb : b = s.regionBase 5) (hps : ps = placeSections 0x4000 (s.dumpSections scan))
    (hn : n = ps.foldl (fun _ q => q.1 + q.2.2.length) 0x4000) (hh : h = s.dumpHeader true n)
    (hy : y = ((ps.foldl (fun s q => s.store 14 (b + q.1) q.2.2) (s.endFw 1)).store 14 (b + 0x100) (ps.flatMap dumpEntry)).store 14 b h) :
    s.captureComplete scan =
      ((({ y with dmp := { y.dmp with header := h } } : State).put F.DMP_STATUS_VALID 1).event 0x1711 0 0 0).summaryStart := by
  rw [hy, hh, hn, hps, hb]
  unfold State.captureComplete
  rw [if_neg (not_not_intro hstate)]

theorem State.summaryCommitted_ends (hstate : s.get F.DMP_STATUS_STATE = 3) (hdone : s.nvs.queue.any (fun j => j.who == NvsWho.dump) = false) :
    s.summaryCommitted = (({ s with nvs := { s.nvs with failed := s.nvs.failed.filter (fun w => w != NvsWho.dump) } } : State).put
      F.DMP_STATUS_STATE 4).restoreStart :=
  if_neg (by simp [hstate, hdone])

/-! ### Restore (R597, R598) -/

section
variable (hstate : s.get F.DMP_STATUS_STATE = 4) (honce : s.dmp.restored = false)
  (htrain : (s.mc.chans.filter (fun c => c.lostInService)).any (fun c => c.st == .training) = false)
include hstate honce htrain

theorem State.restore_opens : ¬ (s.get F.DMP_STATUS_STATE ≠ 4 ∨ s.dmp.restored = true ∨
    (s.mc.chans.filter (fun c => c.lostInService)).any (fun c => c.st == .training) = true) :=
  not_or.mpr ⟨not_not_intro hstate, not_or.mpr ⟨ne_true_of_eq_false honce, ne_true_of_eq_false htrain⟩⟩

theorem State.restoreComplete_terminal (hlost : (s.mc.chans.filter (fun c => c.lostInService)).any (fun c => c.st == .failed) = true) :
    s.restoreComplete = (s.put F.DMP_STATUS_STATE 5).event 0x1715 0 s.dmp.cause s.dmp.detail := by
  unfold State.restoreComplete
  rw [if_neg (State.restore_opens hstate honce htrain)]
  exact if_pos hlost

theorem State.restoreComplete_restores {z : State} {im : Image}
    (hlost : (s.mc.chans.filter (fun c => c.lostInService)).any (fun c => c.st == .failed) = false)
    (hz : z = [0, 1].foldl (fun q e => if q.engSt e = 5 then q.engineStop e true else q) (frozenUnits.foldl State.resetUnit s))
    (happlied : z.dmp.applied = some im) :
    s.restoreComplete = { z with
      sho := { z.sho with run := some im }
      tlt := { z.tlt with
        queues := queuesOf im
        ports := [] }
      dmp := { z.dmp with restored := true } } := by
  have hrest : s.restoreComplete = { z with
      sho := { z.sho with run := z.dmp.applied }
      tlt := { z.tlt with
        queues := match z.dmp.applied with
          | some im => queuesOf im
          | none => []
        ports := [] }
      dmp := { z.dmp with restored := true } } := by
    subst hz
    unfold State.restoreComplete
    rw [if_neg (State.restore_opens hstate honce htrain)]
    exact if_neg (ne_true_of_eq_false hlost)
  rw [hrest, happlied]

end
end

/-- Settles O60: each command is its function of the DMP at the tick, in the case that its clause names. -/
theorem freezeDumpRestore : Obligations.FreezeDumpRestore := by
  rintro s x t hon rfl
  refine ⟨?oldest, ?again, ?freezes, ?capture, ?complete, ?summary, ?restore, ?release⟩
  case oldest =>
    intro c d w hraised
    exact congrArg Host.Outcome.next ((s.whenOn_eq t _ hon).trans (State.fatalFreeze_oldest (s := s.tick t) hraised))
  case again =>
    intro c d hc hstate hrestore
    have hlog := State.fatal_again (s := s.tick t) (c := c) (d := d) hstate hrestore
    rw [show (s.tick t).get F.DMP_COUNT_COUNT = s.get F.DMP_COUNT_COUNT from rfl] at hlog
    exact congrArg Host.Outcome.next ((s.whenOn_eq t _ hon).trans ((State.fatalFreeze_found (s := s.tick t) hc).trans hlog))
  case freezes =>
    intro c d w z hc hstate hw hz
    have hother : c ≠ 1 := by omega
    exact congrArg Host.Outcome.next ((s.whenOn_eq t _ hon).trans ((State.fatalFreeze_found (s := s.tick t) hc).trans
      (State.fatal_freezes (s := s.tick t) hother hstate hw hz)))
  case capture =>
    intro y hstate hrun hy
    refine ⟨fun hkeep hvalid => ?_, fun hkeep hregion => ?_, fun hkeep hregion hfirst hsecond => ?_⟩
    · exact congrArg Host.Outcome.next ((s.whenOn_eq t _ hon).trans
        (State.captureStart_keeps (s := s.tick t) hstate hrun hy hkeep hvalid))
    · have hnone : (s.tick t).region 5 = none := by rw [← hregion, hy]; rfl
      exact congrArg Host.Outcome.next ((s.whenOn_eq t _ hon).trans
        (State.captureStart_noRegion (s := s.tick t) hstate hrun hy hkeep hnone))
    · have hsome : ((s.tick t).region 5).isSome = true := by rw [← hregion, hy]; rfl
      exact congrArg Host.Outcome.next ((s.whenOn_eq t _ hon).trans
        (State.captureStart_runs (s := s.tick t) hstate hrun hkeep hsome hfirst hsecond))
  case complete =>
    intro scan b ps n h y hstate hb hps hn hh hy
    exact congrArg Host.Outcome.next ((s.whenOn_eq t _ hon).trans
      (State.captureComplete_ends (s := s.tick t) hstate hb hps hn hh hy))
  case summary =>
    intro hstate hdone
    exact congrArg Host.Outcome.next ((s.whenOn_eq t _ hon).trans (State.summaryCommitted_ends (s := s.tick t) hstate hdone))
  case restore =>
    intro hstate honce htrain
    refine ⟨fun hlost => ?_, fun z im hlost hz happlied => ?_⟩
    · exact congrArg Host.Outcome.next ((s.whenOn_eq t _ hon).trans
        (State.restoreComplete_terminal (s := s.tick t) hstate honce htrain hlost))
    · exact congrArg Host.Outcome.next ((s.whenOn_eq t _ hon).trans
        (State.restoreComplete_restores (s := s.tick t) hstate honce htrain hlost hz happlied))
  case release => exact fun hd3 => congrArg Host.Outcome.next (s.whenBar_eq t State.dumpRelease hd3)

end Sys2Proof.Machine
end

section
/-!
SUPPORT. Trips, RESTART, brown-out and loss of power (R501, R502, R522, R611). With it their obligation is settled.
-/

namespace Sys2Proof.Machine

section
variable {s : State}

/-! ### Trips (R501) -/

theorem State.orderlyOff_due {a : Nat} {y : State} (htrip : s.thm.tripAt = some a) (hdue : s.pnlSt = 0 ∨ a + 2 * tickS ≤ s.now)
    (hy : y = s.fieldOff) : s.orderlyOff = { y with pwr := { y.pwr with bootAt := none, early := false } } := by
  subst hy
  unfold State.orderlyOff
  rw [htrip]
  exact if_pos hdue

theorem State.orderlyTrip_eq (src : Nat) (r : Int) {y : State} (hy : y = (s.put F.THM_STATUS_ORDERLY 1).event 0x1413 0 src (argS r)) :
    s.orderlyTrip src r =
      ((((({ y with thm := { y.thm with tripAt := some s.now, changed := y.thm.changed.set 3 (some s.now) } } : State).discharge
        false).askVolts y.vMin).nvsStop).countOperating 3).lblFloat := by
  subst hy
  rfl

/-! ### RESTART (R502) -/

theorem State.restart_early {a : Nat} (htrip : s.thm.tripAt = some a) (hearly : s.now < a + 10 * tickS) :
    s.restart = s.event 0x1432 0 0 0 := by
  unfold State.restart
  rw [htrip]
  exact if_pos (decide_eq_true hearly)

section
variable (hlate : ∀ a, s.thm.tripAt = some a → a + 10 * tickS ≤ s.now)
include hlate

/-- From 10 s after the trip on, a reading may still block the restart. -/
theorem State.restart_blocked {q : Nat × Int} (hblock : s.restartBlock = some q) : s.restart = s.event 0x1432 0 q.1 (argS q.2) := by
  unfold State.restart
  cases htrip : s.thm.tripAt with
  | none =>
    rw [hblock]
    exact if_neg Bool.false_ne_true
  | some a =>
    rw [hblock]
    exact if_neg (by simpa using hlate a htrip)

section
variable (hblock : s.restartBlock = none)
include hblock

/-- With no reading to block it, the supply and the field die decide. -/
theorem State.restart_unblocked {y : State}
    (hy : y = ((((((s.put F.THM_STATUS_ORDERLY 0).put F.THM_STATUS_THROTTLE 0).put F.THM_STATUS_STACK_THROTTLE 0).put F.THM_STATUS_WARN 0).put
      F.THM_STATUS_DUTY 16).put F.THM_VCORE_REQ_MV 800).put F.THM_STATUS_FAST 0) :
    s.restart = if s.fieldOn ∨ s.pwr.pwrCut = true ∨ s.pwr.railsPg = false ∨ s.pwr.vcorePg = false then s.event 0x1432 0 0 0
      else { y with
        thm := { y.thm with tripAt := none, volts := 800, settling := false, stopped := false, changed := List.replicate 4 none }
        nvs := { y.nvs with stopped := false }
        pwr := { y.pwr with early := true, running := false, next := 0 } } := by
  subst hy
  unfold State.restart
  cases htrip : s.thm.tripAt with
  | none =>
    rw [hblock]
    exact if_neg Bool.false_ne_true
  | some a =>
    rw [hblock]
    exact if_neg (by simpa using hlate a htrip)

theorem State.restart_refused (hpower : s.fieldOn = true ∨ s.pwr.pwrCut = true ∨ s.pwr.railsPg = false ∨ s.pwr.vcorePg = false) :
    s.restart = s.event 0x1432 0 0 0 :=
  (State.restart_unblocked hlate hblock rfl).trans (if_pos hpower)

theorem State.restart_taken (hon : s.fieldOn = false) (hcut : s.pwr.pwrCut = false) (hrails : s.pwr.railsPg = true) (hcore : s.pwr.vcorePg = true)
    {y : State} (hy : y = ((((((s.put F.THM_STATUS_ORDERLY 0).put F.THM_STATUS_THROTTLE 0).put F.THM_STATUS_STACK_THROTTLE 0).put
      F.THM_STATUS_WARN 0).put F.THM_STATUS_DUTY 16).put F.THM_VCORE_REQ_MV 800).put F.THM_STATUS_FAST 0) :
    s.restart = { y with
      thm := { y.thm with tripAt := none, volts := 800, settling := false, stopped := false, changed := List.replicate 4 none }
      nvs := { y.nvs with stopped := false }
      pwr := { y.pwr with early := true, running := false, next := 0 } } :=
  (State.restart_unblocked hlate hblock hy).trans (if_neg (by simp [hon, hcut, hrails, hcore]))

end
end

/-! ### Supply (R522, R611) -/

theorem State.powerGoodLoss_rails (hon : s.fieldOn = true) {y z : State} (hy : y = { s with pwr := { s.pwr with railsPg := false } })
    (hz : z = ((((y.nvsStop).lblFloat).discharge true).fieldOff).put F.THM_VCORE_REQ_MV 0) :
    s.powerGoodLoss true = { z with pwr := { z.pwr with bootAt := none, early := false } } := by
  subst hy hz
  exact if_pos hon

theorem State.powerGoodLoss_core (hoff : s.fieldOn = false) :
    s.powerGoodLoss false = { s with pwr := { s.pwr with vcorePg := false } } := if_neg (ne_true_of_eq_false hoff)

end

/-- Settles O45: each command is its function of the supply at the tick, in the case that its clause names. -/
theorem tripsAndRestart : Obligations.TripsAndRestart := by
  rintro s x t rfl
  refine ⟨?critical, ?unpowered, ?orderlyOff, ?orderly, ?early, ?blocked, ?taken, ?refused, ?brownout, ?rails, ?core, ?loss⟩
  case critical =>
    rintro y hpower rfl
    exact congrArg Host.Outcome.next (if_pos hpower)
  case unpowered =>
    intro hon hdomain
    have hdown : ¬ (s.fieldOn = true ∨ s.domainOn 0 = true) := by simp [hon, hdomain]
    exact congrArg Host.Outcome.next (if_neg hdown)
  case orderlyOff =>
    intro a y htrip hdue hy
    exact congrArg Host.Outcome.next (State.orderlyOff_due (s := s.tick t) htrip hdue hy)
  case orderly => exact fun src r y hy => State.orderlyTrip_eq (s := s.tick t) src r hy
  case early =>
    intro a hd3 htrip hearly
    exact congrArg Host.Outcome.next ((s.whenBar_eq t _ hd3).trans (State.restart_early (s := s.tick t) htrip hearly))
  case blocked =>
    intro q hd3 hlate hblock
    exact congrArg Host.Outcome.next ((s.whenBar_eq t _ hd3).trans (State.restart_blocked (s := s.tick t) hlate hblock))
  case taken =>
    intro y hd3 hlate hblock hon hcut hrails hcore hy
    exact congrArg Host.Outcome.next ((s.whenBar_eq t _ hd3).trans
      (State.restart_taken (s := s.tick t) hlate hblock hon hcut hrails hcore hy))
  case refused =>
    intro hd3 hlate hblock hpower
    exact congrArg Host.Outcome.next ((s.whenBar_eq t _ hd3).trans (State.restart_refused (s := s.tick t) hlate hblock hpower))
  case brownout =>
    rintro y rfl
    rfl
  case rails =>
    intro y z hon hy hz
    exact congrArg Host.Outcome.next (State.powerGoodLoss_rails (s := s.tick t) hon hy hz)
  case core => exact fun hoff => congrArg Host.Outcome.next (State.powerGoodLoss_core (s := s.tick t) hoff)
  case loss =>
    rintro c rfl
    rfl

end Sys2Proof.Machine
end

section
/-!
SUPPORT. The security module's self-tests, timeouts, tamper and zeroisation (R535 to R538, R542). With it their obligation is settled.
-/

namespace Sys2Proof.Machine

section
variable {s : State}

/-! ### Self-tests (R535, R536) -/

theorem State.selfTestComplete_ends {pass : Bool} {y : State} (hst : s.sec.st = .selfTest) (hburn : s.sec.burning = false)
    (hy : y = (if pass then s.burnLeftovers.setSec .operational else ((s.burnLeftovers.setSec .error).endSession).event 0x1610 0 0 0)) :
    s.selfTestComplete pass = if y.sec.running = some 4 then y.secRespond 4 0 [if pass then 0 else 1] [] else y := by
  have hanswer : b2n (!pass) = if pass then 0 else 1 := by cases pass <;> rfl
  subst hy
  unfold State.selfTestComplete
  rw [if_pos ⟨hst, hburn⟩, hanswer]

/-- A request that comes during the burn of a zeroisation waits for its end. -/
theorem State.secCommand_waits {cmd : Nat} (auth : Bool) (tag : List Nat) (k : SecReq → State → Nat × List Nat × State)
    (hbusy : s.flag F.SEC_MB_CTRL_BUSY = false) (hcmd : s.secRequest.cmd = cmd) (hburn : s.sec.burning = true) :
    s.secCommand cmd auth tag k = s.noteRequest.secRun cmd := by
  have hnote : s.noteRequest.sec.burning = true := by
    rw [State.noteRequest, State.noteRead_sec, hburn]
  unfold State.secCommand
  rw [if_neg (ne_true_of_eq_false hbusy)]
  dsimp only
  rw [if_neg (not_not_intro hcmd), if_pos hnote]

/-! ### Tamper and zeroisation (R537, R538, R542) -/

theorem State.tamperFire_enabled {bit m : Nat} (hbit : bit < 4) (hmask : bitAt s.tamperMask bit = true) (hm : m = Nat.lor s.sec.tamper (2 ^ bit)) :
    s.tamperFire bit = ((({ s with sec := { s.sec with tamper := m } } : State).put F.SEC_STATUS_TAMPER m).event 0x1612 0 bit 0).zeroise := by
  subst hm
  exact if_pos ⟨hbit, hmask⟩

/-- With no command running, no field die and no firmware load to fail, zeroising is only the module's. -/
theorem State.zeroise_alone {y : State} (hrun : s.sec.running = none) (hon : s.fieldOn = false) (hload : s.fw.load = none) (hy : y = s.endSession) :
    s.zeroise = ((({ y with sec := { y.sec with
      nonces := []
      component := none
      burning := true } } : State).otpBurn 1).nvsWrite .security 2 0x0060 0 true true []).2 := by
  have hfirmware : s.failFirmware = s := if_neg (by simp [hload])
  subst hy
  unfold State.zeroise
  rw [hrun]
  dsimp only
  rw [if_neg (ne_true_of_eq_false hon), hfirmware]

theorem State.burnComplete_ends (hburn : s.sec.burning = true) {y : State}
    (hy : y = ((((s.otpBurn 2).otpBurn 3).otpBurn 4).otpBurn 5).otpBurn 6) :
    s.burnComplete = (({ y with sec := { y.sec with burning := false } } : State).setSec .selfTest).takeWaiting := by
  subst hy
  exact if_pos hburn

/-! ### The commands -/

theorem exec_conditionalTestFail (t : Nat) (hst : s.sec.st = .operational) :
    exec (.conditionalTestFail t) s = .next ((((s.tick t).setSec .error).endSession).event 0x1611 0 0 0) :=
  congrArg Host.Outcome.next (if_pos hst)

theorem exec_sessionTimeout (t : Nat) {u : Session} (hsession : s.sec.session = some u) (hlast : u.last + 60 * tickS ≤ max s.now t) :
    exec (.sessionTimeout t) s = .next (s.tick t).endSession := by
  unfold exec execSessionTimeout
  rw [hsession]
  exact congrArg Host.Outcome.next (if_pos hlast)

theorem exec_componentTimeout (t : Nat) {n a : Nat} {b : List Nat} (hcomponent : s.sec.component = some (n, b, a))
    (hold : a + 60 * tickS ≤ max s.now t) :
    exec (.componentTimeout t) s = .next { s.tick t with sec := { s.sec with component := none } } := by
  unfold exec execComponentTimeout
  rw [hcomponent]
  exact congrArg Host.Outcome.next (if_pos hold)

end

/-- Settles O50: each command is its function of the security module at the tick, in the case that its clause names. -/
theorem securityStates : Obligations.SecurityStates := by
  rintro s x t rfl
  refine ⟨?selfTest, ?waits, ?conditional, ?session, ?component, ?tamper, ?zeroise, ?burn⟩
  case selfTest =>
    intro pass y hst hburn hy
    exact congrArg Host.Outcome.next (State.selfTestComplete_ends (s := s.tick t) hst hburn hy)
  case waits =>
    intro hd3 hburn hbusy hcmd
    exact congrArg Host.Outcome.next ((s.whenBar_eq t _ hd3).trans
      (State.secCommand_waits (s := s.tick t) true [] _ hbusy hcmd hburn))
  case conditional => exact exec_conditionalTestFail t
  case session => exact fun u hsession hlast => exec_sessionTimeout t hsession hlast
  case component => exact fun n b a hcomponent hold => exec_componentTimeout t hcomponent hold
  case tamper =>
    intro bit m hbit hmask hm
    exact congrArg Host.Outcome.next (State.tamperFire_enabled (s := s.tick t) hbit hmask hm)
  case zeroise => exact fun y hrun hon hload hy => State.zeroise_alone hrun hon hload hy
  case burn =>
    intro y hburn hy
    exact congrArg Host.Outcome.next (State.burnComplete_ends (s := s.tick t) hburn hy)

end Sys2Proof.Machine
end

section
/-!
SUPPORT. A record write whose failed try opens the very sector it must stay out of (R517, R521, R522). With it the obligation on the store's
upkeep is refuted: the next try turns to the other open sector, while the obligation chooses the sector before the failed tries.
-/

namespace Sys2Proof.Machine

/-- A copy that must not land in sector 0, where the other copy is. -/
def turnedJob : NvsJob := ⟨.repair, 4, 0x8001, 1, 1, 0, [], some 0⟩

/-- A store with every sector erased, none open, and that copy to be written. -/
def turnedState : State := { State.reset with nvs := { State.reset.nvs with queue := [turnedJob] } }

/-- The store at the tick, the copy taken from the queue. -/
def turnedStart : State :=
  ({ turnedState.tick 0 with nvs := { turnedState.nvs with queue := [], flight := false } } : State).scrubEnd turnedJob

/-- The place that the obligation gives the copy after one failed try: chosen as before that try. -/
def turnedPlace : Nat × State :=
  (((turnedStart.failedTries turnedJob 1).placeIn (turnedJob.who == .collect) (turnedStart.jobSecond turnedJob) turnedJob.payload.length).getD
    (0, turnedStart))

theorem turnedPlace_some : (turnedStart.failedTries turnedJob 1).placeIn (turnedJob.who == .collect) (turnedStart.jobSecond turnedJob)
    turnedJob.payload.length = some turnedPlace := by
  have hsome : ((turnedStart.failedTries turnedJob 1).placeIn (turnedJob.who == .collect) (turnedStart.jobSecond turnedJob)
      turnedJob.payload.length).isSome = true := by decide +kernel
  obtain ⟨p, hp⟩ := Option.isSome_iff_exists.mp hsome
  rw [turnedPlace, hp, Option.getD_some]

/-- The copy appended where the obligation places it, counted and logged. -/
def turnedClaim : State :=
  let w := turnedPlace.2.appendRec turnedPlace.1 ⟨turnedPlace.1, turnedJob.bytes⟩
  (w.put F.NVS_COUNT_WRITES_COUNT (sat32 (w.get F.NVS_COUNT_WRITES_COUNT + 1))).event 0x1513 0 (turnedJob.typ * 65536 + turnedJob.key)
    (turnedPlace.1 * 2 ^ 24 + turnedJob.seq % 2 ^ 24)

/-- The sectors of the store's records, in append order. -/
def recordSectors : Out → List Nat
  | .next s => s.nvs.recs.map (·.sector)
  | _ => []

theorem turnedState_runs : turnedState.nvs.queue = [turnedJob] ∧ turnedState.nvs.stopped = false ∧ turnedClaim.nvs.collecting = none := by
  decide +kernel

/-- The model puts the failed try into sector 0 and the copy into sector 1. -/
theorem turned_model : recordSectors (exec (.recordWriteComplete 0 1) turnedState) = [0, 1] := by decide +kernel

theorem turned_claim : recordSectors (.next turnedClaim.nvsCollect) = [0, 0] := by decide +kernel

/-- Refutes O47: the sector of a write is chosen anew for each try, so a failed try that opens the sector to be avoided sends the copy to the
other open sector; the clause on the end of a write keeps the choice made before the first try. -/
theorem not_storeUpkeep : ¬ Obligations.StoreUpkeep := by
  intro h
  obtain ⟨hqueue, hrun, hcollect⟩ := turnedState_runs
  obtain ⟨-, -, -, -, hwrite, -⟩ := h turnedState _ 0 rfl
  obtain ⟨hplaced, -⟩ := hwrite turnedJob [] turnedStart hqueue hrun rfl
  obtain ⟨hrepair, -⟩ := hplaced 1 turnedPlace.1 turnedPlace.2 _ _ turnedClaim (by decide) turnedPlace_some rfl rfl hcollect
  have hmodel := turned_model
  rw [hrepair rfl rfl, turned_claim] at hmodel
  exact absurd hmodel (by decide)

end Sys2Proof.Machine
end
